-- ==== Sys2Proof/Word.lean ====
section
/-! DEFINITION. The plain word types of the device (R10, R11) and sparse tables keyed by a number. -/

namespace Sys2Proof

/-- One byte of any structure or memory. -/
abbrev Byte := BitVec 8

/-- A 32-bit control word, as doorbells and status-block fields are (R362 to R364). -/
abbrev Word32 := BitVec 32

/-- A 64-bit general register or instruction word of a thread (R128, R131). -/
abbrev Word := BitVec 64

/-- A sparse table: what is listed differs from the table's default, keys ascending. -/
abbrev Tab (α : Type) := List (Nat × α)

end Sys2Proof
end

