-- ==== Sys2Proof/Syntax.lean ====
section
/-! DEFINITION. The commands of the block: one constructor of `Instr` for each row of the operation and event table,
in the table's order, with the operands of the row. -/

namespace Sys2Proof

/-- The fields of a submission entry other than its opcode (R366); `args` are its bytes 0x10 to 0x3F. -/
structure Sub where
  flags : Nat
  tag : Nat
  target : Nat
  timeoutUs : Nat
  args : List Byte
deriving DecidableEq, Repr, Inhabited

/-- What the port's header ECC found in a CSI-2 packet header (R52, R55). -/
inductive HeaderEcc where
  | good
  | corrected
  | uncorrectable
deriving DecidableEq, Repr

/-- What write Link ECC finds in a host burst (R349). -/
inductive LinkEcc where
  | good
  | single
  | double
deriving DecidableEq, Repr

/-- A bank as the pins name it: bank group and bank (R336). -/
structure BankAddr where
  bg : Nat
  ba : Nat
deriving DecidableEq, Repr, Inhabited

/-- The host-port training steps of R333 and R354. -/
inductive Training where
  | zq
  | commandBus
  | wck2ck
  | readDq
  | wff
  | rff
deriving DecidableEq, Repr

/-- What HP_RESET_N does (R357): it goes low for good, it is released, or it is low for so many nanoseconds. -/
inductive ResetPin where
  | low
  | high
  | pulse (ns : Nat)
deriving DecidableEq, Repr

/-- The operations of class ALU (R131); the spec gives the class, not the codes of its members. -/
inductive AluOp where
  | add
  | sub
  | and
  | or
  | xor
  | shl
  | shrLogical
  | shrArith
  | cmpEq
  | cmpLt
  | cmpLtu
  | select
deriving DecidableEq, Repr

/-- The conditions of class BRANCH (R131). -/
inductive BranchCond where
  | always
  | eq
  | ne
  | lt
  | ltu
deriving DecidableEq, Repr

/-- The operations of class ATOMIC (R131). -/
inductive AtomicOp where
  | add
  | min
  | max
  | swap
  | compareSwap
deriving DecidableEq, Repr

/-- Who writes a word of the status block: a thread (by number) or the host port (R323). -/
inductive Writer where
  | thread (t : Nat)
  | hostPort
deriving DecidableEq, Repr

/-- What the gate filters of R57 and the checks of R58 see of a UDP frame. -/
structure UdpPart where
  ipVersion : Nat
  srcAddr : List Byte
  dstPort : Nat
  srcPort : Nat
  ipChecksumOk : Bool
  fragment : Bool
  udpChecksumZero : Bool
  udpChecksumOk : Bool
  udpPayload : List Byte
deriving DecidableEq, Repr, Inhabited

/-- A frame at one of the bridge's 5 ports (R425, R433, R435, R436); `length` takes in the FCS, `ptpEvent` is the messageType of a
PTP message. -/
structure BridgeFrame where
  inPort : Nat
  srcMac : Nat
  dstMac : Nat
  vlan : Option Nat
  pcp : Nat
  length : Nat
  ptpEvent : Option Nat
  protocol : Nat
  domainNumber : Nat
  correction : Int
  peerToPeer : Bool
  residence : Nat
  /-- cumulativeScaledRateOffset of an 802.1AS Sync (R425) -/
  rateOffset : Int := 0
  /-- checksum of a UDP transport, none where the sender left it out (R425) -/
  udpChecksum : Option Nat := none
  etherType : Nat := 0x0800
  fcsOk : Bool := true
  udp : Option UdpPart := none
deriving DecidableEq, Repr, Inhabited

/-- An Ethernet frame that reaches a MAC port as a sensor frame may (R57, R58). -/
structure SensorFrame where
  port : Nat
  fcsOk : Bool
  vlan : Option Nat
  ipVersion : Nat
  srcAddr : List Byte
  dstPort : Nat
  srcPort : Nat
  ipChecksumOk : Bool
  fragment : Bool
  udpChecksumZero : Bool
  udpChecksumOk : Bool
  udpPayload : List Byte
  /-- its Ethernet header, for the bridge where no gate matches it (R57, R436) -/
  l2 : BridgeFrame := default
deriving DecidableEq, Repr, Inhabited

/-- What one instruction of a Shepherd core does that the pair's coupling sees (R480): a load with the value that answers it
where the shared memory does not, a store, an interrupt taken before the next instruction, a completion or notification entry with its ring
address, a write to a safety-relevant configuration block (R481), or none of these. -/
inductive ShepOp where
  | load (addr value : BitVec 64)
  | store (addr data : BitVec 64)
  | interrupt
  | entry (addr : BitVec 64) (bytes : List Byte)
  | config (addr data : BitVec 64)
  | other
deriving DecidableEq, Repr, Inhabited

/-- One step of the leader or, where `follower`, of the follower. -/
structure ShepStep where
  follower : Bool
  op : ShepOp
deriving DecidableEq, Repr, Inhabited

/-- The header of an arriving Ndourn frame and what its checks see (R437, R440). -/
structure NdHdr where
  port : Nat
  fcsOk : Bool
  dstMac : Nat
  etherType : Nat
  crcOk : Bool
  version : Nat
  lengthOk : Bool
  srcDev : Nat
  dstDev : Nat
  session : Nat
  seq : Nat
  ackValid : Bool
  ack : Nat
  window : Nat
deriving DecidableEq, Repr, Inhabited

/-- The payload of WRITE, READ_REQ and READ_RESP frames (R439). -/
structure NdAccess where
  offset : Nat
  reqId : Nat
  count : Nat
  nsize : Nat
  poison : Nat
  data : List Byte
deriving DecidableEq, Repr, Inhabited

/-- The payload of a MESSAGE frame (R453). -/
structure NdMessage where
  ident : Nat
  atEnd : Bool
  broadcast : Bool
  origin : Nat
  bseq : Nat
  entry : List Byte
deriving DecidableEq, Repr, Inhabited

/-- The payload of an EVENT frame (R458). -/
structure NdEvent where
  kind : Nat
  domain : Nat
  origin : Nat
  eventId : Nat
  tag : Nat
  instant : Nat
deriving DecidableEq, Repr, Inhabited

/-- A PTP message that reaches the time unit: the fields that R418 to R432 judge. Times are in ns. `origin` is the origin time of a Sync or Follow_Up and the sending time of a Pdelay_Resp by its responder's clock;
`remote` is the master's receive time in a Delay_Resp and the responder's turnaround in a Pdelay_Resp; `rank` is an Announce's
place in the order of the best master clock algorithm, the better the lower. -/
structure PtpMsg where
  port : Nat
  protocol : Nat
  domainNumber : Nat
  sequenceId : Nat
  sourcePort : Nat
  twoStep : Bool
  correction : Int
  origin : Nat
  remote : Int
  logInterval : Int
  qualified : Bool
  rank : Nat
  ptpTimescale : Bool
  rateRatio : Int
deriving DecidableEq, Repr, Inhabited

/-- What a start sequence of the ROM finds (R583 to R587): the sampled BOOT_SEL, the start-up test items that fail and
the physical folds that fail item 1. -/
structure StartUp where
  bootSel : Bool
  failedItems : List Nat
  failedFolds : List Nat
  failedInterfaces : List Nat
deriving DecidableEq, Repr, Inhabited

/-- A write of a channel's window buffer by its place, and how many of its transfers meet an EDC mismatch (R183). -/
structure WindowLand where
  place : Nat
  edc : Nat
deriving DecidableEq, Repr, Inhabited

/-- A training step, and the burst that WFF brings (R354). -/
structure TrainStep where
  kind : Training
  data : List Byte
deriving DecidableEq, Repr

/-- The offset of a LOAD (R131), and how many transfers of its line meet an EDC mismatch (R183). -/
structure LoadOff where
  off : Int
  edc : Nat
deriving DecidableEq, Repr, Inhabited

/-- The engine whose job ends, and the hold cycles of its conflicts with other scheduled ports (R172). -/
structure JobEnd where
  eng : Nat
  conflicts : Nat
deriving DecidableEq, Repr, Inhabited

/-- The drover whose transfer ends, and the destination lines whose assembly met a parity error (R188). -/
structure DroverEnd where
  drover : Nat
  parity : List Nat
deriving DecidableEq, Repr, Inhabited

/-- The virtual channel of a Line Start or Line End packet, and the outcome of its header check (R52, R55). -/
structure MarkerHeader where
  vc : Nat
  ecc : HeaderEcc
deriving DecidableEq, Repr

/-- What the Shepherd pair reports at a checkpoint: words of its shared memory that were upset, each with whether two bits of it are now
wrong, the steps of both cores since the last checkpoint and their register states (R480, R481, R485). -/
structure PairReport where
  upsets : List (BitVec 64 × Bool)
  steps : List ShepStep
  lead : List (BitVec 64)
  follow : List (BitVec 64)
deriving DecidableEq, Repr, Inhabited

/-- What a block finds by checks of its own that no other command shows (R477, R500): parity of a flit header at a fold's router port, the
residue check of a fold's thread unit, address parity of one of its drovers, and whether the collector's duplicated machines agree. -/
inductive Finding where
  | flitParity (p dest : Nat)
  | residue (p : Nat)
  | droverParity (p addr : Nat)
  | copies (agree : Bool)
deriving DecidableEq, Repr

/-- What reaches the collector in one cycle (R504, R519): what blocks have found, the sources whose messages arrive, and whether the
messages find its queue full or come with a parity error. -/
structure Delivery where
  found : List Finding
  sources : List Nat
  full : Bool
  garbled : Bool
deriving DecidableEq, Repr, Inhabited

/-- The commands, in the order of the table. Mailbox commands carry the queue their entry was taken from and the entry. -/
inductive Instr where
  | createQueue (q : Nat) (e : Sub)
  | deleteQueue (q : Nat) (e : Sub)
  | abort (q : Nat) (e : Sub)
  | deviceInfo (q : Nat) (e : Sub)
  | irqDest (q : Nat) (e : Sub)
  | funcState (q : Nat) (e : Sub)
  | power (q : Nat) (e : Sub)
  | load (q : Nat) (e : Sub)
  | unload (q : Nat) (e : Sub)
  | start (q : Nat) (e : Sub)
  | stop (q : Nat) (e : Sub)
  | invoke (q : Nat) (e : Sub)
  | firmwareStage (q : Nat) (e : Sub)
  | gateConfigure (q : Nat) (e : Sub)
  | gateSet (q : Nat) (e : Sub)
  | gateStart (q : Nat) (e : Sub)
  | gateStop (q : Nat) (e : Sub)
  | gateRelease (q : Nat) (e : Sub)
  | gateFeed (q : Nat) (e : Sub)
  | gateMap (q : Nat) (e : Sub)
  | portConfigure (q : Nat) (e : Sub)
  | fsetConfigure (q : Nat) (e : Sub)
  | fsetHold (q : Nat) (e : Sub)
  | windowMap (q : Nat) (e : Sub)
  | gateTableLoad (q : Nat) (e : Sub)
  | gateTableSwitch (q : Nat) (e : Sub)
  | tableLoad (q : Nat) (e : Sub)
  | tableSwitch (q : Nat) (e : Sub)
  | domainConfigure (q : Nat) (e : Sub)
  | domainStart (q : Nat) (e : Sub)
  | domainStop (q : Nat) (e : Sub)
  | domainRelease (q : Nat) (e : Sub)
  | timeSelect (q : Nat) (e : Sub)
  | portDelay (q : Nat) (e : Sub)
  | timeRead (q : Nat) (e : Sub)
  | trigConfigure (q : Nat) (e : Sub)
  | trigStart (q : Nat) (e : Sub)
  | trigStop (q : Nat) (e : Sub)
  | trigRelease (q : Nat) (e : Sub)
  | flockIdentity (q : Nat) (e : Sub)
  | flockEvent (q : Nat) (e : Sub)
  | ethPort (q : Nat) (e : Sub)
  | peerConfigure (q : Nat) (e : Sub)
  | peerStart (q : Nat) (e : Sub)
  | peerStop (q : Nat) (e : Sub)
  | peerRelease (q : Nat) (e : Sub)
  | stileConfigure (q : Nat) (e : Sub)
  | stileStart (q : Nat) (e : Sub)
  | stileStop (q : Nat) (e : Sub)
  | stileRelease (q : Nat) (e : Sub)
  | selftestPlan (q : Nat) (e : Sub)
  | agreeConfigure (q : Nat) (e : Sub)
  | spareTest (q : Nat) (e : Sub)
  | severitySet (q : Nat) (e : Sub)
  | severityRead (q : Nat) (e : Sub)
  | stickyRead (q : Nat) (e : Sub)
  | stickyClear (q : Nat) (e : Sub)
  | logConfigure (q : Nat) (e : Sub)
  | faultInject (q : Nat) (e : Sub)
  | attest (q : Nat) (e : Sub)
  | lifecycleSet (q : Nat) (e : Sub)
  | lifecycleReset
  | debugChallenge (q : Nat) (e : Sub)
  | debugUnlock (q : Nat) (e : Sub)
  | debugAccessGrant
  | debugLock (q : Nat) (e : Sub)
  | debugSessionExpiry
  | commandTimeout (q tag : Nat)
  | hpcSqTail (q : Nat) (v : Word32)
  | hpcCqHead (q : Nat) (v : Word32)
  | adminReset (v : Word32)
  | hpcHostAlive (v : Word32)
  | hpcFsetDone (f : Nat) (w : Writer) (v : Word32)
  | statusBlockWrite (offset : Nat) (data : List Byte)
  | submissionTake
  | coalesceTimeout (q : Nat)
  | irqMessageResend (q : Nat)
  | hpcHeartbeat
  | hostSilentCheck
  | firmwareReady
  | activate (ch : Nat) (b : BankAddr) (row : Nat)
  | pageFetchComplete (ch bank : Nat)
  | precharge (ch : Nat) (b : BankAddr)
  | hostRead (ch : Nat) (b : BankAddr) (page len : Nat) (wckOk : Bool)
  | hostWrite (ch : Nat) (b : BankAddr) (page : Nat) (data : List Byte) (mask : List Bool) (ecc : LinkEcc) (wckOk : Bool)
  | hostPenWriteLand (i : Nat)
  | windowWriteLand (ch : Nat) (x : WindowLand)
  | modeRegisterWrite (ch mr : Nat) (v : Byte)
  | modeRegisterRead (ch mr : Nat)
  | refresh (ch : Nat)
  | trainingStep (ch : Nat) (k : TrainStep)
  | powerDownEntry (ch : Nat) (selfRefresh : Bool)
  | deepSleepEntry (ch : Nat)
  | deepSleepExit (ch : Nat)
  | hpResetN (p : ResetPin)
  | ckCheck (ch kHz : Nat)
  | ckTimeout (ch : Nat)
  | alu (t : Nat) (op : AluOp) (rd ra rb rc : Nat)
  | mul (t rd ra rb : Nat)
  | branch (t : Nat) (c : BranchCond) (ra rb target : Nat)
  | threadLoad (t size rd ra : Nat) (x : LoadOff)
  | threadStore (t size ra : Nat) (off : Int) (rs : Nat)
  | threadAtomic (t : Nat) (op : AtomicOp) (size rd ra rb rc : Nat)
  | fence (t : Nat)
  | issue (t engine rd ra : Nat)
  | group (t : Nat) (members : List (Nat × Nat × Nat))
  | waitEngine (t : Nat)
  | waitQueue (t : Nat)
  | waitCredit (t : Nat)
  | waitSlotFull (t : Nat)
  | waitSlotEmpty (t : Nat)
  | waitHurdle (t : Nat)
  | waitTime (t : Nat)
  | waitQstat (t : Nat)
  | postQueue (t : Nat)
  | postQueueEnd (t : Nat)
  | postMarkFull (t : Nat)
  | postMarkEmpty (t : Nat)
  | postArrive (t : Nat)
  | time (t rd dom : Nat)
  | endThread (t : Nat)
  | illegalInstruction (t : Nat)
  | waitDeadline (t : Nat)
  | waitTimeout (t : Nat)
  | timeWaitExpiry (t : Nat)
  | narrowStoreMerge (i : Nat)
  | queueEntryArrival (i : Nat)
  | raceReleaseEntry (i : Nat)
  | slotMarkArrival (i : Nat)
  | slotReaderTimeout (ident reader : Nat)
  | slotWriterTimeout (ident writer : Nat)
  | hurdleArrival (i : Nat)
  | hurdleReleaseArrival (i : Nat)
  | hurdleTimeout (ident : Nat)
  | jobStart (n eng : Nat)
  | groupStart (n : Nat)
  | jobComplete (n : Nat) (x : JobEnd)
  | droverStart (n d : Nat)
  | droverComplete (n : Nat) (x : DroverEnd)
  | droverGuardRetry (n d : Nat)
  | sliceStart (p sl : Nat)
  | sliceEnd (p : Nat) (signature : Word)
  | coverageLapse (p sl : Nat)
  | sliceWake (n : Nat)
  | sparePeriodicTest (passed : List Nat)
  | foldGate (n : Nat)
  | foldWake (n : Nat)
  | foldMemoryRetention (n : Nat)
  | foldRetirement (p : Nat)
  | scrub (unit : Nat)
  | correctionWriteback (line : Nat)
  | poisonBitStore (line : Nat)
  | gddr6TemperatureRead (i : Nat) (reading : Option Int)
  | gddr6ReadTimeout (i addr : Nat) (t : Option Nat)
  | csiFrameStart (port vc : Nat) (ecc : HeaderEcc) (frameNumber : Nat)
  | csiFrameEnd (port vc : Nat) (ecc : HeaderEcc) (frameNumber : Nat)
  | csiLongPacket (port vc : Nat) (ecc : HeaderEcc) (dt wc : Nat) (crcOk fifoFull : Bool) (data : List Byte)
  | csiLineMarker (port : Nat) (h : MarkerHeader)
  | lineTimeout (g : Nat)
  | frameTimeMax (g : Nat)
  | silenceTimeout (g : Nat)
  | secondFaultReport
  | ethSensorFrame (f : SensorFrame)
  | periodSampleClose (g : Nat)
  | feedRead (g : Nat)
  | decodeSlot (g : Nat) (used : Nat)
  | decodeBudgetExhausted (g : Nat) (unitsDone : Nat)
  | readinessNotice (g : Nat)
  | deadlineJudge (f : Nat)
  | agreementRun (f : Nat)
  | verdictWrite (f : Nat)
  | agreeSelfCheck (reported : Bool)
  | sync (m : PtpMsg)
  | followUp (m : PtpMsg)
  | delayResp (m : PtpMsg)
  | pdelayResp (m : PtpMsg)
  | announce (m : PtpMsg)
  | masterLoss (d : Nat)
  | crossCheck
  | bridgeForward (f : BridgeFrame)
  | triggerLeadingEdge (n : Nat)
  | triggerTrailingEdge (n : Nat)
  | refclkLoss
  | counterResume
  | connect (h : NdHdr)
  | accept (h : NdHdr)
  | close (h : NdHdr)
  | ack (h : NdHdr)
  | keepalive (h : NdHdr)
  | ndournWrite (h : NdHdr) (a : NdAccess)
  | readReq (h : NdHdr) (a : NdAccess)
  | readResp (h : NdHdr) (a : NdAccess) (status : Nat)
  | done (h : NdHdr) (reqId status : Nat)
  | message (h : NdHdr) (m : NdMessage)
  | hurdleArriveFrame (h : NdHdr) (num phase : Nat)
  | hurdleReleaseFrame (h : NdHdr) (num phase : Nat)
  | hurdleBreakFrame (h : NdHdr) (num phase cause : Nat)
  | eventRequest (h : NdHdr) (e : NdEvent)
  | eventOrder (h : NdHdr) (e : NdEvent)
  | eventCancel (h : NdHdr) (e : NdEvent)
  | eventRefuse (h : NdHdr) (e : NdEvent)
  | flockEventAction
  | connectResend (k : Nat)
  | retransmitTimeout (k : Nat)
  | keepaliveTimer (k : Nat)
  | linkSilence (k : Nat)
  | closeTimer (k : Nat)
  | stileGuardRetry (k : Nat)
  | stileGuardTimeout (k : Nat)
  | stileLifetime (i : Nat)
  | faultCollect (x : Delivery)
  | domainReset
  | stateHashCheckpoint (r : PairReport)
  | followerTimeout (checkpoint : Nat)
  | pulseCheckpointTimeout
  | monitorSelfCheck (unit : Nat) (underTrips overTrips : Bool)
  | railTrip (rail : Nat) (overVoltage : Bool)
  | railRampTimeout (rail : Nat)
  | railRetry
  | clockMonitorTrip (clk : Nat) (ppm : Int) (lost : Bool)
  | temperatureSample (readings : List Int)
  | oscillatorTrim
  | holdupStart
  | holdupEnd
  | wakeN
  | idleReached
  | porstN
  | porstNRelease (b : StartUp)
  | warmRstN
  | warmRstNRelease (b : StartUp)
  | refclkTimeout
  | authChal
  | authResp (container : List Byte)
  | dap (write : Bool) (addr : Nat) (data : List Byte)
  | extest (values : List Bool)
  | idcode
  | samplePreload (values : List Bool)
  | highz
  | clamp
  | bypass (code : Nat)
  | loadDataReturn (t : Nat)
  | commandWorkComplete (q tag : Nat)
  | pulseEdge
  | learningTableAgeing
  | railEntersWindow (rail : Nat)
deriving DecidableEq, Repr

end Sys2Proof
end

