-- ==== Sys2Proof/Machine/Parts.lean ====
section
/-! DEFINITION. The parts of the device's state as plain data: one structure for each block of the manual. Every field's
default is its value after a cold reset with PORST_N held low (R13, R576). -/

namespace Sys2Proof.Machine

/-! ## Clock and fuses -/

/-- The raw counter and its passage through STANDBY (R411 to R413). -/
structure Clock where
  /-- nanoseconds since the time PLL's first lock (R411) -/
  raw : Nat := 0
  /-- the time-counter PLL is locked and the counter advances -/
  running : Bool := false
  /-- value the always-on domain saved at IDLE → STANDBY (R412) -/
  saved : Nat := 0
  /-- nanoseconds spent in STANDBY since that save -/
  asleepNs : Nat := 0
deriving DecidableEq, Repr, Inhabited

/-- The fuse array (R535); values of items that R535 marks X are DESIGN CHOICE: log entry 4. -/
structure Fuses where
  grade : BitVec 2 := 0
  lifecycle : BitVec 8 := 0
  fwFloor : BitVec 64 := 0
  progFloor : BitVec 64 := 0
  slotValid : BitVec 8 := 0x0F
  slotRevoked : BitVec 8 := 0
  bootCfg : BitVec 6 := 0
  h0 : BitVec 256 := 0
  h1 : BitVec 256 := 0
  o0 : BitVec 256 := 0
  o1 : BitVec 256 := 0
  uds : BitVec 256 := 0
  serial : BitVec 64 := 1
  /-- items with an uncorrectable word (R536): 0 GRADE, 1 H0, 2 H1, 3 O0, 4 O1, 5 UDS, 6 SERIAL -/
  uncorrectable : List Nat := []
deriving DecidableEq, Repr, Inhabited

/-! ## Memory -/

/-- What is wrong with a stored line (R158 to R165). -/
inductive LineErr where
  /-- one bit of a 128-bit word, or 0xFF for the tag: corrected on read -/
  | single (bit : Nat)
  | uncorrectable
  | checkMismatch
deriving DecidableEq, Repr

/-- A line as a row holds it: data, line check, poison bit, and what its read finds wrong (R158, R160). -/
structure TLine where
  bytes : List Byte := List.replicate 64 0
  check : Nat := 0
  poison : Bool := false
  err : Option LineErr := none
deriving DecidableEq, Repr, Inhabited

/-- Fold memory, the Common, GDDR6 at their device addresses (R41) and the Collie memory at 2^48 + offset (R486). Line
tables are keyed by address ÷ 64. -/
structure Mem where
  bytes : List Host.Cell := []
  poison : Tab Bool := []
  /-- stored line checks that are not the check of the stored bytes (R160, R161) -/
  check : Tab Nat := []
  /-- stretches that have lost their contents, every bit of their rows 0: first byte and length (R159) -/
  lost : List (Nat × Nat) := []
  err : Tab LineErr := []
  /-- cells that are stuck, by the key of `Dev.cellKey` or, for a trough row's line, `Dev.troughKey`: the bit that every read of the line
  finds wrong; no write, reset or loss of power mends one (R530). DESIGN CHOICE: log entry 112 -/
  stuck : Tab Nat := []
  /-- corrections of a line in the present scrub pass (R164) -/
  corrected : Tab Nat := []
  /-- corrected lines not yet written back (R164) -/
  writeback : List Nat := []
  /-- lines whose poison bit is still to be stored (R165) -/
  poisonStore : List Nat := []
  /-- next line of each scrubber (R191): 0–47 fold, 48–71 slice, 72 Collie, 73–84 GDDR6 -/
  scrubPos : Tab Nat := []
  /-- GDDR6 blocks of an interface whose metadata line is newer in the controller's cache than in the array, newest first (R182) -/
  metaCache : Tab (List Nat) := []
  /-- transfers of a GDDR6 interface that are still to fail their EDC (R183). DESIGN CHOICE: log entry 93 -/
  edc : Tab Nat := []
  /-- GDDR6 lines whose next read has found no data in time (R184) -/
  late : List Nat := []
  /-- bytes of open host-pen pages that host writes have merged into the page buffer and that the Common does not hold yet (R340) -/
  buffered : List Host.Cell := []
  /-- operand lines of the jobs that run, by 8 × fold + engine, and what has been written to them since, oldest first: line, content,
  poison (R220) -/
  watch : Tab (List Nat) := []
  past : List (Nat × List Byte × Bool) := []
  /-- firmware's image of resident fold-memory and Collie content, in GDDR6 lines keyed by the line they stand for (R40, R149).
  DESIGN CHOICE: log entry 73 -/
  images : Tab TLine := []
  /-- corrections of the GDDR6 lines of the images in the present scrub pass, by the line they stand for (R164) -/
  imageFixed : Tab Nat := []
deriving DecidableEq, Repr, Inhabited

/-- The GDDR6 controllers (R179 to R184, R584). DESIGN CHOICE: log entry 5 (band at reset). -/
structure Gddr where
  /-- temperature band per interface: 0 to 85 °C, 1 above 85 °C, 2 above 95 °C -/
  band : Tab Nat := []
  /-- a band read once and not yet in force, band + 1 (R184) -/
  candidate : Tab Nat := []
  failed : Tab Bool := []
  selfRefresh : Bool := false
deriving DecidableEq, Repr, Inhabited

/-! ## Engines and folds -/

/-- One long accumulator with its special-value path (R226, R229, R233). -/
structure Acc where
  sum : Rat := 0
  /-- the sum has passed the end of its range in this chain (R227) -/
  saturated : Bool := false
  nan : Bool := false
  posInf : Bool := false
  negInf : Bool := false
deriving DecidableEq, Repr, Inhabited

/-- A descriptor in an engine queue (R132), with what the engine fixed when it started it. -/
structure Job where
  issue : Nat
  thread : Nat
  desc : List Byte
  /-- engines of the GROUP this job belongs to (R134) -/
  mates : List Nat := []
  /-- operand bytes as they stood at the start (R220), and how many writes to operand lines `Mem.past` then held -/
  snap : List Host.Cell := []
  since : Nat := 0
  /-- operand lines that the start found poisoned -/
  badLines : List Nat := []
  /-- a check of R215, R217 or R261 failed: every output line is poisoned -/
  badCheck : Bool := false
  /-- the values written are open: a failed REUSE or a LOOKUP with no table -/
  openOut : Bool := false
  /-- start from the held accumulators (R214) -/
  useHeld : Bool := false
  /-- table bank that lookups use (R263) -/
  bank : Nat := 0
  /-- cycles of R209, R249 or R268 -/
  cycles : Nat := 0
deriving DecidableEq, Repr, Inhabited

/-- An engine: its queue, the job it runs and the counts of R133. -/
structure Engine where
  queue : List Job := []
  running : Option Job := none
  issued : Nat := 0
  completed : Nat := 0
  /-- a drover whose request a guard has refused: since which raw time (R295, R306) -/
  refusedAt : Option Nat := none
  /-- slots whose timeout has passed for the present transfer (R307) -/
  passed : List Nat := []
  /-- lines of a stile transfer that have come in: byte offset, content, poison (R448) -/
  buf : List (Nat × List Byte × Bool) := []
deriving DecidableEq, Repr, Inhabited

/-- Accumulators that a KEEP job left (R214, R215). -/
structure Held where
  m : Nat
  n : Nat
  fmtA : Nat
  fmtB : Nat
  poisoned : Bool
  accs : List Acc
deriving DecidableEq, Repr, Inhabited

/-- The LOAD job whose B the B side holds (R217). -/
structure Loaded where
  b : Nat
  ldb : Nat
  k : Nat
  n : Nat
  fmtB : Nat
deriving DecidableEq, Repr, Inhabited

/-- A trough side (R169, R170). A valid row is listed by bank × 1,024 + row with its four lines; where a self-test slice has
written the side, every row is valid and an unlisted one holds the slice's pattern (R469). -/
structure Trough where
  rows : Tab (List TLine) := []
  pattern : Bool := false
deriving DecidableEq, Repr, Inhabited

/-- A matrix array (R194 to R196, R214 to R217): held accumulators, loaded state, trough sides, the cells' active and shadow
weights, 128 to a row, the sums that last left the feet of the columns, and the corrections of each trough line in the present
job (R164). -/
structure ArrayState where
  held : Option Held := none
  loaded : Option Loaded := none
  sideA : Trough := {}
  sideB : Trough := {}
  active : List Rat := []
  shadow : List Rat := []
  partials : List Rat := []
  corrected : Tab Nat := []
deriving DecidableEq, Repr, Inhabited

/-- One bank of a lookup-table slot (R259): FP32 bit patterns. -/
structure LutBank where
  lo : Nat
  hi : Nat
  entries : List Nat
deriving DecidableEq, Repr, Inhabited

/-- A lookup-table slot (R259 to R263). -/
structure Lut where
  bank0 : Option LutBank := none
  bank1 : Option LutBank := none
  active : Option Nat := none
  /-- bank loaded since the last switch -/
  loadedBank : Option Nat := none
  pending : Bool := false
deriving DecidableEq, Repr, Inhabited

/-- A logical fold: engines, arrays, tables and gating (R124 to R144). DESIGN CHOICE: log entry 6 (`lastHigh`, `lastNormal`). Index
48 stands for the Collie: its engines, arrays and tables. DESIGN CHOICE: log entry 31. -/
structure Fold where
  gated : Bool := true
  memAwake : Bool := false
  /-- an instance start or invoke is to wake it, and a wake that the limit of R566 holds back (R143) -/
  wakeDue : Bool := false
  heldBack : Bool := false
  idleSince : Nat := 0
  memIdleSince : Nat := 0
  lastHigh : Nat := 63
  lastNormal : Nat := 63
  engines : Tab Engine := []
  arrays : Tab ArrayState := []
  luts : Tab Lut := []
  /-- between steps 1 and 5 of a replacement (R146, R147) -/
  replacing : Bool := false
  replaceRaised : List Nat := []
  /-- the coverage period C in ns, as of the last gate start or stop (R470) -/
  coverNs : Nat := 33333333
deriving DecidableEq, Repr, Inhabited

/-- A physical fold (R145 to R148, R320, R470 to R479). -/
structure PhysFold where
  retired : Bool := false
  fenced : Bool := false
  /-- raw time of the last pass of slices 0–3 -/
  lastPass : Tab Nat := []
  /-- a coverage fault has been raised for this lapse of slice s (R474) -/
  lapsed : Tab Bool := []
  slice : Option Nat := none
  holdCycles : Nat := 0
  sliceCycles : Nat := 0
  /-- frame periods with coverage completed (R476) -/
  covered : Nat := 0
  /-- raw time up to which boundaries of C are counted in it -/
  countedTo : Nat := 0
  /-- signature SRAM of the test store: the last signature of each slice (R468, R469) -/
  signatures : Tab Word := []
  /-- raw times of residue or address-parity errors, and of flit-parity errors (R477) -/
  parityAt : List Nat := []
  flitAt : List Nat := []
  lastSpareTest : Nat := 0
deriving DecidableEq, Repr, Inhabited

/-! ## Threads -/

/-- States of a thread (R129). -/
inductive ThState where
  | empty
  | halted
  | ready
  | waiting
  | faulted
deriving DecidableEq, Repr, Inhabited

/-- What a WAITING thread waits for (R129, R292). -/
inductive WaitFor where
  | engine (e : Nat) (v : Nat)
  | fullQueue (engines : List Nat)
  | loadData (addr size rd : Nat)
  | atomicData (rd : Nat)
  | queue (ident rd deadline : Nat)
  | credit (ident rd deadline : Nat)
  | slotFull (ident rd deadline : Nat)
  | slotEmpty (ident rd deadline : Nat)
  | slotRead (ident addr size rd : Nat)
  | slotWrite (ident addr : Nat)
  /-- a store that has left the thread waits at a guard (reason 5, R306) -/
  | heldStore
  | hurdle (ident rd : Nat)
  | time (dom target rd : Nat)
  | fence
  | markFull (ident : Nat)
deriving DecidableEq, Repr, Inhabited

/-- A wait: what for and since which raw time (R295). -/
structure Wait where
  what : WaitFor
  since : Nat
deriving DecidableEq, Repr, Inhabited

/-- A thread context (R128, R168). DESIGN CHOICE: log entry 7 (values at reset). `regs` lists the registers that are not zero. -/
structure Thread where
  regs : Tab Word := []
  pc : BitVec 32 := 0
  high : Bool := false
  st : ThState := .empty
  wait : Option Wait := none
  faultCode : Nat := 0
  poisonMark : Bool := false
deriving DecidableEq, Repr, Inhabited

/-- A store or atomic that a thread has issued and whose memory it has not reached (R136, R140). -/
structure Posted where
  thread : Nat
  addr : Nat
  data : List Byte
  poisoned : Bool
  /-- an atomic: operation, destination register, swap value of compare-swap (R131) -/
  atomic : Option (AtomicOp × Nat × Nat) := none
  /-- its thread has been halted since: it still lands, and nothing waits for its old value (R129) -/
  dead : Bool := false
  /-- since which raw time the guard of its slot refuses it (R305, R306) -/
  refusedAt : Option Nat := none
deriving DecidableEq, Repr

/-! ## Objects -/

/-- A producer that a queue may list (R297, R453, R459). -/
inductive Prod where
  | thread (t : Nat)
  | drover (fold d : Nat)
  | gate (g : Nat)
  | peer (dev : Nat)
  | broadcast
  | flockEvent
deriving DecidableEq, Repr, Inhabited

/-- A producer's place in a queue, with 1 credit where the image gives no number (R297). -/
structure ProdSlot where
  who : Prod
  credits : Nat := 1
  used : Nat := 0
deriving DecidableEq, Repr, Inhabited

/-- A queue entry with its sideband (R296). -/
structure QEntry where
  data : List Byte
  atEnd : Bool
  abandon : Bool := false
  /-- the even-parity bits of the four 32-bit words, as the writing port made them -/
  parity : Nat := 0
  prod : Nat
deriving DecidableEq, Repr, Inhabited

/-- A fold queue (R296 to R302). -/
structure FQueue where
  inst : Nat
  capacity : Nat := 32
  packet : Bool := false
  timeoutNs : Option Nat := some 2000000
  prods : List ProdSlot := []
  entries : List QEntry := []
  overrun : Bool := false
  /-- threads waiting on the queue, longest first (R300) -/
  waiters : List Nat := []
deriving DecidableEq, Repr, Inhabited

inductive SlotState where
  | empty
  | full
  | abandoned
deriving DecidableEq, Repr, Inhabited

/-- A guarded slot (R304 to R308). -/
structure Slot where
  inst : Nat
  base : Nat
  size : Nat
  /-- the writer instance; none in a declaration that takes the default, the declaring instance -/
  writer : Option Nat := none
  timeoutNs : Nat := 2000000
  st : SlotState := .empty
  taint : Bool := false
  /-- EMPTY, and a reader's timeout has passed: a job that reads it takes its content as poisoned (R310) -/
  late : Bool := false
deriving DecidableEq, Repr, Inhabited

/-- A hurdle (R311 to R314, R456). `broken` holds the cause: 1 ABANDONED, 2 TIMEOUT. -/
structure Hurdle where
  inst : Nat
  members : Nat
  timeoutNs : Nat := 2000000
  count : Nat := 0
  broken : Option Nat := none
  firstArrival : Nat := 0
  waiters : List Nat := []
  flock : Option Nat := none
  phase : Nat := 0
deriving DecidableEq, Repr, Inhabited

/-- A hand-off on its way to an object (R303, R308, R313). `src` is the issuing block's fault source. -/
inductive Flight where
  | entry (ident : Nat) (who : Prod) (data : List Byte) (atEnd : Bool) (src : Nat)
  | release (gate : Nat) (data : List Byte) (src : Nat)
  | mark (ident : Nat) (full : Bool) (src : Nat)
  | arrive (ident : Nat) (waiter : Option Nat) (src : Nat)
  | freed (ident fold : Nat) (threads : List Nat)
deriving DecidableEq, Repr, Inhabited

/-! ## Programs -/

structure Region where
  kind : Nat
  base : Nat
  size : Nat
deriving DecidableEq, Repr, Inhabited

structure ThreadDecl where
  thread : Nat
  entry : Nat
  high : Bool
  regs : Tab Word
deriving DecidableEq, Repr, Inhabited

/-- A stretch of a fold's path in cycles from the start of the path (R155, R472). -/
structure Stretch where
  fset : Nat
  fold : Nat
  first : Nat
  last : Nat
deriving DecidableEq, Repr, Inhabited

/-- The terms of the path record of a frame set, or of an invocation as set 0, in cycles: reserved gaps on the path, hand-offs and wakes
(R155, R328). -/
structure PathTerms where
  fset : Nat
  gaps : Nat
  handoffs : Nat
  wakes : Nat
deriving DecidableEq, Repr, Inhabited

/-- The sections of a verified program image (R150, R155). -/
structure Image where
  version : Nat := 0
  svn : Nat := 0
  slot : Nat := 0
  raiseFloor : Bool := false
  collie : Bool := false
  invokeMode : Bool := false
  gateDelayNs : Nat := 20000
  folds : List Nat := []
  regions : List Region := []
  content : List (Nat × List Byte) := []
  threads : List ThreadDecl := []
  queues : List (Nat × FQueue) := []
  slots : List (Nat × Slot) := []
  hurdles : List (Nat × Hurdle) := []
  /-- folds of the path of each frame set -/
  paths : List (Nat × List Nat) := []
  terms : List PathTerms := []
  /-- largest busy count of a logical fold (R330) -/
  busy : List (Nat × Nat) := []
  gaps : List Stretch := []
  windows : List Stretch := []
  /-- declared positions of result tallies (R377) -/
  outputs : List Nat := []
  /-- the ECC exposure record: for a logical fold, the largest number of reads of one line or trough row per instance (R155, R530) -/
  exposure : List (Nat × Nat) := []
  measure : List Byte := []
  /-- every mandatory section is there once (R150) -/
  complete : Bool := true
deriving DecidableEq, Repr, Inhabited

/-- The function states of R378. -/
inductive FnState where
  | unconfigured
  | stopped
  | running
  | stopping
  | faulted
deriving DecidableEq, Repr, Inhabited

/-- A program instance (R151). -/
structure Inst where
  fn : FnState := .unconfigured
  image : Option Image := none
  /-- queue and tag of the open INVOKE (R153) -/
  invoc : Option (Nat × Nat) := none
  /-- raw time at which it was taken (R472) -/
  invocAt : Nat := 0
  invocCount : Nat := 0
deriving DecidableEq, Repr, Inhabited

/-! ## Mailbox -/

/-- An entry of a completion ring that the host's HEAD has not passed (R382). -/
structure Unread where
  posted : Nat
  interrupting : Bool
  urgent : Bool
deriving DecidableEq, Repr, Inhabited

/-- A host queue (R364 to R382). -/
structure MQueue where
  sqEntries : Nat := 64
  cqEntries : Nat := 128
  sqBase : Nat := 0x10000
  cqBase : Nat := 0x11000
  irqEn : Bool := true
  ethIrq : Bool := false
  coalCount : Nat := 1
  coalTimeUs : Nat := 0
  notifyMask : Nat := 0
  sqTail : Nat := 0
  sqHead : Nat := 0
  cqHead : Nat := 0
  cqTail : Nat := 0
  phase : Bool := true
  error : Bool := false
  noteSeq : Nat := 0
  lost : Nat := 0
  unread : List Unread := []
  irq : Bool := false
  /-- raw time of the last interrupt message (R383) -/
  irqSentAt : Nat := 0
deriving DecidableEq, Repr, Inhabited

/-- A command taken and not yet completed (R374). -/
structure Outst where
  q : Nat
  opcode : Nat
  e : Sub
  deadline : Nat
  /-- a program image that passed its checks -/
  image : Option Image := none
  /-- work that a command has recorded for its end; DESIGN CHOICE: log entry 83 -/
  aux : List Nat := []
deriving DecidableEq, Repr

structure IrqDest where
  port : Nat
  ipVersion : Nat
  udpPort : Nat
  resendUs : Nat
  mac : List Byte
  ip : List Byte
deriving DecidableEq, Repr, Inhabited

/-- A notification that waits for IDLE (R385). -/
structure HeldNote where
  kind : Nat
  r0 : Nat
  r1 : Nat
  r2 : Nat
  urgent : Bool
deriving DecidableEq, Repr, Inhabited

/-- HPC_BOOT (R581). -/
structure Boot where
  stage : Nat := 0
  source : Nat := 0
  testDone : Bool := false
  testPass : Bool := false
  testFail : Nat := 0
deriving DecidableEq, Repr, Inhabited

/-- The mailbox: status block fields, queues and commands in work (R360 to R386). -/
structure Mailbox where
  ready : Bool := false
  heartbeat : Nat := 0
  notifyLost : Nat := 0
  boot : Boot := {}
  hostAlive : Word32 := 0
  queues : Tab MQueue := []
  outst : List Outst := []
  /-- exposed commands that an ABORT has marked: queue, tag (R377) -/
  marked : List (Nat × Nat) := []
  /-- round-robin: queue of the present turn and entries taken in it (R373) -/
  turn : Nat := 0
  taken : Nat := 0
  irqDest : Option IrqDest := none
  irqSeq : Nat := 0
  hostTimeoutMs : Option Nat := none
  hostSleep : Bool := false
  aliveSeen : Word32 := 0
  aliveAt : Nat := 0
  silentRaised : Bool := false
  /-- firmware takes no further entry (R534) -/
  frozen : Bool := false
  /-- notifications of events in STANDBY, oldest first (R385) -/
  heldNotes : List HeldNote := []
deriving DecidableEq, Repr, Inhabited

/-! ## Host port -/

/-- An open page buffer (R338). -/
structure Page where
  row : Nat
  fetched : Bool
deriving DecidableEq, Repr, Inhabited

/-- A host write accepted and not yet in memory (R345, R346): bytes with their addresses. -/
structure PenWrite where
  ch : Nat
  cells : List Host.Cell
  poison : Bool
  posted : Nat
  /-- window (0: the host pen) and the number of the write, in the order of acceptance -/
  win : Nat := 0
  no : Nat := 0
  /-- firmware had reported ready when it was accepted (R355) -/
  heeded : Bool := true
deriving DecidableEq, Repr, Inhabited

/-- The host port (R333 to R359). DESIGN CHOICE: log entry 8 (mode registers, CK), 83 (`nextWrite`, `suppressed`). -/
structure HostPort where
  /-- mode registers that differ from their reset value, keyed 256 × channel + number -/
  mr : Tab Byte := []
  pages : Tab Page := []
  penWrites : List PenWrite := []
  winWrites : List PenWrite := []
  /-- number of the next write accepted -/
  nextWrite : Nat := 0
  /-- window w: base and length (R342) -/
  windows : Tab (Nat × Nat) := []
  /-- per channel: 0 active, 1 power-down, 2 self-refresh, 3 deep-sleep (R356) -/
  low : Tab Nat := []
  ckBad : Tab Bool := []
  training : Tab Training := []
  /-- bursts that write training has put into a channel's FIFO (R354) -/
  fifo : Tab (List (List Byte)) := []
  resetLow : Bool := false
  /-- raw time of the last fault of a kind and window, and how many were only counted (R344, R361) -/
  faultAt : Tab Nat := []
  suppressed : Nat := 0
  /-- data last driven on DQ, and the last mode-register read -/
  dq : List Byte := []
  /-- read Link ECC sent with it (R349) -/
  dqEcc : Option Nat := none
  mrData : Byte := 0
deriving DecidableEq, Repr, Inhabited

/-! ## Race -/

/-- PORT_CONFIGURE's settings (R51). -/
structure PortCfg where
  cphy : Bool
  lanes : Nat
  rate : Nat
  order : Nat
  polarity : Nat
deriving DecidableEq, Repr, Inhabited

structure CsiPort where
  cfg : Option PortCfg := none
  discarded : Nat := 0
  corrected : Nat := 0
  uncorrectable : Nat := 0
deriving DecidableEq, Repr, Inhabited

/-- The form of a decoded or host-made picture: YUV or a colour-filter plane, chroma sub-sampling, bit depth, size. -/
structure PicForm where
  yuv : Bool := false
  sx : Nat := 1
  sy : Nat := 1
  bits : Nat := 8
  w : Nat := 0
  h : Nat := 0
deriving DecidableEq, Repr, Inhabited

/-- A sample that a gate has begun and not yet posted (R16, R123). -/
structure Sample where
  counter : Nat
  capture : Int
  domB : Bool
  /-- frame set and instance (R71) -/
  inst : Option (Nat × Int) := none
  /-- landing slot; none for a dropped sample, which posts a drop notice (R66) -/
  slot : Option Nat := none
  /-- settings and table contents in force when the sample began (R81, R108) -/
  st : List (Nat × List Byte) := []
  coef : Option (List Byte) := none
  tone : Option (List Byte) := none
  grid : Option (List Byte) := none
  /-- the table banks it reads: table, bank -/
  banks : List (Nat × Nat) := []
  producer : Nat := 0
  /-- camera lines, packet slots, or one bitstream or picture -/
  input : List (List Byte) := []
  damage : List Nat := []
  /-- 0 camera lines, 1 packet slots, 2 decoder units (R68) -/
  unitKind : Nat := 0
  concealed : Bool := false
  repeated : Bool := false
  hostMade : Bool := false
  poisoned : Bool := false
  /-- an ABORT won while the gate read its feed (R403) -/
  abandoned : Bool := false
  /-- still to be decoded (R93) -/
  coded : Bool := false
  /-- core time and slots used (R94, R117) -/
  usedUs : Nat := 0
  slotsPassed : Nat := 0
  /-- form of a decoded or host-made picture -/
  form : PicForm := {}
deriving DecidableEq, Repr, Inhabited

/-- A frame or Ethernet sample that is open (R55, R60): lines or packet slots in order, none where damaged or lost. -/
structure OpenFrame where
  smp : Sample
  startRaw : Nat
  number : Nat := 0
  lines : List (Option (List Byte)) := []
  surplus : Nat := 0
  /-- bytes of a line as received, where its payload CRC failed (R78) -/
  got : Tab (List Byte) := []
  /-- raw time of the last long packet (R55) -/
  lastPacket : Option Nat := none
  /-- packets lost beyond max_packets (R60) -/
  lostMore : Nat := 0
  /-- frames of the sample that checks 2 to 5 of R58 have discarded and that no slot stands for -/
  discards : Nat := 0
  /-- a sample dropped at its start: its packets are checked or taken in, and it stays dropped (R65) -/
  dropped : Bool := false
deriving DecidableEq, Repr, Inhabited

/-- A feed taken and not yet read (R403); a refused one waits to post its drop notice in its turn (R63, R123). -/
structure Feed where
  q : Nat := 0
  tag : Nat := 0
  source : Nat := 0
  length : Nat := 0
  capture : Nat := 0
  domB : Bool := false
  crc : Option Nat := none
  counter : Nat := 0
  inst : Option (Nat × Int) := none
  /-- detail of the DROP that R71 makes of it -/
  drop : Option Nat := none
  refused : Bool := false
  /-- taken in DEVICE mode: a bitstream (R119) -/
  coded : Bool := false
deriving DecidableEq, Repr, Inhabited

/-- A double-banked gate table (R107, R108). -/
structure GTable where
  active : Nat := 0
  bank0 : Option (List Byte) := none
  bank1 : Option (List Byte) := none
  fresh : Bool := false
  pending : Bool := false
  /-- errors of the table memory's lines, by 2^16 × bank + line, and the lines whose poison bit is stored (R525).
  DESIGN CHOICE: log entry 113 -/
  err : Tab LineErr := []
  bad : List Nat := []
deriving DecidableEq, Repr, Inhabited

/-- A gate (R45 to R123). -/
structure Gate where
  fn : FnState := .unconfigured
  /-- settings carried by the last configure and later sets: id, value (R401) -/
  settings : List (Nat × List Byte) := []
  /-- live changes taken and not yet in force (R81) -/
  liveNext : List (Nat × List Byte) := []
  failedRun : Nat := 0
  nextCounter : Nat := 0
  /-- raw time of the previous Frame Start, and of the start of the silence interval (R55) -/
  lastFs : Option Nat := none
  silentSince : Nat := 0
  served : List Int := []
  /-- addresses of the landing slots posted and not yet released (R19, R123) -/
  held : List Nat := []
  lastSlot : Option Nat := none
  frame : Option OpenFrame := none
  feeds : List Feed := []
  pipe : List Sample := []
  /-- tile CRCs of the previous delivered sample (R78, R79), and the identical run -/
  prevTiles : Option (List Nat) := none
  runLen : Nat := 0
  /-- the run has reached repeat_limit, and its fault is raised -/
  frozen : Bool := false
  embPrev : Option Nat := none
  seqPrev : Option Nat := none
  lastCapture : Option Nat := none
  /-- previous delivered decoded picture, and the reference pictures, newest first (R86, R98) -/
  prevPicture : Option (List Byte) := none
  refs : List (List Byte) := []
  /-- its form -/
  prevForm : Option PicForm := none
  /-- parameter sets in force in the stream, and its picture size since the start (R89) -/
  paramSets : List Byte := []
  streamSize : Option (Nat × Nat) := none
  awaitIrap : Bool := false
  concealRun : Nat := 0
  coef : GTable := {}
  tone : GTable := {}
  remap : GTable := {}
  /-- decoder core 0–7 of the slot, its length in µs, order of start (R91) -/
  core : Option Nat := none
  slotUs : Nat := 0
  startOrder : Nat := 0
  hostMode : Bool := false
  /-- pending shift: handover counter, and true for a shift to DEVICE (R119) -/
  shift : Option (Nat × Bool) := none
  /-- samples begun since the last shift (R118) -/
  sinceShift : Option Nat := none
  /-- core time and slot time of the last 32 samples (R117) -/
  usage : List (Nat × Nat) := []
  headerBad : Bool := false
  /-- the first long packet with no open frame since that header has come (R605) -/
  orphaned : Bool := false
  duplicates : Nat := 0
  lost : Nat := 0
  /-- frames that checks 2 to 5 of R58 have discarded since the last accepted packet -/
  unslotted : Nat := 0
  discarded : Nat := 0
deriving DecidableEq, Repr, Inhabited

/-- The Race as a whole. -/
structure Race where
  /-- gate fed by port and channel 4p + c; unlisted: gate 4p + c (R46) -/
  portMap : Tab (Option Nat) := []
  ports : Tab CsiPort := []
  gates : Tab Gate := []
  startSeq : Nat := 0
  /-- core time used in each of the last 100 rounds: round, µs (R118) -/
  coreUse : Tab (List (Nat × Nat)) := []
  /-- the present round of a core, and the gates whose slots have run in it (R91) -/
  slotRuns : Tab (Nat × List Nat) := []
deriving DecidableEq, Repr, Inhabited

/-! ## Frame sets and time -/

structure FsetCfg where
  period : Nat
  dom : Nat
  offset : Nat
  hold : Nat
  epoch : Nat
deriving DecidableEq, Repr, Inhabited

/-- A frame set with its HPC_FSET record and monitor (R321 to R323). -/
structure FSet where
  cfg : Option FsetCfg := none
  current : Nat := 0
  running : Bool := false
  rawDeadline : Nat := 0
  doneValue : Nat := 0
  late : Nat := 0
  incomplete : Nat := 0
  doneTime : Nat := 0
  doneBits : List Nat := []
  /-- 64-bit instance number of `current` -/
  serial : Int := 0
  /-- hold readings of the previous deadline by physical fold (R320) -/
  holdSeen : Tab Nat := []
deriving DecidableEq, Repr, Inhabited

/-- A parameter set of a domain (R414). -/
structure ParamSet where
  rs : Nat := 0
  ts : Nat := 0
  rho : Int := 0
deriving DecidableEq, Repr, Inhabited

inductive SyncState where
  | acquiring
  | locked
  | holdover
  | carried
  | free
deriving DecidableEq, Repr, Inhabited

structure DomCfg where
  protocol : Nat
  number : Nat
  portMask : Nat
  priority : Nat
  vlan : Nat
deriving DecidableEq, Repr, Inhabited

/-- A delay request that the device has sent: its sequenceId, its egress stamp, whether an answer has been taken, and whether
the request before it had been answered (R418, R432). -/
structure DelayReq where
  seq : Nat
  sent : Nat
  answered : Bool := false
  alive : Bool := false
deriving DecidableEq, Repr, Inhabited

/-- A neighbour's clock on a port: its time and the raw stamp at the last Pdelay_Resp, and its rate over the raw counter less 1
in 2^−41 (R425). -/
structure Neighbour where
  origin : Nat
  stamp : Nat
  ratio : Int := 0
deriving DecidableEq, Repr, Inhabited

/-- A time domain (R414 to R422, R432). -/
structure Domain where
  fn : FnState := .unconfigured
  cfg : Option DomCfg := none
  /-- newest first, at most 64 (R416) -/
  params : List ParamSet := []
  sync : SyncState := .free
  stepped : Bool := false
  goodSyncs : Nat := 0
  forDisagreement : Bool := false
  /-- two-step Sync that waits for its Follow_Up -/
  pending : Option (PtpMsg × Nat) := none
  lastSync : Nat := 0
  lastOrigin : Nat := 0
  syncInterval : Int := 0
  /-- raw time and logAnnounceInterval of the last qualified Announce -/
  lastAnnounce : Nat := 0
  announceLog : Int := 0
  delay : Nat := 0
  /-- the last Delay_Req sent (R418) -/
  delayReq : Option DelayReq := none
  /-- receive time less sending time of the last Sync, in the domain's time -/
  syncDiff : Int := 0
  offsets : List Int := []
  masterRho : Int := 0
  master : Bool := false
  /-- the master selected: its rank and its port identity (R418) -/
  best : Option (Nat × Nat) := none
  ptpScale : Bool := false
deriving DecidableEq, Repr, Inhabited

structure TrigCfg where
  dom : Nat
  periodic : Bool
  activeLow : Bool
  width : Nat
  start : Nat
  period : Nat
deriving DecidableEq, Repr, Inhabited

/-- A trigger output (R426 to R429). -/
structure Trigger where
  fn : FnState := .unconfigured
  cfg : Option TrigCfg := none
  edge : Nat := 0
  inPulse : Bool := false
  /-- level at the ball -/
  level : Bool := false
  /-- after STANDBY: no edge before the domain's first lock (R427) -/
  waitLock : Bool := false
  /-- the edge to go on from when a pulse that a step met has ended (R428) -/
  resume : Option Nat := none
deriving DecidableEq, Repr, Inhabited

/-- The time unit. -/
structure TimeUnit where
  doms : Tab Domain := []
  preferred : Nat := 0
  /-- the raw second of the last cross-check and the difference found (R421) -/
  lastDelta : Option (Nat × Int) := none
  delayIn : Tab Nat := []
  delayOut : Tab Nat := []
  trigs : Tab Trigger := []
  /-- mean link delay of a MAC port in ns, once a Pdelay_Resp has answered on it (R418, R425) -/
  linkDelay : Tab Nat := []
  /-- the last Pdelay_Req sent on a port (R418) -/
  pdelayReq : Tab DelayReq := []
  neighbours : Tab Neighbour := []
  /-- sequenceId of the next request -/
  ptpSeq : Nat := 0
deriving DecidableEq, Repr, Inhabited

/-! ## Ethernet and the flock -/

/-- A frame in an egress queue: its priority, length, when it joined, and the frame with its correction field (R435). -/
structure Waiting where
  pcp : Nat
  length : Nat
  since : Nat
  frame : BridgeFrame
  correction : List Byte
deriving DecidableEq, Repr, Inhabited

structure MacPort where
  cfg : Option (Nat × Nat) := none
  fcsErrors : Nat := 0
  discarded : Nat := 0
  /-- the frames that wait for the line, of all 8 priorities, oldest first, and the raw time at which the line is free (R435) -/
  queue : List Waiting := []
  busyTo : Nat := 0
deriving DecidableEq, Repr, Inhabited

/-- A sequenced frame sent and not yet acknowledged (R443). -/
structure NdTx where
  seq : Nat
  kind : Nat
  body : List Nat
  data : List Byte
  sentAt : Nat
  thread : Option Nat := none
deriving DecidableEq, Repr, Inhabited

/-- A peer's request in service at this device, or a message of its that waits behind one (R446, R449, R450). -/
structure NdServe where
  write : Bool := false
  access : NdAccess := default
  message : Option NdMessage := none
  /-- since when a guard refuses it; set, it has been admitted by its stile -/
  refusedAt : Option Nat := none
  /-- the link's open work has ended: no answer goes out (R444) -/
  mute : Bool := false
deriving DecidableEq, Repr, Inhabited

structure PeerCfg where
  dev : Nat
  port : Nat
  priority : Nat
  vlan : Nat
  mac : List Byte
deriving DecidableEq, Repr, Inhabited

/-- A peer context (R441 to R444). -/
structure Peer where
  fn : FnState := .unconfigured
  cfg : Option PeerCfg := none
  connecting : Bool := false
  session : Nat := 0
  txSeq : Nat := 0
  peerWindow : Nat := 16
  rxNext : Nat := 0
  unacked : List NdTx := []
  lastTx : Nat := 0
  lastRx : Nat := 0
  retries : Nat := 0
  lastDupAck : Option Nat := none
  closeAt : Option Nat := none
  serve : List NdServe := []
deriving DecidableEq, Repr, Inhabited

/-- A local access to a peer's stile that waits for its answer (R447 to R449). -/
structure NdReq where
  id : Nat
  peer : Nat
  write : Bool
  /-- a thread's narrow access, or fold and drover -/
  thread : Option Nat
  drover : Option (Nat × Nat)
  rd : Nat := 0
  size : Nat := 0
  dst : Nat := 0
  /-- the stile-space address of the access -/
  addr : Nat := 0
  /-- a read whose thread has been halted since: nothing waits for its data (R129) -/
  dead : Bool := false
deriving DecidableEq, Repr, Inhabited

structure StileCfg where
  base : Nat
  length : Nat
  offset : Nat
  canRead : Bool
  canWrite : Bool
  lifetimeMs : Nat
  peers : List Nat
deriving DecidableEq, Repr, Inhabited

structure Stile where
  fn : FnState := .unconfigured
  cfg : Option StileCfg := none
  startedAt : Nat := 0
deriving DecidableEq, Repr, Inhabited

/-- A flock hurdle's state at this device (R456). -/
structure FlockHurdle where
  own : Bool := false
  children : List Nat := []
  phase : Nat := 0
  /-- ARRIVE frames held while no instance declares the number: device, phase -/
  held : List (Nat × Nat) := []
deriving DecidableEq, Repr, Inhabited

/-- What the device has handed to the wire. DESIGN CHOICE: log entry 78. -/
inductive OutFrame where
  /-- the port and the frame's bytes from the destination address to the CRC (R437) -/
  | ndourn (port : Nat) (bytes : List Byte)
  | irqMessage (dest : IrqDest) (payload : List Byte)
  /-- `correction`: the 8 bytes of a PTP message's correction field as they go out (R425) -/
  | bridged (port : Nat) (f : BridgeFrame) (correction : List Byte)
  /-- a Delay_Req or, with `peer`, a Pdelay_Req of the device's own, tagged as DOMAIN_CONFIGURE says (R418) -/
  | ptpRequest (port : Nat) (cfg : DomCfg) (peer : Bool) (sequenceId : Nat)
deriving DecidableEq, Repr

/-- The MAC ports, the bridge and the Ndourn engine. -/
structure Flock where
  dev : Option Nat := none
  etherType : Nat := 0x88B5
  portMask : Nat := 0
  ports : Tab MacPort := []
  /-- learning table: MAC, VLAN, port, raw time (R435) -/
  learn : List (Nat × Nat × Nat × Nat) := []
  bridgeDrops : Nat := 0
  peers : Tab Peer := []
  stiles : Tab Stile := []
  reqs : List NdReq := []
  nextReq : Nat := 0
  hurdles : Tab FlockHurdle := []
  nextBroadcast : Nat := 0
  nextEvent : Nat := 1
  /-- event ordered and not yet acted on (R458) -/
  event : Option NdEvent := none
  /-- at device 0: the event pending until its instant has passed -/
  rootEvent : Option NdEvent := none
  out : List OutFrame := []
deriving DecidableEq, Repr, Inhabited

/-! ## Faults and safety -/

/-- Events of one reason in the present raw second (R604). -/
structure SecEvent where
  src : Nat
  kind : Nat
  detail : Nat
  arg : Nat
  counted : Bool
  second : Nat
  count : Nat
deriving DecidableEq, Repr, Inhabited

structure LogRing where
  base : Nat
  capacity : Nat
  next : Nat := 0
  written : Nat := 0
deriving DecidableEq, Repr, Inhabited

/-- Resets that a HALT can call for (R514). -/
inductive HaltReset where
  | fold (p : Nat)
  | foldMonitor (p : Nat)
  | foldEngines
  | race
  | ethernet
  | collie
  | warm
  | warmZeroGddr
  | cold
deriving DecidableEq, Repr, Inhabited

/-- The fault collector (R504 to R519). -/
structure Collector where
  /-- held severity + 1 of a set sticky bit; unlisted: clear (R512) -/
  held : Tab Nat := []
  /-- severities that differ from the default (R506) -/
  severity : Tab Nat := []
  /-- messages waiting at their sources, one a source (R504) -/
  waiting : List (BitVec 64) := []
  /-- messages collected in STANDBY with their time and severity (R560) -/
  asleep : List (BitVec 64 × Nat × Nat) := []
  log : Option LogRing := none
  dropped : Nat := 0
  /-- resets not yet begun, the largest first, with the fault messages that call for them (R514) -/
  halts : List (HaltReset × Nat) := []
  /-- faults that a source could not send behind its waiting message, by source (R504) -/
  unsent : Tab Nat := []
  perSecond : List SecEvent := []
deriving DecidableEq, Repr, Inhabited

/-- An agreement rule (R488). -/
structure AgreeRule where
  fset : Nat
  equal : Bool
  format : Nat
  count : Nat
  main : Nat
  collie : Nat
  maxBad : Nat
  tolAbs : Nat
  tolRel : Nat
  offset : Nat
  verdict : Nat
deriving DecidableEq, Repr, Inhabited

/-- An agreement run whose verdict is not yet written (R490). -/
structure AgreeRun where
  counter : Nat
  compared : Nat
  disagreed : Nat
  rules : Nat
  bad : Nat
deriving DecidableEq, Repr, Inhabited

structure Rail where
  inWindow : Bool := false
  armed : Bool := false
deriving DecidableEq, Repr, Inhabited

/-- One core of the Shepherd pair: instructions and interrupts it has taken, and its running store hash (R480). -/
structure ShepCore where
  count : Nat := 0
  taken : Nat := 0
  hash : BitVec 64 := 0
deriving DecidableEq, Repr, Inhabited

/-- A word of the Shepherd's shared memory, with how many of its bits are wrong (R480, R485). -/
structure ShepWord where
  data : BitVec 64
  bad : Nat := 0
deriving DecidableEq, Repr, Inhabited

/-- The leader's copy of what a checkpoint compares: 0 an entry, 1 a configuration write; address and bytes (R481). -/
structure ShepCopy where
  kind : Nat
  addr : BitVec 64
  bytes : List Byte
deriving DecidableEq, Repr, Inhabited

/-- The Shepherd pair: its cores, the load-value queue, the instruction counts of interrupts that the follower has yet to take,
the words stored in the shared memory (R480), the leader's copy that waits for the follower's, the checkpoint at which the copies
last differed (R481), and the memory errors that the leader's loads have found: address, and whether uncorrectable (R485). -/
structure ShepPair where
  lead : ShepCore := {}
  follow : ShepCore := {}
  loads : List (BitVec 64) := []
  irqs : List Nat := []
  mem : List (BitVec 64 × ShepWord) := []
  copy : Option ShepCopy := none
  differs : Option Nat := none
  found : List (BitVec 64 × Bool) := []
deriving DecidableEq, Repr, Inhabited

/-- The mechanisms of Safety Mechanisms. -/
structure Safety where
  pair : ShepPair := {}
  lockstepBroken : Bool := false
  /-- raw time of the last state-hash checkpoint that passed (R481) -/
  lastHash : Nat := 0
  /-- a state-hash checkpoint has passed since the start-up test passed (R501) -/
  released : Bool := false
  rules : List AgreeRule := []
  k : Nat := 3
  n : Nat := 10
  history : Tab (List Bool) := []
  runs : Tab AgreeRun := []
  /-- the instance that the unit last compared, by frame set -/
  lastRun : Tab Int := []
  /-- PULSE: level, and held low by the checkpoint timeout (R499) -/
  pulse : Bool := false
  hashTimeout : Bool := false
  stateDisagree : Bool := false
  rails : Tab Rail := []
  foldRailBad : Tab Bool := []
  clockBad : Tab Bool := []
  /-- consecutive readings past a threshold: 0 low, 1 warning, 2 limit, 3 shutdown (R497) -/
  tempCount : Tab Nat := []
  excluded : List Nat := []
  /-- SAFE_N[1:0] as driven, true for low -/
  safe0 : Bool := true
  safe1 : Bool := true
deriving DecidableEq, Repr, Inhabited

/-! ## Security and power -/

/-- A boot-flash slot (R542). -/
structure FlashSlot where
  container : List Byte
  valid : Bool
deriving DecidableEq, Repr, Inhabited

structure Session where
  level : Nat
  until_ : Nat
deriving DecidableEq, Repr, Inhabited

/-- The key engine's own store, which nothing reads out: cdi, the alias keys, and the lock of its UDS port (R542, R544). -/
structure KeyEngine where
  cdi : List Byte := []
  aliasEd : List Byte := []
  aliasMl : List Byte := []
  udsLocked : Bool := false
deriving DecidableEq, Repr, Inhabited

/-- Security, identity and debug (R531 to R555). DESIGN CHOICE: log entry 10 (empty flash); PRESUMED: log entry 11
(`tapCode`). -/
structure Security where
  flashA : Option FlashSlot := none
  flashB : Option FlashSlot := none
  runningB : Bool := false
  fwVersion : Nat := 0
  fwSvn : Nat := 0
  fwMeasure : List Byte := []
  /-- image versions that ROM refused and firmware has yet to report (R543) -/
  refused : List Nat := []
  challenge : Option (List Byte × Nat) := none
  session : Option Session := none
  granted : Bool := false
  everOpened : Bool := false
  lifecycleDue : Bool := false
  /-- a lifecycle transition whose fuses are being burnt: the raw time of the first write, and what it burns (R534) -/
  burning : Option (Nat × List Nat) := none
  keyEngine : KeyEngine := {}
  /-- the alias certificate in the Shepherd memory (R542, R545) -/
  cert : List Byte := []
  fuseAlarm : Bool := false
  tapCode : Nat := 1
  boundary : List Bool := []
  tdo : List Byte := []
  respWaiting : Option (List Byte) := none
deriving DecidableEq, Repr, Inhabited

inductive PState where
  | off
  | hibernate
  | standby
  | idle
deriving DecidableEq, Repr, Inhabited

/-- Where the device stands between reset and IDLE (R559, R583, R586). -/
inductive Phase where
  | inReset
  | rom
  | awaitPush
  | bringUp
  | waking
  | settled
deriving DecidableEq, Repr, Inhabited

/-- The power controller and the reset inputs (R557 to R587). DESIGN CHOICE: log entry 9 (levels of input pins). -/
structure PowerUnit where
  state : PState := .off
  phase : Phase := .inReset
  porstLow : Bool := true
  warmLow : Bool := false
  supplyLow : Bool := false
  wakeWaiting : Bool := false
  /-- time in STANDBY at the wake event, and the raw time from which the host port answers (R353, R563) -/
  wakeAsleep : Nat := 0
  penAt : Option Nat := none
  holdup : Bool := false
  firstIdle : Bool := false
  tempShut : Bool := false
  romStopped : Bool := false
  pwrMain : Bool := false
  pwrFold : Bool := false
  bootSel : Bool := false
  fromHibernate : Bool := false
  zeroGddr : Bool := false
  startUp : Option StartUp := none
  lastTrim : Nat := 0
  refclkLost : Bool := false
  /-- the time-counter PLL alone has lost its lock (R413, R496) -/
  timePllLost : Bool := false
  /-- raw times at which fold engine domains began to power up (R566) -/
  foldWakes : List Nat := []
  retryDue : Bool := false
deriving DecidableEq, Repr, Inhabited

end Sys2Proof.Machine
end

