-- ==== Sys2Proof/Config.lean ====
section
/-! DEFINITION. What the manual leaves open or takes from a standard it only names: constants with no body, so that no
proof can see a value of them (DESIGN CHOICE, log entries 3, 8, 12 to 17, 32, 73, 94 and 100), and the fixed numbers of one device. -/

namespace Sys2Proof.Config

open Sys2Proof.Machine

/-- A value the manual leaves open, by its number (DESIGN CHOICE, log entry 3). -/
opaque freeNat : Nat → Nat

/-- An open 64-bit value (DESIGN CHOICE, log entry 3). -/
opaque freeWord : Nat → Word

/-- An open choice between two outcomes (DESIGN CHOICE, log entry 3). -/
opaque freeBool : Nat → Bool

/-- An open exact number, used only inside a stated bound (R240, R241). -/
opaque freeRat : Nat → Rat

/-- The SECDED code of a 128-bit data word (9 check bits) and of a 17-bit tag (6 check bits), and what a code word with an error
decodes as: the bit to correct, or none where the error is not correctable (R158). DESIGN CHOICE: log entry 94. -/
opaque secdedData : Nat → Nat
opaque secdedTag : Nat → Nat
opaque secdedFix : Nat → Nat → Option Nat

/-- The 16 check bits over a GDDR6 slot and its line check, and the 6 over the poison word (R180). DESIGN CHOICE: log entry 94. -/
opaque gddrEcc : List Byte → Nat → Nat
opaque poisonEcc : Nat → Nat

/-- Whether a mode-register write (number, value) exits a training step, by the standard's codes (R355). DESIGN CHOICE: log entry 8. -/
opaque exitsTraining : Training → Nat → Byte → Bool

/-- The 64-bit signature that the test store of a fold holds for a slice (R468, R469): the manual gives no value (DESIGN CHOICE, log entry
32). -/
opaque sliceSignature : Nat → Word

/-- SHA-512 (R538), a standard the manual names (DESIGN CHOICE, log entry 12). -/
opaque sha512 : List Byte → List Byte

/-- SHAKE256 with an output of the given length (R537, R544). -/
opaque shake256 : List Byte → Nat → List Byte

/-- ML-DSA-65 verification of a message by key and signature, check 8 of R539. -/
opaque mlVerify : List Byte → List Byte → List Byte → Bool

/-- Ed25519 public key and signature of a private key (R544, R545). -/
opaque edPublic : List Byte → List Byte
opaque edSign : List Byte → List Byte → List Byte

/-- ML-DSA-65 public key and signature of a seed (R544, R545). -/
opaque mlPublic : List Byte → List Byte
opaque mlSign : List Byte → List Byte → List Byte

/-- The sections of a program image body (R150), whose byte layout the manual does not give (DESIGN CHOICE, log entry 13). -/
opaque imageSections : List Byte → Image

/-- An HEVC slice segment or a JPEG XS slice as its syntax gives it: its first unit, the bytes of each unit (first byte and
length), and the first unit with a syntax, range or semantic error (R96); units are counted in the order of decoding. -/
structure Segment where
  first : Nat
  units : List (Nat × Nat)
  errorAt : Option Nat
deriving DecidableEq, Repr, Inhabited

/-- What the syntax of one coded sample says (R86, R87), and the pixels that its units decode to. `profile`: HEVC 1 Main, 2
Main 10; JPEG XS 1 to 7 as R87 lists them; 0 another. `level`: ten times the HEVC level; 10 a + b for the JPEG XS level ak-b.
`chroma`: 0 a colour-filter plane, 1 4:2:0, 2 4:2:2, 3 4:4:4. The picture is planar, one byte a sample up to 8 bits and two above. -/
structure Coded where
  profile : Nat
  level : Nat
  width : Nat
  height : Nat
  chroma : Nat
  depth : Nat
  ctb : Nat
  dpbMinus1 : Nat
  reorder : Nat
  fieldSeq : Bool
  irap : Bool
  /-- luma samples across and down of a decoder unit: the coding tree block, or the precinct (R95) -/
  unitW : Nat
  unitH : Nat
  /-- raster addresses of the units in the order of decoding, which tiles (R86) set apart; empty: raster order -/
  scan : List Nat
  segments : List Segment
  picture : List Byte
  /-- the parameter sets in force after it -/
  sets : List Byte
deriving DecidableEq, Repr, Inhabited

/-- The parsing and the reconstruction of HEVC and JPEG XS (R86, R87), standards the manual names: decoder code, parameter sets
in force, reference pictures, bitstream, missing byte ranges as first byte and length (DESIGN CHOICE, log entry 14). -/
opaque decodeStream : Nat → List Byte → List (List Byte) → List Byte → List (Nat × Nat) → Coded

/-- Pixels of one line as MIPI CSI-2 packs them for a data type (R53), a standard (DESIGN CHOICE, log entry 15); for YUV422 the luma
samples, then the Cb and the Cr samples of the line. -/
opaque unpackLine : Nat → List Byte → List Nat

/-- Gradient-corrected 5 × 5 demosaic (R102), whose coefficients the manual does not give: pattern, phase of the pixel across
and down, the 25 values around it in raster order (none outside the frame), to the channels of the pixel (DESIGN CHOICE, log
entry 16). -/
opaque demosaic : Nat → Nat → Nat → List (Option Rat) → List Rat

/-- Whether a gate's remap samples pixels bicubically: R104 allows two filters and names no setting for them (DESIGN CHOICE, log
entry 17). -/
opaque remapBicubic : Nat → Bool

/-- The coordinate that a NaN of a remap grid stands for (DESIGN CHOICE, log entry 17). -/
opaque nanCoordinate : Rat

/-- The GDDR6 line that holds the image of a line of fold memory or of the Collie memory (R40): the manual gives no addresses
(DESIGN CHOICE, log entry 73). -/
opaque imageLine : Nat → Nat

/-- The earliest and the latest start of a frame set's path in ns after t_i (R329, R332), by instance and set: they rest on arrival
bounds that firmware has from the integrator and no command carries (DESIGN CHOICE, log entry 32). -/
opaque pathEarliest : Nat → Nat → Nat
opaque pathLatest : Nat → Nat → Nat

/-- Where in the Collie memory the Race puts a gate's second copy of a tensor (R21), by gate and landing slot (DESIGN CHOICE, log
entry 17). -/
opaque collieLanding : Nat → Nat → Nat

/-- Mode-register codes of the LPDDR5X standard that select a mode the port does not support (R335): register, value. -/
opaque unsupportedMode : Nat → Byte → Bool

/-- Reset codes of mode registers that the standard gives and the manual does not (R350). -/
opaque standardReset : Nat → Byte

/-- Mode registers that the standard keeps once for each frequency set point (R333), and whether a value of MR16 selects FSP1 for
writing (FSP-WR) and for operation (FSP-OP). -/
opaque perSetPoint : Nat → Bool
opaque fspWrite : Byte → Bool
opaque fspOperate : Byte → Bool

/-- Fields of mode registers at the standard's positions and codes (R350): bank-group mode in MR3, data mask disabled in MR13, write
and read Link ECC on in MR22. -/
opaque bankGroups : Byte → Bool
opaque maskDisabled : Byte → Bool
opaque writeEcc : Byte → Bool
opaque readEcc : Byte → Bool

/-- The standard's Link ECC over the bytes of a burst (R349), and the bytes that read DQ calibration drives from MR31 to MR34 (R354). -/
opaque linkEcc : List Byte → Nat
opaque dqPattern : List Byte → List Byte

/-- The polynomial of the Shepherd's store hash: R480 says CRC-64 and gives none (DESIGN CHOICE, log entry 100). -/
opaque storeHashPoly : BitVec 64

/-- What the start-up test finds in a start sequence that no command describes: a HIBERNATE exit, or a start that the device
begins of itself (DESIGN CHOICE, log entry 3). -/
opaque startUpOutcome : Nat → StartUp

/-- The three neighbours of a temperature sensor (R497), whose places on the die the manual does not give (DESIGN CHOICE, log entry 36). -/
opaque sensorNeighbours : Nat → Nat × Nat × Nat

end Sys2Proof.Config
end

