-- ==== Sys2Proof/Machine/Bits.lean ====
section
/-! DEFINITION. Sparse tables, little-endian fields and the two CRCs of the device. -/

namespace Sys2Proof.Machine

/-! ## Sparse tables -/

/-- The entry of a table at a key. -/
def tget {α : Type} : Tab α → Nat → Option α
  | [], _ => none
  | (j, w) :: t, k => if j = k then some w else tget t k

/-- The entry of a table at a key, or its default. -/
def tgetD {α : Type} (t : Tab α) (k : Nat) (d : α) : α := (tget t k).getD d

/-- A table with one entry written; keys stay ascending. -/
def tset {α : Type} : Tab α → Nat → α → Tab α
  | [], k, v => [(k, v)]
  | (j, w) :: t, k, v =>
    if j < k then (j, w) :: tset t k v else if j = k then (k, v) :: t else (k, v) :: (j, w) :: t

/-- A table with one entry taken out. -/
def terase {α : Type} : Tab α → Nat → Tab α
  | [], _ => []
  | (j, w) :: t, k => if j = k then terase t k else (j, w) :: terase t k

/-- A table with one entry changed. -/
def tmod {α : Type} (t : Tab α) (k : Nat) (d : α) (f : α → α) : Tab α := tset t k (f (tgetD t k d))

/-- Changes the entry at a key only where the table lists one. -/
def tupd {α : Type} (t : Tab α) (k : Nat) (f : α → α) : Tab α :=
  match tget t k with
  | some v => tset t k (f v)
  | none => t

/-- Keys of a table whose entry meets a test. -/
def tkeys {α : Type} (t : Tab α) (p : α → Bool) : List Nat := (t.filter fun e => p e.2).map (·.1)

/-! ## Bytes and fields (R10, R11) -/

/-- The little-endian number of a list of bytes (R10). -/
def leNat : List Byte → Nat
  | [] => 0
  | b :: t => b.toNat + 256 * leNat t

/-- The `n` little-endian bytes of a number (R10). -/
def leBytes : Nat → Nat → List Byte
  | 0, _ => []
  | n + 1, v => BitVec.ofNat 8 v :: leBytes n (v / 256)

/-- The field of `n` bytes at an offset of a structure. -/
def fieldAt (b : List Byte) (off n : Nat) : Nat := leNat ((b.drop off).take n)

/-- Bits [lo + n - 1 : lo] of a number (R11). -/
def bitsAt (v lo n : Nat) : Nat := v / 2 ^ lo % 2 ^ n

/-- Bit n of a number. -/
def bitOf (v n : Nat) : Bool := v / 2 ^ n % 2 = 1

/-- The signed value of the low `n` bits of a number. -/
def signedOf (v n : Nat) : Int := if v % 2 ^ n < 2 ^ (n - 1) then (v % 2 ^ n : Nat) else (v % 2 ^ n : Nat) - (2 ^ n : Nat)

/-- The two's-complement pattern of an integer in `n` bits. -/
def patternOf (v : Int) (n : Nat) : Nat := (v % (2 ^ n : Nat)).toNat

/-- A list of bytes filled with zero up to a length. -/
def padTo (n : Nat) (b : List Byte) : List Byte := b ++ List.replicate (n - b.length) 0

/-- Every byte of a stretch of a structure is zero. -/
def zeroAt (b : List Byte) (off n : Nat) : Bool := ((b.drop off).take n).all (· == 0)

/-- The bit mask of a list of indexes. -/
def maskOf (l : List Nat) : Nat := l.foldl (fun m i => m ||| 2 ^ i) 0

/-- x ÷ y rounded up. -/
def ceilDiv (x y : Nat) : Nat := (x + (y - 1)) / y

/-! ## Checks -/

/-- One bit step of the reflected CRC-32C register (R76). -/
def crc32cStep (c : BitVec 32) : BitVec 32 :=
  if c.getLsbD 0 then (c >>> 1) ^^^ 0x82F63B78#32 else c >>> 1

def crc32cByte (c : BitVec 32) (b : Byte) : BitVec 32 :=
  let x := c ^^^ b.setWidth 32
  crc32cStep (crc32cStep (crc32cStep (crc32cStep (crc32cStep (crc32cStep (crc32cStep (crc32cStep x)))))))

/-- CRC-32C: polynomial 0x1EDC_6F41 reflected, initial value and final XOR 0xFFFF_FFFF (R76). -/
def crc32c (b : List Byte) : Nat := ((b.foldl crc32cByte 0xFFFFFFFF#32) ^^^ 0xFFFFFFFF#32).toNat

/-- One bit step of the line check's register (R160). -/
def lineCheckStep (c : BitVec 16) : BitVec 16 :=
  if c.getLsbD 15 then (c <<< 1) ^^^ 0x8BB7#16 else c <<< 1

def lineCheckByte (c : BitVec 16) (b : Byte) : BitVec 16 :=
  let x := c ^^^ (b.setWidth 16 <<< 8)
  lineCheckStep (lineCheckStep (lineCheckStep (lineCheckStep (lineCheckStep (lineCheckStep (lineCheckStep (lineCheckStep x)))))))

/-- The line check: width 16, polynomial 0x8BB7, initial value 0, not reflected (R160). -/
def lineCheck (b : List Byte) : Nat := (b.foldl lineCheckByte 0#16).toNat

/-- A list of 32-bit fields from bytes. -/
def words32 : Nat → List Byte → List Nat
  | 0, _ => []
  | n + 1, b => leNat (b.take 4) :: words32 n (b.drop 4)

/-- Ranges of adjacent indexes of an ascending list (R68). -/
def ranges : List Nat → List (Nat × Nat)
  | [] => []
  | i :: t =>
    match ranges t with
    | (a, b) :: r => if a = i + 1 then (i, b) :: r else (i, i) :: (a, b) :: r
    | [] => [(i, i)]

/-- Cuts a stretch of bytes at an address into the pieces that each lie in one 64-byte line. -/
def linePieces : Nat → Nat → List Byte → List (Nat × List Byte)
  | 0, _, _ => []
  | fuel + 1, a, b =>
    match b with
    | [] => []
    | _ => (a, b.take (64 - a % 64)) :: linePieces fuel (a + (64 - a % 64)) (b.drop (64 - a % 64))

/-- Line numbers (address ÷ 64) that a stretch of `n` bytes touches. -/
def linesOf (a n : Nat) : List Nat :=
  if n = 0 then [] else (List.range ((a + n - 1) / 64 - a / 64 + 1)).map (a / 64 + ·)

/-- ⌈x ÷ 64⌉ (R208). -/
def lines (x : Nat) : Nat := ceilDiv x 64

end Sys2Proof.Machine
end

