-- ==== Sys2Proof/Machine/State.lean ====
section
/-! DEFINITION. The state of the block, the reasons a command can stop, and the state after reset. -/

namespace Sys2Proof.Machine

/-- Everything of the device but the raw clock, the fuses and the queue of commands: what most commands act on. -/
structure Dev where
  mem : Mem := {}
  gddr : Gddr := {}
  folds : Tab Fold := []
  phys : Tab PhysFold := []
  /-- physical fold of a logical fold; unlisted: 0xFF, unmapped (R145, R396) -/
  foldMap : Tab Nat := []
  threads : Tab Thread := []
  posted : List Posted := []
  insts : Tab Inst := []
  queues : Tab FQueue := []
  slots : Tab Slot := []
  hurdles : Tab Hurdle := []
  flights : List Flight := []
  host : HostPort := {}
  mbox : Mailbox := {}
  race : Race := {}
  fsets : Tab FSet := []
  tu : TimeUnit := {}
  flock : Flock := {}
  col : Collector := {}
  safe : Safety := {}
  sec : Security := {}
  pow : PowerUnit := {}
  /-- model's own: the number of the next free value; DESIGN CHOICE: log entry 3 -/
  free : Nat := 0
deriving DecidableEq, Repr, Inhabited

/-- The state: the commands that wait, the raw clock, the fuses, and the rest of the device. -/
structure State where
  pending : List Instr
  clk : Clock
  fuse : Fuses
  dev : Dev
deriving DecidableEq, Repr

/-- Why a command stops the model. -/
inductive Fault where
  /-- Raised by any command that names a unit the device does not have (a fold above 47, a port above 11, a thread above
  3,087, a domain above 1 …, R8). Safe: such a command cannot be sent. -/
  | noSuchUnit (which : Nat)
deriving DecidableEq, Repr

/-- Why a command has no meaning. -/
inductive Refusal where
  /-- Raised by exec's arm of a command that has no meaning yet. Safe: nothing is claimed about it. -/
  | notModelled (mnemonic : String)
deriving DecidableEq, Repr

/-- The machine right after reset: PORST_N is still held low, every part at its cold-reset value (R13, R575, R576), and
no command waits. DESIGN CHOICE: log entries 2 to 10 name what the manual gives no reset value for. -/
def State.reset : State := { pending := [], clk := {}, fuse := {}, dev := {} }

end Sys2Proof.Machine
end

