-- ==== Sys2Proof/WellFormed.lean ====
section
/-! DEFINITION. Which commands can be sent: the numbered units that a command names, each with how many of its kind the
device has (R7, R8). -/

namespace Sys2Proof

/-- The physical fold that finds an error of its own; the collector's copies are the device's one pair. -/
def Finding.unit : Finding → Nat
  | .flitParity p _ => p
  | .residue p => p
  | .droverParity p _ => p
  | .copies _ => 0

/-- The units a command names: number and how many there are of the kind. -/
def Instr.units : Instr → List (Nat × Nat)
  | .createQueue q _ => [(q, 32)]
  | .deleteQueue q _ => [(q, 32)]
  | .abort q _ => [(q, 32)]
  | .deviceInfo q _ => [(q, 32)]
  | .irqDest q _ => [(q, 32)]
  | .funcState q _ => [(q, 32)]
  | .power q _ => [(q, 32)]
  | .load q _ => [(q, 32)]
  | .unload q _ => [(q, 32)]
  | .start q _ => [(q, 32)]
  | .stop q _ => [(q, 32)]
  | .invoke q _ => [(q, 32)]
  | .firmwareStage q _ => [(q, 32)]
  | .gateConfigure q _ => [(q, 32)]
  | .gateSet q _ => [(q, 32)]
  | .gateStart q _ => [(q, 32)]
  | .gateStop q _ => [(q, 32)]
  | .gateRelease q _ => [(q, 32)]
  | .gateFeed q _ => [(q, 32)]
  | .gateMap q _ => [(q, 32)]
  | .portConfigure q _ => [(q, 32)]
  | .fsetConfigure q _ => [(q, 32)]
  | .fsetHold q _ => [(q, 32)]
  | .windowMap q _ => [(q, 32)]
  | .gateTableLoad q _ => [(q, 32)]
  | .gateTableSwitch q _ => [(q, 32)]
  | .tableLoad q _ => [(q, 32)]
  | .tableSwitch q _ => [(q, 32)]
  | .domainConfigure q _ => [(q, 32)]
  | .domainStart q _ => [(q, 32)]
  | .domainStop q _ => [(q, 32)]
  | .domainRelease q _ => [(q, 32)]
  | .timeSelect q _ => [(q, 32)]
  | .portDelay q _ => [(q, 32)]
  | .timeRead q _ => [(q, 32)]
  | .trigConfigure q _ => [(q, 32)]
  | .trigStart q _ => [(q, 32)]
  | .trigStop q _ => [(q, 32)]
  | .trigRelease q _ => [(q, 32)]
  | .flockIdentity q _ => [(q, 32)]
  | .flockEvent q _ => [(q, 32)]
  | .ethPort q _ => [(q, 32)]
  | .peerConfigure q _ => [(q, 32)]
  | .peerStart q _ => [(q, 32)]
  | .peerStop q _ => [(q, 32)]
  | .peerRelease q _ => [(q, 32)]
  | .stileConfigure q _ => [(q, 32)]
  | .stileStart q _ => [(q, 32)]
  | .stileStop q _ => [(q, 32)]
  | .stileRelease q _ => [(q, 32)]
  | .selftestPlan q _ => [(q, 32)]
  | .agreeConfigure q _ => [(q, 32)]
  | .spareTest q _ => [(q, 32)]
  | .severitySet q _ => [(q, 32)]
  | .severityRead q _ => [(q, 32)]
  | .stickyRead q _ => [(q, 32)]
  | .stickyClear q _ => [(q, 32)]
  | .logConfigure q _ => [(q, 32)]
  | .faultInject q _ => [(q, 32)]
  | .attest q _ => [(q, 32)]
  | .lifecycleSet q _ => [(q, 32)]
  | .lifecycleReset => []
  | .debugChallenge q _ => [(q, 32)]
  | .debugUnlock q _ => [(q, 32)]
  | .debugAccessGrant => []
  | .debugLock q _ => [(q, 32)]
  | .debugSessionExpiry => []
  | .commandTimeout q _ => [(q, 32)]
  | .hpcSqTail q _ => [(q, 32)]
  | .hpcCqHead q _ => [(q, 32)]
  | .adminReset _ => []
  | .hpcHostAlive _ => []
  | .hpcFsetDone f _ _ => [(f, 16)]
  | .statusBlockWrite _ _ => []
  | .submissionTake => []
  | .coalesceTimeout q => [(q, 32)]
  | .irqMessageResend q => [(q, 32)]
  | .hpcHeartbeat => []
  | .hostSilentCheck => []
  | .firmwareReady => []
  | .activate ch b row => [(ch, 4), (b.bg, 4), (b.ba, 16), (row, 65536)]
  | .pageFetchComplete ch bank => [(ch, 4), (bank, 16)]
  | .precharge ch b => [(ch, 4), (b.bg, 4), (b.ba, 16)]
  | .hostRead ch b page _ _ => [(ch, 4), (b.bg, 4), (b.ba, 16), (page, 2048)]
  | .hostWrite ch b page _ _ _ _ => [(ch, 4), (b.bg, 4), (b.ba, 16), (page, 2048)]
  | .hostPenWriteLand _ => []
  | .windowWriteLand ch _ => [(ch, 4)]
  | .modeRegisterWrite ch mr _ => [(ch, 4), (mr, 256)]
  | .modeRegisterRead ch mr => [(ch, 4), (mr, 256)]
  | .refresh ch => [(ch, 4)]
  | .trainingStep ch _ => [(ch, 4)]
  | .powerDownEntry ch _ => [(ch, 4)]
  | .deepSleepEntry ch => [(ch, 4)]
  | .deepSleepExit ch => [(ch, 4)]
  | .hpResetN _ => []
  | .ckCheck ch _ => [(ch, 4)]
  | .ckTimeout ch => [(ch, 4)]
  | .alu t _ _ _ _ _ => [(t, 3088)]
  | .mul t _ _ _ => [(t, 3088)]
  | .branch t _ _ _ _ => [(t, 3088)]
  | .threadLoad t _ _ _ _ => [(t, 3088)]
  | .threadStore t _ _ _ _ => [(t, 3088)]
  | .threadAtomic t _ _ _ _ _ _ => [(t, 3088)]
  | .fence t => [(t, 3088)]
  | .issue t _ _ _ => [(t, 3088)]
  | .group t _ => [(t, 3088)]
  | .waitEngine t => [(t, 3088)]
  | .waitQueue t => [(t, 3088)]
  | .waitCredit t => [(t, 3088)]
  | .waitSlotFull t => [(t, 3088)]
  | .waitSlotEmpty t => [(t, 3088)]
  | .waitHurdle t => [(t, 3088)]
  | .waitTime t => [(t, 3088)]
  | .waitQstat t => [(t, 3088)]
  | .postQueue t => [(t, 3088)]
  | .postQueueEnd t => [(t, 3088)]
  | .postMarkFull t => [(t, 3088)]
  | .postMarkEmpty t => [(t, 3088)]
  | .postArrive t => [(t, 3088)]
  | .time t _ _ => [(t, 3088)]
  | .endThread t => [(t, 3088)]
  | .illegalInstruction t => [(t, 3088)]
  | .waitDeadline t => [(t, 3088)]
  | .waitTimeout t => [(t, 3088)]
  | .timeWaitExpiry t => [(t, 3088)]
  | .narrowStoreMerge _ => []
  | .queueEntryArrival _ => []
  | .raceReleaseEntry _ => []
  | .slotMarkArrival _ => []
  | .slotReaderTimeout ident reader => [(ident, 65536), (reader, 3184)]
  | .slotWriterTimeout ident writer => [(ident, 65536), (writer, 3184)]
  | .hurdleArrival _ => []
  | .hurdleReleaseArrival _ => []
  | .hurdleTimeout ident => [(ident, 65536)]
  | .jobStart n eng => [(n, 49), (eng, if n = 48 then 8 else 3)]
  | .groupStart n => [(n, 49)]
  | .jobComplete n x => [(n, 49), (x.eng, if n = 48 then 8 else 3)]
  | .droverStart n d => [(n, 48), (d, 2)]
  | .droverComplete n x => [(n, 48), (x.drover, 2)]
  | .droverGuardRetry n d => [(n, 48), (d, 2)]
  | .sliceStart p s => [(p, 52), (s, 4)]
  | .sliceEnd p _ => [(p, 52)]
  | .coverageLapse p s => [(p, 52), (s, 4)]
  | .sliceWake n => [(n, 48)]
  | .sparePeriodicTest _ => []
  | .foldGate n => [(n, 48)]
  | .foldWake n => [(n, 48)]
  | .foldMemoryRetention n => [(n, 48)]
  | .foldRetirement p => [(p, 52)]
  | .scrub unit => [(unit, 85)]
  | .correctionWriteback _ => []
  | .poisonBitStore _ => []
  | .gddr6TemperatureRead i _ => [(i, 12)]
  | .gddr6ReadTimeout i _ t => [(i, 12), (t.getD 0, 3088)]
  | .csiFrameStart port vc _ _ => [(port, 12), (vc, 32)]
  | .csiFrameEnd port vc _ _ => [(port, 12), (vc, 32)]
  | .csiLongPacket port vc _ _ _ _ _ _ => [(port, 12), (vc, 32)]
  | .csiLineMarker port h => [(port, 12), (h.vc, 32)]
  | .lineTimeout g => [(g, 64)]
  | .frameTimeMax g => [(g, 64)]
  | .silenceTimeout g => [(g, 64)]
  | .secondFaultReport => []
  | .ethSensorFrame f => [(f.port, 4)]
  | .periodSampleClose g => [(g, 64)]
  | .feedRead g => [(g, 64)]
  | .decodeSlot g _ => [(g, 64)]
  | .decodeBudgetExhausted g _ => [(g, 64)]
  | .readinessNotice g => [(g, 64)]
  | .deadlineJudge f => [(f, 16)]
  | .agreementRun f => [(f, 16)]
  | .verdictWrite f => [(f, 16)]
  | .agreeSelfCheck _ => []
  | .sync m => [(m.port, 4)]
  | .followUp m => [(m.port, 4)]
  | .delayResp m => [(m.port, 4)]
  | .pdelayResp m => [(m.port, 4)]
  | .announce m => [(m.port, 4)]
  | .masterLoss d => [(d, 2)]
  | .crossCheck => []
  | .bridgeForward f => [(f.inPort, 5)]
  | .triggerLeadingEdge n => [(n, 17)]
  | .triggerTrailingEdge n => [(n, 17)]
  | .refclkLoss => []
  | .counterResume => []
  | .connect _ => []
  | .accept _ => []
  | .close _ => []
  | .ack _ => []
  | .keepalive _ => []
  | .ndournWrite _ _ => []
  | .readReq _ _ => []
  | .readResp _ _ _ => []
  | .done _ _ _ => []
  | .message _ _ => []
  | .hurdleArriveFrame _ _ _ => []
  | .hurdleReleaseFrame _ _ _ => []
  | .hurdleBreakFrame _ _ _ _ => []
  | .eventRequest _ _ => []
  | .eventOrder _ _ => []
  | .eventCancel _ _ => []
  | .eventRefuse _ _ => []
  | .flockEventAction => []
  | .connectResend k => [(k, 512)]
  | .retransmitTimeout k => [(k, 512)]
  | .keepaliveTimer k => [(k, 512)]
  | .linkSilence k => [(k, 512)]
  | .closeTimer k => [(k, 512)]
  | .stileGuardRetry k => [(k, 512)]
  | .stileGuardTimeout k => [(k, 512)]
  | .stileLifetime i => [(i, 64)]
  | .faultCollect x => (x.sources.map fun src => (src, 1024)) ++ x.found.map fun f => (f.unit, 52)
  | .domainReset => []
  | .stateHashCheckpoint _ => []
  | .followerTimeout checkpoint => [(checkpoint, 3)]
  | .pulseCheckpointTimeout => []
  | .monitorSelfCheck unit _ _ => [(unit, 61)]
  | .railTrip rail _ => [(rail, 61)]
  | .railRampTimeout rail => [(rail, 9)]
  | .railRetry => []
  | .clockMonitorTrip clk _ _ => [(clk, 9)]
  | .temperatureSample _ => []
  | .oscillatorTrim => []
  | .holdupStart => []
  | .holdupEnd => []
  | .wakeN => []
  | .idleReached => []
  | .porstN => []
  | .porstNRelease _ => []
  | .warmRstN => []
  | .warmRstNRelease _ => []
  | .refclkTimeout => []
  | .authChal => []
  | .authResp _ => []
  | .dap _ _ _ => []
  | .extest _ => []
  | .idcode => []
  | .samplePreload _ => []
  | .highz => []
  | .clamp => []
  | .bypass _ => []
  | .loadDataReturn t => [(t, 3088)]
  | .commandWorkComplete q _ => [(q, 32)]
  | .pulseEdge => []
  | .learningTableAgeing => []
  | .railEntersWindow rail => [(rail, 61)]

/-- A command is well-formed when every unit it names exists. -/
def Instr.wf (i : Instr) : Bool := i.units.all fun u => u.1 < u.2

end Sys2Proof
end

