-- ==== Sys2Proof/Machine/Ops.lean ====
section
/-! DEFINITION. The operations every command is built from: lifting an effect to the state, memory, the address map,
fault sources and severities, raising a fault, checked reads and merged writes, and posting on completion rings. -/

namespace Sys2Proof

open Sys2Proof.Machine

/-- A field of a submission entry, at its entry offset (R366). -/
def Sub.field (s : Sub) (off n : Nat) : Nat := fieldAt s.args (off - 0x10) n

/-- Every byte of an entry stretch is zero (R15). -/
def Sub.zero (s : Sub) (off n : Nat) : Bool := zeroAt (padTo 48 s.args) (off - 0x10) n

end Sys2Proof

namespace Sys2Proof.Machine

open Sys2Proof

/-- What an effect may read beside the device: the raw counter and the fuses. -/
structure Env where
  raw : Nat
  fuse : Fuses
  /-- nanoseconds in STANDBY so far (R412) -/
  asleep : Nat := 0

/-- The environment of a state. -/
def State.env (s : State) : Env := { raw := s.clk.raw, fuse := s.fuse, asleep := s.clk.asleepNs }

/-- A unit that a command names and the device does not have (R8). DESIGN CHOICE: log entry 18. -/
def missingUnit (i : Instr) : Option Nat := (i.units.find? fun u => u.2 ≤ u.1).map (·.1)

/-- A command whose effect lies in the device alone: the queue, the clock and the fuses stay.
DESIGN CHOICE: log entry 18. -/
def run (i : Instr) (f : Env → Dev → Dev) (s : State) : Host.Outcome State Fault Refusal :=
  match missingUnit i with
  | some n => .fault (.noSuchUnit n)
  | none => .next { s with dev := f s.env s.dev }

/-- The device is in STANDBY with no wake begun (R557). -/
def PowerUnit.sleeping (p : PowerUnit) : Bool := p.state == .standby && p.phase == .settled

/-- The clock where a command changed the power state: a STANDBY entry saves the counter and stops it (R412, R560), and
OFF or HIBERNATE lose it (R411, R561). -/
def clockAfter (was now : PowerUnit) (c : Clock) : Clock :=
  if now.state = .off ∨ now.state = .hibernate then (if was.state = now.state then c else {})
  else if now.sleeping && !was.sleeping then { c with running := false, saved := c.raw, asleepNs := 0 }
  else c

/-- A command that may also change the power state, and with it the clock. -/
def runPower (i : Instr) (f : Env → Dev → Dev) (s : State) : Host.Outcome State Fault Refusal :=
  match missingUnit i with
  | some n => .fault (.noSuchUnit n)
  | none =>
    let d := f s.env s.dev
    .next { s with dev := d, clk := clockAfter s.dev.pow d.pow s.clk }

/-! ## The state of one unit -/

def Dev.fold (d : Dev) (n : Nat) : Fold := tgetD d.folds n {}
def Dev.physOf (d : Dev) (n : Nat) : Nat := tgetD d.foldMap n 0xFF
def Dev.physFold (d : Dev) (p : Nat) : PhysFold := tgetD d.phys p {}
def Dev.thread (d : Dev) (t : Nat) : Thread := tgetD d.threads t {}
def Dev.inst (d : Dev) (k : Nat) : Inst := tgetD d.insts k {}
def Dev.gate (d : Dev) (g : Nat) : Gate := tgetD d.race.gates g {}
def Dev.port (d : Dev) (p : Nat) : CsiPort := tgetD d.race.ports p {}
def Dev.fset (d : Dev) (f : Nat) : FSet := tgetD d.fsets f {}
def Dev.dom (d : Dev) (k : Nat) : Domain := tgetD d.tu.doms k {}
def Dev.trig (d : Dev) (k : Nat) : Trigger := tgetD d.tu.trigs k {}
def Dev.peer (d : Dev) (k : Nat) : Peer := tgetD d.flock.peers k {}
def Dev.stile (d : Dev) (k : Nat) : Stile := tgetD d.flock.stiles k {}
def Dev.mac (d : Dev) (m : Nat) : MacPort := tgetD d.flock.ports m {}
def Dev.queue (d : Dev) (q : Nat) : Option MQueue := tget d.mbox.queues q

def Dev.modFold (d : Dev) (n : Nat) (f : Fold → Fold) : Dev := { d with folds := tmod d.folds n {} f }
def Dev.modPhys (d : Dev) (p : Nat) (f : PhysFold → PhysFold) : Dev := { d with phys := tmod d.phys p {} f }
def Dev.modThread (d : Dev) (t : Nat) (f : Thread → Thread) : Dev := { d with threads := tmod d.threads t {} f }
def Dev.modInst (d : Dev) (k : Nat) (f : Inst → Inst) : Dev := { d with insts := tmod d.insts k {} f }
def Dev.modGate (d : Dev) (g : Nat) (f : Gate → Gate) : Dev :=
  { d with race := { d.race with gates := tmod d.race.gates g {} f } }
def Dev.modPort (d : Dev) (p : Nat) (f : CsiPort → CsiPort) : Dev :=
  { d with race := { d.race with ports := tmod d.race.ports p {} f } }
def Dev.modFset (d : Dev) (n : Nat) (f : FSet → FSet) : Dev := { d with fsets := tmod d.fsets n {} f }
def Dev.modDom (d : Dev) (k : Nat) (f : Domain → Domain) : Dev :=
  { d with tu := { d.tu with doms := tmod d.tu.doms k {} f } }
def Dev.modTrig (d : Dev) (k : Nat) (f : Trigger → Trigger) : Dev :=
  { d with tu := { d.tu with trigs := tmod d.tu.trigs k {} f } }
def Dev.modPeer (d : Dev) (k : Nat) (f : Peer → Peer) : Dev :=
  { d with flock := { d.flock with peers := tmod d.flock.peers k {} f } }
def Dev.modStile (d : Dev) (k : Nat) (f : Stile → Stile) : Dev :=
  { d with flock := { d.flock with stiles := tmod d.flock.stiles k {} f } }
def Dev.modMac (d : Dev) (m : Nat) (f : MacPort → MacPort) : Dev :=
  { d with flock := { d.flock with ports := tmod d.flock.ports m {} f } }
def Dev.modQueue (d : Dev) (q : Nat) (f : MQueue → MQueue) : Dev :=
  { d with mbox := { d.mbox with queues := tupd d.mbox.queues q f } }
def Dev.modMem (d : Dev) (f : Mem → Mem) : Dev := { d with mem := f d.mem }

/-- The device with the counter of free values advanced (DESIGN CHOICE, log entry 3). -/
def Dev.spend (d : Dev) : Dev := { d with free := d.free + 1 }

/-! ## Memory as a canonical list (unlisted bytes read 0, R193) -/

/-- One byte of memory. DESIGN CHOICE: log entry 79. -/
def mget : List Host.Cell → Nat → Byte
  | [], _ => 0
  | (a, b) :: t, k => if a = k then b else mget t k

/-- The cells of a run of bytes: zero bytes are not listed. -/
def cellsOf : Nat → List Byte → List Host.Cell
  | _, [] => []
  | a, b :: t => if b = 0 then cellsOf (a + 1) t else (a, b) :: cellsOf (a + 1) t

/-- Memory with a run of bytes written. DESIGN CHOICE: log entry 79. -/
def mput (m : List Host.Cell) (a : Nat) (bs : List Byte) : List Host.Cell :=
  m.filter (fun c => c.1 < a) ++ cellsOf a bs ++ m.filter (fun c => a + bs.length ≤ c.1)

/-- Memory whose bytes in a range are all zero. -/
def mclear (m : List Host.Cell) (a n : Nat) : List Host.Cell := m.filter fun c => c.1 < a || a + n ≤ c.1

/-- A run of bytes. -/
def mread (m : List Host.Cell) (a n : Nat) : List Byte := (List.range n).map fun i => mget m (a + i)

/-- The canonical form: addresses strictly rising and no byte zero. DESIGN CHOICE: log entry 79. -/
def Memory.wf (m : List Host.Cell) : Bool :=
  decide (m.Pairwise fun x y => x.1 < y.1) && m.all fun c => c.2 != 0

/-- Bytes of a range as plain memory holds them. -/
def Dev.raw (d : Dev) (a n : Nat) : List Byte := mread d.mem.bytes a n

/-- What a write leaves in the lines that running jobs may still read (R220). -/
def Mem.seen (m : Mem) (lines : List Nat) : List (Nat × List Byte × Bool) :=
  (lines.filter fun l => m.watch.any fun w => w.2.contains l).map fun l =>
    (l, mread m.bytes (64 * l) 64, tgetD m.poison l false)

/-- Memory with bytes written: an open page buffer follows (R340), and the jobs that may still read the lines. -/
def Mem.put (m : Mem) (a : Nat) (bs : List Byte) : Mem :=
  let m := { m with
    bytes := mput m.bytes a bs, buffered := m.buffered.filter fun c => c.1 < a || a + bs.length ≤ c.1 }
  { m with past := m.past ++ m.seen (linesOf a bs.length) }

/-- Bytes written with no check of the lines they touch. -/
def Dev.poke (d : Dev) (a : Nat) (bs : List Byte) : Dev := d.modMem fun m => m.put a bs

/-! ## Address map (R41, R43) -/

def commonBase : Nat := 0x200000000
def gddrBase : Nat := 0x1000000000
def gddrSize : Nat := 0xB40000000
def stileBase : Nat := 0x10000000000
/-- Where the model keeps the Collie memory, which has no device address (R486). -/
def collieBase : Nat := 2 ^ 48

/-- What an address names. -/
inductive Zone where
  | control
  | foldMem (n off : Nat)
  | common (off : Nat)
  | gddr (off : Nat)
  | stile (dev off : Nat)
  | collie (off : Nat)
  | hole
deriving DecidableEq, Repr

/-- R41, with the unpopulated ranges of R43. DESIGN CHOICE: log entry 79. -/
def zoneOf (a : Nat) : Zone :=
  if a < 0x10000000 then .control
  else if 0x100000000 ≤ a ∧ a < 0x100000000 + 48 * 0x1000000 then
    if a % 0x1000000 < 0x800000 then .foldMem ((a - 0x100000000) / 0x1000000) (a % 0x1000000) else .hole
  else if commonBase ≤ a ∧ a < commonBase + 0xC000000 then .common (a - commonBase)
  else if gddrBase ≤ a ∧ a < gddrBase + gddrSize then .gddr (a - gddrBase)
  else if stileBase ≤ a ∧ a < stileBase + 512 * 0x80000000 then
    .stile ((a - stileBase) / 0x80000000) ((a - stileBase) % 0x80000000)
  else if collieBase ≤ a ∧ a < collieBase + 0x1000000 then .collie (a - collieBase)
  else .hole

/-- The first byte of a logical fold's memory. -/
def foldBase (n : Nat) : Nat := 0x100000000 + n * 0x1000000

/-- The number under which the model keeps the Collie among the folds. DESIGN CHOICE: log entry 31. -/
def collieFold : Nat := 48

/-- The own memory of a fold, or of the Collie (R486): base and size. -/
def ownBase (n : Nat) : Nat := if n = collieFold then collieBase else foldBase n
def ownSize (n : Nat) : Nat := if n = collieFold then 0x1000000 else 0x800000

/-- An address in the own memory of a fold, or of the Collie. -/
def isOwn (n a : Nat) : Bool :=
  match zoneOf a with
  | .foldMem k _ => k == n
  | .collie _ => n == collieFold
  | _ => false

/-- Common slice of an offset (R176). -/
def sliceOf (off : Nat) : Nat := 8 * (off / 2 ^ 26) + off / 64 % 8

/-- GDDR6 interface of an offset (R181). -/
def gddrIface (off : Nat) : Nat := off / 64 / 15 % 12

/-- Where an offset of GDDR6 lies (R181): interface, block within it, slot, channel, bank, half of the row, row. -/
structure GddrPlace where
  intf : Nat
  k : Nat
  slot : Nat
  chan : Nat
  bank : Nat
  half : Nat
  row : Nat
deriving DecidableEq, Repr

def gddrPlace (off : Nat) : GddrPlace :=
  let l := off / 64
  let k := l / 15 / 12
  { intf := gddrIface off, k := k, slot := l % 15, chan := k % 2, bank := k / 2 % 16, half := k / 32 % 2, row := k / 64 }

/-- The byte within its interface at which a line starts, and at which its metadata line starts (R180, R181). -/
def GddrPlace.lineAt (p : GddrPlace) : Nat := p.k * 1024 + p.slot * 64
def GddrPlace.metaAt (p : GddrPlace) : Nat := p.k * 1024 + 15 * 64

/-- The line number (address ÷ 64) of a slot of an interface's block. -/
def gddrLine (intf k slot : Nat) : Nat := gddrBase / 64 + (k * 12 + intf) * 15 + slot

/-! ## Fault sources and severities (R506 to R511) -/

/-- Default severity and fixed minimum of a source; none: unpopulated (R506). -/
def sourceRow (s : Nat) : Option (Nat × Nat) :=
  if s = 0x000 then some (2, 2)
  else if s = 0x001 then some (3, 3)
  else if s = 0x002 then some (0, 0)
  else if s = 0x003 ∨ s = 0x004 then some (1, 0)
  else if s = 0x005 then some (2, 1)
  else if s = 0x040 then some (2, 2)
  else if 0x080 ≤ s ∧ s < 0x0B4 then some (1, 0)
  else if 0x0C0 ≤ s ∧ s < 0x0F4 then some (0, 0)
  else if 0x100 ≤ s ∧ s < 0x134 then some (1, 1)
  else if 0x140 ≤ s ∧ s < 0x174 then some (2, 1)
  else if 0x180 ≤ s ∧ s < 0x198 then some (0, 0)
  else if s = 0x198 then some (1, 0)
  else if 0x1C0 ≤ s ∧ s < 0x1CC then some (0, 0)
  else if 0x1D0 ≤ s ∧ s < 0x1DC then some (1, 0)
  else if 0x200 ≤ s ∧ s < 0x254 then some (0, 0)
  else if s = 0x254 ∨ s = 0x280 then some (1, 0)
  else if 0x2C0 ≤ s ∧ s < 0x2C5 then some (0, 0)
  else if s = 0x2C5 then some (1, 0)
  else if s = 0x2C6 then some (0, 0)
  else if 0x300 ≤ s ∧ s < 0x305 then some (1, 0)
  else if 0x310 ≤ s ∧ s < 0x321 then some (1, 0)
  else if s = 0x340 then some (1, 0)
  else if s = 0x341 then some (0, 0)
  else if s = 0x342 ∨ s = 0x343 then some (2, 1)
  else if 0x380 ≤ s ∧ s < 0x3B8 then some (3, 3)
  else if s = 0x3B8 then some (1, 0)
  else if s = 0x3B9 then some (2, 0)
  else if s = 0x3BA then some (3, 3)
  else if s = 0x3BB then some (2, 2)
  else if s = 0x3BC then some (1, 0)
  else if s = 0x3BD then some (2, 1)
  else if s = 0x3BE then some (1, 0)
  else if s = 0x3BF then some (2, 1)
  else if s = 0x3C0 then some (1, 0)
  else if s = 0x3C1 then some (1, 1)
  else if s = 0x3C2 then some (2, 2)
  else none

/-- Lifecycle states by the code of R396. -/
def lcBlank : Nat := 0
def lcDevelop : Nat := 1
def lcProduction : Nat := 2
def lcReturn : Nat := 3
def lcScrap : Nat := 4

/-- The lifecycle state that the fuse pairs name: a pair reads 1 when either fuse is 1, and the highest state wins
(R533, R535). -/
def lifecycleOf (f : Fuses) : Nat :=
  let pair (k : Nat) : Bool := f.lifecycle.getLsbD (2 * k) || f.lifecycle.getLsbD (2 * k + 1)
  if pair 3 then lcScrap else if pair 2 then lcReturn else if pair 1 then lcProduction
  else if pair 0 then lcDevelop else lcBlank

/-- The fixed minimum in force: the lock-step source may go down to LOG in LC_DEVELOP (R483). -/
def minimumOf (e : Env) (s : Nat) : Nat :=
  if s = 0 ∧ lifecycleOf e.fuse = lcDevelop then 0 else ((sourceRow s).map (·.2)).getD 0

/-- The severity set for a source. -/
def Dev.severityOf (d : Dev) (s : Nat) : Nat := tgetD d.col.severity s (((sourceRow s).map (·.1)).getD 0)

/-- The kinds of R510. DEDUCED: log entry 67. -/
def kindListed (k : Nat) : Bool :=
  (1 ≤ k && k ≤ 0x16) || (0x18 ≤ k && k ≤ 0x1C) || (0x20 ≤ k && k ≤ 0x2B) || (0x30 ≤ k && k ≤ 0x3A) || k = 0x3C

/-- The physical fold of a source of classes 2 to 5 or of a power-domain monitor. -/
def sourceFold (s : Nat) : Option Nat :=
  if 0x080 ≤ s ∧ s < 0x180 ∧ s % 64 < 52 then some (s % 64)
  else if 0x380 ≤ s ∧ s < 0x3B4 then some (s - 0x380) else none

/-- A fault message (R505). -/
def faultMsg (src kind detail arg : Nat) : BitVec 64 :=
  BitVec.ofNat 64 (src % 1024 * 2 ^ 54 + kind % 64 * 2 ^ 48 + detail % 256 * 2 ^ 40 + arg % 2 ^ 40)

def msgSource (m : BitVec 64) : Nat := bitsAt m.toNat 54 10
def msgKind (m : BitVec 64) : Nat := bitsAt m.toNat 48 6
def msgDetail (m : BitVec 64) : Nat := bitsAt m.toNat 40 8
def msgArg (m : BitVec 64) : Nat := bitsAt m.toNat 0 40

/-- The message as collected: R509 for what is not populated or listed, R515 for a retired fold.
DEDUCED: log entry 67. -/
def asCollected (d : Dev) (m : BitVec 64) : BitVec 64 :=
  let s := msgSource m
  if (sourceRow s).isNone || !kindListed (msgKind m) then faultMsg 0x040 0x3A 2 (bitsAt m.toNat 48 16)
  else match sourceFold s with
    | some p => if (d.physFold p).retired && msgKind m != 0x0B then faultMsg (0x080 + p) 0x0B (msgKind m) (msgArg m) else m
    | none => m

/-! ## Safe-state pins (R498, R499, R501) -/

/-- A source whose held severity is SAFE or HALT keeps SAFE_N[0] low (R498, R512). -/
def Dev.heldSafe (d : Dev) : Bool := d.col.held.any fun h => 3 ≤ h.2

/-- Drives both pins low where R501 says so, else by R498 and R483; PULSE is held low by R499.
DESIGN CHOICE: log entry 71. -/
def Dev.pins (d : Dev) : Dev :=
  let low := !d.safe.released || d.pow.state == .off || d.pow.state == .hibernate || d.pow.warmLow || d.pow.tempShut
  let s0 := low || d.heldSafe || d.pow.holdup
  let s1 := low || (tget d.col.held 0).isSome || d.safe.lockstepBroken
  { d with safe := { d.safe with
      safe0 := s0, safe1 := s1,
      pulse := d.safe.pulse && !(s0 || s1 || d.safe.hashTimeout || d.safe.stateDisagree) } }

/-! ## Severity reaction (R512 to R514) -/

/-- The domain reset that a HALT of a source calls for (R514, R572); `m` tells a rail's group. -/
def haltReset (s : Nat) : HaltReset :=
  if 0x380 ≤ s ∧ s < 0x3B4 then .foldMonitor (s - 0x380)
  else if 0x080 ≤ s ∧ s < 0x180 ∧ s % 64 < 52 then .fold (s % 64)
  else if s = 0x3B4 ∨ s = 0x3B5 then .cold
  else if s = 0x3B6 then .foldEngines
  else if s = 0x3B7 then .warmZeroGddr
  else if s / 64 = 8 ∨ s / 64 = 9 then .race
  else if s / 64 = 11 ∨ s / 64 = 12 then .ethernet
  else if s / 64 = 13 then .collie
  else .warm

/-- Order of resets: cold, warm, domain (R578). -/
def resetRank : HaltReset → Nat
  | .cold => 2
  | .warm | .warmZeroGddr => 1
  | _ => 0

/-- One reset serves another as well: it is the same, a larger one, or one of the same domain that does more. The retirement that
follows a fold's power-domain monitor outlasts a larger reset (R477, R514, R578). -/
def HaltReset.serves (a b : HaltReset) : Bool :=
  a == b || match a, b with
    | _, .foldMonitor _ => false
    | .foldMonitor p, .fold q => p == q
    | .warmZeroGddr, .warm => true
    | a, b => decide (resetRank b < resetRank a)

/-- Adds a HALT's reset to those not yet begun, the largest first (R514). -/
def addHalt (h : HaltReset) (m : Nat) (l : List (HaltReset × Nat)) : List (HaltReset × Nat) :=
  if l.any fun x => x.1.serves h then l
  else
    let rest := l.filter fun x => !h.serves x.1
    if resetRank h = 0 then rest ++ [(h, m)] else (h, m) :: rest

/-- Sets the sticky bit of a message's source at a severity and takes that severity's reaction on the pins and resets (R512, R513). -/
def Dev.react (d : Dev) (c : BitVec 64) (sev : Nat) : Dev :=
  let src := msgSource c
  let held := tset d.col.held src (max (tgetD d.col.held src 0) (sev + 1))
  let col := { d.col with
    held := held
    halts := if sev = 3 then addHalt (haltReset src) c.toNat d.col.halts else d.col.halts }
  { d with col := col }.pins

/-- The set line: a fault sets its source's sticky bit whatever becomes of its message (R504, R516). -/
def Dev.setLine (d : Dev) (src : Nat) : Dev :=
  { d with col := { d.col with held := tset d.col.held src (max (tgetD d.col.held src 0) 1) } }

/-- A fault whose message does not reach the collector: the reaction of its severity takes place all the same, and a notification of it
is owed (R504). DEDUCED: log entry 67. -/
def Dev.unsentFault (d : Dev) (c : BitVec 64) : Dev :=
  let src := msgSource c
  { d with col := { d.col with unsent := tset d.col.unsent src (tgetD d.col.unsent src 0 + 1) } }.react c (d.severityOf src)

/-- A block raises a fault: the set line acts at once, and one message waits at its source; a further one is not sent (R504).
DEDUCED: log entry 67. -/
def Dev.raise (d : Dev) (src kind detail arg : Nat) : Dev :=
  let m := faultMsg src kind detail arg
  let c := asCollected d m
  if d.col.waiting.any fun w => msgSource w == src % 1024 then d.unsentFault c
  else ({ d with col := { d.col with waiting := d.col.waiting ++ [m] } }).setLine (msgSource c)

/-- A fault counted within its raw second and raised at the second's end (R604). DEDUCED: log entry 80. -/
def Dev.raiseKeyed (d : Dev) (e : Env) (src kind detail arg : Nat) (counted : Bool) (same : SecEvent → Bool) : Dev :=
  let sec := e.raw / 1000000000
  let hit (x : SecEvent) : Bool := x.src == src && x.kind == kind && x.second == sec && same x
  let l := d.col.perSecond
  if l.any hit then
    { d with col := { d.col with perSecond := l.map fun x => if hit x then { x with count := x.count + 1 } else x } }
  else { d with col := { d.col with
      perSecond := l ++ [{ src := src, kind := kind, detail := detail, arg := arg, counted := counted, second := sec, count := 1 }] } }

/-- The same, by its detail and, where the fault does not carry the count, its argument. -/
def Dev.raiseSecond (d : Dev) (e : Env) (src kind detail arg : Nat) (counted : Bool) : Dev :=
  d.raiseKeyed e src kind detail arg counted fun x => x.detail == detail && (counted || x.arg == arg)

/-! ## Line state and checked reads (R158 to R168, R508) -/

/-- The source of the memory that holds an address (R508). -/
def Dev.memSource (d : Dev) (a : Nat) : Nat :=
  match zoneOf a with
  | .foldMem n _ => 0x0C0 + d.physOf n
  | .common off => 0x180 + sliceOf off
  | .gddr off => 0x1C0 + gddrIface off
  | _ => 0x340

def Dev.isPoisoned (d : Dev) (line : Nat) : Bool := tgetD d.mem.poison line false

/-- Stores a line's poison bit. -/
def Dev.setPoison (d : Dev) (line : Nat) (p : Bool) : Dev :=
  d.modMem fun m => { m with poison := if p then tset m.poison line true else terase m.poison line }

/-! ## Stored rows (R158 to R161, R180) -/

/-- The line check stored with a line (R160). -/
def Dev.checkOf (d : Dev) (line : Nat) : Nat := (tget d.mem.check line).getD (lineCheck (d.raw (64 * line) 64))

/-- Stores a line check: the table lists it where it is not that of the stored bytes. -/
def Dev.setCheck (d : Dev) (line c : Nat) : Dev :=
  d.modMem fun m => { m with
    check := if c = lineCheck (mread m.bytes (64 * line) 64) then terase m.check line else tset m.check line c }

/-- The stored check differs from the check of the bytes. -/
def Dev.checkBad (d : Dev) (line : Nat) : Bool :=
  match tget d.mem.check line with
  | none => false
  | some c => c != lineCheck (d.raw (64 * line) 64)

/-- A line of a stretch that has lost its contents (R159). -/
def Dev.isLost (d : Dev) (line : Nat) : Bool := d.mem.lost.any fun r => r.1 ≤ 64 * line && 64 * line < r.1 + r.2

/-- A stretch with a part cut out. -/
def cutOut (a n : Nat) (r : Nat × Nat) : List (Nat × Nat) :=
  if a + n ≤ r.1 ∨ r.1 + r.2 ≤ a then [r]
  else ([(r.1, a - r.1), (a + n, r.1 + r.2 - (a + n))]).filter fun x => 0 < x.2

/-- What a code word with its check bits decodes as. -/
inductive WordRead where
  | good
  | fixed (bit : Nat)
  | bad
deriving DecidableEq, Repr

/-- The check bits of a word as a row stores them: those of the code, inverted (R159); the code gives zero bits to zero. -/
def storedCheck (code : Nat → Nat) (bits v : Nat) : Nat := 2 ^ bits - 1 - (if v = 0 then 0 else code v % 2 ^ bits)

/-- SECDED decoding: a word read as all zeros, data and check bits alike, is uncorrectable (R159). -/
def wordRead (code : Nat → Nat) (bits v chk : Nat) : WordRead :=
  if v = 0 ∧ chk = 0 then .bad
  else if chk = storedCheck code bits v then .good
  else match Config.secdedFix v chk with
    | some b => .fixed b
    | none => .bad

/-- The 571 bits of an SRAM row's line (R158): four data words with 9 check bits each, the tag of line check and poison bit,
and its 6 check bits. -/
structure Row where
  words : List (Nat × Nat)
  tag : Nat
  tagCheck : Nat
deriving DecidableEq, Repr

/-- A row that has lost its contents. -/
def Row.zero : Row := { words := [(0, 0), (0, 0), (0, 0), (0, 0)], tag := 0, tagCheck := 0 }

/-- A line as a row stores it. -/
def Row.of (b : List Byte) (check : Nat) (p : Bool) : Row :=
  let t := check + if p then 2 ^ 16 else 0
  { words := [0, 1, 2, 3].map fun i => (fieldAt b (16 * i) 16, storedCheck Config.secdedData 9 (fieldAt b (16 * i) 16))
    tag := t, tagCheck := storedCheck Config.secdedTag 6 t }

/-- The row of a line. -/
def Dev.rowOf (d : Dev) (line : Nat) : Row :=
  if d.isLost line then Row.zero else Row.of (d.raw (64 * line) 64) (d.checkOf line) (d.isPoisoned line)

/-- A row with a word that does not decode is uncorrectable. -/
def Row.bad (r : Row) : Bool :=
  r.words.any (fun w => wordRead Config.secdedData 9 w.1 w.2 == .bad) || wordRead Config.secdedTag 6 r.tag r.tagCheck == .bad

/-- The cells that hold a line: those of fold memory belong to the physical fold. DESIGN CHOICE: log entry 112. -/
def Dev.cellKey (d : Dev) (line : Nat) : Nat :=
  match zoneOf (64 * line) with
  | .foldMem n off => 2 ^ 44 + d.physOf n * 2 ^ 17 + off / 64
  | _ => line

/-- The bit that SECDED corrects in a read of a line (R29, R162). -/
def Dev.lineFix (d : Dev) (line : Nat) : Option Nat :=
  if d.isLost line then none
  else match tget d.mem.err line with
    | some .uncorrectable => none
    | some (.single b) => some b
    | _ => tget d.mem.stuck (d.cellKey line)

/-- What makes a read of a line bad after any correction (R29, R161, R165): 0 an uncorrectable word, 1 its check. -/
def Dev.lineFault (d : Dev) (line : Nat) : Option Nat :=
  if d.isLost line then (if Row.zero.bad then some 0 else none)
  else match tget d.mem.err line with
    | some .uncorrectable => some 0
    | some .checkMismatch => some 1
    | _ => if d.checkBad line then some 1 else none

/-- The metadata line of a GDDR6 block as its controller holds it (R180). -/
def Dev.metaLine (d : Dev) (intf k : Nat) : List Byte :=
  let l := (List.range 15).map (gddrLine intf k)
  let pw := maskOf ((List.range 15).filter fun i => d.isPoisoned (gddrLine intf k i))
  l.flatMap (fun x => leBytes 2 (d.checkOf x)) ++
    l.flatMap (fun x => leBytes 2 (Config.gddrEcc (d.raw (64 * x) 64) (d.checkOf x))) ++
    leBytes 2 pw ++ leBytes 2 (Config.poisonEcc pw % 64)

/-- A write to a GDDR6 line puts its block's metadata line into the controller's cache of 64 KiB; the oldest beyond it is written
back (R182). DESIGN CHOICE: log entry 95. -/
def cacheMeta (t : Tab (List Nat)) (line : Nat) : Tab (List Nat) :=
  match zoneOf (64 * line) with
  | .gddr off =>
    let p := gddrPlace off
    tset t p.intf ((p.k :: (tgetD t p.intf []).filter (· != p.k)).take 1024)
  | _ => t

/-- The transfer of a line over its GDDR6 interface: an EDC mismatch repeats it up to three times, and the fourth failure raises
the link-CRC fault (R183). Whether it failed, and the device after it. -/
def Dev.transfer (d : Dev) (line : Nat) : Bool × Dev :=
  match zoneOf (64 * line) with
  | .gddr off =>
    let i := gddrIface off
    let k := tgetD d.mem.edc i 0
    if k = 0 then (false, d)
    else if k < 4 then (false, d.modMem fun m => { m with edc := terase m.edc i })
    else (true, (d.modMem fun m => { m with edc := if k = 4 then terase m.edc i else tset m.edc i (k - 4) }).raise
      (0x1D0 + i) 3 3 (64 * line))
  | _ => (false, d)

/-- Transfers of the GDDR6 interface of an address that are to fail their EDC (R183). DESIGN CHOICE: log entry 93. -/
def Dev.meetEdc (d : Dev) (a k : Nat) : Dev :=
  match zoneOf a with
  | .gddr off => if k = 0 then d
    else d.modMem fun m => { m with edc := tset m.edc (gddrIface off) (tgetD m.edc (gddrIface off) 0 + k) }
  | _ => d

/-- Extends the hold counter of a fold (R162, R320). DEDUCED: log entry 81. -/
def Dev.hold (d : Dev) (p n : Nat) : Dev := d.modPhys p fun x => { x with holdCycles := (x.holdCycles + n) % 2 ^ 64 }

/-- The fault of a correction at a line: CORRECTED first, STUCK_BIT second, nothing further within the window (R164). -/
def Dev.corrected (d : Dev) (line bit : Nat) : Dev :=
  let k := tgetD d.mem.corrected line 0
  let d := d.modMem fun m => { m with
    corrected := tset m.corrected line (k + 1)
    writeback := if m.writeback.contains line then m.writeback else m.writeback ++ [line] }
  if k = 0 then d.raise (d.memSource (64 * line)) 1 bit (64 * line)
  else if k = 1 then d.raise (d.memSource (64 * line)) 2 bit (64 * line) else d

/-- A read of the line corrects it. -/
def Dev.corrects (d : Dev) (line : Nat) : Bool := (d.lineFix line).isSome

/-- The correction of a read, with its hold where `holds` says that the read holds the fold (R162, R164). -/
def Dev.fixLine (d : Dev) (holds : Bool) (line : Nat) : Dev :=
  match d.lineFix line with
  | none => d
  | some bit =>
    let d := match zoneOf (64 * line) with
      | .foldMem n _ => if holds then d.hold (d.physOf n) 3 else d
      | _ => d
    d.corrected line bit

/-- Reads a line that has come over: SECDED corrects first; then a stored poisoned line is delivered poisoned with no fault, a bad one
with the fault at the reader's source `src` (R29, R162, R164 to R166). -/
def Dev.checkLine (d : Dev) (src : Nat) (holds : Bool) (line : Nat) : Bool × Dev :=
  let f := d.fixLine holds line
  if d.isPoisoned line then (true, f)
  else match d.lineFault line with
    | none => (false, f)
    | some detail =>
      let f := f.modMem fun m => { m with
        poisonStore := if m.poisonStore.contains line then m.poisonStore else m.poisonStore ++ [line] }
      (true, f.raise src 3 detail (64 * line))

/-- Reads one line; a GDDR6 line whose transfer fails, or whose data has not come in time, is delivered poisoned (R183, R184). -/
def Dev.readLine (d : Dev) (src : Nat) (holds : Bool) (line : Nat) : Bool × Dev :=
  let x := d.transfer line
  if x.1 then x
  else if x.2.mem.late.contains line then (true, x.2.modMem fun m => { m with late := m.late.filter (· != line) })
  else x.2.checkLine src holds line

/-- Reads every line of a range. -/
def Dev.readLines (d : Dev) (src : Nat) (holds : Bool) (a n : Nat) : Bool × Dev :=
  (linesOf a n).foldl (fun acc l => let r := acc.2.readLine src holds l; (acc.1 || r.1, r.2)) (false, d)

/-- A line as any write of all of it leaves it: fresh ECC and check, the poison bit as given (R161, R166). -/
def Dev.freshLine (d : Dev) (line : Nat) (p : Bool) : Dev :=
  (d.modMem fun m => { m with
      err := terase m.err line, check := terase m.check line, lost := m.lost.flatMap (cutOut (64 * line) 64)
      writeback := m.writeback.filter (· != line)
      poisonStore := m.poisonStore.filter (· != line)
      metaCache := cacheMeta m.metaCache line }).setPoison line p

/-- Writes bytes that lie in one line after its old content has been read: the merge of R140. `old`: the old line was bad. -/
def Dev.mergePiece (d : Dev) (a : Nat) (bs : List Byte) (p old : Bool) : Dev :=
  let x := d.transfer (a / 64)
  (x.2.freshLine (a / 64) (p || old || x.1)).poke a bs

/-- Writes bytes that lie in one line: a whole line is replaced, a part is merged at the memory port after the check of
the old line, whose fault is the memory's own (R140, R161); a transfer that fails poisons the line (R183). -/
def Dev.writePiece (d : Dev) (a : Nat) (bs : List Byte) (p : Bool) : Dev :=
  if bs.length = 64 then d.mergePiece a bs p false
  else
    let r := d.readLine (d.memSource a) false (a / 64)
    r.2.mergePiece a bs p r.1

/-- Writes a run of bytes, line by line. -/
def Dev.write (d : Dev) (a : Nat) (bs : List Byte) (p : Bool) : Dev :=
  (linePieces (bs.length / 64 + 2) a bs).foldl (fun d x => d.writePiece x.1 x.2 p) d

/-- An initialised or reloaded range: bytes written with valid lines (R193). -/
def Dev.init (d : Dev) (a : Nat) (bs : List Byte) : Dev :=
  (linesOf a bs.length).foldl (fun d l => d.freshLine l false) (d.poke a bs)

/-- Zeroes every byte and line of a range (R192, R193). -/
def Dev.zeroRange (d : Dev) (a n : Nat) : Dev :=
  let keep (k : Nat) : Bool := 64 * k + 64 ≤ a || a + n ≤ 64 * k
  d.modMem fun m => { m with
    bytes := mclear m.bytes a n, buffered := mclear m.buffered a n, poison := m.poison.filter (keep ·.1), check := m.check.filter (keep ·.1),
    lost := m.lost.flatMap (cutOut a n), err := m.err.filter (keep ·.1), corrected := m.corrected.filter (keep ·.1),
    writeback := m.writeback.filter keep, poisonStore := m.poisonStore.filter keep }

/-- A memory that loses its power: its rows hold zero bits until they are initialised or loaded (R159, R193). -/
def Dev.loseRange (d : Dev) (a n : Nat) : Dev := (d.zeroRange a n).modMem fun m => { m with lost := m.lost ++ [(a, n)] }

/-- The units on PLL clocks run: powered (R38) and with REFCLK present (R37). DESIGN CHOICE: log entry 87. -/
def Dev.clocked (d : Dev) : Bool := d.pow.state == .idle && !d.pow.refclkLost

/-- A command that acts only while the units on PLL clocks run; else nothing happens (R37, R38). -/
def runClocked (i : Instr) (f : Env → Dev → Dev) (s : State) : Host.Outcome State Fault Refusal :=
  run i (fun e d => if d.clocked then f e d else d) s

/-- Marks a GDDR6 interface that failed its start-up test (R584). -/
def Dev.gddrFailed (d : Dev) (a : Nat) : Bool :=
  match zoneOf a with
  | .gddr off => tgetD d.gddr.failed (gddrIface off) false
  | _ => false

/-! ## Completion rings (R364 to R383) -/

/-- The big-endian bytes of a number, as Ethernet fields are (R10). -/
def beBytes (n v : Nat) : List Byte := (leBytes n v).reverse

/-- The payload of an interrupt message (R383). -/
def irqPayload (d : Dev) (q : Nat) (m : MQueue) : List Byte :=
  [1, 1] ++ beBytes 2 q ++ beBytes 2 (d.flock.dev.getD 0xFFFF) ++ [0, 0] ++ beBytes 4 m.cqTail ++ beBytes 4 d.mbox.irqSeq

/-- Sends an interrupt message of a queue to the configured destination (R383). DESIGN CHOICE: log entry 78. -/
def Dev.sendIrq (d : Dev) (e : Env) (q : Nat) : Dev :=
  match d.queue q, d.mbox.irqDest with
  | some m, some x =>
    let sent : Dev := { d with
      flock := { d.flock with out := d.flock.out ++ [.irqMessage x (irqPayload d q m)] }
      mbox := { d.mbox with irqSeq := (d.mbox.irqSeq + 1) % 2 ^ 32 } }
    sent.modQueue q fun m => { m with irqSentAt := e.raw }
  | _, _ => d

/-- Whether a queue has an interrupt pending (R382). -/
def irqPending (raw : Nat) (m : MQueue) : Bool :=
  let u := m.unread.filter (·.interrupting)
  m.irqEn && (decide (m.coalCount ≤ u.length ∧ 0 < m.coalCount) ||
    (match u with
     | x :: _ => decide (x.posted + m.coalTimeUs * 1000 ≤ raw)
     | [] => false) || m.unread.any (·.urgent))

/-- Re-evaluates a queue's interrupt; it sends a message each time the interrupt becomes pending (R382, R383). -/
def Dev.evalIrq (d : Dev) (e : Env) (q : Nat) : Dev :=
  match d.queue q with
  | none => d
  | some m =>
    let p := irqPending e.raw m
    let d := d.modQueue q fun m => { m with irq := p }
    if p && !m.irq && m.ethIrq then d.sendIrq e q else d

/-- The 32 bytes of a completion entry (R367). -/
def entryBytes (tag status opcode sqHead flags r0 r1 r2 : Nat) : List Byte :=
  leBytes 4 tag ++ leBytes 2 status ++ leBytes 2 opcode ++ leBytes 2 sqHead ++ leBytes 2 flags ++ leBytes 4 r0 ++
    leBytes 8 r1 ++ leBytes 8 r2

/-- Writes one entry at the tail of a completion ring in one write and advances the tail (R368). -/
def Dev.post (d : Dev) (e : Env) (q tag status opcode : Nat) (note : Bool) (r0 r1 r2 : Nat) (interrupting urgent : Bool) : Dev :=
  match d.queue q with
  | none => d
  | some m =>
    let flags := (if m.phase then 1 else 0) + (if note then 2 else 0)
    let d := d.write (commonBase + m.cqBase + 32 * m.cqTail) (entryBytes tag status opcode m.sqHead flags r0 r1 r2) false
    let d := d.modQueue q fun m => { m with
      cqTail := if m.cqTail + 1 = m.cqEntries then 0 else m.cqTail + 1,
      phase := if m.cqTail + 1 = m.cqEntries then !m.phase else m.phase,
      unread := m.unread ++ [{ posted := e.raw, interrupting := interrupting, urgent := urgent }] }
    d.evalIrq e q

/-- A command's reply. -/
structure Reply where
  status : Nat := 0
  r0 : Nat := 0
  r1 : Nat := 0
  r2 : Nat := 0
deriving DecidableEq, Repr

/-- Status codes (R372). -/
def stOk : Nat := 0
def stBusy : Nat := 1
def stBadState : Nat := 2
def stBadArg : Nat := 3
def stDenied : Nat := 4
def stAlready : Nat := 5
def stAborted : Nat := 6
def stTimeout : Nat := 7
def stNotSupported : Nat := 8
def stIntegrity : Nat := 9

/-- Posts the completion entry of a command; a queue in ERROR, or one that is gone, receives none (R369, R371). -/
def Dev.complete (d : Dev) (e : Env) (q opcode : Nat) (s : Sub) (r : Reply) : Dev :=
  match d.queue q with
  | none => d
  | some m => if m.error then d
    else d.post e q s.tag r.status opcode false r.r0 r.r1 r.r2 (!bitOf s.flags 0) false

/-- Outstanding commands of a queue (R373). -/
def Dev.outstOf (d : Dev) (q : Nat) : Nat := (d.mbox.outst.filter (·.q == q)).length

/-- Free slots of a completion ring: those the host's HEAD has passed (R373). -/
def freeSlots (m : MQueue) : Nat := m.cqEntries - m.unread.length

/-- Firmware may post a notification (R381). -/
def Dev.roomFor (d : Dev) (q : Nat) : Bool :=
  match d.queue q with
  | some m => decide (d.outstOf q + 1 < freeSlots m)
  | none => false

/-- One notification entry with the queue's next sequence number (R380). -/
def Dev.postNote (d : Dev) (e : Env) (q kind r0 r1 r2 : Nat) (urgent : Bool) : Dev :=
  match d.queue q with
  | none => d
  | some m =>
    (d.post e q m.noteSeq 0 kind true r0 r1 r2 true urgent).modQueue q fun m =>
      { m with noteSeq := (m.noteSeq + 1) % 2 ^ 32 }

/-- The LOST notification that is owed once room returns (R381). -/
def Dev.postLost (d : Dev) (e : Env) (q : Nat) : Dev :=
  match d.queue q with
  | none => d
  | some m =>
    if !m.error && 0 < m.lost && d.roomFor q then
      (d.postNote e q 6 m.lost 0 0 false).modQueue q fun m => { m with lost := 0 }
    else d

/-- Posts a notification on a queue, or drops and counts it; a dropped one uses up its sequence number (R381). -/
def Dev.noteOn (d : Dev) (e : Env) (q kind r0 r1 r2 : Nat) (urgent : Bool) : Dev :=
  let drop (d : Dev) : Dev := { d with mbox := { d.mbox with notifyLost := (d.mbox.notifyLost + 1) % 2 ^ 32 } }
  match d.queue q with
  | none => drop d
  | some m =>
    if m.error then drop d
    else
      let d := d.postLost e q
      if d.roomFor q then d.postNote e q kind r0 r1 r2 urgent
      else (drop d).modQueue q fun m => { m with lost := m.lost + 1, noteSeq := (m.noteSeq + 1) % 2 ^ 32 }

/-- The queue that takes a notification of a mask bit: the highest-numbered that selects it, else queue 0 (R381). -/
def Dev.noteQueue (d : Dev) (bit : Nat) : Nat :=
  (d.mbox.queues.filter fun x => x.1 != 0 && !x.2.error && bitOf x.2.notifyMask bit).foldl (fun m x => max m x.1) 0

/-- Firmware serves the rings: ready, and neither asleep nor on its way out of STANDBY (R385, R585). -/
def Dev.serving (d : Dev) : Bool := d.mbox.ready && (d.pow.state == .idle || d.pow.phase == .bringUp)

/-- A notification while firmware cannot post it: it waits for IDLE in STANDBY, and before ready there is none (R385). -/
def Dev.holdNote (d : Dev) (x : HeldNote) : Dev :=
  if d.mbox.ready then { d with mbox := { d.mbox with heldNotes := d.mbox.heldNotes ++ [x] } } else d

/-- Notification kinds with their mask bit: LOAD_SHIFT 2, FAULT 3, STATE 4, POWER 5 (R380, R381, R385). -/
def Dev.notify (d : Dev) (e : Env) (kind r0 r1 r2 : Nat) (urgent : Bool) : Dev :=
  if d.serving then d.noteOn e (d.noteQueue (kind - 2)) kind r0 r1 r2 urgent
  else d.holdNote { kind := kind, r0 := r0, r1 := r1, r2 := r2, urgent := urgent }

/-- The state code of R380. -/
def fnCode : FnState → Nat
  | .unconfigured => 0
  | .stopped => 1
  | .running => 2
  | .stopping => 3
  | .faulted => 4

/-- A STATE notification of a change that no command caused (R380). Kinds: 0 gate, 1 program instance, 2 domain,
3 trigger, 4 stile, 5 peer link. -/
def Dev.noteState (d : Dev) (e : Env) (kind : Nat) (st : FnState) (n : Nat) (m : Nat) : Dev :=
  d.notify e 4 (kind + 256 * fnCode st + 65536 * n) m e.raw false

/-! ## Work that a command leaves open (R374) -/

/-- A LONG command becomes outstanding. -/
def Dev.open (d : Dev) (o : Outst) : Dev := { d with mbox := { d.mbox with outst := d.mbox.outst ++ [o] } }

/-- The outstanding command of a queue and tag. -/
def Dev.outstBy (d : Dev) (q tag : Nat) : Option Outst := d.mbox.outst.find? fun o => o.q == q && o.e.tag == tag

/-- Ends an outstanding command and posts its completion. -/
def Dev.finish (d : Dev) (e : Env) (o : Outst) (r : Reply) : Dev :=
  let d := { d with mbox := { d.mbox with outst := d.mbox.outst.filter fun x => !(x.q == o.q && x.e.tag == o.e.tag) } }
  d.complete e o.q o.opcode o.e r

/-- Ends every outstanding command that meets a test, in the order in which firmware took them. -/
def Dev.finishAll (d : Dev) (e : Env) (p : Outst → Bool) (r : Reply) : Dev :=
  (d.mbox.outst.filter p).foldl (fun d o => d.finish e o r) d

/-- How a handler answers: it completes the command, leaves it outstanding with work recorded, or, for a command whose
completion another event has already posted, says nothing. -/
inductive Answer where
  | done (r : Reply)
  | long (image : Option Image) (aux : List Nat)
  | posted
deriving DecidableEq, Repr

/-- A command handler: environment, queue, entry, device. -/
abbrev Handler := Env → Nat → Sub → Dev → Answer × Dev

/-- A refusal changes nothing (R372). -/
def refuse (st : Nat) (d : Dev) : Answer × Dev := (.done { status := st }, d)

/-- An IMMEDIATE command done as requested. -/
def ok (d : Dev) : Answer × Dev := (.done {}, d)

end Sys2Proof.Machine
end

