-- ==== Sys2Proof/Machine/Flags.lean ====
section
/-! DEFINITION. The flag words of the device: tallies and their flags (R74, R77), readiness notices (R121), the status
block (R361 to R363, R322, R581, R552), and the view of memory that it gives. -/

namespace Sys2Proof.Machine

open Sys2Proof

/-! ## Tallies -/

/-- Flag bits of a tally (R77). -/
def flConcealed : Nat := 0
def flPoisoned : Nat := 1
def flAbandoned : Nat := 2
def flLate : Nat := 3
def flUnconfirmed : Nat := 4
def flHostMade : Nat := 5
def flRepeated : Nat := 6
def flIncomplete : Nat := 7
def flDebug : Nat := 8
def flDomainB : Nat := 9

/-- A word with the listed flags set. -/
def flagWord (l : List (Nat × Bool)) : Nat := maskOf ((l.filter (·.2)).map (·.1))

/-- The 32 bytes of a tally with its fresh tally_crc (R74). -/
def tallyBytes (gate flags counter capture length crc producer : Nat) : List Byte :=
  let b := leBytes 2 gate ++ leBytes 2 flags ++ leBytes 4 counter ++ leBytes 8 capture ++ leBytes 4 length ++
    leBytes 4 crc ++ leBytes 4 producer
  b ++ leBytes 4 (crc32c b)

/-- Whether 32 bytes carry their own tally_crc (R74). -/
def tallyOk (b : List Byte) : Bool := fieldAt b 0x1C 4 == crc32c (b.take 0x1C)

/-- A tally with one more flag and a fresh tally_crc (R190, R377). -/
def tallyFlag (b : List Byte) (bit : Nat) : List Byte :=
  let c := b.take 2 ++ leBytes 2 (fieldAt b 2 2 ||| 2 ^ bit) ++ (b.drop 4).take 0x18
  c ++ leBytes 4 (crc32c c)

/-- Sets a flag in a stored tally and writes a fresh tally_crc. -/
def Dev.flagTally (d : Dev) (a bit : Nat) : Dev := d.write a (tallyFlag (d.raw a 32) bit) false

/-- A readiness notice (R121); slot 0 makes it a drop notice (R66). -/
def noticeBytes (slot gate flags counter : Nat) : List Byte :=
  leBytes 8 slot ++ leBytes 2 gate ++ leBytes 2 flags ++ leBytes 4 counter

/-! ## The status block -/

/-- HPC_DEBUG (R552). -/
def Dev.hpcDebug (d : Dev) : Nat :=
  match d.sec.session with
  | some s => 1 + (if s.level = 2 then 2 else 0)
  | none => 0

/-- HPC_BOOT (R581). -/
def bootWord (b : Boot) : Nat :=
  b.stage % 16 + b.source % 4 * 16 + flagWord [(6, b.testDone), (7, b.testPass)] + b.testFail % 256 * 256

/-- HPC_READY (R363). -/
def Dev.readyWord (d : Dev) : Nat := flagWord [(0, true), (1, d.safe.safe0), (2, d.safe.safe1)]

/-- HPC_FSET[f] (R322). -/
def fsetRecord (s : FSet) : List Byte :=
  let c := s.cfg.getD { period := 0, dom := 0, offset := 0, hold := 0, epoch := 0 }
  leBytes 8 c.epoch ++ leBytes 8 c.period ++ leBytes 8 c.offset ++ leBytes 4 s.current ++
    leBytes 4 (flagWord [(0, s.running), (1, c.dom == 1)]) ++ leBytes 8 s.rawDeadline ++ leBytes 4 s.doneValue ++
    leBytes 4 s.late ++ leBytes 4 s.incomplete ++ leBytes 4 0 ++ leBytes 8 s.doneTime

/-- The 4-byte words of the status block at a multiple of 4; fields not listed read as zero (R362). -/
def Dev.statusWord (d : Dev) (off : Nat) : Nat :=
  if off = 0x020 then bootWord d.mbox.boot
  else if !d.mbox.ready then 0
  else if off = 0x000 then d.readyWord
  else if off = 0x004 then 1
  else if off = 0x008 then d.mbox.heartbeat % 2 ^ 32
  else if off = 0x00C then d.mbox.heartbeat / 2 ^ 32
  else if off = 0x010 then maskOf (tkeys d.mbox.queues fun _ => true)
  else if off = 0x014 then maskOf (tkeys d.mbox.queues (·.error))
  else if off = 0x018 then d.mbox.notifyLost
  else if off = 0x0C4 then d.mbox.hostAlive.toNat
  else if 0x100 ≤ off ∧ off < 0x180 then ((d.queue ((off - 0x100) / 4)).map (·.sqHead)).getD 0
  else if 0x800 ≤ off ∧ off < 0xC00 then fieldAt (fsetRecord (d.fset ((off - 0x800) / 64))) (off % 64) 4
  else 0

/-- The doorbell word at a host offset: the last value accepted; other bytes of its line read zero (R364). -/
def Dev.doorbellWord (d : Dev) (off : Nat) : Nat :=
  match d.queue ((off - 0x1000) / 0x80) with
  | none => 0
  | some m => if off % 0x80 = 0 then m.sqTail else if off % 0x80 = 0x40 then m.cqHead else 0

/-- A byte of the host pen as any reader sees it (R360). -/
def Dev.penByte (d : Dev) (off : Nat) : Byte :=
  if off < 0x1000 then BitVec.ofNat 8 (d.statusWord (off / 4 * 4) / 256 ^ (off % 4))
  else if off < 0x2000 then BitVec.ofNat 8 (d.doorbellWord (off / 4 * 4) / 256 ^ (off % 4))
  else if 0x2000 ≤ off ∧ off < 0x2004 then BitVec.ofNat 8 (d.hpcDebug / 256 ^ (off - 0x2000))
  else mget d.mem.bytes (commonBase + off)

/-- A byte at a device address: the status block, doorbells and HPC_DEBUG as firmware keeps them, else memory. -/
def Dev.byte (d : Dev) (a : Nat) : Byte :=
  if commonBase ≤ a ∧ a < commonBase + 0x2004 then d.penByte (a - commonBase) else mget d.mem.bytes a

/-- A run of bytes at a device address. -/
def Dev.bytes (d : Dev) (a n : Nat) : List Byte := (List.range n).map fun i => d.byte (a + i)

end Sys2Proof.Machine
end

