-- ==== Sys2Proof/Machine/Operands.lean ====
section
/-! DEFINITION. Operand forms: the registers of threads (R128), the fields and blocks of submission entries (R366, R387 to
R391), and the function states that commands check (R378). -/

namespace Sys2Proof

open Sys2Proof.Machine

/-- The fields every entry must meet whatever its opcode: reserved flags zero and the timeout in range (R366, R15, R390).
DESIGN CHOICE: log entry 19. -/
def Sub.formOk (s : Sub) : Bool := s.flags < 2 && s.timeoutUs ≤ 60000000

/-- The stretches of the args that a command does not use must be zero (R15, R387). -/
def Sub.zeros (s : Sub) (l : List (Nat × Nat)) : Bool := l.all fun x => s.zero x.1 x.2

/-- The reserved stretches of a command's args (R15, R371, R379, R387, R392 to R410). A command that only uses a block keeps
reply_off zero, and one that only uses a reply keeps the three block fields zero: R387 says so only of a command that uses neither
(DESIGN CHOICE, log entry 19). -/
def reservedOf (o : Nat) : List (Nat × Nat) :=
  if o = 0x0001 then [(0x21, 1), (0x28, 24)]
  else if o = 0x0002 then [(0x12, 46)]
  else if o = 0x0003 then [(0x12, 2), (0x18, 40)]
  else if o = 0x0004 ∨ o = 0x0700 ∨ o = 0x0801 ∨ o = 0x0802 then [(0x10, 32), (0x34, 12)]
  else if o = 0x0005 then [(0x1E, 2), (0x30, 16)]
  else if o = 0x0006 then [(0x11, 1), (0x14, 44)]
  else if o = 0x0100 then [(0x12, 2), (0x18, 40)]
  else if o = 0x0200 ∨ o = 0x0205 ∨ o = 0x0400 ∨ o = 0x0804 then [(0x1C, 36)]
  else if o = 0x0203 ∨ o = 0x0303 ∨ o = 0x0502 ∨ o = 0x0512 ∨ o = 0x0612 ∨ o = 0x0622 then [(0x11, 47)]
  else if o = 0x0204 ∨ o = 0x0309 then [(0x14, 44)]
  else if o = 0x0300 ∨ o = 0x0803 ∨ o = 0x0903 then [(0x10, 32), (0x30, 4)]
  else if o = 0x0305 then [(0x2A, 22)]
  else if o = 0x0306 ∨ o = 0x0602 then [(0x12, 46)]
  else if o = 0x0307 then [(0x12, 2), (0x1A, 38)]
  else if o = 0x0308 then [(0x15, 3), (0x28, 24)]
  else if o = 0x0401 ∨ o = 0x0701 then [(0x12, 30), (0x30, 4)]
  else if o = 0x0402 then [(0x11, 47)]
  else if o = 0x0403 then [(0x1A, 2), (0x24, 12), (0x30, 4)]
  else if o = 0x0404 then [(0x19, 39)]
  else if o = 0x0500 then [(0x16, 42)]
  else if o = 0x0505 then [(0x11, 3), (0x18, 40)]
  else if o = 0x0510 then [(0x13, 1), (0x28, 24)]
  else if o = 0x0600 then [(0x15, 43)]
  else if o = 0x0601 then [(0x12, 6), (0x20, 32)]
  else if o = 0x0610 then [(0x16, 2), (0x1E, 34)]
  else if o = 0x0620 then [(0x21, 3), (0x28, 8), (0x30, 4)]
  else if o = 0x0800 then [(0x13, 45)]
  else if o = 0x0805 then [(0x18, 40)]
  else if o = 0x0900 then [(0x34, 12)]
  else if o = 0x0901 then [(0x11, 31), (0x30, 4)]
  else if o = 0x0301 then [(0x30, 16)]
  else [(0x10, 48)]

/-- No reserved stretch of a command's args holds anything but zero, nor the reserved bits of GATE_FEED's flags and of a mask of the
49 folds (R15). -/
def Sub.reservedOk (s : Sub) (o : Nat) : Bool :=
  s.zeros (reservedOf o) && (o != 0x0305 || s.field 0x28 2 < 4) && ((o != 0x0403 && o != 0x0404) || s.field 0x10 8 < 2 ^ 49)

/-- The reply block of an entry has room and alignment, and the block fields are zero (R389; DESIGN CHOICE, log entry 19). -/
def Sub.replyOk (s : Sub) (n : Nat) : Bool :=
  let off := s.field 0x30 4
  s.zero 0x34 12 && decide (off % 64 = 0 ∧ 0x2000000 ≤ off ∧ off + n ≤ 0x4000000)

/-- The fields of a stop command (R379). -/
def Sub.stopForm (s : Sub) : Bool := s.field 0x10 1 < 2 && s.zero 0x11 47

end Sys2Proof

namespace Sys2Proof.Machine

open Sys2Proof

/-! ## Thread registers (R128) -/

/-- A general register; s0 reads as zero. -/
def Thread.reg (t : Thread) (r : Nat) : Word := if r = 0 then 0 else tgetD t.regs r 0

/-- A write of a general register; a write of s0 is ignored. Registers that are zero are not listed. -/
def Thread.setReg (t : Thread) (r : Nat) (v : Word) : Thread :=
  if r = 0 ∨ 31 < r then t else { t with regs := if v = 0 then terase t.regs r else tset t.regs r v }

/-- The logical fold and context of a thread number (R128). -/
def foldOfThread (t : Nat) : Nat := t / 64
def ctxOfThread (t : Nat) : Nat := t % 64

/-- The engines that ISSUE and WAIT may name: a fold has five, the Collie its arrays and vector units (R132, R486). -/
def engineCount (n : Nat) : Nat := if n = collieFold then 8 else 5

/-- A thread starts at an entry pc: s1 the argument address, s2 the reason (R128, R153, R146).
DESIGN CHOICE: log entry 7. -/
def Thread.launch (t : Thread) (x : ThreadDecl) (s1 s2 : Nat) : Thread :=
  let r := { t with regs := x.regs.filter fun y => 3 ≤ y.1 && y.1 ≤ 31 && y.2 != 0, pc := BitVec.ofNat 32 x.entry }
  { (r.setReg 1 (BitVec.ofNat 64 s1)).setReg 2 (BitVec.ofNat 64 s2) with
      high := x.high, st := .ready, wait := none, faultCode := 0, poisonMark := false }

/-! ## Entries and blocks -/

/-- Entry bytes 0x30 to 0x3F where neither block nor reply is used (R387). -/
def noBlock : Nat × Nat := (0x30, 16)

/-- The block of an entry: its bytes, or the status that refuses the command (R388). -/
def Dev.block (d : Dev) (s : Sub) : Nat × List Byte × Dev :=
  let off := s.field 0x34 4
  let len := s.field 0x38 4
  if off % 64 ≠ 0 ∨ off < 0x2000000 ∨ 0x4000000 < off + len ∨ len < 4 ∨ 2 ^ 24 < len then (stBadArg, [], d)
  else
    let b := d.raw (commonBase + off) len
    let r := d.readLines 0x003 false (commonBase + off) len
    if r.1 || crc32c b ≠ s.field 0x3C 4 then (stIntegrity, [], r.2) else (stOk, b, r.2)

/-- A command with a parameter block; `f` answers on the block's bytes, and its refusal leaves the device as it was but
for the faults of the reads. The reply field is zero (DESIGN CHOICE, log entry 19). -/
def Dev.withBlock (d : Dev) (s : Sub) (f : List Byte → Dev → Answer × Dev) : Answer × Dev :=
  if !s.zero 0x30 4 then refuse stBadArg d
  else
    let r := d.block s
    if r.1 = stOk then f r.2.1 r.2.2 else refuse r.1 r.2.2

/-- Writes a reply block (R389). -/
def Dev.reply (d : Dev) (s : Sub) (b : List Byte) : Dev := d.write (commonBase + s.field 0x30 4) b false

/-- A source range of R398: 64-byte aligned, wholly in the buffer area or in GDDR6. -/
def sourceOk (a n : Nat) : Bool :=
  a % 64 = 0 && decide ((commonBase + 0x2000000 ≤ a ∧ a + n ≤ commonBase + 0x4000000) ∨
    (gddrBase ≤ a ∧ a + n ≤ gddrBase + gddrSize))

/-- The VLAN values of R406. -/
def vlanOk (v : Nat) : Bool := v ≤ 4094 || v = 0xFFFF

/-! ## Function states (R378) -/

/-- A configure is accepted. -/
def FnState.canConfigure : FnState → Bool
  | .unconfigured | .stopped => true
  | _ => false

/-- A start is accepted. -/
def FnState.canStart : FnState → Bool
  | .stopped => true
  | _ => false

/-- RUNNING or STOPPING. -/
def FnState.active : FnState → Bool
  | .running | .stopping => true
  | _ => false

/-- A live command is accepted. -/
def FnState.live : FnState → Bool
  | .stopped | .running => true
  | _ => false

/-- Release: its status and the state after it. -/
def FnState.release : FnState → Nat × FnState
  | .unconfigured => (stOk, .unconfigured)
  | .stopped => (stOk, .unconfigured)
  | s => (stBadState, s)

/-- How a stop of a function in a state with a mode is answered (R378, R379). -/
inductive StopPath where
  | refused (status : Nat)
  | already
  | fromFault
  | drain
  | discard
  | escalate
deriving DecidableEq, Repr

/-- The stop columns of R378; `draining` says that a DRAIN is in progress. -/
def FnState.stopPath (s : FnState) (mode : Nat) (draining : Bool) : StopPath :=
  match s with
  | .unconfigured => .refused stBadState
  | .stopped => .already
  | .faulted => .fromFault
  | .running => if mode = 0 then .drain else .discard
  | .stopping => if mode = 1 && draining then .escalate else .refused stBusy

/-- The function that a stop command acts on: kind code of R380 and number. -/
def stopFn (opcode : Nat) : Option Nat :=
  if opcode = 0x303 then some 0 else if opcode = 0x203 then some 1 else if opcode = 0x502 then some 2
  else if opcode = 0x512 then some 3 else if opcode = 0x622 then some 4 else if opcode = 0x612 then some 5 else none

/-- The outstanding stop of a function, with mode. DEDUCED: log entry 70. -/
def Dev.stopOf (d : Dev) (opcode n mode : Nat) : Option Outst :=
  d.mbox.outst.find? fun o => o.opcode == opcode && o.e.target == n && o.e.field 0x10 1 == mode

/-! ## Registration of timeouts (R374, R390) -/

/-- Default timeout of a LONG opcode in µs; none: IMMEDIATE (the tables of Command Reference). -/
def longDefault (opcode : Nat) : Option Nat :=
  if opcode = 0x0002 then some 10000
  else if opcode = 0x0003 then some 1000000
  else if opcode = 0x0200 then some 5000000
  else if opcode = 0x0204 then some 100000
  else if opcode = 0x0205 then some 60000000
  else if opcode = 0x0203 ∨ opcode = 0x0303 ∨ opcode = 0x0502 ∨ opcode = 0x0512 ∨ opcode = 0x0612 ∨ opcode = 0x0622 then some 100000
  else if opcode = 0x0305 then some 100000
  else if opcode = 0x0400 ∨ opcode = 0x0401 ∨ opcode = 0x0404 then some 10000
  else if opcode = 0x0402 then some 1000000
  else if opcode = 0x0601 ∨ opcode = 0x0602 then some 100000
  else if opcode = 0x0611 then some 1000000
  else if opcode = 0x0702 then some 10000
  else if opcode = 0x0900 then some 100000
  else if opcode = 0x0901 then some 1000000
  else none

/-- The opcodes of Command Reference and R371. -/
def opcodeKnown (o : Nat) : Bool :=
  decide ((1 ≤ o ∧ o ≤ 6) ∨ o = 0x100 ∨ (0x200 ≤ o ∧ o ≤ 0x205) ∨ (0x300 ≤ o ∧ o ≤ 0x309) ∨ (0x400 ≤ o ∧ o ≤ 0x404) ∨
    (0x500 ≤ o ∧ o ≤ 0x506) ∨ (0x510 ≤ o ∧ o ≤ 0x513) ∨ (0x600 ≤ o ∧ o ≤ 0x602) ∨ (0x610 ≤ o ∧ o ≤ 0x613) ∨
    (0x620 ≤ o ∧ o ≤ 0x623) ∨ (0x700 ≤ o ∧ o ≤ 0x702) ∨ (0x800 ≤ o ∧ o ≤ 0x805) ∨ (0x900 ≤ o ∧ o ≤ 0x904))

/-- How many targets a command may name; 1 where the target is unused and must be zero (R366, R391). -/
def targetLimit (o : Nat) : Nat :=
  if o = 0x205 then 1
  else if 0x200 ≤ o ∧ o ≤ 0x204 then 16
  else if o = 0x306 then 48
  else if o = 0x307 then 12
  else if o = 0x308 ∨ o = 0x309 then 16
  else if 0x300 ≤ o ∧ o ≤ 0x305 then 64
  else if o = 0x400 then 128
  else if o = 0x401 ∨ o = 0x402 then 64
  else if o = 0x505 then 4
  else if 0x500 ≤ o ∧ o ≤ 0x506 then 2
  else if 0x510 ≤ o ∧ o ≤ 0x513 then 17
  else if o = 0x602 then 4
  else if 0x610 ≤ o ∧ o ≤ 0x613 then 512
  else if 0x620 ≤ o ∧ o ≤ 0x623 then 64
  else 1

/-- Commands that firmware serves from HPC_READY[0] until IDLE (R585). -/
def servedEarly (o : Nat) : Bool := o < 0x100 || (0x800 ≤ o && o < 0x900) || o = 0x900

/-- Serves one taken entry: the checks common to all commands, then the command's handler (R373, R374, R377, R585). A
second command with the tag of an outstanding one is refused; a marked one is aborted and acts on nothing. -/
def Dev.serve (d : Dev) (e : Env) (q opcode : Nat) (s : Sub) (h : Handler) : Dev :=
  let fin (st : Nat) (d : Dev) : Dev := d.complete e q opcode s { status := st }
  if d.mbox.marked.contains (q, s.tag) then
    let d := { d with mbox := { d.mbox with marked := d.mbox.marked.filter (· != (q, s.tag)) } }
    (fin stAborted d).finishAll e
      (fun o => o.opcode == 3 && o.e.field 0x10 2 == q && o.e.field 0x14 4 == s.tag) {}
  else if (d.outstBy q s.tag).isSome then fin stBadArg d
  else if !s.formOk then fin stBadArg d
  else if !opcodeKnown opcode then fin stNotSupported d
  else if !s.reservedOk opcode then fin stBadArg d
  else if d.pow.state != .idle && !servedEarly opcode then fin stBusy d
  else if targetLimit opcode ≤ s.target then fin stBadArg d
  else match h e q s d with
    | (.done r, d) => d.complete e q opcode s r
    | (.posted, d) => d
    | (.long img aux, d) =>
      d.open {
        q := q, opcode := opcode, e := s, image := img, aux := aux,
        deadline := e.raw + 1000 * (if s.timeoutUs = 0 then (longDefault opcode).getD 0 else s.timeoutUs) }

/-- Exposed entries not yet taken (R364). -/
def MQueue.used (m : MQueue) : Nat := (m.sqTail + m.sqEntries - m.sqHead) % m.sqEntries

/-- Firmware may take from a queue: it is neither in ERROR nor being deleted, and its completion ring has a free slot for every
outstanding command and one more (R369, R373). -/
def Dev.canTake (d : Dev) (q : Nat) : Bool :=
  match d.queue q with
  | none => false
  | some m => !m.error && decide (d.outstOf q + 1 ≤ freeSlots m) &&
      !d.mbox.outst.any fun o => o.opcode == 2 && o.e.field 0x10 2 == q

/-- A queue whose entry a mailbox row has firmware take: HPC_SQ_HEAD passes it, and an entry that the ring did not yet expose is
exposed by the row. DESIGN CHOICE: log entry 19. -/
def MQueue.passed (m : MQueue) : MQueue :=
  { m with
    sqHead := (m.sqHead + 1) % m.sqEntries
    sqTail := if m.used = 0 then (m.sqTail + 1) % m.sqEntries else m.sqTail }

/-- The device once firmware has taken the entry of queue `q` (R373). -/
def Dev.passed (d : Dev) (q : Nat) : Dev := d.modQueue q (·.passed)

/-- A mailbox row: firmware takes the entry of the queue and serves it, if it serves at all and may take from the queue.
DESIGN CHOICE: log entry 19. -/
def serveRow (opcode : Nat) (h : Handler) (q : Nat) (s : Sub) (e : Env) (d : Dev) : Dev :=
  if d.serving && !d.mbox.frozen && d.canTake q then (d.passed q).serve e q opcode s h else d

end Sys2Proof.Machine
end

