-- ==== Sys2Proof/Machine/Objects.lean ====
section
/-! DEFINITION. Fold queues, guarded slots and hurdles as shared operations (R288 to R316), the sending of Ndourn frames
that hurdles and messages need (R437 to R443, R456), and the abandon notices of R315. -/

namespace Sys2Proof.Machine

open Sys2Proof

/-! ## Sources and identifiers -/

/-- The work source of a logical fold (R508). -/
def Dev.workSrc (d : Dev) (n : Nat) : Nat := if n = collieFold then 0x340 else 0x100 + d.physOf n

/-- The work source of a thread's fold. -/
def Dev.threadSrc (d : Dev) (t : Nat) : Nat := d.workSrc (foldOfThread t)

/-- An OBJECT fault (R510). -/
def Dev.objFault (d : Dev) (src detail ident : Nat) : Dev := d.raise src 0x08 detail (ident % 65536)

/-- A STARVATION fault at a thread's fold (R294, R314). -/
def Dev.starve (d : Dev) (t detail ident : Nat) : Dev := d.raise (d.threadSrc t) 0x09 detail (ident % 65536)

/-! ## Releasing a waiting thread -/

/-- Since when a guard has held back a store of a thread that is still the thread's own (R306). -/
def Dev.parkedSince (d : Dev) (t : Nat) : Option Nat :=
  (d.posted.find? fun p => p.thread == t && p.refusedAt.isSome && !p.dead).bind (·.refusedAt)

/-- A store or atomic of the thread waits at a guard (reason 5, R306). -/
def Dev.parkedStore (d : Dev) (t : Nat) : Bool := (d.parkedSince t).isSome

/-- A thread that could issue waits instead while a guard holds back a store of it (R306). -/
def Dev.parkHeld (d : Dev) (t : Nat) : Dev :=
  match d.parkedSince t with
  | some r => if (d.thread t).st = .ready then
      d.modThread t fun th => { th with st := .waiting, wait := some { what := .heldStore, since := r } }
    else d
  | none => d

/-- Ends a thread's wait, writing the listed registers. DESIGN CHOICE: log entry 38. -/
def Dev.wake (d : Dev) (t : Nat) (l : List (Nat × Word)) : Dev :=
  (d.modThread t fun th => { l.foldl (fun th x => th.setReg x.1 x.2) th with st := .ready, wait := none }).parkHeld t

/-- Ends a wait with a status in rd (R294). -/
def Dev.wakeStatus (d : Dev) (t rd status : Nat) : Dev := d.wake t [(rd, BitVec.ofNat 64 status)]

/-- The threads that wait for something, in ascending order. -/
def Dev.waiting (d : Dev) (p : WaitFor → Bool) : List Nat :=
  tkeys d.threads fun th => th.st == .waiting && (th.wait.map fun w => p w.what).getD false

/-- What a thread waits for. -/
def Dev.waitOf (d : Dev) (t : Nat) : Option Wait :=
  if (d.thread t).st = .waiting then (d.thread t).wait else none

def Dev.whatOf (d : Dev) (t : Nat) : Option WaitFor := (d.waitOf t).map (·.what)

/-- A thread goes on once no guard holds back a store of it (R306). -/
def Dev.unhold (d : Dev) (t : Nat) : Dev :=
  if d.whatOf t = some .heldStore ∧ d.parkedStore t = false then d.wake t [] else d

/-- The destination register of a wait that returns a status. -/
def waitReg : WaitFor → Nat
  | .queue _ rd _ | .credit _ rd _ | .slotFull _ rd _ | .slotEmpty _ rd _ | .hurdle _ rd | .time _ _ rd => rd
  | _ => 0

/-! ## Fold queues (R296 to R302) -/

/-- The index of a producer in a queue's list. -/
def prodIndex (q : FQueue) (w : Prod) : Option Nat :=
  (List.range q.prods.length).find? fun i => (q.prods[i]?).map (·.who) == some w

/-- Changes one producer's count of used credits. -/
def setUsed (q : FQueue) (i : Nat) (f : Nat → Nat) : FQueue :=
  { q with prods := q.prods.zipIdx.map fun x => if x.2 = i then { x.1 with used := f x.1.used } else x.1 }

/-- The position of the entry that a WAIT QUEUE takes: the oldest in STREAM mode; in PACKET mode the first of the packet
whose END arrived first, an abandon notice being a packet of its own (R301). -/
def takePos (q : FQueue) : Option Nat :=
  if q.packet then
    match (q.entries.zipIdx.find? fun x => x.1.atEnd) with
    | none => none
    | some (x, i) =>
      if x.abandon then some i
      else ((q.entries.zipIdx.find? fun y => y.1.prod == x.prod && !y.1.abandon).map (·.2))
  else if q.entries = [] then none else some 0

/-- The even-parity bits of the four 32-bit words of an entry (R296). -/
def parityOf (b : List Byte) : Nat :=
  maskOf ((List.range 4).filter fun i => ((List.range 32).filter fun k => (fieldAt b (4 * i) 4).testBit k).length % 2 = 1)

/-- An entry's stored parity bits fit its bytes. -/
def QEntry.parityOk (x : QEntry) : Bool := x.parity == parityOf x.data

/-- The status word of an entry taken: status, END, parity, producer index (R294, R299, R316). -/
def takenWord (x : QEntry) : Nat :=
  (if x.abandon then 1 else 0) + (if x.atEnd then 4 else 0) + (if x.parityOk then 0 else 8) + x.prod % 16 * 16

/-- Releases the threads that wait for a credit of a producer (R292). -/
def Dev.creditFreed (d : Dev) (ident : Nat) (w : Prod) : Dev :=
  match w with
  | .thread t =>
    match d.waitOf t with
    | some { what := .credit i rd _, .. } => if i = ident then d.wakeStatus t rd 0 else d
    | _ => d
  | _ => d

/-- One thread takes the next entry: it receives the word and the two halves, its credit returns, and a failed parity
check sets its poison mark and raises a fault (R299, R300). -/
def Dev.takeEntry (d : Dev) (ident t rd : Nat) : Dev :=
  match tget d.queues ident with
  | none => d
  | some q =>
    match takePos q with
    | none => d
    | some i =>
      match q.entries[i]? with
      | none => d
      | some x =>
        let who := (q.prods[x.prod]?).map (·.who)
        let q1 := { q with entries := q.entries.eraseIdx i, waiters := q.waiters.filter (· != t) }
        let q2 := if x.abandon then q1 else setUsed q1 x.prod (· - 1)
        let d := { d with queues := tset d.queues ident q2 }
        let d := d.wake t [(rd, BitVec.ofNat 64 (takenWord x)), (rd + 1, BitVec.ofNat 64 (fieldAt x.data 0 8)),
          (rd + 2, BitVec.ofNat 64 (fieldAt x.data 8 8))]
        let d := if x.parityOk then d
          else (d.modThread t fun th => { th with poisonMark := true }).raise (d.workSrc (ident / 256)) 3 6 0
        if x.abandon then d else match who with
          | some w => d.creditFreed ident w
          | none => d

/-- Lets waiting threads take entries, the longest-waiting first (R300). DESIGN CHOICE: log entry 38. -/
def Dev.serveQueue : Nat → Nat → Dev → Dev
  | 0, _, d => d
  | fuel + 1, ident, d =>
    match tget d.queues ident with
    | none => d
    | some q =>
      match q.waiters, takePos q with
      | t :: _, some _ =>
        match d.waitOf t with
        | some { what := .queue _ rd _, .. } => Dev.serveQueue fuel ident (d.takeEntry ident t rd)
        | _ => Dev.serveQueue fuel ident { d with queues := tset d.queues ident { q with waiters := q.waiters.drop 1 } }
      | _, _ => d

/-- An entry reaches its queue: undeclared or unlisted, it is dropped with a bad-object fault at the issuing block; with
no free credit it is ignored with the overrun bit and a fault at the queue's fold (R290, R299). -/
def Dev.deliver (d : Dev) (ident : Nat) (w : Prod) (data : List Byte) (atEnd : Bool) (src : Nat) : Dev :=
  match tget d.queues ident with
  | none => d.objFault src 0 ident
  | some q =>
    match prodIndex q w with
    | none => d.objFault src 0 ident
    | some i =>
      let full := ((q.prods[i]?).map fun p => decide (p.credits ≤ p.used)).getD true
      if full then
        { d with queues := tset d.queues ident { q with overrun := true } }.objFault (d.workSrc (ident / 256)) 1 ident
      else
        let q := setUsed q i (· + 1)
        let b := padTo 16 (data.take 16)
        let q := { q with entries := q.entries ++ [{ data := b, atEnd := atEnd, parity := parityOf b, prod := i }] }
        Dev.serveQueue 3072 ident { d with queues := tset d.queues ident q }

/-- One abandon notice into a producer's reserve; it needs no credit (R315). -/
def Dev.abandonNotice (d : Dev) (ident i : Nat) : Dev :=
  match tget d.queues ident with
  | none => d
  | some q =>
    let x : QEntry := { data := List.replicate 16 0, atEnd := true, abandon := true, prod := i }
    Dev.serveQueue 3072 ident { d with queues := tset d.queues ident { q with entries := q.entries ++ [x] } }

/-- A hand-off leaves its issuer. -/
def Dev.launchFlight (d : Dev) (f : Flight) : Dev := { d with flights := d.flights ++ [f] }

/-! ## Guarded slots (R304 to R308) -/

/-- The slots that hold a byte of a range. -/
def Dev.slotsIn (d : Dev) (a n : Nat) : List (Nat × Slot) :=
  d.slots.filter fun x => x.2.base < a + n && a < x.2.base + x.2.size

/-- The first slot that holds any byte of a range. -/
def Dev.slotAt (d : Dev) (a n : Nat) : Option (Nat × Slot) :=
  (d.slots.find? fun x => x.2.base < a + n && a < x.2.base + x.2.size)

/-- The guard admits a read while the slot is FULL or ABANDONED and a write while it is EMPTY (R305). -/
def slotAdmits (s : Slot) (write : Bool) : Bool :=
  match s.st with
  | .empty => write
  | .full | .abandoned => !write

/-- An admitted read is delivered poisoned from an ABANDONED or tainted slot (R307). -/
def slotPoisons (s : Slot) : Bool := s.st == .abandoned || s.taint

/-- A job that reads a slot takes its content as poisoned: as above, and from an EMPTY slot whose reader's timeout has passed
(R310). DEDUCED: log entry 96. -/
def slotSpoils (s : Slot) : Bool := slotPoisons s || (s.st == .empty && s.late)

/-- Releases the waits that a slot's new state ends; a parked access is tried again (R306, R307). -/
def Dev.slotChanged (d : Dev) (ident : Nat) : Dev :=
  match tget d.slots ident with
  | none => d
  | some s =>
    (d.waiting fun w => match w with
      | .slotFull i _ _ | .slotEmpty i _ _ | .slotRead i _ _ _ | .slotWrite i _ => i == ident
      | _ => false).foldl (fun d t =>
      match d.whatOf t, s.st with
      | some (.slotFull _ rd _), .full => d.wakeStatus t rd 0
      | some (.slotFull _ rd _), .abandoned => d.wakeStatus t rd 1
      | some (.slotEmpty _ rd _), .empty => d.wakeStatus t rd 0
      | some (.slotRead _ _ _ _), .full | some (.slotRead _ _ _ _), .abandoned => d.wake t []
      | some (.slotWrite _ _), .empty => d.wake t []
      | _, _ => d) d

/-- A slot enters a state. -/
def Dev.setSlot (d : Dev) (ident : Nat) (st : SlotState) (taint : Bool) : Dev :=
  { d with slots := tupd d.slots ident fun s => { s with st := st, taint := taint, late := false } }.slotChanged ident

/-- MARK_FULL or MARK_EMPTY reaches its slot (R307, R290). -/
def Dev.slotMark (d : Dev) (ident : Nat) (full : Bool) (src : Nat) : Dev :=
  match tget d.slots ident with
  | none => d.objFault src 0 ident
  | some s =>
    match full, s.st with
    | true, .empty => d.setSlot ident .full s.taint
    | true, _ => d.objFault src 2 ident
    | false, .empty => d.objFault src 2 ident
    | false, _ => d.setSlot ident .empty false

/-! ## Sending Ndourn frames (R437 to R443) -/

/-- The peer context that names a device and is not UNCONFIGURED. -/
def Dev.peerOf (d : Dev) (dev : Nat) : Option Nat :=
  (d.flock.peers.find? fun x => x.2.fn != .unconfigured && (x.2.cfg.map (·.dev)) == some dev).map (·.1)

/-- Sequenced frames this engine announces to accept (R437; PRESUMED, log entry 27). -/
def windowSize : Nat := 16

/-- Fields of the given sizes in network order (R10, R437). -/
def beFields (l : List (Nat × Nat)) : List Byte := l.flatMap fun x => beBytes x.1 x.2

/-- The payload of a frame (R438, R439, R453, R458), every field in network order (R437). The status of a READ_RESP is the low byte
of the u16 at 0x0E, so byte 0x0F of the payload. DESIGN CHOICE: log entry 115. -/
def ndPayload (kind : Nat) (body : List Nat) (data : List Byte) : List Byte :=
  let f (i : Nat) : Nat := body.getD i 0
  (if 6 ≤ kind ∧ kind ≤ 8 then beFields [(8, f 0), (4, f 1), (2, f 2), (2, f 3), (16, f 4)]
    else if kind = 9 then beFields [(4, f 0), (1, f 1), (3, 0)]
    else if kind = 0xA then beFields [(2, f 0), (1, f 1), (1, 0), (2, f 2), (2, 0), (4, f 3)]
    else if kind = 0xB then beFields [(1, f 0), (1, f 1), (1, f 2), (1, f 3)]
    else if kind = 0xC then beFields [(1, f 0), (1, f 1), (1, f 2), (1, 0), (2, f 3), (2, 0), (4, f 4), (4, f 5), (8, f 6)]
    else []) ++ data

/-- The address of MAC port p of this device (R434). -/
def Dev.portMac (d : Dev) (p : Nat) : Nat := 0x02C707000000 + p * 65536 + d.flock.dev.getD 0xFFFF

/-- The Ethernet header of a frame to a peer (R437). -/
def Dev.ndEthernet (d : Dev) (c : PeerCfg) : List Byte :=
  padTo 6 c.mac ++ beBytes 6 (d.portMac c.port) ++
    (if c.vlan = 0xFFFF then [] else beFields [(2, 0x8100), (2, 2 ^ 13 * c.priority + c.vlan)]) ++ beBytes 2 d.flock.etherType

/-- The Ndourn header (R437). CONNECT and ACCEPT carry no acknowledgement. DESIGN CHOICE: log entry 78. -/
def Dev.ndHeader (d : Dev) (k kind seq length : Nat) : List Byte :=
  let p := d.peer k
  let acks := decide (2 < kind)
  beFields [(1, 1), (1, kind), (2, flagWord [(0, acks)]), (2, d.flock.dev.getD 0), (2, (p.cfg.map (·.dev)).getD 0), (4, p.session)
    , (4, seq), (4, if acks then p.rxNext else 0), (2, windowSize), (2, length)]

/-- A frame to a peer in network order, from the destination address to the CRC-32C; the FCS is the MAC's (R437). -/
def Dev.ndFrame (d : Dev) (k kind seq : Nat) (body : List Nat) (data : List Byte) : List Byte :=
  let b := ndPayload kind body data
  let h := d.ndHeader k kind seq b.length
  (((d.peer k).cfg.map d.ndEthernet).getD []) ++ h ++ b ++ beBytes 4 (crc32c (h ++ b))

/-- Hands a frame to the wire and restarts the context's keepalive (R443). DESIGN CHOICE: log entry 78. -/
def Dev.putFrame (d : Dev) (e : Env) (k kind seq : Nat) (body : List Nat) (data : List Byte) : Dev :=
  { d.modPeer k fun p => { p with lastTx := e.raw } with
    flock := { (d.modPeer k fun p => { p with lastTx := e.raw }).flock with
      out := d.flock.out ++ [.ndourn (((d.peer k).cfg.map (·.port)).getD 0) (d.ndFrame k kind seq body data)] } }

/-- Sends the frames of a link that the peer's window now lets through (R443). -/
def Dev.pumpPeer (d : Dev) (e : Env) (k : Nat) (was : Nat) : Dev :=
  let p := d.peer k
  let lim := ((p.unacked.head?).map (·.seq)).getD p.txSeq + p.peerWindow
  (p.unacked.filter fun x => was ≤ x.seq && x.seq < lim).foldl
    (fun d x => (d.modPeer k fun p => { p with
      unacked := p.unacked.map fun y => if y.seq = x.seq then { y with sentAt := e.raw } else y }).putFrame
        e k x.kind x.seq x.body x.data) d

/-- Sends a sequenced frame on a link, or holds it until the peer's window lets it through (R443). -/
def Dev.ndSend (d : Dev) (e : Env) (k kind : Nat) (body : List Nat) (data : List Byte) (thread : Option Nat) : Dev :=
  let p := d.peer k
  let x : NdTx := { seq := p.txSeq, kind := kind, body := body, data := data, sentAt := e.raw, thread := thread }
  let lim := ((p.unacked.head?).map (·.seq)).getD p.txSeq + p.peerWindow
  let d := d.modPeer k fun p => { p with txSeq := p.txSeq + 1, unacked := p.unacked ++ [x] }
  if p.txSeq < lim then d.putFrame e k kind x.seq body data else d

/-- The RUNNING link to a device; one that drains admits no new frame of this device (R444). -/
def Dev.linkTo (d : Dev) (dev : Nat) : Option Nat :=
  match d.peerOf dev with
  | some k => if (d.peer k).fn = .running then some k else none
  | none => none

/-- Children of this device in the tree (R455). -/
def Dev.treeChildren (d : Dev) : List Nat :=
  match d.flock.dev with
  | none => []
  | some n => ((List.range 8).map fun i => 8 * n + 1 + i).filter fun c => (d.peerOf c).isSome

/-- The parent in the tree (R455). -/
def Dev.treeParent (d : Dev) : Option Nat :=
  match d.flock.dev with
  | none => none
  | some n => if n = 0 then none else some ((n - 1) / 8)

/-- Sends one frame to each listed device that a RUNNING link reaches. -/
def Dev.sendTo (d : Dev) (e : Env) (devs : List Nat) (kind : Nat) (body : List Nat) (data : List Byte)
    (thread : Option Nat := none) : Dev :=
  devs.foldl (fun d c => match d.linkTo c with
    | some k => d.ndSend e k kind body data thread
    | none => d) d

/-- Parent and children. -/
def Dev.treeNeighbours (d : Dev) : List Nat := d.treeParent.toList ++ d.treeChildren

/-! ## Hurdles (R311 to R314, R456, R457) -/

/-- Cause codes of a break (R438): 1 ABANDONED, 2 TIMEOUT; they are also the status that waits return (R294). -/
def causeAbandoned : Nat := 1
def causeTimeout : Nat := 2

/-- Starts the next phase and sends the release to every fold with a waiting member (R311). -/
def Dev.releaseHurdle (d : Dev) (ident : Nat) : Dev :=
  match tget d.hurdles ident with
  | none => d
  | some h =>
    let folds := (h.waiters.map foldOfThread).dedup
    let d := { d with hurdles := tset d.hurdles ident { h with count := 0, waiters := [], phase := (h.phase + 1) % 256 } }
    folds.foldl (fun d n => d.launchFlight (.freed ident n (h.waiters.filter fun t => foldOfThread t == n))) d

/-- The local hurdle that declares a flock hurdle number. -/
def Dev.flockHurdle (d : Dev) (h : Nat) : Option Nat := (d.hurdles.find? fun x => x.2.flock == some h).map (·.1)

def Dev.flockState (d : Dev) (h : Nat) : FlockHurdle := tgetD d.flock.hurdles h {}
def Dev.setFlockState (d : Dev) (h : Nat) (x : FlockHurdle) : Dev :=
  { d with flock := { d.flock with hurdles := tset d.flock.hurdles h x } }

/-- Releases local members of a flock hurdle and sends RELEASE on to the children (R456). -/
def Dev.flockRelease (d : Dev) (e : Env) (h : Nat) : Dev :=
  let x := d.flockState h
  let d := d.setFlockState h { x with own := false, children := [], phase := (x.phase + 1) % 256 }
  let d := match d.flockHurdle h with
    | some ident => d.releaseHurdle ident
    | none => d
  d.sendTo e d.treeChildren 0xB [h, 1, x.phase, 0] []

/-- Once the device holds its own arrival and one of every child, it sends ARRIVE to its parent; the root releases. -/
def Dev.flockCheck (d : Dev) (e : Env) (h : Nat) : Dev :=
  let x := d.flockState h
  if x.own && d.treeChildren.all (x.children.contains ·) then
    match d.treeParent with
    | some p => d.sendTo e [p] 0xB [h, 0, x.phase, 0] []
    | none => d.flockRelease e h
  else d

/-- Breaks a local hurdle: its waiting members return the status of the cause (R314). -/
def Dev.breakLocal (d : Dev) (ident cause : Nat) : Dev :=
  match tget d.hurdles ident with
  | none => d
  | some h =>
    if h.broken.isSome then d
    else
      let d := { d with hurdles := tset d.hurdles ident { h with broken := some cause, waiters := [], count := 0 } }
      h.waiters.foldl (fun d t =>
        match d.whatOf t with
        | some (.hurdle _ rd) =>
          let d := d.wakeStatus t rd cause
          if cause = causeTimeout then d.starve t 4 ident else d
        | _ => d) d

/-- Breaks a hurdle and, for a flock hurdle, sends BREAK to the parent and the children but the one it came from
(R457). -/
def Dev.breakHurdle (d : Dev) (e : Env) (ident cause : Nat) (from_ : Option Nat) : Dev :=
  match tget d.hurdles ident with
  | none => d
  | some h =>
    if h.broken.isSome then d
    else
      let d := d.breakLocal ident cause
      match h.flock with
      | none => d
      | some n => d.sendTo e (d.treeNeighbours.filter fun c => some c != from_) 0xB [n, 2, (d.flockState n).phase, cause] []

/-- An arrival reaches the home of a hurdle (R311, R314): counted, or ignored when the hurdle is broken, where a waiter
returns the status of the break. DEDUCED: log entry 63. -/
def Dev.hurdleArrive (d : Dev) (e : Env) (ident : Nat) (waiter : Option Nat) (src : Nat) : Dev :=
  match tget d.hurdles ident with
  | none => d.objFault src 0 ident
  | some h =>
    match h.broken with
    | some c =>
      match waiter with
      | some t =>
        match d.whatOf t with
        | some (.hurdle _ rd) =>
          let d := d.wakeStatus t rd c
          if c = causeTimeout then d.starve t 4 ident else d
        | _ => d
      | none => d
    | none =>
      let h := { h with
        count := h.count + 1, waiters := h.waiters ++ waiter.toList,
        firstArrival := if h.count = 0 then e.raw else h.firstArrival }
      if h.count < h.members then { d with hurdles := tset d.hurdles ident h }
      else
        let d := { d with hurdles := tset d.hurdles ident { h with count := 0 } }
        match h.flock with
        | none => d.releaseHurdle ident
        | some n => (d.setFlockState n { d.flockState n with own := true }).flockCheck e n

/-! ## Abandoning the open work of an instance (R315) -/

/-- The instance that declares a thread. -/
def Dev.ownerOf (d : Dev) (t : Nat) : Option Nat :=
  (d.insts.find? fun x => ((x.2.image.map fun im => im.threads.any (·.thread == t)).getD false)).map (·.1)

/-- Threads of an instance. -/
def Dev.threadsOf (d : Dev) (k : Nat) : List Nat :=
  (((d.inst k).image.map fun im => im.threads.map (·.thread)).getD [])

/-- A drover belongs to a closed instance for a queue when it holds a descriptor that a thread of it issued with flag [0]
set and that names the queue (R315). -/
def Dev.droverBelongs (d : Dev) (k ident n r : Nat) : Bool :=
  let eng := tgetD (d.fold n).engines (3 + r) {}
  (eng.running.toList ++ eng.queue).any fun j =>
    (d.threadsOf k).contains j.thread && bitOf (fieldAt j.desc 2 2) 0 && fieldAt j.desc 4 2 == ident

/-- Whether a producer belongs to an instance that is being closed. -/
def Dev.prodBelongs (d : Dev) (k ident : Nat) (w : Prod) : Bool :=
  match w with
  | .thread t => (d.threadsOf k).contains t
  | .drover n r => d.droverBelongs k ident n r
  | _ => false

/-- An entry of a producer on its way to a queue. -/
def sameEntry (ident : Nat) (w : Prod) (f : Flight) : Bool :=
  match f with
  | .entry i who _ _ _ => i == ident && who == w
  | _ => false

/-- The entries of a producer that are on their way to a queue reach it, in their order (R300). -/
def Dev.flushEntries (d : Dev) (ident : Nat) (w : Prod) : Dev :=
  (d.flights.filter (sameEntry ident w)).foldl (fun d f => match f with
    | .entry _ _ data atEnd src => d.deliver ident w data atEnd src
    | _ => d) { d with flights := d.flights.filter fun f => !sameEntry ident w f }

/-- Abandon notices into every queue that lists a producer of the instance, after the entries that the producer has sent
(R300, R315). -/
def Dev.abandonQueues (d : Dev) (k : Nat) : Dev :=
  d.queues.foldl (fun acc x =>
    (List.range x.2.prods.length).foldl (fun acc i =>
      match x.2.prods[i]? with
      | some p => if d.prodBelongs k x.1 p.who then (acc.flushEntries x.1 p.who).abandonNotice x.1 i else acc
      | none => acc) acc) d

/-- EMPTY slots whose writer is the instance become ABANDONED. -/
def Dev.abandonSlots (d : Dev) (k : Nat) : Dev :=
  d.slots.foldl (fun acc x => if x.2.writer = some k ∧ x.2.st = .empty then acc.setSlot x.1 .abandoned x.2.taint else acc) d

/-- Every hurdle of the instance breaks with cause ABANDONED. -/
def Dev.abandonHurdles (d : Dev) (e : Env) (k : Nat) : Dev :=
  d.hurdles.foldl (fun acc x => if x.2.inst = k then acc.breakHurdle e x.1 causeAbandoned none else acc) d

/-- R315, before the threads are halted. -/
def Dev.abandon (d : Dev) (e : Env) (k : Nat) : Dev := ((d.abandonQueues k).abandonSlots k).abandonHurdles e k

/-- Halts a thread; END and a stop clear its poison mark (R129, R168). A FAULTED thread halts only at the instance's
stop. -/
def Dev.haltThread (d : Dev) (t : Nat) : Dev :=
  d.modThread t fun th => { th with st := .halted, wait := none, poisonMark := false, faultCode := 0 }

/-- Takes a thread out of every queue's list of waiters. -/
def Dev.unqueue (d : Dev) (t : Nat) : Dev :=
  { d with queues := d.queues.map fun x => (x.1, { x.2 with waiters := x.2.waiters.filter (· != t) }) }

/-- Threads that waited for room in a queue of a fold try again (R132). -/
def Dev.wakeFull (d : Dev) (n k : Nat) : Dev :=
  (d.waiting fun w => match w with
    | .fullQueue l => l.contains k
    | _ => false).foldl (fun d t => if foldOfThread t = n then d.wake t [] else d) d

/-- Engines of a fold whose queues hold a descriptor of a list of threads. -/
def Dev.queuesOf (d : Dev) (ts : List Nat) : List (Nat × Nat) :=
  d.folds.flatMap fun x => (x.2.engines.filter fun y => y.2.queue.any fun j => ts.contains j.thread).map fun y => (x.1, y.1)

/-- Descriptors of an instance's threads leave the engine queues, where other threads then find room; engines drop the jobs they
run for it, and count none of them (R133). DESIGN CHOICE: log entry 108. -/
def Dev.dropJobs (d : Dev) (ts : List Nat) : Dev :=
  let drop (x : Engine) : Engine :=
    let kept := x.running.filter fun j => !ts.contains j.thread
    let x := { x with queue := x.queue.filter fun j => !ts.contains j.thread, running := kept }
    if kept.isSome then x else { x with refusedAt := none, passed := [], buf := [] }
  let gone (n r : Nat) : Bool := ((tgetD (d.fold n).engines (3 + r) {}).running.map fun j => ts.contains j.thread).getD false
  (d.queuesOf ts).foldl (fun d x => d.wakeFull x.1 x.2) { d with
    folds := d.folds.map fun x => (x.1, { x.2 with engines := x.2.engines.map fun y => (y.1, drop y.2) })
    flock := { d.flock with reqs := d.flock.reqs.filter fun q => !((q.drover.map fun x => gone x.1 x.2).getD false) } }

/-! ## Table switches (R263) -/

/-- A pending switch of a table slot takes effect (R263). -/
def Lut.switched (l : Lut) : Lut :=
  if l.pending then
    { l with
      active := some (match l.active with
        | some 0 => 1
        | some _ => 0
        | none => l.loadedBank.getD 0)
      pending := false, loadedBank := none }
  else l

def Dev.lutFlip (d : Dev) (n : Nat) : Dev :=
  d.modFold n fun f => { f with luts := f.luts.map fun x => (x.1, x.2.switched) }

/-- No vector instruction runs on a fold, or on the Collie's units. -/
def Dev.vecIdle (d : Dev) (n : Nat) : Bool :=
  (if n = collieFold then [4, 5, 6, 7] else [2]).all fun k => (tgetD (d.fold n).engines k {}).running.isNone

/-- A switch command no longer waits for a fold: it records slot, then the folds it waits for (R263). -/
def Outst.switchedOn (n : Nat) (o : Outst) : Outst :=
  if o.opcode = 0x404 then { o with aux := o.aux.take 1 ++ (o.aux.drop 1).filter (· != n) } else o

/-- Makes pending table switches of a fold active and completes the switch commands that wait for no other fold (R263, R404). -/
def Dev.lutSwitch (d : Dev) (e : Env) (n : Nat) : Dev :=
  let d := d.lutFlip n
  let d := { d with mbox := { d.mbox with outst := d.mbox.outst.map (Outst.switchedOn n) } }
  (d.mbox.outst.filter fun o => o.opcode == 0x404 && o.aux.length == 1).foldl
    (fun d o => d.finish e o { r1 := o.e.field 0x10 8 }) d

/-- Folds with a pending switch and no vector instruction running switch (R263). -/
def Dev.lutSettle (d : Dev) (e : Env) : Dev :=
  ((d.folds.filter fun x => x.2.luts.any (·.2.pending)).map (·.1)).foldl (fun d n =>
    if d.vecIdle n then d.lutSwitch e n else d) d

/-! ## Closing an instance -/

/-- Writes of watched lines that only ended jobs could have read are forgotten (R220). -/
def Dev.rewatch (d : Dev) : Dev :=
  let w := d.mem.watch.filter fun x => (tgetD (d.fold (x.1 / 8)).engines (x.1 % 8) {}).running.isSome
  d.modMem fun m => { m with watch := w, past := if w.isEmpty then [] else m.past }

/-- Closes the open work of an instance as under DISCARD: notices, then its threads halt but for those already FAULTED
when `keepFaulted` (R138, R315, R379). -/
def Dev.closeInst (d : Dev) (e : Env) (k : Nat) (keepFaulted : Bool) : Dev :=
  let d := d.abandon e k
  let ts := d.threadsOf k
  let d := { d with
    posted := d.posted.map fun (p : Posted) => if ts.contains p.thread then { p with dead := true } else p
    flock := { d.flock with reqs := d.flock.reqs.map fun (q : NdReq) =>
      if !q.write && (q.thread.map ts.contains).getD false then { q with dead := true } else q } }
  let d := ts.foldl (fun d t =>
    if keepFaulted && (d.thread t).st == .faulted then d
    else ((d.haltThread t).unqueue t).modFold (foldOfThread t) fun f => { f with idleSince := e.raw }) d
  (d.dropJobs ts).rewatch.lutSettle e

/-- ABANDONED in every result tally at the positions that an image declares, each with a fresh tally_crc (R377).
DESIGN CHOICE: log entry 43. -/
def Dev.abandonOutputs (d : Dev) (k : Nat) : Dev :=
  (((d.inst k).image.map (·.outputs)).getD []).foldl (fun d a => d.flagTally a flAbandoned) d

/-- Ends an open INVOKE of an instance with a status (R379). -/
def Dev.endInvoke (d : Dev) (e : Env) (k st : Nat) : Dev :=
  match (d.inst k).invoc with
  | none => d
  | some (q, tag) =>
    let d := d.modInst k fun x => { x with invoc := none }
    match d.outstBy q tag with
    | some o => d.finish e o { status := st }
    | none => d

/-- An instance enters FAULTED by its own error or with its fold (R138, R148, R514): its work closes as under DISCARD and
a STATE notification says so. DEDUCED: log entry 70. -/
def Dev.faultInst (d : Dev) (e : Env) (k : Nat) (m : Nat) : Dev :=
  if (d.inst k).fn.active then
    let d := d.closeInst e k true
    let d := d.modInst k fun x => { x with fn := .faulted }
    let d := d.endInvoke e k stAborted
    d.noteState e 1 .faulted k m
  else d

/-- A thread enters FAULTED with a code; the fault is at its fold and its instance follows (R138). -/
def Dev.faultThread (d : Dev) (e : Env) (t code : Nat) : Dev :=
  let d := d.modThread t fun th => { th with st := .faulted, wait := none, faultCode := code }
  let arg := t % 4096 * 2 ^ 28 + (d.thread t).pc.toNat % 2 ^ 23
  let d := (d.unqueue t).raise (d.threadSrc t) 6 code arg
  match d.ownerOf t with
  | some k => d.faultInst e k (faultMsg (d.threadSrc t) 6 code arg).toNat
  | none => d

end Sys2Proof.Machine
end

