-- ==== Sys2Proof/Machine/TimeBase.lean ====
section
/-! DEFINITION. Domain time (R414 to R417), the conversion of a domain time to a raw value, frame-set instances (R69 to
R71) and the deadline monitor: its judgement with the hold allowance (R320, R325) and its done words (R323, R324). -/

namespace Sys2Proof.Machine

open Sys2Proof

/-! ## Domain time -/

/-- The domain time of a raw value under one set, floor rounding toward −∞ (R414). -/
def ParamSet.time (p : ParamSet) (r : Nat) : Int :=
  (p.ts : Int) + ((r : Int) - p.rs) + (((r : Int) - p.rs) * p.rho).fdiv (2 ^ 40)

/-- The least raw value whose domain time reaches a time. -/
def ParamSet.rawOf (p : ParamSet) (t : Int) : Int :=
  (p.rs : Int) - (-(t - p.ts) * 2 ^ 40).fdiv (2 ^ 40 + p.rho)

/-- The set in force at a raw value: the newest whose R_s has come, else the oldest kept (R416). -/
def setAt (l : List ParamSet) (r : Nat) : ParamSet :=
  match l.find? fun p => p.rs ≤ r with
  | some p => p
  | none => l.getLastD {}

/-- Domain time of domain `k`; a domain never started reads as the raw counter (R414, R417). -/
def Dev.domTime (d : Dev) (k r : Nat) : Int := (setAt (d.dom k).params r).time r

/-- The raw value that brings a time: under the newest set where the time lies in it, else under the sets before it, though
no later than its R_s, where a step passes the time (R416, R422). -/
def rawAt : List ParamSet → Int → Int
  | [], t => t
  | [p], t => p.rawOf t
  | p :: l, t => if (p.ts : Int) ≤ t then p.rawOf t else min (p.rs : Int) (rawAt l t)

/-- The raw value at which domain `k` reaches a time (R325, R422). -/
def Dev.rawOfTime (d : Dev) (k : Nat) (t : Int) : Nat := (rawAt (d.dom k).params t).toNat

/-- The rate of a domain at a raw value. -/
def Dev.rhoAt (d : Dev) (k r : Nat) : Int := (setAt (d.dom k).params r).rho

/-- The rate of a domain's newest set. -/
def Dev.rho (d : Dev) (k : Nat) : Int := (((d.dom k).params.head?).map (·.rho)).getD 0

/-- The counter that a TIME instruction or WAIT TIME names: 0 domain A, 1 domain B, 2 raw (R131, R292). -/
def Dev.counter (d : Dev) (k r : Nat) : Int := if k = 2 then (r : Int) else d.domTime k r

/-! ## Frame-set instances -/

/-- The deadline d_i = E + i × P + D of instance i in the set's domain (R69, R71). -/
def FsetCfg.deadline (c : FsetCfg) (i : Int) : Int := (c.epoch : Int) + i * c.period + c.offset

/-- The start t_i of an instance. -/
def FsetCfg.start (c : FsetCfg) (i : Int) : Int := (c.epoch : Int) + i * c.period

/-- Rewrites HPC_FSET_RAW_DEADLINE of a set (R325). -/
def Dev.rewriteDeadline (d : Dev) (f : Nat) : Dev :=
  match (d.fset f).cfg with
  | none => d
  | some c => d.modFset f fun s => { s with rawDeadline := d.rawOfTime c.dom (c.deadline s.serial) }

/-- Rewrites the deadline of every set of a domain, its monitor running or not (R325, R422). -/
def Dev.rewriteDomain (d : Dev) (k : Nat) : Dev :=
  (tkeys d.fsets fun s => (s.cfg.map (·.dom)) == some k).foldl (fun d f => d.rewriteDeadline f) d

/-- Physical folds of the logical folds that the loaded paths of a frame set name. -/
def Dev.pathFolds (d : Dev) (f : Nat) : List Nat :=
  (((d.insts.flatMap fun x => (x.2.image.map fun im =>
    (im.paths.filter fun p => p.1 == f).flatMap (·.2)).getD []).map fun n => d.physOf n).filter (· != 0xFF)).dedup

/-- What a free-running 64-bit counter has counted between two readings (R320). -/
def counterDiff (now was : Nat) : Nat := (now + 2 ^ 64 - was % 2 ^ 64) % 2 ^ 64

/-- Firmware reads the hold counters at a deadline, and raises a fault where a fold held longer than the allowance since the
deadline before. DEDUCED: log entry 81. -/
def Dev.checkHolds (d : Dev) (f : Nat) : Dev :=
  let h := ((d.fset f).cfg.map (·.hold)).getD 600
  (d.pathFolds f).foldl (fun d p =>
    let now := (d.physFold p).holdCycles
    let was := tget (d.fset f).holdSeen p
    let d := d.modFset f fun s => { s with holdSeen := tset s.holdSeen p now }
    match was with
    | some v => if h < counterDiff now v then d.raise (0x100 + p) 0x0E f (counterDiff now v) else d
    | none => d) d

/-- The current instance is judged and the next becomes current. -/
def Dev.judge (d : Dev) (f : Nat) : Dev :=
  let s := d.fset f
  let d := if s.doneBits.contains s.current then d
    else (d.modFset f fun s => { s with late := (s.late + 1) % 2 ^ 32 }).raise 0x304 0x24 f s.current
  ((d.modFset f fun s => { s with
    current := (s.current + 1) % 2 ^ 32, serial := s.serial + 1, doneBits := s.doneBits.filter (· != s.current) }).rewriteDeadline f).checkHolds f

/-- Judges every instance of a running monitor whose deadline lies before `r`, at most `n` of them (R323, R324). -/
def Dev.judgeTo (d : Dev) (f r : Nat) : Nat → Dev
  | 0 => d
  | n + 1 => if (d.fset f).running ∧ (d.fset f).rawDeadline < r then (d.judge f).judgeTo f r n else d

/-- A write to HPC_FSET_DONE (R323): deadlines that lie before it are judged first, so a later write is not on time (R324).
DESIGN CHOICE: log entry 33. -/
def Dev.fsetDone (d : Dev) (e : Env) (f : Nat) (w : Writer) (v : Nat) : Dev :=
  let d := d.judgeTo f e.raw e.raw
  let s := d.fset f
  let v := v % 2 ^ 32
  let bad (d : Dev) : Dev := d.raise 0x304 0x25 f v
  let accept (s : FSet) : FSet := { s with doneValue := v, doneTime := e.raw }
  match w with
  | .hostPort => bad d
  | .thread _ =>
    if !s.running then d.modFset f accept
    else
      let k := (v + 2 ^ 32 - s.current) % 2 ^ 32
      if k < 4 then d.modFset f fun s => { accept s with doneBits := if s.doneBits.contains v then s.doneBits else s.doneBits ++ [v] }
      else if 2 ^ 31 ≤ k then d.modFset f accept
      else bad d

end Sys2Proof.Machine
end

