-- ==== Sys2Proof/Machine/Bridge.lean ====
section
/-! DEFINITION. The bridge of the MAC ports (R425, R434 to R436): residence time in PTP event messages, learning, and the ports
that a frame leaves by. -/

namespace Sys2Proof.Machine

open Sys2Proof

/-- The domain whose PTP event messages get residence time. -/
def Dev.bridgeDomain (d : Dev) (f : BridgeFrame) : Option Nat :=
  [0, 1].find? fun k => (((d.dom k).cfg).map fun c => c.protocol == f.protocol && c.number == f.domainNumber).getD false

/-- What the table of R425 does with an event message: none is not forwarded, 0 no change, 1 the residence time, 2 also the
link delay. -/
def eventRule (protocol type : Nat) (peerToPeer : Bool) : Option Nat :=
  if protocol = 0 ∧ !peerToPeer then (if type < 2 then some 1 else some 0)
  else if type = 0 then some 2
  else if protocol = 0 then none
  else if type = 1 then some 0 else none

/-- The largest correction field. -/
def maxCorrection : Int := 0x7FFFFFFFFFFFFFFF

/-- The correction of a forwarded event message: raw residence moved to the wire by the port delays, in domain time. -/
def Dev.correct (d : Dev) (e : Env) (k : Nat) (f : BridgeFrame) (out rule : Nat) : Int :=
  let res : Int := ((f.residence + tgetD d.tu.delayIn f.inPort 0 + tgetD d.tu.delayOut out 0 : Nat) : Int)
  let add := res * 65536 + (2 * (res * d.rhoAt k e.raw) + 2 ^ 24).fdiv (2 ^ 25)
  let link : Int := if rule = 2 then (65536 * tgetD d.tu.linkDelay f.inPort 0 : Nat) else 0
  if rule = 0 then f.correction
  else if f.correction = maxCorrection then maxCorrection
  else min maxCorrection (f.correction + add + link)

/-- The ports that a frame goes out of: the learnt one, else every other port; port 4 is internal.
DESIGN CHOICE: log entry 66. -/
def Dev.egress (d : Dev) (f : BridgeFrame) (vlan : Nat) : List Nat :=
  let up := ((List.range 4).filter fun p => (d.mac p).cfg.isSome) ++ [4]
  match d.flock.learn.find? fun x => x.1 == f.dstMac && x.2.1 == vlan with
  | some x => up.filter fun p => p == x.2.2.1 && p != f.inPort
  | none => up.filter (· != f.inPort)

/-- Learns a source address; a full table takes no new one (R435). DESIGN CHOICE: log entry 66. -/
def Dev.learnMac (d : Dev) (e : Env) (f : BridgeFrame) (vlan : Nat) : Dev :=
  let l := d.flock.learn.filter fun x => !(x.1 == f.srcMac && x.2.1 == vlan)
  if l.length < 4096 then { d with flock := { d.flock with learn := l ++ [(f.srcMac, vlan, f.inPort, e.raw)] } } else d

/-- A correction field as it goes out: a signed 64-bit number in network order (R425). -/
def correctionBytes (c : Int) : List Byte := beBytes 8 (BitVec.ofInt 64 c).toNat

/-- One's complement sum of 16 bits. -/
def onesAdd (a b : Nat) : Nat := if 65535 < a + b then a + b - 65535 else a + b

/-- A UDP checksum after a field has been rewritten: the old words go out of the sum and the new ones into it (R425). -/
def checksumAfter (c : Nat) (old new : List Nat) : Nat :=
  let s := (old.map (65535 - ·) ++ new).foldl onesAdd (65535 - c)
  if s = 65535 then 65535 else 65535 - s

/-- The 16-bit words of a field in network order. -/
def wordsOf (n : Nat) (v : Int) : List Nat :=
  (List.range n).map fun i => (BitVec.ofInt (16 * n) v).toNat / 2 ^ (16 * (n - 1 - i)) % 65536

/-- cumulativeScaledRateOffset with the neighbour's rate ratio of the ingress port taken in (R425). DEDUCED: log entry 35. -/
def Dev.rateOffsetOut (d : Dev) (f : BridgeFrame) : Int :=
  match tget d.tu.neighbours f.inPort with
  | some n => f.rateOffset + n.ratio + (f.rateOffset * n.ratio).fdiv (2 ^ 41)
  | none => f.rateOffset

/-- An event message as it leaves with a new correction. -/
def Dev.rewritten (d : Dev) (f : BridgeFrame) (rule : Nat) (c : Int) : BridgeFrame :=
  { f with
    rateOffset := if rule = 2 ∧ f.protocol = 1 then d.rateOffsetOut f else f.rateOffset
    udpChecksum := f.udpChecksum.map fun s => checksumAfter s (wordsOf 4 f.correction) (wordsOf 4 c) }

/-- The priority of a frame: 0 where it came untagged (R435). -/
def framePrio (f : BridgeFrame) : Nat := if f.vlan.isSome then f.pcp else 0

/-- The rate of a port in units of 100 Mb/s, by its interface and speed (R407, R433). -/
def portRate (c : Option (Nat × Nat)) : Nat :=
  match c with
  | some (0, _) => 250
  | some (1, _) | none => 100
  | some (_, v) => [10, 25, 50, 100].getD v 100

/-- How long a frame holds a line, in ns, with 20 bytes of preamble and gap. PRESUMED: log entry 117. -/
def lineTime (c : Option (Nat × Nat)) (length : Nat) : Nat := (80 * (length + 20) + portRate c - 1) / portRate c

/-- The frame that an egress port sends next: the oldest of the highest priority (R435). -/
def nextOut (l : List Waiting) : Option Waiting :=
  let top := l.foldl (fun a w => max a w.pcp) 0
  l.find? fun w => w.pcp == top

/-- A port begins one waiting frame. -/
def Dev.beginFrame (d : Dev) (p : Nat) (w : Waiting) : Dev :=
  let d := d.modMac p fun m => { m with queue := m.queue.erase w, busyTo := max m.busyTo w.since + lineTime m.cfg w.length }
  { d with flock := { d.flock with out := d.flock.out ++ [.bridged p w.frame w.correction] } }

/-- A port sends the frames that its line has had time for, at most `n` of them. -/
def Dev.drainPort (raw p : Nat) : Nat → Dev → Dev
  | 0, d => d
  | n + 1, d =>
    if raw < (d.mac p).busyTo then d
    else match nextOut (d.mac p).queue with
      | none => d
      | some w => Dev.drainPort raw p n (d.beginFrame p w)

/-- Every port sends what it can. -/
def Dev.drainPorts (d : Dev) (raw : Nat) : Dev :=
  (List.range 4).foldl (fun d p => Dev.drainPort raw p (d.mac p).queue.length d) d

/-- Bytes of the buffer that the ports share in use. -/
def Dev.bridgeUsed (d : Dev) : Nat := (d.flock.ports.flatMap fun p => p.2.queue.map (·.length)).sum

/-- A frame joins the egress queue of its priority, or finds no room in the 2 MiB and is dropped and counted (R435); the internal
port takes it at once. DESIGN CHOICE: log entry 66. DESIGN CHOICE: log entry 78. -/
def Dev.joinQueue (d : Dev) (e : Env) (p : Nat) (f : BridgeFrame) (c : Int) : Dev :=
  if p = 4 then { d with flock := { d.flock with out := d.flock.out ++ [.bridged p f (correctionBytes c)] } }
  else if 0x200000 < d.bridgeUsed + f.length then { d with flock := { d.flock with bridgeDrops := d.flock.bridgeDrops + 1 } }
  else
    let w : Waiting := { pcp := framePrio f, length := f.length, since := e.raw, frame := f, correction := correctionBytes c }
    d.modMac p fun m => { m with queue := m.queue ++ [w] }

/-- A frame goes to one port, a PTP event message by the rules of R425. -/
def Dev.bridgeOut (d : Dev) (e : Env) (f : BridgeFrame) (p : Nat) : Dev :=
  match f.ptpEvent, d.bridgeDomain f with
  | some t, some k =>
    if p = 4 ∨ f.inPort = 4 ∨ 3 < t then d.joinQueue e p f f.correction
    else match eventRule f.protocol t f.peerToPeer with
      | none => d
      | some r => d.joinQueue e p (d.rewritten f r (d.correct e k f p r)) (d.correct e k f p r)
  | _, _ => d.joinQueue e p f f.correction

/-- Row 6 of R436: the source is learnt, and the frame goes to its egress ports. -/
def Dev.bridgeFrame (d : Dev) (e : Env) (f : BridgeFrame) : Dev :=
  let vlan := if f.vlan.getD 0 = 0 then 1 else f.vlan.getD 1
  let d := (d.drainPorts e.raw).learnMac e f vlan
  ((d.egress f vlan).foldl (fun d p => d.bridgeOut e f p) d).drainPorts e.raw

/-! ## Classification (R433, R436) -/

/-- A destination is one of the device's 4 addresses (R434). -/
def Dev.ownMac (d : Dev) (a : Nat) : Bool := (List.range 4).any fun p => d.portMac p == a

/-- A PTP message of domain A or B. -/
def Dev.isPtp (d : Dev) (f : BridgeFrame) : Bool := f.ptpEvent.isSome && (d.bridgeDomain f).isSome

/-- A MAC control frame, or one whose length R82 does not allow: discarded and counted (R433). DEDUCED: log entry 118. -/
def frameRefused (f : BridgeFrame) : Bool := f.etherType == 0x8808 || decide (f.length < 64 ∨ 9216 < f.length)

/-- A port counts a frame that it discards. -/
def Dev.countDiscard (d : Dev) (p : Nat) : Dev := d.modMac p fun m => { m with discarded := m.discarded + 1 }

/-- Rows 4 to 6 of R436, for a frame that no row before them takes; the Ndourn rows bring what the engine does with its own. -/
def Dev.classifyRest (d : Dev) (e : Env) (f : BridgeFrame) : Dev :=
  if d.ownMac f.dstMac then (if f.etherType = d.flock.etherType then d else d.countDiscard f.inPort) else d.bridgeFrame e f

/-- Row 4 of R436: a frame for the Ndourn engine. -/
def Dev.claims (d : Dev) (h : NdHdr) : Bool := h.fcsOk && h.etherType == d.flock.etherType && d.ownMac h.dstMac

/-- A frame that the Ndourn engine does not take: an FCS error and a frame for one of the device's addresses are counted. -/
def Dev.unclaimed (d : Dev) (h : NdHdr) : Dev :=
  if !h.fcsOk then d.modMac h.port fun m => { m with fcsErrors := m.fcsErrors + 1 }
  else if d.ownMac h.dstMac then d.countDiscard h.port
  else d

end Sys2Proof.Machine
end

