-- ==== Sys2Proof/Machine/Access.lean ====
section
/-! DEFINITION. Reads and writes of a fold's threads and drovers over the device address map: R33, R43, R139 to R147, the
guard of R305, the stiles of R445 to R447. -/

namespace Sys2Proof.Machine

open Sys2Proof

/-! ## Open data -/

/-- Bytes that the manual leaves open: poisoned data with no stored content (DESIGN CHOICE, log entry 3). -/
def Dev.freeBytes (d : Dev) (n : Nat) : List Byte × Dev :=
  ((List.range n).map fun i => BitVec.ofNat 8 ((Config.freeNat d.free) / 256 ^ i), d.spend)

/-! ## Addresses -/

/-- What an address gives a fold's block: 0 served memory, 1 control space, 2 not populated, 3 a fold in replacement,
4 stile space. -/
inductive Reach where
  | served
  | control
  | hole
  | replaced (n : Nat)
  | stileSpace (dev off : Nat)
deriving DecidableEq, Repr

/-- R33, R43, R147, R148: where an address leads. -/
def Dev.reach (d : Dev) (a : Nat) : Reach :=
  match zoneOf a with
  | .control => .control
  | .foldMem n _ => if (d.fold n).replacing then .replaced n else if d.physOf n = 0xFF then .hole else .served
  | .common _ | .gddr _ => .served
  | .stile dev off => .stileSpace dev off
  | _ => .hole

/-- Where an address leads a block of fold `n`: the Collie memory has no device address, and the Collie alone reaches it (R486). -/
def Dev.reachOf (d : Dev) (n a : Nat) : Reach := if n = collieFold ∧ isOwn n a then .served else d.reach a

/-- The fault of an access that reaches no memory, at the issuing source; one for each accessing fold while a fold is
being replaced (R43, R147). -/
def Dev.missed (d : Dev) (src accessor : Nat) (r : Reach) (a : Nat) : Dev :=
  match r with
  | .control => d.raise src 5 1 a
  | .hole => d.raise src 5 0 a
  | .replaced n =>
    if (d.fold n).replaceRaised.contains accessor then d
    else (d.modFold n fun f => { f with replaceRaised := f.replaceRaised ++ [accessor] }).raise src 0x0A 0 n
  | _ => d

/-- An access to a gated fold's memory by another engine wakes the fold-memory domain alone (R144). -/
def Dev.touch (d : Dev) (e : Env) (a : Nat) : Dev :=
  match zoneOf a with
  | .foldMem n _ => d.modFold n fun f => { f with memAwake := true, memIdleSince := e.raw }
  | _ => d

/-- Reads served memory: bytes, whether they are delivered poisoned, and the device with the reads' faults. -/
def Dev.fetchBytes (d : Dev) (e : Env) (src a n : Nat) : List Byte × Bool × Dev :=
  if d.gddrFailed a then (d.raw a n, true, d)
  else
    let guard := (d.slotsIn a n).any fun x => slotPoisons x.2
    let r := (d.touch e a).readLines src true a n
    (d.bytes a n, r.1 || guard, r.2)

/-- A read by a block of fold `acc` (by a port where `acc` is 0xFF) with fault source `src`. -/
def Dev.readFrom (d : Dev) (e : Env) (src acc a n : Nat) : List Byte × Bool × Dev :=
  match d.reachOf acc a with
  | .served => d.fetchBytes e src a n
  | r =>
    let x := d.freeBytes n
    (x.1, true, x.2.missed src acc r a)

/-- Words of the status block that a block's write reaches: HPC_FSET_DONE alone is writable (R322, R323). -/
def Dev.statusStore (d : Dev) (e : Env) (off : Nat) (bs : List Byte) (w : Writer) : Dev :=
  if 0x800 ≤ off ∧ off < 0xC00 ∧ (off - 0x800) % 64 = 0x28 ∧ bs.length = 4 then
    d.fsetDone e ((off - 0x800) / 64) w (leNat bs)
  else d

/-- The hold of a merge whose old line is corrected in fold memory: the lines that a write covers in part (R140, R162, R318). -/
def Dev.mergeHold (d : Dev) (a n : Nat) : Dev :=
  (((if a % 64 ≠ 0 then [a / 64] else []) ++ (if (a + n) % 64 ≠ 0 then [(a + n) / 64] else [])).dedup).foldl (fun d l =>
    match zoneOf (64 * l) with
    | .foldMem k _ => if d.corrects l then d.hold (d.physOf k) 3 else d
    | _ => d) d

/-- A write by a block of fold `acc`; what reaches no memory is dropped (R33, R43, R147). -/
def Dev.writeFrom (d : Dev) (e : Env) (src acc a : Nat) (bs : List Byte) (p : Bool) (w : Writer) : Dev :=
  match d.reachOf acc a with
  | .served =>
    if d.gddrFailed a then d
    else if commonBase ≤ a ∧ a < commonBase + 0x2000 then
      if a < commonBase + 0x1000 then d.statusStore e (a - commonBase) bs w else d
    else ((d.touch e a).mergeHold a bs.length).write a bs p
  | r => d.missed src acc r a

/-! ## Stiles at the target (R445, R446) -/

/-- A request against the stiles as they stand: the failing status of DONE, or the device address it maps to. -/
def Dev.stileCheck (d : Dev) (dev off n : Nat) (write : Bool) : Nat × Nat :=
  match d.flock.stiles.find? fun x => match x.2.cfg with
    | some c => c.offset ≤ off && off + n ≤ c.offset + c.length
    | none => false with
  | none => (1, 0)
  | some (_, s) =>
    match s.cfg with
    | none => (1, 0)
    | some c =>
      if !c.peers.contains dev then (2, 0)
      else if s.fn ≠ .running then (3, 0)
      else if (write && !c.canWrite) || (!write && !c.canRead) then (4, 0)
      else (0, c.base + (off - c.offset))

/-- Stile space. -/
def inStile (a : Nat) : Bool := match zoneOf a with
  | .stile _ _ => true
  | _ => false

/-- The device address at which this device serves an access of one of its blocks; its own stile space leads through a stile
(R447). -/
def Dev.servedAt (d : Dev) (a n : Nat) (write : Bool) : Option Nat :=
  match zoneOf a with
  | .stile dev off =>
    if d.flock.dev = some dev ∧ (d.stileCheck dev off n write).1 = 0 then some (d.stileCheck dev off n write).2 else none
  | _ => some a

/-- The guarded slot that refuses an access of one of this device's blocks now (R305, R450). -/
def Dev.guardOf (d : Dev) (a n : Nat) (write : Bool) : Option (Nat × Slot) :=
  (d.servedAt a n write).bind fun x => (d.slotsIn x n).find? fun y => !slotAdmits y.2 write

/-- The next request number of this device (R439). -/
def Dev.nextReq (d : Dev) : Nat × Dev :=
  (d.flock.nextReq, { d with flock := { d.flock with nextReq := (d.flock.nextReq + 1) % 2 ^ 32 } })

/-- Sends a narrow READ_REQ or WRITE of a thread (R448); R447 when no RUNNING link exists: the answer is then none. -/
def Dev.narrowRemote (d : Dev) (e : Env) (t dev off size rd : Nat) (data : Option (List Byte)) (poison : Bool) : Option Dev :=
  match d.linkTo dev with
  | none => none
  | some k =>
    if (d.peer k).fn ≠ .running then none
    else
      let r := d.nextReq
      let q : NdReq := {
        id := r.1, peer := k, write := data.isSome, thread := some t, drover := none, rd := rd, size := size
        addr := stileBase + dev * 0x80000000 + off }
      let d := { r.2 with flock := { r.2.flock with reqs := r.2.flock.reqs ++ [q] } }
      some (d.ndSend e k (if data.isSome then 6 else 7) [off, r.1, 0, size, if poison then 1 else 0]
        ((data.map (padTo 8)).getD []) (some t))

/-- A denied or impossible stile access of a block: the ADDRESS fault of R446 or R447 at its source. -/
def Dev.stileFault (d : Dev) (src a status : Nat) : Dev := d.raise src 5 (if status = 0 then 2 else 3 + 16 * status) a

/-- The target's own stile fault, once a second for each peer whatever the status and the stile (R446, R604). -/
def Dev.stileTargetFault (d : Dev) (e : Env) (dev off status : Nat) : Dev :=
  let n := ((d.flock.stiles.find? fun x => match x.2.cfg with
    | some c => c.offset ≤ off && off < c.offset + c.length
    | none => false).map (·.1)).getD 0
  d.raiseKeyed e 0x2C6 0x2B status (dev + 65536 * n) false fun x => x.arg % 65536 == dev

end Sys2Proof.Machine
end

