-- ==== Sys2Proof/Machine/Num.lean ====
section
/-! DEFINITION. Number formats, the single rounding, special values and the six special functions (R198 to R201, R221 to
R224, R234 to R239, R243, R244, R250, R251), as exact rational arithmetic. -/

namespace Sys2Proof.Machine

open Sys2Proof

/-! ## Values and formats -/

/-- A value of any format; `neg` is the sign that a zero carries. -/
inductive Val where
  | nan
  | inf (neg : Bool)
  | fin (q : Rat) (neg : Bool)
deriving DecidableEq, Repr, Inhabited

def vzero : Val := .fin 0 false

/-- A floating-point format: exponent bits, bias, fraction bits, and whether it has no infinity (R222). -/
structure FFmt where
  eb : Nat
  bias : Nat
  mb : Nat
  noInf : Bool := false

/-- The floating-point formats by code (R222). -/
def ffmt (code : Nat) : Option FFmt :=
  if code = 0x10 then some { eb := 4, bias := 7, mb := 3, noInf := true }
  else if code = 0x11 then some { eb := 5, bias := 15, mb := 2 }
  else if code = 0x12 then some { eb := 5, bias := 15, mb := 10 }
  else if code = 0x13 then some { eb := 8, bias := 127, mb := 7 }
  else if code = 0x14 then some { eb := 8, bias := 127, mb := 23 }
  else none

/-- An integer format: bits and signedness (R221). -/
def ifmt (code : Nat) : Option (Nat × Bool) :=
  if code = 0x01 then some (8, true)
  else if code = 0x02 then some (8, false)
  else if code = 0x03 then some (16, true)
  else if code = 0x04 then some (32, true)
  else none

/-- Bytes per element; 0 for an undefined code (R198). -/
def fmtBytes (code : Nat) : Nat :=
  if code = 0x01 ∨ code = 0x02 ∨ code = 0x10 ∨ code = 0x11 then 1
  else if code = 0x03 ∨ code = 0x12 ∨ code = 0x13 then 2
  else if code = 0x04 ∨ code = 0x14 then 4
  else 0

def fmtDefined (code : Nat) : Bool := fmtBytes code != 0

/-- 2 to an integer power. -/
def pow2 (e : Int) : Rat := if 0 ≤ e then ((2 ^ e.toNat : Nat) : Rat) else 1 / ((2 ^ (-e).toNat : Nat) : Rat)

/-- The value of an encoding; subnormals at full value (R222, R223). -/
def decodeVal (code w : Nat) : Val :=
  match ffmt code with
  | some f =>
    let m := w % 2 ^ f.mb
    let x := w / 2 ^ f.mb % 2 ^ f.eb
    let neg := w / 2 ^ (f.mb + f.eb) % 2 = 1
    let top := x = 2 ^ f.eb - 1
    if f.noInf && top && m = 2 ^ f.mb - 1 then .nan
    else if !f.noInf && top then (if m = 0 then .inf neg else .nan)
    else
      let q := if x = 0 then (m : Rat) * pow2 (1 - (f.bias : Int) - f.mb)
        else ((m + 2 ^ f.mb : Nat) : Rat) * pow2 ((x : Int) - f.bias - f.mb)
      .fin (if neg then -q else q) neg
  | none =>
    match ifmt code with
    | some (n, sgn) =>
      let v : Int := if sgn then signedOf w n else (w % 2 ^ n : Nat)
      .fin v (v < 0)
    | none => vzero

/-- The canonical NaN of a format; an integer output writes 0 (R224, R238). -/
def nanBits (code : Nat) : Nat :=
  if code = 0x10 then 0x7F else if code = 0x11 then 0x7E else if code = 0x12 then 0x7E00
  else if code = 0x13 then 0x7FC0 else if code = 0x14 then 0x7FC00000 else 0

/-- The greatest integer e with 2^e ≤ q, for q > 0. -/
def ilog2 (q : Rat) : Int :=
  let e : Int := (Nat.log2 q.num.natAbs : Int) - Nat.log2 q.den
  if pow2 e ≤ q then (if pow2 (e + 1) ≤ q then e + 1 else e) else e - 1

/-- Rounds a magnitude to a whole number under a mode, for a value of the given sign (R235). -/
def roundMag (rnd : Nat) (neg : Bool) (q : Rat) : Nat :=
  let lo := q.floor.toNat
  let fr := q - q.floor
  if fr = 0 then lo
  else if rnd = 1 then lo
  else if rnd = 2 then (if neg then lo else lo + 1)
  else if rnd = 3 then (if neg then lo + 1 else lo)
  else if fr < 1 / 2 then lo
  else if 1 / 2 < fr then lo + 1
  else if rnd = 4 then lo + 1
  else if lo % 2 = 0 then lo else lo + 1

/-- The encoding of the largest finite magnitude. -/
def maxFinite (f : FFmt) : Nat :=
  if f.noInf then 2 ^ (f.eb + f.mb) - 2 else (2 ^ f.eb - 1) * 2 ^ f.mb - 1

/-- The sign bit of a float format. -/
def signBit (f : FFmt) (neg : Bool) : Nat := if neg then 2 ^ (f.eb + f.mb) else 0

/-- An infinity as a format writes it (R237). -/
def infBits (f : FFmt) (sat neg : Bool) : Nat :=
  if f.noInf then (if sat then signBit f neg + maxFinite f else 0x7F)
  else signBit f neg + (2 ^ f.eb - 1) * 2 ^ f.mb

/-- An overflowing result (R237). -/
def overflowBits (f : FFmt) (sat : Bool) (rnd : Nat) (neg : Bool) : Nat :=
  let big := sat || rnd = 1 || (rnd = 2 && neg) || (rnd = 3 && !neg)
  if big then signBit f neg + maxFinite f else infBits f false neg

/-- A non-zero exact value rounded in one mode into a float format, an overflow written under another (R235 to R237). -/
def roundFloatAs (f : FFmt) (dir rnd : Nat) (sat : Bool) (q : Rat) : Nat :=
  let neg := decide (q < 0)
  let a := if neg then -q else q
  let emin : Int := 1 - (f.bias : Int)
  let e := max (ilog2 a) emin
  let n := roundMag dir neg (a / pow2 (e - f.mb))
  let w := (e - emin).toNat * 2 ^ f.mb + n
  if maxFinite f < w then overflowBits f sat rnd neg else signBit f neg + w

/-- A non-zero exact value rounded once into a float format (R235 to R237). -/
def roundFloat (f : FFmt) (rnd : Nat) (sat : Bool) (q : Rat) : Nat := roundFloatAs f rnd rnd sat q

/-- A whole number of a value under a mode. -/
def roundInt (rnd : Nat) (q : Rat) : Int :=
  if q < 0 then -(roundMag rnd true (-q) : Int) else roundMag rnd false q

/-- The range of an integer format. -/
def intRange (n : Nat) (sgn : Bool) : Int × Int :=
  if sgn then (-(2 ^ (n - 1) : Nat), (2 ^ (n - 1) : Nat) - 1) else (0, (2 ^ n : Nat) - 1)

/-- A value rounded once into a format: exact zeros become +0 (R236), NaN and overflow as R224, R237, R238. -/
def encodeVal (code rnd : Nat) (sat : Bool) (v : Val) : Nat :=
  match ffmt code with
  | some f =>
    match v with
    | .nan => nanBits code
    | .inf neg => infBits f sat neg
    | .fin q _ => if q = 0 then 0 else roundFloat f rnd sat q
  | none =>
    match ifmt code with
    | some (n, sgn) =>
      let r := intRange n sgn
      match v with
      | .nan => 0
      | .inf neg => patternOf (if neg then r.1 else r.2) n
      | .fin q _ => patternOf (min (max (roundInt rnd q) r.1) r.2) n
    | none => 0

/-- Whether a value is exactly representable in a format. -/
def representable (code : Nat) (v : Val) : Bool :=
  match v, decodeVal code (encodeVal code 0 false v) with
  | .fin q _, .fin p _ => q == p
  | .inf a, .inf b => a == b
  | .nan, _ => (ffmt code).isSome
  | _, _ => false

/-- The value of an FP32 pattern. -/
def f32 (w : Nat) : Val := decodeVal 0x14 w

/-- An FP32 pattern is finite. -/
def f32Finite (w : Nat) : Bool :=
  match f32 w with
  | .fin _ _ => true
  | _ => false

/-- The exact number of a finite value, 0 otherwise. -/
def Val.num : Val → Rat
  | .fin q _ => q
  | _ => 0

/-! ## Exact combination of special values (R234, R244) -/

/-- a × s + b formed exactly. -/
def mulAdd (a s b : Val) : Val :=
  match a, s with
  | .nan, _ | _, .nan => .nan
  | .inf x, .inf y => addInf (x != y)
  | .inf x, .fin q _ => if q = 0 then .nan else addInf (x != decide (q < 0))
  | .fin q _, .inf y => if q = 0 then .nan else addInf (y != decide (q < 0))
  | .fin p _, .fin q _ =>
    match b with
    | .nan => .nan
    | .inf z => .inf z
    | .fin r _ => .fin (p * q + r) false
where
  /-- An infinite product of a sign, plus b. -/
  addInf (neg : Bool) : Val :=
    match b with
    | .nan => .nan
    | .inf z => if z = neg then .inf neg else .nan
    | .fin _ _ => .inf neg

/-- Sum of two values; equal-signed zeros keep no sign, because exact zeros are written +0. -/
def addVal (a b : Val) : Val := mulAdd a (.fin 1 false) b

def negVal : Val → Val
  | .nan => .nan
  | .inf n => .inf !n
  | .fin q n => .fin (-q) !n

/-- Order of finite values and infinities with −0 below +0 (R244). -/
def valLt (a b : Val) : Bool :=
  match a, b with
  | .inf true, .inf true => false
  | .inf true, _ => true
  | _, .inf true => false
  | .inf false, _ => false
  | _, .inf false => true
  | .fin p x, .fin q y => decide (p < q) || (p == q && p == 0 && x && !y)
  | _, _ => false

def maxVal (a b : Val) : Val :=
  match a, b with
  | .nan, _ | _, .nan => .nan
  | a, b => if valLt a b then b else a

def minVal (a b : Val) : Val :=
  match a, b with
  | .nan, _ | _, .nan => .nan
  | a, b => if valLt a b then a else b

/-- Encoding of a value that is one of the operands: an exact zero is +0 (R236). -/
def isZero : Val → Bool
  | .fin q _ => q == 0
  | _ => false

/-! ## Special functions by exact enclosures (R250, R251; DEDUCED, log entry 24) -/

/-- The six functions by operation code (R247). -/
inductive SpecFn where
  | exp
  | exp2
  | ln
  | log2
  | recip
  | rsqrt
deriving DecidableEq, Repr

/-- q rounded down and up to a multiple of 2^-p. -/
def dyDown (p : Nat) (q : Rat) : Rat := (q * ((2 ^ p : Nat) : Rat)).floor / ((2 ^ p : Nat) : Rat)
def dyUp (p : Nat) (q : Rat) : Rat := -dyDown p (-q)

/-- Partial sums of Σ x^k ÷ k! for k < n, with the last term. -/
def expTerms : Nat → Nat → Rat → Rat → Rat → Rat × Rat
  | 0, _, _, term, sum => (sum, term)
  | n + 1, k, x, term, sum => expTerms n (k + 1) x (term * x / (k + 1)) (sum + term)

/-- Squares an enclosure k times, rounding outward at p bits relative to its size. -/
def squareUp : Nat → Nat → Rat × Rat → Rat × Rat
  | 0, _, i => i
  | k + 1, p, (lo, hi) =>
    let s := (if 0 < lo then (-(ilog2 lo)).toNat else 0) * 2 + p
    squareUp k p (dyDown s (lo * lo), dyUp s (hi * hi))

/-- Encloses e^x for |x| ≤ 256. -/
def encExp (p : Nat) (x : Rat) : Rat × Rat :=
  let y := dyDown (p + 600) (x / 1024)
  let r := expTerms (p / 2 + 10) 0 y 1 0
  let err := (if r.2 < 0 then -r.2 else r.2) * 2 + 1 / ((2 ^ (p + 590) : Nat) : Rat)
  squareUp 10 (p + 40) (dyDown (p + 60) (r.1 - err), dyUp (p + 60) (r.1 + err))

/-- Σ z^(2k+1) ÷ (2k+1) for k < n, with z^(2n+1). -/
def atanhTerms : Nat → Nat → Rat → Rat → Rat → Rat × Rat
  | 0, _, _, pw, sum => (sum, pw)
  | n + 1, k, z, pw, sum => atanhTerms n (k + 1) z (pw * z * z) (sum + pw / (2 * k + 1))

/-- Encloses ln m for 1 ≤ m ≤ 2. -/
def encLn1 (p : Nat) (m : Rat) : Rat × Rat :=
  let z := (m - 1) / (m + 1)
  let r := atanhTerms (p / 3 + 8) 0 z z 0
  let err := 2 * r.2
  (2 * r.1, 2 * r.1 + err)

def encLn2 (p : Nat) : Rat × Rat := encLn1 p 2

/-- Encloses ln x for x > 0. -/
def encLn (p : Nat) (x : Rat) : Rat × Rat :=
  let k := ilog2 x
  let a := encLn1 p (x / pow2 k)
  let l := encLn2 (p + 16)
  if 0 ≤ k then (a.1 + k * l.1, a.2 + k * l.2) else (a.1 + k * l.2, a.2 + k * l.1)

/-- Encloses a function of a finite non-special argument at p bits; arguments beyond ±200 of the exponentials are taken at
a value that overflows or underflows every format alike. DEDUCED: log entry 24. -/
def enclose (fn : SpecFn) (p : Nat) (x : Rat) : Rat × Rat :=
  match fn with
  | .exp => if 200 < x then (pow2 200, pow2 200) else if x < -200 then (pow2 (-280), pow2 (-280)) else encExp p x
  | .exp2 =>
    if 200 < x then (pow2 200, pow2 200) else if x < -200 then (pow2 (-280), pow2 (-280))
    else if x.den = 1 then (pow2 x.num, pow2 x.num)
    else
      let l := encLn2 (p + 16)
      if 0 < x then ((encExp p (x * l.1)).1, (encExp p (x * l.2)).2) else ((encExp p (x * l.2)).1, (encExp p (x * l.1)).2)
  | .ln => if x = 1 then (0, 0) else encLn p x
  | .log2 =>
    if x = pow2 (ilog2 x) then ((ilog2 x : Rat), (ilog2 x : Rat))
    else
      let a := encLn p x
      let l := encLn2 (p + 16)
      (min (a.1 / l.1) (a.1 / l.2), max (a.2 / l.1) (a.2 / l.2))
  | .recip => (1 / x, 1 / x)
  | .rsqrt =>
    let s := (max (ilog2 x) 0).toNat + p
    let r := Nat.sqrt ((1 / x) * ((2 ^ (2 * s) : Nat) : Rat)).floor.toNat
    let lo : Rat := (r : Rat) / ((2 ^ s : Nat) : Rat)
    if lo * lo * x = 1 then (lo, lo) else (lo, ((r + 1 : Nat) : Rat) / ((2 ^ s : Nat) : Rat))

/-- The rounded result when both ends of an enclosure round alike, at growing precision. DEDUCED: log entry 24. -/
def settleRound (fn : SpecFn) (x : Rat) (rd : Rat → Nat) : Nat → Nat → Option Nat
  | 0, _ => none
  | fuel + 1, p =>
    let i := enclose fn p x
    if i.1 ≠ 0 ∧ i.2 ≠ 0 ∧ rd i.1 = rd i.2 then some (rd i.1)
    else if i.1 = 0 ∧ i.2 = 0 then some 0
    else settleRound fn x rd fuel (2 * p)

/-- Zero results and signs that R251 writes as given. -/
def signedZero (code : Nat) (neg : Bool) : Nat :=
  match ffmt code with
  | some f => signBit f neg
  | none => 0

/-- A special function of x = a − b in a format: R251 for special arguments, correct rounding for narrow formats, a
faithful FP32 result chosen by `pick` (R250). DEDUCED: log entry 24. -/
def specFn (fn : SpecFn) (code rnd : Nat) (sat : Bool) (pick : Bool) (openBits : Nat) (x : Val) : Nat :=
  let enc (v : Val) : Nat := encodeVal code rnd sat v
  let value (q : Rat) : Nat :=
    if code = 0x14 then
      match ffmt code with
      | none => 0
      | some f =>
        match settleRound fn q (roundFloatAs f 3 rnd sat) 6 64, settleRound fn q (roundFloatAs f 2 rnd sat) 6 64 with
        | some lo, some hi => if pick then hi else lo
        | _, _ => openBits
    else
      (settleRound fn q (fun r => encodeVal code rnd sat (.fin r false)) 6 64).getD openBits
  match fn, x with
  | _, .nan => enc .nan
  | .exp, .inf true | .exp2, .inf true => 0
  | .exp, .inf false | .exp2, .inf false => enc (.inf false)
  | .exp, .fin q _ | .exp2, .fin q _ => if q = 0 then enc (.fin 1 false) else value q
  | .ln, .inf false | .log2, .inf false => enc (.inf false)
  | .ln, .inf true | .log2, .inf true => enc .nan
  | .ln, .fin q _ | .log2, .fin q _ =>
    if q = 0 then enc (.inf true) else if q < 0 then enc .nan else if q = 1 then 0 else value q
  | .recip, .inf n => signedZero code n
  | .recip, .fin q n => if q = 0 then enc (.inf n) else value q
  | .rsqrt, .inf false => 0
  | .rsqrt, .inf true => enc .nan
  | .rsqrt, .fin q n => if q = 0 then enc (.inf n) else if q < 0 then enc .nan else value q

/-- The exact difference a − b that a special function takes; a zero is +0 unless a is −0 and b is +0 (R250). -/
def specArg (a b : Val) : Val :=
  match a, b with
  | .fin p x, .fin q y => if p - q = 0 then .fin 0 (x && p == 0 && !y) else .fin (p - q) (decide (p - q < 0))
  | a, b => addVal a (negVal b)

end Sys2Proof.Machine
end

