-- ==== Sys2Proof/Machine/Tile.lean ====
section
/-! DEFINITION. Tile jobs (R194 to R220, R225 to R238, R269 to R278): the descriptor and its format check, the cycle
procedure, the walker of CONV, exact and aligned accumulation, the special-value path and the epilogue. -/

namespace Sys2Proof.Machine

open Sys2Proof

/-! ## The descriptor (R203, R205, R206) -/

/-- A field of a descriptor. -/
def dfield (d : List Byte) (off n : Nat) : Nat := fieldAt d off n

def tjKind (d : List Byte) : Nat := dfield d 0x00 1
def tjFmtA (d : List Byte) : Nat := dfield d 0x01 1
def tjFmtB (d : List Byte) : Nat := dfield d 0x02 1
def tjFmtOut (d : List Byte) : Nat := dfield d 0x03 1
def tjBMode (d : List Byte) : Nat := dfield d 0x04 1
def tjContinue (d : List Byte) : Bool := bitOf (dfield d 0x05 1) 0
def tjKeep (d : List Byte) : Bool := bitOf (dfield d 0x05 1) 1
def tjEpi (d : List Byte) : Nat := dfield d 0x06 1
def tjRnd (d : List Byte) : Nat := dfield d 0x07 1
def tjM (d : List Byte) : Nat := dfield d 0x08 2
def tjK (d : List Byte) : Nat := dfield d 0x0A 2
def tjN (d : List Byte) : Nat := dfield d 0x0C 2
def tjA (d : List Byte) : Nat := dfield d 0x10 8
def tjB (d : List Byte) : Nat := dfield d 0x18 8
def tjC (d : List Byte) : Nat := dfield d 0x20 8
def tjLda (d : List Byte) : Nat := dfield d 0x28 4
def tjLdb (d : List Byte) : Nat := dfield d 0x2C 4
def tjLdc (d : List Byte) : Nat := dfield d 0x30 4
def tjScale (d : List Byte) : Nat := dfield d 0x38 8
def tjBias (d : List Byte) : Nat := dfield d 0x40 8
def tjClampLo (d : List Byte) : Nat := dfield d 0x48 4
def tjClampHi (d : List Byte) : Nat := dfield d 0x4C 4
def tjScaleVec (d : List Byte) : Bool := bitOf (tjEpi d) 2
def tjBiasVec (d : List Byte) : Bool := bitOf (tjEpi d) 3
def tjSat (d : List Byte) : Bool := bitOf (tjEpi d) 4
def tjAct (d : List Byte) : Nat := tjEpi d % 4
def tjQ (d : List Byte) : Nat := dfield d 0x50 1
def tjW0 (d : List Byte) : Nat := dfield d 0x54 4
def tjW1 (d : List Byte) : Nat := dfield d 0x58 4

/-- The CONV kind block (R205). -/
structure ConvBlock where
  inH : Nat
  inW : Nat
  inC : Nat
  outH : Nat
  outW : Nat
  kh : Nat
  kw : Nat
  sy : Nat
  sx : Nat
  dy : Nat
  dx : Nat
  pt : Nat
  pb : Nat
  pl : Nat
  pr : Nat
  mode : Nat
  ty0 : Nat
  tx0 : Nat
  th : Nat
  tw : Nat
  const : Nat
  rowStride : Nat

def convBlock (d : List Byte) : ConvBlock :=
  { inH := dfield d 0x50 2, inW := dfield d 0x52 2, inC := dfield d 0x54 2, outH := dfield d 0x56 2, outW := dfield d 0x58 2,
    kh := dfield d 0x5A 1, kw := dfield d 0x5B 1, sy := dfield d 0x5C 1, sx := dfield d 0x5D 1, dy := dfield d 0x5E 2,
    dx := dfield d 0x60 2, pt := dfield d 0x62 2, pb := dfield d 0x64 2, pl := dfield d 0x66 2, pr := dfield d 0x68 2,
    mode := dfield d 0x6A 1, ty0 := dfield d 0x6C 1, tx0 := dfield d 0x6D 1, th := dfield d 0x6E 1, tw := dfield d 0x6F 1,
    const := dfield d 0x70 4, rowStride := dfield d 0x74 4 }

/-- Channels rounded up to a multiple of 16 (R269). -/
def ConvBlock.cp (c : ConvBlock) : Nat := ceilDiv c.inC 16 * 16

/-! ## Format check (R198, R199, R204, R206, R273) -/

/-- Limbs of an input pair that exists; 0 for one that does not (R199). -/
def pairLimbs (a b : Nat) : Nat :=
  if (a = 0x01 ∨ a = 0x02) ∧ b = 0x01 then 1
  else if (a = 0x10 ∨ a = 0x11) ∧ (b = 0x10 ∨ b = 0x11) then 1
  else if a = b ∧ (a = 0x03 ∨ a = 0x12 ∨ a = 0x13) then 2
  else if a = 0x14 ∧ b = 0x14 then 3
  else 0

/-- Exact accumulation: integers and FP8 (R225). -/
def pairExact (a : Nat) : Bool := a ≤ 0x03 || a = 0x10 || a = 0x11

/-- A stretch lies in a fold's own 8 MiB. -/
def inFold (n a len : Nat) : Bool := ownBase n ≤ a && a + len ≤ ownBase n + ownSize n

/-- A strided range: base, rows, stride, bytes per row. -/
structure Rows where
  base : Nat
  count : Nat
  stride : Nat
  len : Nat

def Rows.last (r : Rows) : Nat := if r.count = 0 then r.base else r.base + (r.count - 1) * r.stride + r.len

/-- Two ranges share a byte: they meet row by row (R204). -/
def Rows.overlaps (x y : Rows) : Bool :=
  x.base < y.last && y.base < x.last && 0 < x.len && 0 < y.len &&
    (List.range x.count).any fun i => (List.range y.count).any fun j =>
      x.base + i * x.stride < y.base + j * y.stride + y.len && y.base + j * y.stride < x.base + i * x.stride + x.len

/-- The whole range lies in fold `n`'s memory. -/
def Rows.inside (r : Rows) (n : Nat) : Bool := inFold n r.base (r.last - r.base)

/-- Lines of a strided range. -/
def Rows.lineList (r : Rows) : List Nat :=
  ((List.range r.count).flatMap fun i => linesOf (r.base + i * r.stride) r.len).dedup

/-- 128-column tiles of a job (R207, R210). -/
def tjTiles (d : List Byte) : Nat :=
  if tjKind d = 2 then ceilDiv (tjM d) 128 * ceilDiv (tjN d * tjQ d) 128 else ceilDiv (tjM d) 128 * ceilDiv (tjN d) 128

/-- The ranges a job reads: A, B, scale and bias (R204, R206, R273). -/
def tjReads (d : List Byte) : List Rows :=
  let ea := fmtBytes (tjFmtA d)
  let eb := fmtBytes (tjFmtB d)
  let c := convBlock d
  let a : Rows :=
    if tjKind d = 1 then { base := tjA d, count := 1, stride := 0, len := (c.inH - 1) * c.rowStride + c.inW * tjLda d }
    else { base := tjA d, count := tjM d, stride := tjLda d, len := (if tjKind d = 2 then tjN d else tjK d) * ea }
  let b : Rows :=
    if tjKind d = 2 then { base := tjB d, count := if tjQ d = 2 then tjM d else 0, stride := tjLdb d, len := tjN d * ea }
    else { base := tjB d, count := tjK d, stride := tjLdb d, len := tjN d * eb }
  let vec (on : Bool) (x : Nat) : List Rows := if on then [{ base := x, count := 1, stride := 0, len := 4 * tjN d }] else []
  [a, b] ++ vec (tjScaleVec d) (tjScale d) ++ vec (tjBiasVec d) (tjBias d)

/-- The range a job writes. -/
def tjWrites (d : List Byte) : Rows :=
  { base := tjC d, count := tjM d, stride := tjLdc d, len := tjN d * fmtBytes (tjFmtOut d) }

/-- R273. -/
def convOk (d : List Byte) : Bool :=
  let c := convBlock d
  let ea := fmtBytes (tjFmtA d)
  let pos := [c.inH, c.inW, c.inC, c.outH, c.outW, c.kh, c.kw, c.sy, c.sx, c.dy, c.dx].all (0 < ·)
  pos && c.inC ≤ 4096 && c.outH * c.outW = tjM d && c.th * c.tw * c.cp = tjK d && tjK d ≤ 4096 &&
    1 ≤ c.th && c.th ≤ 15 && 1 ≤ c.tw && c.tw ≤ 15 && c.ty0 + c.th ≤ c.kh && c.tx0 + c.tw ≤ c.kw &&
    (c.outH - 1) * c.sy + (c.kh - 1) * c.dy + 1 ≤ c.inH + c.pt + c.pb &&
    (c.outW - 1) * c.sx + (c.kw - 1) * c.dx + 1 ≤ c.inW + c.pl + c.pr &&
    tjLda d % 64 = 0 && c.inC * ea ≤ tjLda d && c.rowStride % 64 = 0 && c.inW * tjLda d ≤ c.rowStride &&
    c.mode ≤ 3 && c.const < 2 ^ (8 * ea) && (c.mode = 1 || c.const = 0) && zeroAt d 0x6B 1 && zeroAt d 0x78 8

/-- The format check of a tile job of fold `n` (R204). DEDUCED: log entry 40. -/
def tileOk (n : Nat) (d : List Byte) : Bool :=
  let kind := tjKind d
  let r := pairLimbs (tjFmtA d) (tjFmtB d)
  let ea := fmtBytes (tjFmtA d)
  let eb := fmtBytes (tjFmtB d)
  let mOk (x : Nat) : Bool := 16 ≤ x && x ≤ 4096 && x % 16 = 0
  let reads := (tjReads d).filter (0 < ·.count)
  let w := tjWrites d
  let lo := f32 (tjClampLo d)
  let hi := f32 (tjClampHi d)
  let rowA := (if kind = 2 then tjN d else if kind = 1 then (convBlock d).inC else tjK d) * ea
  let rowB := tjN d * (if kind = 2 then ea else eb)
  kind ≤ 2 && fmtDefined (tjFmtOut d) && r ≠ 0 && tjBMode d ≤ 2 && tjRnd d ≤ 4 && dfield d 0x05 1 < 4 &&
    tjEpi d < 32 && tjAct d ≠ 3 && mOk (tjM d) && mOk (tjN d) && zeroAt d 0x0E 2 && zeroAt d 0x34 4 &&
    (if kind = 2 then tjK d = 0 && tjBMode d = 0 && dfield d 0x05 1 = 0 else mOk (tjK d) || kind = 1) &&
    (tjScaleVec d || zeroAt d 0x3C 4) && (tjBiasVec d || zeroAt d 0x44 4) &&
    ([tjA d, tjB d, tjC d].all (· % 64 = 0)) && (!tjScaleVec d || tjScale d % 64 = 0) && (!tjBiasVec d || tjBias d % 64 = 0) &&
    (reads.all fun x => x.inside n) && w.inside n && (reads.all fun x => !x.overlaps w) &&
    (kind = 1 || tjLda d % 64 = 0 && rowA ≤ tjLda d) && tjLdb d % 64 = 0 && (rowB ≤ tjLdb d || (kind = 2 && tjQ d = 1)) &&
    tjLdc d % 64 = 0 && w.len ≤ tjLdc d &&
    (tjAct d ≠ 2 || (representable (tjFmtOut d) lo && representable (tjFmtOut d) hi && lo ≠ .nan && hi ≠ .nan && !valLt hi lo)) &&
    (tjBMode d ≠ 1 || tjK d * lines (tjN d * eb) * 64 ≤ 524288) && (!tjKeep d || tjTiles d ≤ 2) &&
    (match kind with
     | 0 => zeroAt d 0x50 48
     | 1 => convOk d
     | _ => (tjQ d = 1 || tjQ d = 2) && zeroAt d 0x51 3 && zeroAt d 0x5C 36 && representable (tjFmtB d) (f32 (tjW0 d)) &&
        representable (tjFmtB d) (f32 (tjW1 d)) && (tjQ d = 2 || tjW1 d = 0))

/-! ## Cycle count (R208 to R210, R274) -/

/-- Line slots of the walker in step kb (R274). -/
def walkerSlots (c : ConvBlock) (ea kb kc : Nat) : Nat :=
  ((List.range (c.th * c.tw)).map fun t =>
    if t * c.cp < 128 * kb + kc ∧ 128 * kb < (t + 1) * c.cp then
      let c0 := max (128 * kb) (t * c.cp) - t * c.cp
      let c1 := min (128 * kb + kc) ((t + 1) * c.cp) - t * c.cp
      (c1 * ea + 63) / 64 - c0 * ea / 64
    else 0).sum

/-- One step of a job: tile (i, j), block kb, with its row, column and reduction widths. -/
structure StepOf where
  tile : Nat
  i : Nat
  j : Nat
  kb : Nat
  mc : Nat
  nc : Nat
  kc : Nat

/-- The steps of a job in R207 or R210 order. -/
def tjSteps (d : List Byte) : List StepOf :=
  let mt := ceilDiv (tjM d) 128
  let w := if tjKind d = 2 then 128 / tjQ d else 128
  let nt := if tjKind d = 2 then ceilDiv (tjN d * tjQ d) 128 else ceilDiv (tjN d) 128
  let kt := if tjKind d = 2 then 1 else ceilDiv (tjK d) 128
  (List.range mt).flatMap fun i => (List.range nt).flatMap fun j => (List.range kt).map fun kb =>
    { tile := i * nt + j, i := i, j := j, kb := kb, mc := min 128 (tjM d - 128 * i), nc := min w (tjN d - w * j),
      kc := min 128 (tjK d - 128 * kb) }

/-- A runs in panel mode; the steps that fill A and those that fill B (R208). -/
def tjPanel (d : List Byte) : Bool := tjKind d ≠ 2 && 128 * lines (tjK d * fmtBytes (tjFmtA d)) * 64 ≤ 262144
def tjFillsA (d : List Byte) (s : StepOf) : Bool := !tjPanel d || s.j = 0
def tjFillsB (d : List Byte) (s : StepOf) : Bool := tjKind d ≠ 2 && (tjBMode d = 0 || (tjBMode d = 1 && s.i = 0))

/-- The number of a step in R207 or R210 order. -/
def tjStepNo (d : List Byte) (i j kb : Nat) : Nat :=
  let nt := if tjKind d = 2 then ceilDiv (tjN d * tjQ d) 128 else ceilDiv (tjN d) 128
  (i * nt + j) * (if tjKind d = 2 then 1 else ceilDiv (tjK d) 128) + kb

/-- The step whose fill brought the A block of output (i, j) and reduction block kb, and the B block (R208). -/
def tjFillA (d : List Byte) (i j kb : Nat) : Nat :=
  let w := if tjKind d = 2 then 128 / tjQ d else 128
  tjStepNo d (i / 128) (if tjPanel d then 0 else j / w) kb
def tjFillB (d : List Byte) (i j kb : Nat) : Nat :=
  tjStepNo d (if tjBMode d = 0 then i / 128 else 0) (j / 128) kb

/-- Bytes that a step fills (R208, R210, R274). -/
def stepFill (d : List Byte) (s : StepOf) : Nat :=
  let ea := fmtBytes (tjFmtA d)
  let eb := fmtBytes (tjFmtB d)
  if tjKind d = 2 then s.mc * tjQ d * lines (s.nc * ea) * 64
  else
    let a := if !tjFillsA d s then 0
      else if tjKind d = 1 then s.mc * walkerSlots (convBlock d) ea s.kb s.kc * 64 else s.mc * lines (s.kc * ea) * 64
    let b := if tjFillsB d s then s.kc * lines (s.nc * eb) * 64 else 0
    a + b

def fillCyc (x : Nat) : Nat := (x + 255) / 256

/-- Runs the procedure of R209 over the steps of one tile after another: t, the last two epilogue ends, last. -/
def tileCycles (d : List Byte) (r wb : Nat) : List StepOf → Nat → Nat → Nat → Nat → Nat
  | [], _, _, _, last => last
  | s :: rest, t, e2, e1, _ =>
    let kt := if tjKind d = 2 then 1 else ceilDiv (tjK d) 128
    let t := if s.kb = 0 then max t (e2 - 260) else t
    let t := t + max (r * max (r * s.mc) (64 * wb)) (fillCyc ((rest.head?.map (stepFill d)).getD 0))
    if s.kb + 1 < kt then tileCycles d r wb rest t e2 e1 t
    else if tjKeep d then tileCycles d r wb rest t 0 0 (t + 260)
    else
      let eo := fmtBytes (tjFmtOut d)
      let eu := s.mc * ((s.nc * eo + 127) / 128 + if s.nc * eo % 64 = 0 then 0 else 1)
      let f := max (t + 260) e1 + eu
      tileCycles d r wb rest t e1 f f

/-- The cycle count of a tile job (R209). DESIGN CHOICE: log entry 34. -/
def tjCycles (d : List Byte) : Nat :=
  let r := pairLimbs (tjFmtA d) (tjFmtB d)
  let wb := if tjKind d = 2 then 1 else fmtBytes (tjFmtB d)
  let vec := (if tjScaleVec d then 4 * tjN d else 0) + if tjBiasVec d then 4 * tjN d else 0
  let steps := tjSteps d
  tileCycles d r wb steps (fillCyc (vec + (steps.head?.map (stepFill d)).getD 0) + 64 * wb) 0 0 0

/-! ## Operand elements (R207, R210, R269 to R272) -/

/-- The number held in `n` bytes at an address, little-endian. -/
def viewNat (v : Nat → Byte) (a n : Nat) : Nat := leNat ((List.range n).map fun i => v (a + i))

/-- R272's mirror. -/
def mirrorIx (p : Int) (n : Nat) : Nat :=
  if n ≤ 1 then 0
  else
    let q := (p % (2 * n - 2 : Nat)).toNat
    if q < n then q else 2 * n - 2 - q

/-- The mapped index of a padded axis. -/
def edgeIx (p : Int) (n : Nat) : Nat := (min (max p 0) ((n : Int) - 1)).toNat

/-- The input pixel that a tap reads; none where it is in padding and reads nothing (R271, R272, R275). -/
def tapPixel (c : ConvBlock) (oy ox ty tx : Nat) : Option (Nat × Nat) :=
  let iy : Int := (oy * c.sy : Nat) - (c.pt : Int) + (ty * c.dy : Nat)
  let ix : Int := (ox * c.sx : Nat) - (c.pl : Int) + (tx * c.dx : Nat)
  if 0 ≤ iy ∧ iy < c.inH ∧ 0 ≤ ix ∧ ix < c.inW then some (iy.toNat, ix.toNat)
  else if c.mode = 2 then some (mirrorIx iy c.inH, mirrorIx ix c.inW)
  else if c.mode = 3 then some (edgeIx iy c.inH, edgeIx ix c.inW)
  else none

/-- The element pattern that a tap reads: the pixel's, or the padded value (R271, R272). -/
def convElem (c : ConvBlock) (pixel : Nat → Nat → Nat) (oy ox ty tx : Nat) : Nat :=
  match tapPixel c oy ox ty tx with
  | some p => pixel p.1 p.2
  | none => if c.mode = 1 then c.const else 0

/-- Where the elements of a tap lie for output row `i` of a CONV job (R269, R270). -/
def tapAddr (d : List Byte) (i t : Nat) : Option Nat :=
  let c := convBlock d
  (tapPixel c (i / c.outW) (i % c.outW) (c.ty0 + t / c.tw) (c.tx0 + t % c.tw)).map fun p =>
    tjA d + p.1 * c.rowStride + p.2 * tjLda d

/-- Operand pairs of output (i, j) in reduction order: element patterns of A and B; indices that are no operands are left
out (R207, R232, R269). The views give the bytes that the fills of reduction block kb took (R220). -/
def tjPairs (d : List Byte) (va vb : Nat → Nat → Byte) (i j : Nat) : List (Nat × Nat × Nat) :=
  let ea := fmtBytes (tjFmtA d)
  let eb := fmtBytes (tjFmtB d)
  let bEl (k : Nat) : Nat := viewNat (vb (k / 128)) (tjB d + k * tjLdb d + j * eb) eb
  match tjKind d with
  | 0 => (List.range (tjK d)).map fun k => (k, viewNat (va (k / 128)) (tjA d + i * tjLda d + k * ea) ea, bEl k)
  | 1 =>
    let c := convBlock d
    (List.range (c.th * c.tw)).flatMap fun t => (List.range c.inC).map fun ch =>
      let pixel (y x : Nat) : Nat := viewNat (va ((t * c.cp + ch) / 128)) (tjA d + y * c.rowStride + x * tjLda d + ch * ea) ea
      (t * c.cp + ch, convElem c pixel (i / c.outW) (i % c.outW) (c.ty0 + t / c.tw) (c.tx0 + t % c.tw), bEl (t * c.cp + ch))
  | _ =>
    let w (x : Nat) : Nat := encodeVal (tjFmtB d) 0 false (f32 x)
    let x0 := (0, viewNat (va 0) (tjA d + i * tjLda d + j * ea) ea, w (tjW0 d))
    if tjQ d = 2 then [x0, (1, viewNat (va 0) (tjB d + i * tjLdb d + j * ea) ea, w (tjW1 d))] else [x0]

/-! ## Accumulation (R226 to R233) -/

/-- q with every bit below 2^e discarded toward zero. -/
def truncTo (q : Rat) (e : Int) : Rat :=
  let s := q / pow2 e
  (if s < 0 then -((-s).floor : Rat) else (s.floor : Rat)) * pow2 e

def absQ (q : Rat) : Rat := if q < 0 then -q else q

/-- An addition that keeps bits from 2^(X − w) up, where the larger magnitude is below 2^X (R228, R229).
DEDUCED: log entry 25. -/
def alignedAdd (w : Int) (p t : Rat) : Rat :=
  let m := max (absQ p) (absQ t)
  if m = 0 then 0 else truncTo (p + t) (ilog2 m + 1 - w)

/-- Limb j of an element as a signed value without its weight, and the weight's exponent (R200). -/
def limbOf (code w r j : Nat) : Rat :=
  match decodeVal code w with
  | .fin q _ =>
    let a := absQ q
    let s := if q < 0 then (-1 : Rat) else 1
    match ffmt code with
    | some f =>
      let x := w / 2 ^ f.mb % 2 ^ f.eb
      let e : Int := if x = 0 then 1 - (f.bias : Int) else (x : Int) - f.bias
      let sc := pow2 (e - (8 * r - 1))
      s * (((a / sc).floor.toNat / 2 ^ (8 * j) % 256 : Nat) : Rat) * sc
    | none => s * ((a.floor.toNat / 2 ^ (8 * j) % 256 : Nat) : Rat)
  | _ => 0

/-- The element as one limb where r is 1. -/
def cellOperand (code w r j : Nat) : Rat := if r = 1 then (decodeVal code w).num else limbOf code w r j

/-- The sum of one job in aligned mode, added to a starting value in R207 order. DEDUCED: log entry 25. -/
def alignedSum (fa fb r kt : Nat) (l : List (Nat × Nat × Nat)) (start : Rat) : Rat :=
  (List.range kt).foldl (fun y kb =>
    let blk := l.filter fun x => x.1 / 128 == kb
    ((List.range r).reverse).foldl (fun y jb => ((List.range r).reverse).foldl (fun y ja =>
      let p := blk.foldl (fun p x => alignedAdd 57 p (cellOperand fa x.2.1 r ja * cellOperand fb x.2.2 r jb)) 0
      alignedAdd 108 y (p * pow2 (8 * (ja + jb : Nat)))) y) y) start

/-- The exact products' sum and the sum of their magnitudes. -/
def exactSum (fa fb : Nat) (l : List (Nat × Nat × Nat)) : Rat × Rat :=
  l.foldl (fun s x =>
    let t := (decodeVal fa x.2.1).num * (decodeVal fb x.2.2).num
    (s.1 + t, s.2 + absQ t)) (0, 0)

/-- The cell sums of one job in exact mode with their limb weights, in R207 order (R226). -/
def exactParts (fa fb r kt : Nat) (l : List (Nat × Nat × Nat)) : List Rat :=
  (List.range kt).flatMap fun kb =>
    let blk := l.filter fun x => x.1 / 128 == kb
    ((List.range r).reverse).flatMap fun jb => ((List.range r).reverse).map fun ja =>
      (blk.map fun x => cellOperand fa x.2.1 r ja * cellOperand fb x.2.2 r jb).sum * pow2 (8 * (ja + jb : Nat))

/-- The special-value path over the products (R232, R233). -/
def specialPath (fa fb : Nat) (l : List (Nat × Nat × Nat)) (a : Acc) : Acc :=
  l.foldl (fun a x =>
    match decodeVal fa x.2.1, decodeVal fb x.2.2 with
    | .nan, _ | _, .nan => { a with nan := true }
    | .inf s, .inf t => if s = t then { a with posInf := true } else { a with negInf := true }
    | .inf s, .fin q _ | .fin q _, .inf s =>
      if q = 0 then { a with nan := true }
      else if s = decide (q < 0) then { a with posInf := true } else { a with negInf := true }
    | _, _ => a) a

/-- The least significant bit of an exact-mode accumulator (R226). -/
def exactLsb (fa : Nat) : Rat := if fa ≤ 3 then 1 else pow2 (-32)

/-- One cell sum added to an exact-mode accumulator of 112 bits in two's complement: an addition past the end of the range saturates
it at ±(2^111 − 1) LSB, and it keeps that value for the rest of the chain (R226, R227). DEDUCED: log entry 26. -/
def Acc.addExact (a : Acc) (fa : Nat) (q : Rat) : Acc :=
  let v := a.sum + q
  let m := ((2 ^ 111 - 1 : Nat) : Rat) * exactLsb fa
  if a.saturated then a
  else if m < v then { a with sum := m, saturated := true }
  else if v < -(m + exactLsb fa) then { a with sum := -m, saturated := true }
  else { a with sum := v }

/-- Adds one job's products to an accumulator. In aligned mode the sum is R228's and R229's, or any value within the
bound of R230 (R240, R241): `drift` is an open value, used only inside the bound. DEDUCED: log entry 25. -/
def accumulate (fa fb kt : Nat) (drift : Rat) (l : List (Nat × Nat × Nat)) (a : Acc) : Acc :=
  let s := specialPath fa fb l a
  let x := exactSum fa fb l
  let r := pairLimbs fa fb
  if pairExact fa then (exactParts fa fb r kt l).foldl (fun a q => a.addExact fa q) s
  else
    let bound := (pow2 (-49) + (r * r * kt : Nat) * pow2 (-107)) * x.2
    { s with sum := if absQ drift < bound then a.sum + x.1 + drift else alignedSum fa fb r kt l a.sum }

/-- The value of acc that the epilogue receives (R233). -/
def Acc.val (a : Acc) : Val :=
  if a.nan || (a.posInf && a.negInf) then .nan
  else if a.posInf then .inf false
  else if a.negInf then .inf true
  else .fin a.sum (decide (a.sum < 0))

/-! ## Epilogue (R211, R212, R234) -/

/-- Activation of the rounded value. -/
def activate (act lo hi code w : Nat) : Nat :=
  let v := decodeVal code w
  match v with
  | .nan => w
  | _ =>
    if act = 1 then (if valLt v vzero || isZero v then 0 else w)
    else if act = 2 then
      let l := encodeVal code 0 false (f32 lo)
      let h := encodeVal code 0 false (f32 hi)
      let m := if valLt v (f32 lo) then l else w
      if valLt (f32 hi) (decodeVal code m) then h else m
    else w

/-- One output element from its accumulator. -/
def epilogue (d : List Byte) (v : Nat → Byte) (j : Nat) (a : Acc) : Nat :=
  let s := f32 (if tjScaleVec d then viewNat v (tjScale d + 4 * j) 4 else tjScale d)
  let b := f32 (if tjBiasVec d then viewNat v (tjBias d + 4 * j) 4 else tjBias d)
  activate (tjAct d) (tjClampLo d) (tjClampHi d) (tjFmtOut d)
    (encodeVal (tjFmtOut d) (tjRnd d) (tjSat d) (mulAdd a.val s b))

/-- The accumulators of a job, row by row. -/
def tjAccs (d : List Byte) (va vb : Nat → Nat → Byte) (start : Nat → Acc) (drift : Nat → Rat) : List Acc :=
  (List.range (tjM d)).flatMap fun i => (List.range (tjN d)).map fun j =>
    let x := i * tjN d + j
    accumulate (tjFmtA d) (tjFmtB d) (max 1 (ceilDiv (tjK d) 128)) (drift x) (tjPairs d (fun kb => va (tjFillA d i j kb)) (fun kb => vb (tjFillB d i j kb)) i j) (start x)

/-- The bytes of output row i. -/
def tjRow (d : List Byte) (v : Nat → Byte) (accs : List Acc) (i : Nat) : List Byte :=
  (List.range (tjN d)).flatMap fun j =>
    leBytes (fmtBytes (tjFmtOut d)) (epilogue d v j (accs.getD (i * tjN d + j) {}))

end Sys2Proof.Machine
end

