-- ==== Sys2Proof/Machine/Vector.lean ====
section
/-! DEFINITION. Vector instructions (R242 to R268): the descriptor and its format check, the cycle counts, element-wise
work, special functions, row statistics, lookups, and depthwise and grouped convolution. -/

namespace Sys2Proof.Machine

open Sys2Proof

/-! ## The descriptor (R245, R247) -/

def viOp (d : List Byte) : Nat := dfield d 0x00 1
def viFmtA (d : List Byte) : Nat := dfield d 0x01 1
def viFmtB (d : List Byte) : Nat := dfield d 0x02 1
def viFmtOut (d : List Byte) : Nat := dfield d 0x03 1
def viBMode (d : List Byte) : Nat := dfield d 0x04 1
def viCMode (d : List Byte) : Nat := dfield d 0x05 1
def viSat (d : List Byte) : Bool := bitOf (dfield d 0x06 1) 0
def viSlot (d : List Byte) : Nat := bitsAt (dfield d 0x06 1) 1 2
def viRnd (d : List Byte) : Nat := dfield d 0x07 1
def viRows (d : List Byte) : Nat := dfield d 0x08 4
def viLen (d : List Byte) : Nat := dfield d 0x0C 4
def viA (d : List Byte) : Nat := dfield d 0x10 8
def viB (d : List Byte) : Nat := dfield d 0x18 8
def viC (d : List Byte) : Nat := dfield d 0x20 8
def viD (d : List Byte) : Nat := dfield d 0x28 8
def viLda (d : List Byte) : Nat := dfield d 0x30 4
def viLdb (d : List Byte) : Nat := dfield d 0x34 4
def viLdc (d : List Byte) : Nat := dfield d 0x38 4
def viLdd (d : List Byte) : Nat := dfield d 0x3C 4
def viImm0 (d : List Byte) : Nat := dfield d 0x40 4
def viImm1 (d : List Byte) : Nat := dfield d 0x44 4
def viDdof (d : List Byte) : Nat := dfield d 0x48 2
def viGs (d : List Byte) : Nat := dfield d 0x4A 1

/-- DWCONV and GCONV. -/
def viIsConv (op : Nat) : Bool := op = 0x30 || op = 0x31

/-- RMAX to RVAR. -/
def viIsReduce (op : Nat) : Bool := 0x20 ≤ op && op ≤ 0x24

/-- Whether an operation takes b, and c (R247). -/
def viTakesB (op : Nat) : Bool := (1 ≤ op && op ≤ 7) || (0x10 ≤ op && op ≤ 0x15) || viIsConv op
def viTakesC (op : Nat) : Bool := op = 4 || op = 7 || viIsConv op

/-- Cycles of a beat and latency (R247); none for an operation not listed. -/
def viCost (op : Nat) : Option (Nat × Nat) :=
  if 1 ≤ op ∧ op ≤ 8 then some (1, 10)
  else if 0x10 ≤ op ∧ op ≤ 0x15 then some (4, 22)
  else if op = 0x18 then some (2, 22)
  else if op = 0x20 ∨ op = 0x21 then some (1, 30)
  else if op = 0x22 ∨ op = 0x23 ∨ op = 0x24 then some (2, 30)
  else if viIsConv op then some (1, 16)
  else none

/-- Members of a group (R266). -/
def viGroup (d : List Byte) : Nat := if viOp d = 0x31 then viGs d else 1

/-- Bytes between pixels of the input and the output, and between rows of weights (R266). -/
def viPixIn (d : List Byte) : Nat := lines ((convBlock d).inC * fmtBytes (viFmtA d)) * 64
def viPixOut (d : List Byte) : Nat := lines ((convBlock d).inC * fmtBytes (viFmtOut d)) * 64
def viWeightRow (d : List Byte) : Nat := lines ((convBlock d).inC * fmtBytes (viFmtB d)) * 64

/-- The ranges an instruction reads. -/
def viReads (d : List Byte) : List Rows :=
  let c := convBlock d
  let eb := fmtBytes (viFmtB d)
  if viIsConv (viOp d) then
    [{ base := viA d, count := c.inH, stride := c.rowStride, len := c.inW * viPixIn d },
     { base := viB d, count := c.kh * c.kw * viGroup d, stride := viWeightRow d, len := viWeightRow d }] ++
    (if viCMode d = 2 then [{ base := viC d, count := 1, stride := 0, len := 4 * c.inC }] else [])
  else
    let operand (mode base ld : Nat) : List Rows :=
      if mode = 2 then [{ base := base, count := 1, stride := 0, len := viLen d * eb }]
      else if mode = 3 then [{ base := base, count := 1, stride := 0, len := viRows d * eb }]
      else if mode = 4 then [{ base := base, count := viRows d, stride := ld, len := viLen d * eb }]
      else []
    [{ base := viA d, count := viRows d, stride := viLda d, len := viLen d * fmtBytes (viFmtA d) }] ++
      operand (viBMode d) (viB d) (viLdb d) ++ operand (viCMode d) (viC d) (viLdc d)

/-- The lines of the input pixels that each tap of a DWCONV or GCONV reads, output pixel by output pixel (R266, R268). -/
def viTapLines (d : List Byte) : List (List Nat) :=
  let c := convBlock d
  (List.range (c.outH * c.outW)).flatMap fun i => (List.range (c.kh * c.kw)).map fun t =>
    match tapPixel c (i / c.outW) (i % c.outW) (t / c.kw) (t % c.kw) with
    | some p => linesOf (viA d + p.1 * c.rowStride + p.2 * viPixIn d) (c.inC * fmtBytes (viFmtA d))
    | none => []

/-- The range an instruction writes. -/
def viWrites (d : List Byte) : Rows :=
  let eo := fmtBytes (viFmtOut d)
  if viIsConv (viOp d) then
    { base := viD d, count := (convBlock d).outH, stride := viLdd d, len := (convBlock d).outW * viPixOut d }
  else if viIsReduce (viOp d) then { base := viD d, count := 1, stride := 0, len := viRows d * eo }
  else { base := viD d, count := viRows d, stride := viLdd d, len := viLen d * eo }

/-- Bytes of the lane store (R246, R266). -/
def viLaneBytes (d : List Byte) : Nat :=
  let eb := fmtBytes (viFmtB d)
  if viIsConv (viOp d) then
    (convBlock d).kh * (convBlock d).kw * viGroup d * viWeightRow d + if viCMode d = 2 then 4 * (convBlock d).inC else 0
  else
    let x (m : Nat) : Nat := if m = 2 then viLen d * eb else if m = 3 then viRows d * eb else 0
    x (viBMode d) + x (viCMode d)

/-- The terms of R266 with the geometry of R273. -/
def viConvOk (d : List Byte) : Bool :=
  let c := convBlock d
  let ea := fmtBytes (viFmtA d)
  let pos := [c.inH, c.inW, c.inC, c.outH, c.outW, c.kh, c.kw, c.sy, c.sx, c.dy, c.dx].all (0 < ·)
  pos && viFmtA d ≠ 4 && viFmtB d ≠ 4 && pairLimbs (viFmtA d) (viFmtB d) ≠ 0 && viRows d = 0 && viLen d = 0 &&
    (if viOp d = 0x31 then 2 ≤ viGs d && viGs d ≤ 8 && c.inC % viGs d = 0 else viGs d = 0) && viDdof d = 0 &&
    c.inC ≤ 4096 && c.kh ≤ 15 && c.kw ≤ 15 && c.ty0 = 0 && c.tx0 = 0 && c.th = c.kh && c.tw = c.kw &&
    (c.outH - 1) * c.sy + (c.kh - 1) * c.dy + 1 ≤ c.inH + c.pt + c.pb &&
    (c.outW - 1) * c.sx + (c.kw - 1) * c.dx + 1 ≤ c.inW + c.pl + c.pr &&
    c.rowStride % 64 = 0 && c.inW * viPixIn d ≤ c.rowStride && viLdd d % 64 = 0 && c.outW * viPixOut d ≤ viLdd d &&
    c.mode ≤ 3 && c.const < 2 ^ (8 * ea) && (c.mode = 1 || c.const = 0) && zeroAt d 0x6B 1 && zeroAt d 0x78 8 &&
    2 ≤ viBMode d && (viCMode d = 1 || viCMode d = 2) && viLda d % 64 = 0 && viLdb d % 64 = 0 &&
    (viBMode d = 4 || viLdb d = 0) && viLdc d = 0

/-- The format check of a vector instruction of fold `n` (R248). DEDUCED: log entry 40. -/
def vecOk (n : Nat) (d : List Byte) : Bool :=
  let op := viOp d
  let w := viWrites d
  let reads := viReads d
  let inR (x : Nat) : Bool := 1 ≤ x && x ≤ 65536
  let vecMode (m : Nat) : Bool := m = 2 || m = 3 || m = 4
  (viCost op).isSome && fmtDefined (viFmtA d) && fmtDefined (viFmtB d) && fmtDefined (viFmtOut d) && viBMode d ≤ 4 &&
    viCMode d ≤ 4 && viRnd d ≤ 4 && dfield d 0x06 1 < 8 && zeroAt d 0x4B 5 && (viTakesB op || viBMode d = 0) &&
    (viTakesC op || viCMode d = 0) && [viA d, viB d, viC d, viD d].all (· % 64 = 0) &&
    (vecMode (viBMode d) || viB d = 0) && (vecMode (viCMode d) || viC d = 0) &&
    (reads.all fun x => x.inside n) && w.inside n && (reads.all fun x => !x.overlaps w) && viLaneBytes d ≤ 65536 &&
    (if viIsConv op then viConvOk d
     else
      inR (viRows d) && inR (viLen d) && viGs d = 0 && zeroAt d 0x50 48 &&
        (if op = 0x24 then viDdof d ≤ 1 && viDdof d < viLen d else viDdof d = 0) &&
        viLda d % 64 = 0 && viLen d * fmtBytes (viFmtA d) ≤ viLda d &&
        (if viBMode d = 4 then viLdb d % 64 = 0 && viLen d * fmtBytes (viFmtB d) ≤ viLdb d else viLdb d = 0) &&
        (if viCMode d = 4 then viLdc d % 64 = 0 && viLen d * fmtBytes (viFmtB d) ≤ viLdc d else viLdc d = 0) &&
        (if viIsReduce op then viLdd d = 0 else viLdd d % 64 = 0 && w.len ≤ viLdd d))

/-! ## Cycle counts (R249, R268) -/

/-- DESIGN CHOICE: log entry 34. -/
def viCycles (d : List Byte) : Nat :=
  let op := viOp d
  let c := ((viCost op).map (·.1)).getD 0
  let lat := ((viCost op).map (·.2)).getD 0
  let ea := fmtBytes (viFmtA d)
  let eb := fmtBytes (viFmtB d)
  let eo := fmtBytes (viFmtOut d)
  let part (x : Nat) : Nat := if x % 64 = 0 then 0 else 1
  if viIsConv op then
    let k := convBlock d
    let beats := (k.inC + 127) / 128
    let rdp := (lines (k.inC * ea) + 3) / 4
    let wrp := (lines (k.inC * eo) + 3) / 4 + part (k.inC * eo)
    let pix := max (k.kh * k.kw * max (viGroup d * beats) rdp) wrp
    let weights := k.kh * k.kw * viGroup d * lines (k.inC * eb)
    let bias := if viCMode d = 2 then lines (4 * k.inC) else 0
    (weights + bias + 3) / 4 + k.outH * k.outW * pix + 16
  else
    let beats := (viLen d + 127) / 128
    let stream (m : Nat) : Nat := if m = 4 then lines (viLen d * eb) else 0
    let rd := (lines (viLen d * ea) + stream (viBMode d) + stream (viCMode d) + 3) / 4
    let wr := (lines (viLen d * eo) + 3) / 4 + part (viLen d * eo)
    let vl (m : Nat) : Nat := if m = 2 then lines (viLen d * eb) else if m = 3 then lines (viRows d * eb) else 0
    let pro := (vl (viBMode d) + vl (viCMode d) + 3) / 4
    let row := if op = 0x24 then 2 * max (2 * beats) rd + 24
      else if viIsReduce op then max (beats * c) rd else max (beats * c) (max rd wr)
    pro + viRows d * row + lat + if viIsReduce op then part (viRows d * eo) else 0

/-! ## Results -/

/-- The value of operand b or c for element j of row i (R246). -/
def viOperand (d : List Byte) (v : Nat → Byte) (mode base ld imm i j : Nat) : Val :=
  let eb := fmtBytes (viFmtB d)
  if mode = 1 then f32 imm
  else if mode = 2 then decodeVal (viFmtB d) (viewNat v (base + j * eb) eb)
  else if mode = 3 then decodeVal (viFmtB d) (viewNat v (base + i * eb) eb)
  else if mode = 4 then decodeVal (viFmtB d) (viewNat v (base + i * ld + j * eb) eb)
  else vzero

/-- The special function of an operation code. DEDUCED: log entry 24. -/
def viSpec (op : Nat) : Option SpecFn :=
  if op = 0x10 then some .exp else if op = 0x11 then some .exp2 else if op = 0x12 then some .ln
  else if op = 0x13 then some .log2 else if op = 0x14 then some .recip else if op = 0x15 then some .rsqrt else none

/-- The exact value of an element-wise operation other than the special functions and LOOKUP (R243, R244). -/
def viExact (op : Nat) (a b c : Val) : Val :=
  if op = 1 then addVal a b
  else if op = 2 then addVal a (negVal b)
  else if op = 3 then mulAdd a b vzero
  else if op = 4 then mulAdd a b c
  else if op = 5 then maxVal a b
  else if op = 6 then minVal a b
  else if op = 7 then (if isZero c || c == .nan then b else a)
  else a

/-- The value of a lookup (R260). -/
def lookupVal (t : LutBank) (a : Val) : Val :=
  match a with
  | .nan => .nan
  | _ =>
    let lo := (f32 t.lo).num
    let hi := (f32 t.hi).num
    let u := match a with
      | .inf true => lo
      | .inf false => hi
      | .fin q _ => min (max q lo) hi
      | .nan => lo
    let pos := (u - lo) * 1023 / (hi - lo)
    let i := min pos.floor.toNat 1022
    let f := (((pos - i) * 65536).floor : Rat) / 65536
    let x := f32 (t.entries.getD i 0)
    let y := f32 (t.entries.getD (i + 1) 0)
    mulAdd (.fin f false) (addVal y (negVal x)) x

/-- One element-wise output pattern. `pick` and `openBits` are the open choices of a faithful FP32 result. -/
def viElement (d : List Byte) (v : Nat → Byte) (t : Option LutBank) (pick : Nat → Bool) (openBits : Nat) (i j : Nat) : Nat :=
  let ea := fmtBytes (viFmtA d)
  let a := decodeVal (viFmtA d) (viewNat v (viA d + i * viLda d + j * ea) ea)
  let b := viOperand d v (viBMode d) (viB d) (viLdb d) (viImm0 d) i j
  let c := viOperand d v (viCMode d) (viC d) (viLdc d) (viImm1 d) i j
  match viSpec (viOp d) with
  | some fn => specFn fn (viFmtOut d) (viRnd d) (viSat d) (pick (i * viLen d + j)) openBits (specArg a b)
  | none =>
    encodeVal (viFmtOut d) (viRnd d) (viSat d)
      (if viOp d = 0x18 then (match t with
        | some t => lookupVal t a
        | none => vzero) else viExact (viOp d) a b c)

/-- The sum of a row with the special values of R233. -/
def sumVal (l : List Val) : Val :=
  let nan := l.any (· == .nan)
  let pos := l.any (· == .inf false)
  let neg := l.any (· == .inf true)
  if nan || (pos && neg) then .nan else if pos then .inf false else if neg then .inf true
  else .fin ((l.map Val.num).sum) false

/-- The result of a reduction over a row; RVAR of equal elements is +0 (R255, R257). -/
def reduceVal (d : List Byte) (l : List Val) : Val :=
  let n : Rat := (viLen d : Nat)
  let divide (v : Val) (k : Rat) : Val := match v with
    | .fin q _ => .fin (q / k) false
    | v => v
  if viOp d = 0x20 then l.foldl maxVal (l.headD vzero)
  else if viOp d = 0x21 then l.foldl minVal (l.headD vzero)
  else if viOp d = 0x22 then sumVal l
  else if viOp d = 0x23 then divide (sumVal l) n
  else if l.any (fun v => match v with
    | .fin _ _ => false
    | _ => true) then .nan
  else if l.all (fun v => v.num == (l.headD vzero).num) then vzero
  else
    let mu := (f32 (encodeVal 0x14 0 false (divide (sumVal l) n))).num
    .fin (((l.map fun v => (v.num - mu) * (v.num - mu)).sum) / (n - (viDdof d : Nat))) false

/-- The weights of an average pool, or of one phase of a bilinear upsample by 2, whose sums are exact (R283). -/
def poolWeights (l : List Rat) : Bool :=
  l.all (· == 1) || (l.length == 4 && l.all fun w => w == 1 / 16 || w == 3 / 16 || w == 9 / 16)

/-- One output pixel and channel of a depthwise or grouped convolution (R266, R267, R283). DEDUCED: log entry 25. -/
def viConvElement (d : List Byte) (v : Nat → Byte) (drift : Rat) (oy ox o : Nat) : Nat :=
  let c := convBlock d
  let g := viGroup d
  let ea := fmtBytes (viFmtA d)
  let eb := fmtBytes (viFmtB d)
  let l := (List.range (c.kh * c.kw)).flatMap fun t => (List.range g).map fun j =>
    let ch := o / g * g + j
    let pixel (y x : Nat) : Nat := viewNat v (viA d + y * c.rowStride + x * viPixIn d + ch * ea) ea
    (0, convElem c pixel oy ox (t / c.kw) (t % c.kw), viewNat v (viB d + (t * g + j) * viWeightRow d + o * eb) eb)
  let a := specialPath (viFmtA d) (viFmtB d) l {}
  let x := exactSum (viFmtA d) (viFmtB d) l
  let sum :=
    if pairExact (viFmtA d) || (g == 1 && poolWeights (l.map fun y => (decodeVal (viFmtB d) y.2.2).num)) then x.1
    else if absQ drift < (l.length : Nat) * pow2 (-56) * x.2 then x.1 + drift
    else l.foldl (fun p y => alignedAdd 57 p ((decodeVal (viFmtA d) y.2.1).num * (decodeVal (viFmtB d) y.2.2).num)) 0
  let bias := if viCMode d = 2 then f32 (viewNat v (viC d + 4 * o) 4) else f32 (viImm1 d)
  encodeVal (viFmtOut d) (viRnd d) (viSat d) (mulAdd { a with sum := sum }.val (f32 (viImm0 d)) bias)

/-- Everything an instruction writes: addresses with bytes, in ascending order of rows. -/
def viOutput (d : List Byte) (v : Nat → Byte) (t : Option LutBank) (pick : Nat → Bool) (drift : Nat → Rat) (openBits : Nat) :
    List (Nat × List Byte) :=
  let eo := fmtBytes (viFmtOut d)
  if viIsConv (viOp d) then
    let c := convBlock d
    (List.range c.outH).flatMap fun oy => (List.range c.outW).map fun ox =>
      (viD d + oy * viLdd d + ox * viPixOut d, (List.range c.inC).flatMap fun o =>
        leBytes eo (viConvElement d v (drift ((oy * c.outW + ox) * c.inC + o)) oy ox o))
  else if viIsReduce (viOp d) then
    let ea := fmtBytes (viFmtA d)
    [(viD d, (List.range (viRows d)).flatMap fun i =>
      leBytes eo (encodeVal (viFmtOut d) (viRnd d) (viSat d) (reduceVal d
        ((List.range (viLen d)).map fun j => decodeVal (viFmtA d) (viewNat v (viA d + i * viLda d + j * ea) ea)))))]
  else
    (List.range (viRows d)).map fun i =>
      (viD d + i * viLdd d, (List.range (viLen d)).flatMap fun j => leBytes eo (viElement d v t pick openBits i j))

end Sys2Proof.Machine
end

