-- ==== Sys2Proof/Machine/Settings.lean ====
section
/-! DEFINITION. The settings of gates (R45, R53, R54, R81, R106, R107, R111, R112, R115, R116, R122, R401, R402): records,
ranges, defaults, the checks of a block, and what a gate's settings make of it. -/

namespace Sys2Proof.Machine

open Sys2Proof

/-! ## Records (R401) -/

/-- The value length of a setting id; none for an id that is not in the table. -/
def settingLen (id : Nat) : Option Nat :=
  if id = 0x02 then some 24
  else if id = 0x08 ∨ id = 0x27 then some 16
  else if 0x30 ≤ id ∧ id ≤ 0x35 then some 8
  else if (1 ≤ id ∧ id ≤ 0x1B) ∨ (0x20 ≤ id ∧ id ≤ 0x2C) ∨ (0x36 ≤ id ∧ id ≤ 0x3A) then some 4
  else none

/-- Settings that may change while the gate is RUNNING. -/
def settingLive (id : Nat) : Bool :=
  (0x0A ≤ id && id ≤ 0x12) || id = 0x1A || id = 0x22 || id = 0x23 || id = 0x27 || (0x37 ≤ id && id ≤ 0x39)

/-- The records of a settings block; none where one is cut off or not of its id's length. -/
def parseSettings : Nat → List Byte → Option (List (Nat × List Byte))
  | 0, b => if b.isEmpty then some [] else none
  | fuel + 1, b =>
    if b.isEmpty then some []
    else
      let id := fieldAt b 0 2
      let n := fieldAt b 2 2
      if b.length < 4 + n ∨ settingLen id ≠ some n then none
      else (parseSettings fuel (b.drop (4 + n))).map fun r => (id, (b.drop 4).take n) :: r

/-- The accepted data types with bits a pixel (R53). -/
def dataTypeBits (dt : Nat) : Option Nat :=
  if dt = 0x1E then some 16
  else if dt = 0x2B then some 10
  else if dt = 0x2C then some 12
  else if dt = 0x2D then some 14
  else if dt = 0x2E then some 16
  else if dt = 0x2F then some 20
  else none

/-- A counter or sequence field (R80, R401). -/
def counterFieldOk (v maxOff : Nat) : Bool :=
  (v % 256 = 0 || v % 256 = 8 || v % 256 = 16 || v % 256 = 32) && bitsAt v 8 8 ≤ maxOff && v < 2 ^ 17

/-- The range of one setting (R45, R81, R115, R401). -/
def settingOk (g id : Nat) (b : List Byte) : Bool :=
  let v := leNat b
  let within (lo hi : Nat) : Bool := lo ≤ v && v ≤ hi
  match id with
  | 0x01 => if g < 48 then v = 0 || v = 2 else v = 1 || v = 2
  | 0x02 => fieldAt b 0 1 ≤ 3 && (fieldAt b 1 1 = 4 || fieldAt b 1 1 = 6) && vlanOk (fieldAt b 2 2) &&
      (fieldAt b 1 1 = 6 || zeroAt b 8 12)
  | 0x03 => (dataTypeBits v).isSome
  | 0x04 => within 64 8192
  | 0x05 => within 2 8192
  | 0x06 => v ≤ 15 || v = 0xFF
  | 0x07 | 0x09 | 0x25 | 0x2A => v ≤ 1
  | 0x08 =>
    let n := fieldAt b 0 4
    let size := fieldAt b 4 4
    let base := fieldAt b 8 8
    2 ≤ n && n ≤ 8 && 0 < size && size % 64 = 0 && base % 64 = 0 && (match zoneOf base with
      | .foldMem _ off => off + n * size ≤ 0x800000
      | .common off => off + n * size ≤ 0xC000000
      | _ => false)
  | 0x0A => let x := signedOf v 32; decide (-50000000 ≤ x ∧ x ≤ 50000000)
  | 0x0B => within 1000 1000000
  | 0x0C => within 10 10000
  | 0x0D => within 1000 200000
  | 0x0E => within 20000 2000000
  | 0x0F => v ≤ 64
  | 0x10 => within 1 255
  | 0x11 => within 1 16
  | 0x12 => within 2 255
  | 0x13 => counterFieldOk v 255
  | 0x14 | 0x20 | 0x29 | 0x36 => v ≤ 2
  | 0x15 | 0x16 => within 1 65535
  | 0x17 => v ≤ 1500
  | 0x18 => within 1 9000
  | 0x19 => counterFieldOk v 64
  | 0x1A | 0x23 => v ≤ 255
  | 0x1B => true
  | 0x21 => within 4096 16777216
  | 0x22 => within 100 300000
  | 0x24 => v ≤ 9
  | 0x26 => v = 0 || v = 16 || v = 32 || v = 64
  | 0x27 => fieldAt b 0 4 ≤ 1
  | 0x28 => 0 < v % 65536 && 0 < v / 65536
  | 0x2B => within 1 63
  | 0x2C => [0x01, 0x02, 0x10, 0x12, 0x13, 0x14].contains (v % 256) && bitsAt v 8 8 ≤ 2 && bitsAt v 16 8 ≤ 1 && v < 2 ^ 24
  | 0x37 => within 50 100
  | 0x38 => v ≤ 90
  | 0x39 => within 1 16
  | 0x3A => (v % 65536 = 0xFFFF || (bitsAt v 8 8 < 48 && v % 256 < 32)) && bitsAt v 16 8 ≤ 31 && v < 2 ^ 24
  | _ => 0x30 ≤ id && id ≤ 0x35

/-! ## Accessors with their defaults -/

abbrev Settings := List (Nat × List Byte)

def Settings.bytes (s : Settings) (id : Nat) : Option (List Byte) := (s.find? fun x => x.1 == id).map (·.2)
def Settings.opt (s : Settings) (id : Nat) : Option Nat := (Settings.bytes s id).map leNat
def Settings.get (s : Settings) (id dflt : Nat) : Nat := (Settings.opt s id).getD dflt
def Settings.put (s : Settings) (id : Nat) (b : List Byte) : Settings := (s.filter fun x => x.1 != id) ++ [(id, b)]

def Settings.kind (s : Settings) : Nat := Settings.get s 0x01 0
def Settings.dataType (s : Settings) : Nat := Settings.get s 0x03 0x2C
def Settings.width (s : Settings) : Nat := Settings.get s 0x04 0
def Settings.height (s : Settings) : Nat := Settings.get s 0x05 0
def Settings.fset (s : Settings) : Option Nat := let v := Settings.get s 0x06 0xFF; if v < 16 then some v else none
def Settings.slots (s : Settings) : Nat := ((Settings.bytes s 0x08).map fun b => fieldAt b 0 4).getD 0
def Settings.slotSize (s : Settings) : Nat := ((Settings.bytes s 0x08).map fun b => fieldAt b 4 4).getD 0
def Settings.slotBase (s : Settings) : Nat := ((Settings.bytes s 0x08).map fun b => fieldAt b 8 8).getD 0
/-- DEDUCED: log entry 49. -/
def Settings.slotAddr (s : Settings) (i : Nat) : Nat := Settings.slotBase s + i * Settings.slotSize s
def Settings.collieFeed (s : Settings) : Bool := Settings.get s 0x09 0 = 1
def Settings.captureOffset (s : Settings) : Int := signedOf (Settings.get s 0x0A 0) 32
def Settings.lineTimeout (s : Settings) : Nat := 1000 * Settings.get s 0x0C 200
def Settings.frameTimeMax (s : Settings) : Nat := 1000 * Settings.get s 0x0D 50000
def Settings.concealLimit (s : Settings) : Nat := Settings.get s 0x0F 8
def Settings.dropLimit (s : Settings) : Nat := Settings.get s 0x10 4
def Settings.tileThreshold (s : Settings) : Nat := Settings.get s 0x11 16
def Settings.repeatLimit (s : Settings) : Nat := Settings.get s 0x12 2
def Settings.sampleMode (s : Settings) : Nat := Settings.get s 0x14 2
def Settings.windowLen (s : Settings) : Nat := Settings.get s 0x18 1200
def Settings.decoder (s : Settings) : Nat := Settings.get s 0x20 0
def Settings.maxBitstream (s : Settings) : Nat := Settings.get s 0x21 (4 * 2 ^ 20)
def Settings.remap (s : Settings) : Nat := Settings.get s 0x26 0
def Settings.w0 (s : Settings) : Nat := ((Settings.opt s 0x28).map fun v => v % 65536).getD (Settings.width s)
def Settings.h0 (s : Settings) : Nat := ((Settings.opt s 0x28).map fun v => v / 65536).getD (Settings.height s)
def Settings.levelMask (s : Settings) : Nat := Settings.get s 0x2B 1
def Settings.format (s : Settings) : Nat := Settings.get s 0x2C 0x02 % 256
def Settings.channels (s : Settings) : Nat := bitsAt (Settings.get s 0x2C 0x02) 8 8
def Settings.planar (s : Settings) : Bool := bitsAt (Settings.get s 0x2C 0x02) 16 8 = 1
def Settings.pattern (s : Settings) : Nat := Settings.get s 0x24 0
def Settings.split (s : Settings) : Nat := Settings.get s 0x36 0
def Settings.noticeIdent (s : Settings) : Nat := Settings.get s 0x3A 0xFFFF % 65536
def Settings.noticeQueue (s : Settings) : Nat := bitsAt (Settings.get s 0x3A 0xFFFF) 16 8

/-- Bits of a sample for the normalisation of R102. -/
def Settings.sampleBits (s : Settings) : Nat :=
  if Settings.dataType s = 0x1E then 8 else (dataTypeBits (Settings.dataType s)).getD 12

/-- Line bytes for the configured width (R53). -/
def Settings.lineBytes (s : Settings) : Nat := Settings.width s * (dataTypeBits (Settings.dataType s)).getD 12 / 8

/-- Width and height of level k (R111). -/
def Settings.levelSize (s : Settings) (k : Nat) : Nat × Nat := (Settings.w0 s / 2 ^ k, Settings.h0 s / 2 ^ k)

/-- Window of level k: x, y, w, h (R112). -/
def Settings.window (s : Settings) (k : Nat) : Nat × Nat × Nat × Nat :=
  match Settings.bytes s (0x30 + k) with
  | some b => (fieldAt b 0 2, fieldAt b 2 2, fieldAt b 4 2, fieldAt b 6 2)
  | none => (0, 0, (Settings.levelSize s k).1, (Settings.levelSize s k).2)

/-- Levels written, in ascending order. -/
def Settings.levels (s : Settings) : List Nat := (List.range 6).filter fun k => bitOf (Settings.levelMask s) k

/-- Channels of a written level: one for luma, RAW, RCCC and mono (R102, R114). -/
def Settings.channelCount (s : Settings) : Nat :=
  if Settings.channels s ≠ 0 then 1
  else if Settings.decoder s ≠ 1 ∧ Settings.dataType s ≠ 0x1E ∧ (Settings.pattern s = 8 ∨ Settings.pattern s = 9) then 1 else 3

/-- Bytes of a written level. -/
def Settings.levelBytes (s : Settings) (k : Nat) : Nat :=
  let w := Settings.window s k
  w.2.2.1 * w.2.2.2 * Settings.channelCount s * fmtBytes (Settings.format s)

/-- Length of the tensor: levels start at 64-byte boundaries, the last one ends the payload (R114). -/
def Settings.tensorLen (s : Settings) : Nat :=
  (Settings.levels s).foldl (fun n k => ceilDiv n 64 * 64 + Settings.levelBytes s k) 0

/-- The largest payload of a configuration (R59, R60, R114, R394). -/
def Settings.maxPayload (s : Settings) : Nat :=
  if Settings.kind s = 1 ∧ Settings.decoder s = 0 then
    (if Settings.sampleMode s = 0 then Settings.get s 0x15 4096 else Settings.get s 0x16 4096) * Settings.windowLen s
  else Settings.tensorLen s

/-- Bytes of the remap grid of a configuration (R104, R405). -/
def Settings.gridBytes (s : Settings) : Nat :=
  let g := Settings.remap s
  if g = 0 then 0 else (ceilDiv (Settings.width s) g + 1) * (ceilDiv (Settings.height s) g + 1) * 8

/-- Table memory that a configuration takes for both banks (R107). -/
def Settings.tableBytes (s : Settings) : Nat := 2 * (128 + 24576 + Settings.gridBytes s)

/-! ## Combinations (R402) -/

/-- R106, R111 and R112 along one axis: R106 where the picture's size is set, the others where the size of level 0 follows from the
settings. A window of no width or height is refused. DESIGN CHOICE: log entry 106. -/
def Settings.axisOk (s : Settings) (size : Nat) (given : Bool) (level0 : Settings → Nat) (axis : Nat × Nat → Nat)
    (part : Nat × Nat × Nat × Nat → Nat × Nat) : Bool :=
  let n := level0 s
  (!given || (size ≤ 8 * n && n ≤ 2 * size && (Settings.get s 0x29 0 ≠ 2 || n ≤ size))) &&
    (Settings.levels s).all fun k =>
      let w := part (Settings.window s k)
      let known := given || (Settings.opt s 0x28).isSome
      (!known || (8 ≤ axis (Settings.levelSize s k) && w.1 + w.2 ≤ axis (Settings.levelSize s k))) &&
        (0 < w.2 || ((Settings.bytes s (0x30 + k)).isNone && !known))

/-- The rules among a gate's own settings: R54, R106, R111, R112, R115, R116. DEDUCED: log entry 48. -/
def Settings.comboOk (s : Settings) : Bool :=
  let w := Settings.width s
  let h := Settings.height s
  let dt := Settings.dataType s
  ((Settings.opt s 0x04).isNone || (if dt = 0x2B ∨ dt = 0x2D then w % 4 = 0 else w % 2 = 0)) &&
    Settings.axisOk s w (Settings.opt s 0x04).isSome Settings.w0 Prod.fst (fun x => (x.1, x.2.2.1)) &&
    Settings.axisOk s h (Settings.opt s 0x05).isSome Settings.h0 Prod.snd (fun x => (x.2.1, x.2.2.2)) &&
    (Settings.split s = 0 || (Settings.kind s = 2 && Settings.decoder s ≠ 0)) &&
    Settings.get s 0x38 60 + 10 ≤ Settings.get s 0x37 90

/-- The credits of the gate's notice queue cover its landing slots (R122). -/
def Dev.creditsOk (d : Dev) (g : Nat) (s : Settings) : Bool :=
  Settings.noticeIdent s = 0xFFFF ||
    (((tget d.queues (Settings.noticeIdent s)).bind fun q =>
      (prodIndex q (.gate g)).bind fun i => (q.prods[i]?).map fun p => decide (Settings.slots s ≤ p.credits)).getD false)

/-- The Race's table memory holds every configured gate's banks (R107). -/
def Dev.tablesFit (d : Dev) (g : Nat) (s : Settings) : Bool :=
  Settings.tableBytes s + ((d.race.gates.filter fun x => x.1 != g && x.2.fn != .unconfigured).map
    fun x => Settings.tableBytes x.2.settings).sum ≤ 2 ^ 24

/-- A whole block of settings is acceptable (R402). DEDUCED: log entry 49. -/
def Dev.settingsOk (d : Dev) (g : Nat) (s : Settings) : Bool :=
  s.all (fun x => settingOk g x.1 x.2) && decide ((s.map (·.1)).Nodup) && Settings.comboOk s && d.creditsOk g s && d.tablesFit g s

/-! ## Settings that depend on the frame set -/

/-- The period of a frame set, 33,333,333 ns until it is configured (R69). -/
def Dev.setPeriod (d : Dev) (f : Nat) : Nat := ((d.fset f).cfg.map (·.period)).getD 33333333

/-- min_interval in µs (R81). -/
def Dev.minIntervalUs (d : Dev) (s : Settings) : Nat :=
  Settings.get s 0x0B (match Settings.fset s with
    | some f => d.setPeriod f / 2 / 1000
    | none => 5000)

/-- silence_timeout in ns (R81). -/
def Dev.silenceNs (d : Dev) (s : Settings) : Nat :=
  1000 * Settings.get s 0x0E (match Settings.fset s with
    | some f => 3 * d.setPeriod f / 1000
    | none => 100000)

/-- The time domain of a gate (R71, R73, R81). -/
def Dev.gateDomain (d : Dev) (s : Settings) : Nat :=
  match Settings.fset s with
  | some f => ((d.fset f).cfg.map (·.dom)).getD 0
  | none => Settings.get s 0x07 0

/-- The declared rate in pixels a µs (R83). -/
def Dev.declaredRate (d : Dev) (s : Settings) : Rat :=
  ((Settings.width s * Settings.height s : Nat) : Rat) / (d.minIntervalUs s : Nat)

/-- Core rate in pixels a µs (R90). -/
def coreRate (decoder : Nat) : Nat := if decoder = 1 then 500 else 1000

/-- The slot length of a decoding gate in µs (R91). -/
def Dev.slotLenUs (d : Dev) (s : Settings) : Nat :=
  max 50 ((1000 * d.declaredRate s / (coreRate (Settings.decoder s) : Nat) / 10).ceil.toNat * 10)

/-- decode_budget in µs (R94). -/
def Settings.budgetUs (s : Settings) : Nat :=
  Settings.get s 0x22 (max 100 (ceilDiv (2 * Settings.width s * Settings.height s) (10 * coreRate (Settings.decoder s)) * 10))

/-- The exact length of a HOST-mode picture (R116): planar 4:2:0 for an HEVC gate or YUV data, else the colour-filter
plane. DEDUCED: log entry 56. -/
def Settings.hostPicture (s : Settings) : Nat :=
  let w := Settings.width s
  let h := Settings.height s
  let n := if Settings.decoder s = 1 ∨ Settings.dataType s = 0x1E then w * h + 2 * (ceilDiv w 2 * ceilDiv h 2) else w * h
  n * (if Settings.sampleBits s ≤ 8 then 1 else 2)

end Sys2Proof.Machine
end

