-- ==== Sys2Proof/Machine/Pixels.lean ====
section
/-! DEFINITION. The Race's stages 2 to 9 (R84, R85, R102 to R106, R111 to R114): from a raw picture to the tensor in the
landing slot. Each formula is exact and rounded once to FP32. -/

namespace Sys2Proof.Machine

open Sys2Proof

/-! ## Values -/

/-- One rounding to FP32 under NEAREST_EVEN (R85). -/
def rf (v : Val) : Val := f32 (encodeVal 0x14 0 false v)

def vq (q : Rat) : Val := .fin q false

/-- The clamp to [0, 1] of R102 and R103. -/
def clamp01 (v : Val) : Val :=
  match v with
  | .nan | .inf true => vq 0
  | .inf false => vq 1
  | .fin q _ => vq (min (max q 0) 1)

/-- An exact sum of products with the special values of R233 and R244. -/
def dotVal (l : List (Val × Val)) : Val := sumVal (l.map fun x => mulAdd x.1 x.2 vzero)

/-- An FP32 field of a table. -/
def tabF (b : List Byte) (off : Nat) : Val := f32 (fieldAt b off 4)

/-! ## Pictures -/

/-- A raw picture: samples of plane p at (x, y), with the chroma sub-sampling of a YUV picture. -/
structure Pic where
  w : Nat
  h : Nat
  yuv : Bool
  sx : Nat
  sy : Nat
  bits : Nat
  s : Nat → Nat → Nat → Nat

/-- A planar picture from its bytes, one or two a sample by the picture's own depth; `bits` is the data type's width (R102). -/
def picOfBytes (w h : Nat) (yuv : Bool) (sx sy depth bits : Nat) (b : List Byte) : Pic :=
  let n := if depth ≤ 8 then 1 else 2
  let cw := ceilDiv w (max 1 sx)
  let ch := ceilDiv h (max 1 sy)
  { w := w, h := h, yuv := yuv, sx := max 1 sx, sy := max 1 sy, bits := bits,
    s := fun p x y => fieldAt b (n * (if p = 0 then y * w + x else w * h + (p - 1) * (cw * ch) + y * cw + x)) n }

/-- A camera picture from its lines as MIPI CSI-2 packs them (R53). DESIGN CHOICE: log entry 15. -/
def picOfLines (st : Settings) (lines : List (List Byte)) : Pic :=
  let dt := Settings.dataType st
  let w := Settings.width st
  { w := w, h := Settings.height st, yuv := dt = 0x1E, sx := 2, sy := 1, bits := Settings.sampleBits st,
    s := fun p x y =>
      (Config.unpackLine dt (lines.getD y [])).getD (if p = 0 then x else w + (p - 1) * (w / 2) + x) 0 }

/-- A picture inside the stages: channels by number. -/
structure Img where
  w : Nat
  h : Nat
  ch : Nat
  px : Nat → Nat → Nat → Val

/-- A pixel with out-of-range indices taken at the nearest edge. -/
def Img.edge (i : Img) (c : Nat) (x y : Int) : Val := i.px c (edgeIx x i.w) (edgeIx y i.h)

/-! ## Stages 2 to 5 (R102, R103) -/

/-- The identity coefficient block: zero black, gains 1, identity matrix, zero offsets, scales 1 (R115). -/
def identityCoef : List Byte :=
  let words (n v : Nat) : List Byte := (List.replicate n (leBytes 4 v)).flatten
  let one := 0x3F800000
  words 4 0 ++ words 4 one ++ (words 1 one ++ words 3 0 ++ words 1 one ++ words 3 0 ++ words 1 one) ++ words 6 0 ++ words 3 one ++
    List.replicate 24 0

/-- Stage 2: the normalised value of a sample with filter position c. -/
def normalise (coef : List Byte) (bits c s : Nat) : Val :=
  let black := fieldAt coef (4 * c) 4
  match mulAdd (vq ((s : Rat) - black)) (tabF coef (0x10 + 4 * c)) vzero with
  | .fin q _ => rf (clamp01 (vq (q / (((2 ^ bits - 1 : Nat) : Rat) - black))))
  | v => rf (clamp01 v)

/-- Stage 2 over a plane: the filter position of the 2 × 2 cell, or Y, Cb, Cr. DESIGN CHOICE: log entry 15. -/
def Pic.value (p : Pic) (coef : List Byte) (plane x y : Nat) : Val :=
  normalise coef p.bits (if p.yuv then plane else y % 2 * 2 + x % 2) (p.s plane x y)

/-- Chroma up-sampled bilinearly with co-sited siting; beyond the last column or line the edge sample repeats.
DESIGN CHOICE: log entry 84. -/
def Pic.chroma (p : Pic) (coef : List Byte) (plane x y : Nat) : Val :=
  let cw := ceilDiv p.w p.sx
  let chh := ceilDiv p.h p.sy
  let x0 := x / p.sx
  let y0 := y / p.sy
  let fx : Rat := ((x % p.sx : Nat) : Rat) / p.sx
  let fy : Rat := ((y % p.sy : Nat) : Rat) / p.sy
  let v (a b : Nat) : Val := p.value coef plane (min a (cw - 1)) (min b (chh - 1))
  rf (dotVal [(v x0 y0, vq ((1 - fx) * (1 - fy))), (v (x0 + 1) y0, vq (fx * (1 - fy))),
    (v x0 (y0 + 1), vq ((1 - fx) * fy)), (v (x0 + 1) (y0 + 1), vq (fx * fy))])

/-- Stages 2 and 3: the channels before the colour matrix. DESIGN CHOICE: log entry 16. -/
def stage3 (st : Settings) (coef : List Byte) (p : Pic) : Img :=
  if p.yuv then
    { w := p.w, h := p.h, ch := if Settings.channels st = 2 then 1 else 3,
      px := fun c x y => if c = 0 then p.value coef 0 x y else p.chroma coef c x y }
  else if Settings.channels st = 2 ∨ Settings.pattern st = 9 then
    { w := p.w, h := p.h, ch := 1, px := fun _ x y => p.value coef 0 x y }
  else
    let near (x y i : Nat) : Option Rat :=
      if 2 ≤ x + i % 5 ∧ x + i % 5 < p.w + 2 ∧ 2 ≤ y + i / 5 ∧ y + i / 5 < p.h + 2 then
        some (p.value coef 0 (x + i % 5 - 2) (y + i / 5 - 2)).num
      else none
    { w := p.w, h := p.h, ch := if Settings.pattern st = 8 then 1 else 3,
      px := fun c x y =>
        rf (vq ((Config.demosaic (Settings.pattern st) (x % 2) (y % 2) ((List.range 25).map (near x y))).getD c 0)) }

/-- Stage 4: the colour matrix, or its first row for luma; a one-channel input enters all three (R102). -/
def stage4 (st : Settings) (coef : List Byte) (i : Img) : Img :=
  let row (r x y : Nat) : Val :=
    let v (k : Nat) : Val := if i.ch = 1 then i.px 0 x y else i.px k x y
    rf (dotVal ([(0 : Nat), 1, 2].map (fun k => (tabF coef (0x20 + 12 * r + 4 * k), v k)) ++ [(tabF coef (0x44 + 4 * r), vq 1)]))
  if Settings.channels st = 2 then i
  else if Settings.channels st = 1 then { i with ch := 1, px := fun _ x y => row 0 x y }
  else if i.ch = 1 then i
  else { i with ch := 3, px := fun c x y => row c x y }

/-- Stage 5: the tone lookup of one value; `pick` chooses the faithful log2 (R103, R253). -/
def toneVal (st : Settings) (tab : Option (List Byte)) (c : Nat) (pick : Bool) (openBits : Nat) (v : Val) : Val :=
  let x := clamp01 v
  match tab with
  | none => x
  | some t =>
    let idx : Rat :=
      if Settings.get st 0x25 0 = 0 then x.num * 4095
      else ((f32 (specFn .log2 0x14 0 false pick openBits (vq (max x.num (pow2 (-20)))))).num + 20) / 20 * 4095
    let i := min idx.floor.toNat 4094
    let e (k : Nat) : Val := decodeVal 0x12 (fieldAt t (8192 * c + 2 * k) 2)
    rf (mulAdd (vq (idx - i)) (addVal (e (i + 1)) (negVal (e i))) (e i))

def stage5 (st : Settings) (tab : Option (List Byte)) (pick : Nat → Bool) (openBits : Nat) (i : Img) : Img :=
  { i with px := fun c x y => toneVal st tab c (pick ((y * i.w + x) * 4 + c)) openBits (i.px c x y) }

/-! ## Stages 6 to 8 (R104 to R106, R111) -/

/-- The bicubic kernel with a = −0.5. -/
def cubic (t : Rat) : Rat :=
  let t := absQ t
  if t ≤ 1 then (3 / 2 * t - 5 / 2) * t * t + 1
  else if t < 2 then ((-1 / 2 * t + 5 / 2) * t - 4) * t + 2 else 0

/-- A pixel sampled at a point: bilinear or bicubic, taps beyond the frame at the nearest edge.
DESIGN CHOICE: log entry 17. -/
def Img.sample (i : Img) (bicubic : Bool) (c : Nat) (x y : Rat) : Val :=
  let x0 := x.floor
  let y0 := y.floor
  let taps : List Int := if bicubic then [-1, 0, 1, 2] else [0, 1]
  let k (t : Rat) : Rat := if bicubic then cubic t else max 0 (1 - absQ t)
  rf (dotVal (taps.flatMap fun v => taps.map fun u =>
    (i.edge c (x0 + u) (y0 + v), vq (k (x - (x0 + u : Int)) * k (y - (y0 + v : Int))))))

/-- One remap coordinate of a pixel, from the nodes around it. DESIGN CHOICE: log entry 17. -/
def gridCoord (g : List Byte) (nx n x y k : Nat) : Rat :=
  let gx := x / n
  let gy := y / n
  let fx : Rat := ((x % n : Nat) : Rat) / n
  let fy : Rat := ((y % n : Nat) : Rat) / n
  let v (a b : Nat) : Val := tabF g (8 * (b * nx + a) + 4 * k)
  match rf (dotVal [(v gx gy, vq ((1 - fx) * (1 - fy))), (v (gx + 1) gy, vq (fx * (1 - fy))),
      (v gx (gy + 1), vq ((1 - fx) * fy)), (v (gx + 1) (gy + 1), vq (fx * fy))]) with
  | .fin q _ => q
  | .inf true => -(2 ^ 40)
  | .inf false => 2 ^ 40
  | .nan => Config.nanCoordinate

/-- A point outside the frame: coordinates are pixel-centre indices. DESIGN CHOICE: log entry 85. -/
def offFrame (w h : Nat) (sx sy : Rat) : Bool :=
  decide (sx < 0 ∨ ((w - 1 : Nat) : Rat) < sx ∨ sy < 0 ∨ ((h - 1 : Nat) : Rat) < sy)

/-- Stage 6; the grid is laid out by the gate's width (R104). -/
def stage6 (st : Settings) (grid : Option (List Byte)) (gate : Nat) (i : Img) : Img :=
  match grid with
  | none => i
  | some g =>
    let n := Settings.remap st
    let nx := ceilDiv (Settings.width st) n + 1
    let fill := (Settings.bytes st 0x27).getD (List.replicate 16 0)
    let px (c x y : Nat) : Val :=
        let sx := gridCoord g nx n x y 0
        let sy := gridCoord g nx n x y 1
        if offFrame i.w i.h sx sy && fieldAt fill 0 4 == 1 then tabF fill (4 + 4 * c)
        else i.sample (Config.remapBicubic gate) c (min (max sx 0) ((i.w - 1 : Nat) : Rat)) (min (max sy 0) ((i.h - 1 : Nat) : Rat))
    { i with px := px }

/-- Source lines that the filter taps of a point read: those at the nearest edge stand for taps beyond the frame, and a point
that takes the fill colour reads none (R105). DEDUCED: log entry 86. -/
def drawnLines (h : Nat) (bicubic : Bool) (sy : Rat) : List Nat :=
  let y := (min (max sy 0) ((h - 1 : Nat) : Rat)).floor
  (if bicubic then [-1, 0, 1, 2] else [0, 1]).map fun v : Int => edgeIx (y + v) h

/-- The largest number of distinct source lines that one output line of a grid draws on (R105). DEDUCED: log entry 86. -/
def gridReach (g : List Byte) (w h n : Nat) (bicubic fill : Bool) : Nat :=
  let nx := ceilDiv w n + 1
  (List.range h).foldl (fun m y =>
    max m ((List.range w).flatMap fun x =>
      let sx := gridCoord g nx n x y 0
      let sy := gridCoord g nx n x y 1
      if fill && offFrame w h sx sy then [] else drawnLines h bicubic sy).eraseDups.length) 0

/-- Weights of the AREA filter along one axis: source index with the share of output pixel j it covers. DESIGN CHOICE: log entry 105. -/
def areaTaps (j inp out : Nat) : List (Int × Rat) :=
  let a : Rat := (j : Rat) * inp / out
  let b : Rat := ((j + 1 : Nat) : Rat) * inp / out
  (List.range (b.ceil.toNat - a.floor.toNat)).map fun k =>
    let i : Int := a.floor + k
    (i, (min b (i + 1 : Int) - max a (i : Int)) / (b - a))

/-- Stage 7. -/
def stage7 (st : Settings) (i : Img) : Img :=
  let w := Settings.w0 st
  let h := Settings.h0 st
  let pos (j inp out : Nat) : Rat := ((j : Rat) + 1 / 2) * inp / out - 1 / 2
  let f := Settings.get st 0x29 0
  if i.w = w ∧ i.h = h then i
  else
    let px (c x y : Nat) : Val :=
      if f = 2 then
        rf (dotVal ((areaTaps y i.h h).flatMap fun v => (areaTaps x i.w w).map fun u => (i.edge c u.1 v.1, vq (u.2 * v.2))))
      else i.sample (f == 1) c (pos x i.w w) (pos y i.h h)
    { w := w, h := h, ch := i.ch, px := px }

/-- Stage 8: the next level of the pyramid. -/
def nextLevel (st : Settings) (i : Img) : Img :=
  let px (c x y : Nat) : Val :=
      if Settings.get st 0x2A 1 = 0 then
        rf (dotVal ([(0 : Nat), 1].flatMap fun v => [(0 : Nat), 1].map fun u => (i.px c (2 * x + u) (2 * y + v), vq (1 / 4))))
      else
        let wt (t : Int) : Rat := if t = 0 then 6 / 16 else if t = 1 ∨ t = -1 then 4 / 16 else 1 / 16
        rf (dotVal (([-2, -1, 0, 1, 2] : List Int).flatMap fun u => ([-2, -1, 0, 1, 2] : List Int).map fun t =>
          (i.edge c (2 * (x : Int) + t) (2 * (y : Int) + u), vq (wt t * wt u))))
  { w := i.w / 2, h := i.h / 2, ch := i.ch, px := px }

/-- Level k. -/
def levelImg (st : Settings) (i : Img) : Nat → Img
  | 0 => i
  | k + 1 => nextLevel st (levelImg st i k)

/-! ## Stage 9 (R112 to R114) -/

/-- One written value. -/
def outValue (st : Settings) (coef : List Byte) (c : Nat) (v : Val) : List Byte :=
  let y := mulAdd (addVal v (negVal (tabF coef (0x50 + 4 * c)))) (tabF coef (0x5C + 4 * c)) vzero
  let code := Settings.format st
  leBytes (fmtBytes code) (encodeVal code 0 true (if code = 0x02 then mulAdd y (vq 255) vzero else y))

/-- The bytes of one written level. -/
def levelOut (st : Settings) (coef : List Byte) (i : Img) (k : Nat) : List Byte :=
  let w := Settings.window st k
  let at_ (c x y : Nat) : List Byte := outValue st coef c (i.px c (w.1 + x) (w.2.1 + y))
  if Settings.planar st then
    (List.range i.ch).flatMap fun c => (List.range w.2.2.2).flatMap fun y => (List.range w.2.2.1).flatMap fun x => at_ c x y
  else
    (List.range w.2.2.2).flatMap fun y => (List.range w.2.2.1).flatMap fun x => (List.range i.ch).flatMap fun c => at_ c x y

/-- The tables a sample is processed with, and the open choices. -/
structure RaceTables where
  coef : List Byte
  tone : Option (List Byte)
  grid : Option (List Byte)
  pick : Nat → Bool
  openBits : Nat

/-- The tensor of a picture: written levels in ascending order, each at a 64-byte boundary (R114). -/
def tensorOf (st : Settings) (t : RaceTables) (gate : Nat) (p : Pic) : List Byte :=
  let base := stage7 st (stage6 st t.grid gate (stage5 st t.tone t.pick t.openBits (stage4 st t.coef (stage3 st t.coef p))))
  (Settings.levels st).foldl (fun out k =>
    padTo (ceilDiv out.length 64 * 64) out ++ levelOut st t.coef (levelImg st base k) k) []

end Sys2Proof.Machine
end

