-- ==== Sys2Proof/Machine/Decoder.lean ====
section
/-! DEFINITION. What the decoders accept, the damage of a coded picture, and its replacement (R86, R87, R89, R95, R96, R98). The
parsing and the reconstruction are the standards' (Config.decodeStream). -/

namespace Sys2Proof.Machine

open Sys2Proof

/-! ## The support tables -/

/-- R86 and R87, within a gate's width and height. `decoder`: 1 HEVC, 2 JPEG XS. -/
def codedSupported (decoder w h : Nat) (c : Config.Coded) : Bool :=
  c.width ≤ w && c.height ≤ h && c.width ≤ 8192 && c.height ≤ 8192 &&
    (if decoder = 1 then
      (c.profile = 1 || c.profile = 2) && c.level ≤ 61 && 64 ≤ c.width && 2 ≤ c.height && c.chroma = 1 &&
        (c.depth = 8 || (c.profile = 2 && c.depth = 10)) && [16, 32, 64].contains c.ctb && c.dpbMinus1 ≤ 5 &&
        c.reorder = 0 && !c.fieldSeq
     else 1 ≤ c.profile && c.profile ≤ 7 && c.level ≤ 81)

/-- Chroma sub-sampling across and down of a coded picture. -/
def codedSub (c : Config.Coded) : Nat × Nat :=
  if c.chroma = 1 then (2, 2) else if c.chroma = 2 then (2, 1) else (1, 1)

/-- A coded picture is YUV unless it is a colour-filter plane. -/
def codedYuv (c : Config.Coded) : Bool := c.chroma != 0

/-! ## Damage (R95, R96) -/

/-- Units across a picture, and in all of it. -/
def codedColumns (c : Config.Coded) : Nat := ceilDiv c.width (max 1 c.unitW)
def codedUnits (c : Config.Coded) : Nat := codedColumns c * ceilDiv c.height (max 1 c.unitH)

/-- Whether the bytes of a unit overlap a lost stretch. -/
def overlapsLost (lost : List (Nat × Nat)) (b : Nat × Nat) : Bool :=
  lost.any fun l => l.1 < b.1 + b.2 && b.1 < l.1 + l.2

/-- The first unit of a segment that fails: an error, or coded bytes that are lost. -/
def segmentFails (lost : List (Nat × Nat)) (s : Config.Segment) : Option Nat :=
  ((List.range s.units.length).find? fun i =>
    ((s.errorAt.map fun u => decide (u ≤ s.first + i)).getD false) || overlapsLost lost (s.units.getD i (0, 0))).map (s.first + ·)

/-- Damage that the segments show: HEVC, from the first unit of a failing slice segment to the unit before the next one that
decodes; JPEG XS, from the failing precinct to the end of its slice. -/
def segmentDamage (hevc : Bool) (units : Nat) (lost : List (Nat × Nat)) : List Config.Segment → List Nat
  | [] => []
  | s :: rest =>
    (match segmentFails lost s with
     | none => []
     | some u =>
       if hevc then
         let stop := ((rest.find? fun r => (segmentFails lost r).isNone).map (·.first)).getD units
         (List.range (stop - s.first)).map (s.first + ·)
       else (List.range (s.first + s.units.length - u)).map (u + ·)) ++ segmentDamage hevc units lost rest

/-- A unit, by its place in the order of decoding, for which coded data has arrived. -/
def codedCovers (c : Config.Coded) (u : Nat) : Bool :=
  c.segments.any fun s => s.first ≤ u && u < s.first + s.units.length

/-- The place in the order of decoding of the unit with a raster address (R86, R95). -/
def codedPlace (c : Config.Coded) (u : Nat) : Nat := (c.scan.idxOf? u).getD u

/-- The damaged units of a picture in ascending order; `cut`: units completed when the budget was used up (R94). -/
def codedDamage (hevc : Bool) (lost : List (Nat × Nat)) (cut : Option Nat) (c : Config.Coded) : List Nat :=
  let l := segmentDamage hevc (codedUnits c) lost c.segments
  (List.range (codedUnits c)).filter fun u =>
    let p := codedPlace c u
    l.contains p || !codedCovers c p || (cut.map fun k => decide (k ≤ p)).getD false

/-! ## Replacement (R98) -/

/-- Planes, columns and lines of a planar picture in the order of its samples. -/
def pixelsOf (w h : Nat) (yuv : Bool) (sx sy : Nat) : List (Nat × Nat × Nat) :=
  let plane (p w h : Nat) : List (Nat × Nat × Nat) := (List.range h).flatMap fun y => (List.range w).map fun x => (p, x, y)
  let cw := ceilDiv w (max 1 sx)
  let ch := ceilDiv h (max 1 sy)
  plane 0 w h ++ if yuv then plane 1 cw ch ++ plane 2 cw ch else []

/-- The unit that a pixel of a plane is co-located with. -/
def codedUnitAt (c : Config.Coded) (p x y : Nat) : Nat :=
  let s := if p = 0 then (1, 1) else codedSub c
  y * s.2 / max 1 c.unitH * codedColumns c + x * s.1 / max 1 c.unitW

/-- Mid-grey of a bit depth. -/
def midGrey (depth : Nat) : Nat := 2 ^ (depth - 1)

/-- The form of a coded picture. -/
def codedForm (c : Config.Coded) : PicForm :=
  { yuv := codedYuv c, sx := (codedSub c).1, sy := (codedSub c).2, bits := c.depth, w := c.width, h := c.height }

/-- The sample of an earlier picture that a sample of plane p is co-located with, in the depth of the new picture: the one at the
same place of the luma grid, or the nearest at the earlier picture's edge; mid-grey in a plane that it has not. An earlier
picture of the same form gives the sample at the same place. DESIGN CHOICE: log entry 101. -/
def colocated (c : Config.Coded) (f : PicForm) (b : List Byte) (p x y : Nat) : Nat :=
  if p ≠ 0 ∧ !f.yuv then midGrey c.depth
  else
    let new : Nat × Nat := if p = 0 then (1, 1) else codedSub c
    let old : Nat × Nat := if p = 0 then (1, 1) else (max 1 f.sx, max 1 f.sy)
    let w := ceilDiv f.w old.1
    let h := ceilDiv f.h old.2
    let at_ := min (y * new.2 / old.2) (h - 1) * w + min (x * new.1 / old.1) (w - 1)
    let base := if p = 0 then 0 else f.w * f.h + (p - 1) * (w * h)
    let n := if f.bits ≤ 8 then 1 else 2
    let v := fieldAt b (n * (base + at_)) n
    if f.bits ≤ c.depth then v * 2 ^ (c.depth - f.bits) else v / 2 ^ (f.bits - c.depth)

/-- The decoded picture with its damaged units replaced: co-located pixels of an earlier picture, or mid-grey. -/
def replaceUnits (c : Config.Coded) (damage : List Nat) (prev : Option (PicForm × List Byte)) : List Byte :=
  let n := if c.depth ≤ 8 then 1 else 2
  (pixelsOf c.width c.height (codedYuv c) (codedSub c).1 (codedSub c).2).zipIdx.flatMap fun q =>
    if damage.contains (codedUnitAt c q.1.1 q.1.2.1 q.1.2.2) then
      match prev with
      | some r => leBytes n (colocated c r.1 r.2 q.1.1 q.1.2.1 q.1.2.2)
      | none => leBytes n (midGrey c.depth)
    else padTo n ((c.picture.drop (n * q.2)).take n)

end Sys2Proof.Machine
end

