-- ==== Sys2Proof/Machine/Race.lean ====
section
/-! DEFINITION. Gates at work (R47 to R123): the boundary between samples, frame counters, landing slots, notices, failed
instances, the frozen-content detector, the decision to drop or conceal, decoding, and the end of a stop. -/

namespace Sys2Proof.Machine

open Sys2Proof

/-! ## Tables and the sample boundary (R81, R107, R108) -/

/-- The content of the active bank; none for the default. -/
def GTable.live (t : GTable) : Option (List Byte) := if t.active = 0 then t.bank0 else t.bank1

/-- One of a gate's three tables. -/
def Gate.table (x : Gate) (k : Nat) : GTable := if k = 0 then x.coef else if k = 1 then x.tone else x.remap

def Gate.setTable (x : Gate) (k : Nat) (t : GTable) : Gate :=
  if k = 0 then { x with coef := t } else if k = 1 then { x with tone := t } else { x with remap := t }

/-- The banks that a sample of a gate reads: the coefficients, the tone table, and the grid with remap on; packet slots need none. -/
def Gate.banks (x : Gate) : List (Nat × Nat) :=
  if Settings.kind x.settings = 1 ∧ Settings.decoder x.settings = 0 then []
  else [(0, x.coef.active), (1, x.tone.active)] ++ (if Settings.remap x.settings = 0 then [] else [(2, x.remap.active)])

/-- A sample's reads of the table memory: a single-bit error is corrected, a worse one delivers the line poisoned, with the fault at the
Race pipeline's source; the place of a line has no device address, so the argument is open. Whether the sample is poisoned (R29, R30,
R525). DESIGN CHOICE: log entry 113. -/
def Dev.readTables (d : Dev) (g : Nat) (x : Sample) : Bool × Dev :=
  let put (d : Dev) (k : Nat) (f : GTable → GTable) : Dev := d.modGate g fun y => y.setTable k (f (y.table k))
  let place (d : Dev) : Nat := Config.freeNat d.free % 2 ^ 40
  x.banks.foldl (fun acc kb =>
    let t := (acc.2.gate g).table kb.1
    (t.err.filter fun y => y.1 / 2 ^ 16 == kb.2).foldl (fun (acc : Bool × Dev) y =>
      let d := put acc.2 kb.1 fun t => { t with err := terase t.err y.1 }
      let poison (detail : Nat) : Bool × Dev :=
        (true, ((put d kb.1 fun t => { t with bad := t.bad ++ [y.1] }).raise 0x254 3 detail (place d)).spend)
      match y.2 with
      | .single bit => (acc.1, (d.raise 0x254 1 bit (place d)).spend)
      | .uncorrectable => poison 0
      | .checkMismatch => poison 1) (acc.1 || t.bad.any fun l => l / 2 ^ 16 == kb.2, acc.2)) (false, d)

/-- A switch takes effect. -/
def GTable.switched (t : GTable) : GTable :=
  if t.pending then { t with active := 1 - t.active, pending := false, fresh := false } else t

/-- Live settings come into force. -/
def Gate.settle (x : Gate) : Gate :=
  { x with
    settings := x.liveNext.foldl (fun s r => Settings.put s r.1 r.2) x.settings, liveNext := []
    coef := x.coef.switched, tone := x.tone.switched, remap := x.remap.switched }

/-- A gate begins a sample or enters STOPPED: live changes and pending switches take effect, and the switch commands
complete (R404). -/
def Dev.boundary (d : Dev) (e : Env) (g : Nat) : Dev :=
  (d.modGate g Gate.settle).finishAll e (fun o => o.opcode == 0x402 && o.e.target == g) {}

/-! ## Counters and slots (R70 to R73, R123) -/

/-- frame_counter, frame set and instance, and the detail of the DROP that R71 makes of the sample. -/
def Dev.assign (d : Dev) (g : Nat) (capture : Int) : (Nat × Option (Nat × Int) × Option Nat) × Dev :=
  let x := d.gate g
  match (Settings.fset x.settings).bind fun f => ((d.fset f).cfg).map fun c => (f, c) with
  | none => ((x.nextCounter, none, none), d.modGate g fun x => { x with nextCounter := (x.nextCounter + 1) % 2 ^ 32 })
  | some (f, c) =>
    let i := (2 * (capture - c.epoch) + c.period).fdiv (2 * c.period)
    let drop := if i < 0 then some 2 else if x.served.contains i then some 3 else none
    ((patternOf i 32, some (f, i), drop),
      d.modGate g fun x => { x with served := if x.served.contains i then x.served else x.served ++ [i] })

/-- Landing slots that a sample in work occupies. -/
def Gate.inWork (x : Gate) : List Nat :=
  (x.pipe.filterMap (·.slot)) ++ ((x.frame.bind (·.smp.slot)).toList)

/-- The next landing slot in ascending cyclic order that is neither held nor in work (R123). -/
def Gate.pickSlot (x : Gate) : Option Nat :=
  let n := Settings.slots x.settings
  let first := match x.lastSlot with
    | some k => k + 1
    | none => 0
  ((List.range n).map fun i => (first + i) % n).find? fun k =>
    !x.held.contains (Settings.slotAddr x.settings k) && !x.inWork.contains k

/-- The producer field of a gate's tallies (R75). -/
def Dev.producer (d : Dev) (g : Nat) : Nat :=
  let st := (d.gate g).settings
  let k := Settings.kind st
  let low :=
    if k = 0 then
      match (List.range 48).find? fun i => (match tget d.race.portMap i with
        | some m => m
        | none => some i) == some g with
      | some i => i / 4 * 256 + i % 4
      | none => 0
    else if k = 1 then (((Settings.bytes st 0x02).map fun b => fieldAt b 0 1).getD 0) * 256
    else 0
  0xA0000000 + k * 65536 + low

/-- The gate that a port and channel feed (R46). -/
def Dev.gateOf (d : Dev) (port vc : Nat) : Option Nat :=
  if 3 < vc then none
  else match tget d.race.portMap (4 * port + vc) with
    | some m => m
    | none => some (4 * port + vc)

/-- Gates that any channel of a port feeds. -/
def Dev.gatesOfPort (d : Dev) (port : Nat) : List Nat := (List.range 4).filterMap fun vc => d.gateOf port vc

/-- The port and channel of a gate. -/
def Dev.sourceOf (d : Dev) (g : Nat) : Option Nat := (List.range 48).find? fun i => d.gateOf (i / 4) (i % 4) == some g

/-! ## Notices (R66, R121, R323) -/

/-- A member gate posts a notice: a stopped monitor starts with it (R323); drop notices are counted (R322). -/
def Dev.monitorNotice (d : Dev) (f : Nat) (i : Int) (dropped : Bool) : Dev :=
  let d := if (d.fset f).running then d
    else (d.modFset f fun s => { s with
      running := true, current := patternOf i 32, serial := i, late := 0, incomplete := 0, doneBits := [] }).rewriteDeadline f
  if dropped then d.modFset f fun s => { s with incomplete := (s.incomplete + 1) % 2 ^ 32 } else d

/-- Posts a notice to the gate's notice target, and copies it to the host queue if one is set. -/
def Dev.gateNotice (d : Dev) (e : Env) (g : Nat) (st : Settings) (slot flags counter : Nat) (inst : Option (Nat × Int)) : Dev :=
  let d := match inst with
    | some (f, i) => d.monitorNotice f i (slot == 0)
    | none => d
  let b := noticeBytes slot g flags counter
  let d := if Settings.noticeIdent st = 0xFFFF then d
    else d.launchFlight (.entry (Settings.noticeIdent st) (.gate g) b true (0x200 + g))
  if Settings.noticeQueue st = 0 then d
  else d.noteOn e (Settings.noticeQueue st) 1 0 (fieldAt b 0 8) (fieldAt b 8 8) false

/-- A drop notice. -/
def Dev.dropNotice (d : Dev) (e : Env) (g : Nat) (x : Sample) : Dev :=
  d.gateNotice e g x.st 0 (flagWord [(flIncomplete, true), (flDomainB, x.domB)]) x.counter x.inst

/-- Posts the drop notices that stand at the head of the gate's samples. -/
def Dev.flushDrops (d : Dev) (e : Env) (g : Nat) : Dev :=
  let l := (d.gate g).pipe
  (l.takeWhile fun x => x.slot.isNone).foldl (fun d x => d.dropNotice e g x)
    (d.modGate g fun x => { x with pipe := l.dropWhile fun x => x.slot.isNone })

/-! ## Writing a sample (R16, R17, R21, R49, R68, R74, R77) -/

/-- The damage record (R68). -/
def recordBytes (unit : Nat) (damage : List Nat) : List Byte :=
  let r := (ranges damage).take 30
  let b := leBytes 2 r.length ++ leBytes 2 unit ++ leBytes 4 0 ++
    padTo 240 (r.flatMap fun x => leBytes 4 x.1 ++ leBytes 4 x.2) ++ leBytes 4 0
  b ++ leBytes 4 (crc32c b)

/-- The payload of a finished sample: packet slots, or the tensor of stages 2 to 9. -/
def Dev.payloadOf (d : Dev) (g : Nat) (x : Sample) : List Byte :=
  let st := x.st
  if x.unitKind = 1 ∧ Settings.decoder st = 0 then x.input.flatten
  else
    let f := x.form
    let pic := if Settings.decoder st = 0 then picOfLines st x.input
      else picOfBytes f.w f.h f.yuv f.sx f.sy f.bits (Settings.sampleBits st) (x.input.headD [])
    tensorOf st {
      coef := x.coef.getD identityCoef, tone := x.tone, grid := x.grid,
      pick := fun i => Config.freeBool (d.free + (i + 1) * 2 ^ 64), openBits := Config.freeNat d.free } g pic

/-- Whether a sample's notice comes after its instance's deadline (R71, R324). -/
def Dev.isLate (d : Dev) (e : Env) (inst : Option (Nat × Int)) : Bool :=
  match inst with
  | none => false
  | some (f, i) =>
    match (d.fset f).cfg with
    | some c => decide (c.deadline i < d.domTime c.dom e.raw)
    | none => false

/-- Writes payload, record and tally of a sample into its landing slot and posts its notice: payload first, then the
tally (R17, R76). A payload that shares a line left poisoned is POISONED (R30, R77). A Collie feed's tensor is written a second time
(R21). DESIGN CHOICE: log entry 17. -/
def Dev.deliverSample (d : Dev) (e : Env) (g : Nat) (x : Sample) (payload : List Byte) (abandoned : Bool) : Dev :=
  let r := d.readTables g x
  let d := r.2
  let x := { x with poisoned := x.poisoned || r.1 }
  let st := x.st
  let k := x.slot.getD 0
  let a := Settings.slotAddr st k
  let d := d.writeFrom e 0x254 0xFF (a + 0x140) payload x.poisoned .hostPort
  let poisoned := x.poisoned || (linesOf (a + 0x140) payload.length).any d.isPoisoned
  let d := if Settings.collieFeed st then
      d.write (collieBase + Config.collieLanding g k % max 1 (2 ^ 24 - payload.length)) payload x.poisoned
    else d
  let d := d.writeFrom e 0x254 0xFF (a + 0x40) (recordBytes x.unitKind x.damage) false .hostPort
  let flags := flagWord [(flConcealed, x.concealed), (flPoisoned, poisoned), (flAbandoned, abandoned),
    (flLate, d.isLate e x.inst), (flHostMade, x.hostMade), (flRepeated, x.repeated), (flDebug, d.sec.session.isSome),
    (flDomainB, x.domB)]
  let t := tallyBytes g flags x.counter (patternOf x.capture 64) payload.length (crc32c payload) x.producer
  let d := d.writeFrom e 0x254 0xFF a (padTo 64 t) false .hostPort
  (d.modGate g fun y => { y with held := if y.held.contains a then y.held else y.held ++ [a] }).gateNotice
    e g st a flags x.counter x.inst

/-- Closes a sample with ABANDONED: how much of the payload stage 9 had written is open, and it is nothing where no input
line has come or the sample is not yet decoded (R49). DEDUCED: log entry 54. -/
def Dev.abandonSample (d : Dev) (e : Env) (g : Nat) (x : Sample) : Dev :=
  if x.slot.isNone then d.dropNotice e g x
  else if x.coded then d.deliverSample e g { x with damage := [] } [] true
  else if x.input.isEmpty then d.deliverSample e g x [] true
  else
    let p := d.payloadOf g x
    d.spend.deliverSample e g x (p.take (Config.freeNat d.free % (p.length + 1))) true

/-- The line that replaces a damaged one: the nearest undamaged line of the same filter phase above, else below; with no such
line at all there is nothing to copy. DESIGN CHOICE: log entry 88. -/
def concealFrom (lines : List (Option (List Byte))) (step y : Nat) : List Byte :=
  let up := (List.range (y / step)).map fun k => y - (k + 1) * step
  let down := (List.range lines.length).map fun k => y + (k + 1) * step
  match (up ++ down).find? fun i => ((lines[i]?).bind id).isSome with
  | some i => ((lines[i]?).bind id).getD []
  | none => []

/-- Lines of a camera frame from one copied line to the next: one for YUV422, two for RAW types (R67). -/
def concealStep (st : Settings) : Nat := if Settings.dataType st = 0x1E then 1 else 2

/-- Camera lines with the damaged ones of a list replaced (R67). -/
def concealLines (st : Settings) (lines : List (Option (List Byte))) : List (List Byte) :=
  lines.zipIdx.map fun l => l.1.getD (concealFrom lines (concealStep st) l.2)

/-- What an open frame leaves as a sample: damaged units filled with a length of fill bytes (R59). DEDUCED: log entry 54. -/
def OpenFrame.sample (f : OpenFrame) (lineLen : Nat) (fill : Byte) : Sample :=
  { f.smp with
    input := f.lines.map fun l => l.getD (List.replicate lineLen fill)
    damage := (List.range f.lines.length).filter fun i => ((f.lines[i]?).bind id).isNone }

/-- The sample of a frame that is abandoned while it is open: packet slots with their fill, camera lines with their
concealment. DEDUCED: log entry 54. -/
def OpenFrame.abandoned (f : OpenFrame) : Sample :=
  let st := f.smp.st
  let s := f.sample (Settings.windowLen st) (BitVec.ofNat 8 (Settings.get st 0x1A 0))
  let s := { s with concealed := !s.damage.isEmpty || decide (0 < f.lostMore + f.discards) }
  if Settings.kind st = 1 then { s with coded := Settings.decoder st ≠ 0 } else { s with input := concealLines st f.lines }

/-- Closes the open work of a gate as under DISCARD: its samples in the order they began, then its unread feeds (R49).
DEDUCED: log entry 54. -/
def Dev.abandonGate (d : Dev) (e : Env) (g : Nat) : Dev :=
  let x := d.gate g
  let d := d.modGate g fun x => { x with pipe := [], frame := none, feeds := [], shift := none }
  let d := x.pipe.foldl (fun d y => d.abandonSample e g y) d
  let d := match x.frame with
    | some f => if f.dropped then d else d.abandonSample e g f.abandoned
    | none => d
  x.feeds.foldl (fun d f =>
    if f.refused then
      d.dropNotice e g { counter := f.counter, capture := f.capture, domB := f.domB, inst := f.inst, st := x.settings }
    else match d.outstBy f.q f.tag with
      | some o => d.finish e o { status := stAborted }
      | none => d) d

/-! ## States (R48, R50, R323) -/

/-- Gates that name a frame set. -/
def Dev.members (d : Dev) (f : Nat) : List Nat :=
  tkeys d.race.gates fun x => x.fn != .unconfigured && Settings.fset x.settings == some f

/-- A monitor stops once every member gate is STOPPED (R323). -/
def Dev.monitorCheck (d : Dev) (f : Nat) : Dev :=
  if (d.members f).all fun g => (d.gate g).fn == .stopped then d.modFset f fun s => { s with running := false } else d

/-- The frame sets that an image's paths on a logical fold belong to. -/
def pathSets (im : Image) (n : Nat) : List Nat := (im.paths.filter fun x => x.2.contains n).map (·.1)

/-- A frame set is RUNNING while a member gate is (DEDUCED, log entry 30). -/
def Dev.fsetRunning (d : Dev) (f : Nat) : Bool := (d.members f).any fun g => (d.gate g).fn == .running

/-- The RUNNING frame sets whose paths use a logical fold (R470). DEDUCED: log entry 30. -/
def Dev.setsOn (d : Dev) (n : Nat) : List Nat :=
  (d.insts.flatMap fun x => (x.2.image.map fun im => pathSets im n).getD []).filter fun f => d.fsetRunning f

/-- The shortest period of those frame sets, or the period of 30 frames a second where there is none (R470). -/
def Dev.coverageOf (d : Dev) (n : Nat) : Nat :=
  match (d.setsOn n).filterMap fun f => (d.fset f).cfg.map (·.period) with
  | [] => 33333333
  | p :: l => l.foldl min p

/-- The coverage period C of a logical fold in force (R470). -/
def Dev.coverage (d : Dev) (n : Nat) : Nat := (d.fold n).coverNs

/-- Boundaries of C, since the last count, at which all four ages were below C (R476; DEDUCED, log entry 30). -/
def PhysFold.newlyCovered (x : PhysFold) (raw c : Nat) : Nat :=
  let l := (List.range 4).map fun s => tgetD x.lastPass s 0
  min raw (l.foldl min (l.headD 0) + c - 1) / c - x.countedTo / c

/-- The boundaries up to now are counted under the period that was in force (R476). -/
def PhysFold.counted (x : PhysFold) (raw c : Nat) : PhysFold :=
  { x with covered := x.covered + x.newlyCovered raw c, countedTo := raw }

/-- Firmware recomputes C of every logical fold, at a gate start or stop (R470). -/
def Dev.recover (d : Dev) (e : Env) : Dev :=
  (List.range 48).foldl (fun d n =>
    let c := d.coverageOf n
    if c = d.coverage n then d
    else (d.modPhys (d.physOf n) fun x => x.counted e.raw (d.coverage n)).modFold n fun f => { f with coverNs := c }) d

/-- A gate enters STOPPED: pending switches take effect, its decoder slot is given back, coverage periods are taken anew (R108, R120, R323,
R470). -/
def Dev.gateStopped (d : Dev) (e : Env) (g : Nat) : Dev :=
  let d := (d.boundary e g).modGate g fun x => { x with fn := .stopped, frame := none, shift := none, core := none }
  (match Settings.fset (d.gate g).settings with
   | some f => d.monitorCheck f
   | none => d).recover e

/-- A draining gate with no work left is STOPPED, and its stop completes (R49, R379). -/
def Dev.settleGate (d : Dev) (e : Env) (g : Nat) : Dev :=
  let x := d.gate g
  if x.fn = .stopping ∧ x.frame.isNone ∧ x.feeds.isEmpty ∧ x.pipe.isEmpty then
    (d.gateStopped e g).finishAll e (fun o => o.opcode == 0x303 && o.e.target == g) {}
  else d

/-- One failed instance; the drop limit puts the gate into FAULTED with its work closed (R50). DEDUCED: log entry 60. -/
def Dev.gateFailed (d : Dev) (e : Env) (g counter : Nat) : Dev :=
  let x := d.gate g
  let n := x.failedRun + 1
  let lim := Settings.dropLimit x.settings
  let d := d.modGate g fun x => { x with failedRun := n }
  if x.fn = .running ∧ lim ≤ n then
    let d := (d.raise (0x200 + g) 0x13 lim counter).abandonGate e g
    (d.modGate g fun x => { x with fn := .faulted, core := none }).noteState e 0 .faulted g
      (faultMsg (0x200 + g) 0x13 lim counter).toNat
  else d

/-- A sample is dropped: its drop notice takes its place among the gate's samples, and an instance has failed (R50, R66). -/
def Dev.dropSample (d : Dev) (e : Env) (g : Nat) (x : Sample) : Dev :=
  let d := (d.modGate g fun y => { y with pipe := y.pipe ++ [{ x with slot := none, coded := false, input := [] }] }).flushDrops e g
  (d.gateFailed e g x.counter).settleGate e g

/-- The same with a DROP fault at the gate. -/
def Dev.dropWith (d : Dev) (e : Env) (g : Nat) (x : Sample) (detail : Nat) : Dev :=
  (d.raise (0x200 + g) 0x12 detail x.counter).dropSample e g x

/-! ## Beginning a sample -/

/-- Begins a sample at a gate: settings, tables, and a landing slot, or the DROP detail for want of one (R19). A slot counts as the
last one used (R123) whatever becomes of its sample. DESIGN CHOICE: log entry 104. -/
def Dev.beginSample (d : Dev) (g counter : Nat) (capture : Int) (domB : Bool) (inst : Option (Nat × Int)) (drop : Option Nat) :
    (Sample × Option Nat) × Dev :=
  let x := d.gate g
  let s : Sample := {
    counter := counter, capture := capture, domB := domB, inst := inst, st := x.settings, coef := x.coef.live, tone := x.tone.live
    grid := if Settings.remap x.settings = 0 then none else x.remap.live, producer := d.producer g, banks := x.banks
    hostMade := Settings.kind x.settings = 2
    unitKind := if Settings.decoder x.settings ≠ 0 then 2 else if Settings.kind x.settings = 1 then 1 else 0
    form := { bits := Settings.sampleBits x.settings, w := Settings.width x.settings, h := Settings.height x.settings } }
  let d := d.modGate g fun x => { x with sinceShift := x.sinceShift.map (· + 1) }
  match drop with
  | some k => ((s, some k), d)
  | none =>
    match x.pickSlot with
    | none => ((s, some 6), d)
    | some k => (({ s with slot := some k }, none), d.modGate g fun x => { x with lastSlot := some k })

/-! ## The frozen-content detector (R78, R79, R101) -/

/-- The part of a list that tile index k of four takes: the last one takes the remainder. -/
def quarter {α : Type} (l : List α) (k : Nat) : List α :=
  let n := l.length / 4
  if k = 3 then l.drop (3 * n) else (l.drop (k * n)).take n

/-- The bytes of tile (row, column) over the planes of a frame. -/
def tileBytes (planes : List (List (List Byte))) (r c : Nat) : List Byte :=
  planes.flatMap fun p => (quarter p r).flatMap fun l => quarter l c

/-- Splits bytes into lines of a length. -/
def chunks : Nat → Nat → List Byte → List (List Byte)
  | 0, _, _ => []
  | n + 1, k, b => b.take k :: chunks n k (b.drop k)

/-- The planes of a picture of one or two bytes a sample. -/
def planesOf (w h : Nat) (yuv : Bool) (sx sy bits : Nat) (b : List Byte) : List (List (List Byte)) :=
  let n := if bits ≤ 8 then 1 else 2
  let cw := ceilDiv w (max 1 sx)
  let ch := ceilDiv h (max 1 sy)
  if yuv then [chunks h (w * n) b, chunks ch (cw * n) (b.drop (w * h * n)), chunks ch (cw * n) (b.drop ((w * h + cw * ch) * n))]
  else [chunks h (w * n) b]

/-- The 16 tile CRCs, each with whether the tile counts as changed (R78). DEDUCED: log entry 52. -/
def tileCrcs (planes : List (List (List Byte))) (bad : Nat → Nat → Bool) : List (Nat × Bool) :=
  (List.range 16).map fun i => (crc32c (tileBytes planes (i / 4) (i % 4)), bad (i / 4) (i % 4))

/-- Judges a delivered sample's tiles: whether REPEATED is set, and the history after it; the fault is raised where a run comes to
repeat_limit, a limit lowered meanwhile included. DEDUCED: log entry 52. -/
def Dev.judgeTiles (d : Dev) (g counter : Nat) (t : List (Nat × Bool)) : Bool × Dev :=
  let x := d.gate g
  let same := match x.prevTiles with
    | some p => ((t.zip p).filter fun y => !y.1.2 && y.1.1 == y.2).length
    | none => 0
  let run := if x.prevTiles.isSome ∧ Settings.tileThreshold x.settings ≤ same then x.runLen + 1 else 1
  let hit := decide (Settings.repeatLimit x.settings ≤ run)
  let d := d.modGate g fun x => { x with prevTiles := some (t.map (·.1)), runLen := run, frozen := hit }
  (hit, if hit && !x.frozen then d.raise (0x200 + g) 0x14 0 counter else d)

/-- The embedded counter in the first line of a frame (R80): whether REPEATED is set; the value is open where the
field lies past the line. DEDUCED: log entry 53. -/
def Dev.checkCounter (d : Dev) (g counter : Nat) (st : Settings) (line : List Byte) : Bool × Dev :=
  let c := Settings.get st 0x13 0
  let n := c % 256 / 8
  let b := (line.drop (bitsAt c 8 8)).take n
  let v := if b.length = n then leNat (if bitOf c 16 then b.reverse else b) else Config.freeNat d.free % 2 ^ (8 * n)
  if n = 0 then (false, d)
  else
    let d1 := (if b.length = n then d else d.spend).modGate g fun x => { x with embPrev := some v }
    match (d.gate g).embPrev with
    | none => (false, d1)
    | some p =>
      if v = p then (true, d1.raise (0x200 + g) 0x14 1 counter)
      else if v = (p + 1) % 2 ^ (8 * n) then (false, d1)
      else (false, d1.raise (0x200 + g) 0x14 2 counter)

/-- The tile row of a line. -/
def tileRow (h y : Nat) : Nat := if h / 4 = 0 then 3 else min 3 (y / (h / 4))

/-! ## Drop or conceal (R65, R67, R68) -/

/-- A sample goes forward: the gate's failed instances are over (R50). -/
def Dev.forward (d : Dev) (e : Env) (g : Nat) (x : Sample) : Dev :=
  (d.modGate g fun y => { y with pipe := y.pipe ++ [x], failedRun := 0 }).flushDrops e g

/-- Drop or conceal, for a closed sample with its damaged units and packets lost beyond its slots. The answer is the
DROP detail. DEDUCED: log entry 50. -/
def dropDetail (st : Settings) (damage : List Nat) (more : Nat) : Option Nat :=
  if Settings.concealLimit st < damage.length + more then some 0
  else if 30 < (ranges damage).length then some 1 else none

/-- Closes the open camera frame of a gate: missing lines are damaged, then R65. The CRC of a tile with a line whose bytes
never came or were discarded is open. DEDUCED: log entry 50. -/
def Dev.closeCamera (d : Dev) (e : Env) (g : Nat) (badNumber : Bool) : Dev :=
  let x := d.gate g
  match x.frame with
  | none => d
  | some f =>
    let st := f.smp.st
    let h := Settings.height st
    let missing := (List.range (h - f.lines.length)).map (f.lines.length + ·)
    let lines := f.lines ++ missing.map fun _ => none
    let damage := (List.range h).filter fun i => ((lines[i]?).bind id).isNone
    let d := d.modGate g fun x => { x with frame := none, headerBad := false, orphaned := false }
    let s := { f.smp with damage := damage }
    let d := if badNumber then d.raise (0x200 + g) 0x11 1 s.counter else d
    let d := missing.foldl (fun d y => d.raise (0x200 + g) 0x10 5 (s.counter % 2 ^ 24 * 2 ^ 16 + y)) d
    if f.dropped then d.settleGate e g
    else if badNumber || decide (0 < f.surplus) then d.dropSample e g s
    else match dropDetail st damage 0 with
      | some k => d.dropWith e g s k
      | none =>
        let raw := lines.map fun l => l.getD []
        let lost (r : Nat) : Bool := damage.any fun y => tileRow h y == r && (tget f.got y).isNone
        let t := tileCrcs [(List.range h).map fun y => (tget f.got y).getD (raw.getD y [])] fun r _ =>
          damage.any fun y => tileRow h y == r
        let t := t.zipIdx.map fun x => (if lost (x.2 / 4) then Config.freeNat (d.free + (x.2 + 1) * 2 ^ 64) % 2 ^ 32 else x.1.1, x.1.2)
        let j := d.spend.judgeTiles g s.counter t
        (j.2.forward e g { s with input := concealLines st lines, concealed := !damage.isEmpty, repeated := s.repeated || j.1 }).settleGate e g

/-- Closes the open Ethernet sample of a gate (R60, R65); the ranges of a coded one are the decoder's (R97). -/
def Dev.closeEthernet (d : Dev) (e : Env) (g : Nat) : Dev :=
  let x := d.gate g
  match x.frame with
  | none => d
  | some f =>
    let d := d.modGate g fun x => { x with frame := none }
    if f.dropped then d.settleGate e g
    else
      let st := f.smp.st
      let fill := BitVec.ofNat 8 (Settings.get st 0x1A 0)
      let s := f.sample (Settings.windowLen st) fill
      let coded := Settings.decoder st ≠ 0
      let more := f.lostMore + f.discards
      let k := dropDetail st s.damage more
      match if coded && k != some 0 then none else k with
      | some k => d.dropWith e g s k
      | none =>
        let s := { s with coded := coded, concealed := !s.damage.isEmpty || decide (0 < more) }
        if coded then (d.modGate g fun y => { y with pipe := y.pipe ++ [s] }).flushDrops e g
        else (d.forward e g s).settleGate e g

/-! ## Decoding (R86 to R101) -/

/-- The decoder cores of a kind: HEVC 0 to 3, JPEG XS 4 to 7. -/
def coresOf (decoder : Nat) : List Nat := if decoder = 1 then [0, 1, 2, 3] else [4, 5, 6, 7]

/-- Reserved time of a core's round: each slot with its switch (R92). DEDUCED: log entry 57. -/
def Dev.coreBusy (d : Dev) (c : Nat) : Nat :=
  ((d.race.gates.filter fun x => x.2.core == some c).map fun x => x.2.slotUs + 2).sum

/-- Of some cores, the one with the most unreserved time, if it admits a slot (R92). DEDUCED: log entry 57. -/
def Dev.coreAmong (d : Dev) (l : List Nat) (slot : Nat) : Option Nat :=
  match l.foldl (fun m c => match m with
    | none => some c
    | some b => if d.coreBusy c < d.coreBusy b then some c else some b) none with
  | some c => if d.coreBusy c + slot + 2 ≤ 1000 then some c else none
  | none => none

/-- The core that a gate starts with (R92). -/
def Dev.coreFor (d : Dev) (decoder slot : Nat) : Option Nat := d.coreAmong (coresOf decoder) slot

/-- A frame counter lies at or past another, counted round 2^32. -/
def atOrPast (h counter : Nat) : Bool := decide ((counter + 2 ^ 32 - h) % 2 ^ 32 < 2 ^ 31)

/-- Gates whose slots have run in the present round of a core. DEDUCED: log entry 57. -/
def Dev.coreRan (d : Dev) (e : Env) (c : Nat) : List Nat :=
  match tget d.race.slotRuns c with
  | some r => if r.1 = e.raw / 1000000 then r.2 else []
  | none => []

/-- A gate's slot may begin: it has not run in this round, and no gate started later has (R91). -/
def Dev.slotDue (d : Dev) (e : Env) (c g : Nat) : Bool :=
  (d.coreRan e c).all fun h => h != g && (d.gate h).startOrder ≤ (d.gate g).startOrder

/-- A gate's slot begins. -/
def Dev.slotRun (d : Dev) (e : Env) (c g : Nat) : Dev :=
  { d with race := { d.race with slotRuns := tset d.race.slotRuns c (e.raw / 1000000, d.coreRan e c ++ [g]) } }

/-- Byte ranges of a coded sample that lost packet slots leave (R97). -/
def Sample.lost (x : Sample) : List (Nat × Nat) :=
  if Settings.kind x.st = 1 then x.damage.map fun i => (i * Settings.windowLen x.st, Settings.windowLen x.st) else []

/-- What the decoder makes of a coded sample. DESIGN CHOICE: log entry 14. -/
def Dev.decodeOf (d : Dev) (g : Nat) (x : Sample) : Config.Coded :=
  Config.decodeStream (Settings.decoder x.st) (d.gate g).paramSets (d.gate g).refs x.input.flatten x.lost

/-- Removes the first coded sample of a gate, or changes it. DESIGN CHOICE: log entry 14. -/
def replaceCoded (f : Sample → List Sample) : List Sample → List Sample
  | [] => []
  | x :: t => if x.coded then f x ++ t else x :: replaceCoded f t

/-- A drop of the first coded sample keeps its place among the gate's samples. -/
def Dev.dropCoded (d : Dev) (e : Env) (g : Nat) (x : Sample) : Dev :=
  let d := (d.modGate g fun y => { y with
    pipe := replaceCoded (fun x => [{ x with slot := none, coded := false, input := [] }]) y.pipe }).flushDrops e g
  (d.gateFailed e g x.counter).settleGate e g

/-- The first coded sample becomes a finished picture. DEDUCED: log entry 58. -/
def Dev.pictureDone (d : Dev) (g : Nat) (x : Sample) : Dev :=
  d.modGate g fun y => { y with
    pipe := replaceCoded (fun _ => [{ x with coded := false }]) y.pipe, failedRun := 0, prevPicture := some (x.input.headD []) }

/-- The core time of a coded sample that is done with joins the last 32 (R117). -/
def Dev.countUsage (d : Dev) (g : Nat) (x : Sample) : Dev :=
  d.modGate g fun y => { y with
    usage := (y.usage ++ [(x.usedUs, x.slotsPassed * y.slotUs)]).drop ((y.usage.length + 1) - 32) }

/-- Delivers the first coded sample concealed in full as a copy of the previous delivered picture, or in mid-grey where
there is none (R98 to R100). -/
def Dev.concealFull (d : Dev) (e : Env) (g : Nat) (x : Sample) : Dev :=
  let y := d.gate g
  let r := d.decodeOf g x
  let all := List.range (codedUnits r)
  let d := d.countUsage g x
  if Settings.get x.st 0x23 8 ≤ y.concealRun then (d.raise (0x200 + g) 0x12 5 x.counter).dropCoded e g x
  else
    let form := y.prevForm.getD (codedForm r)
    (d.modGate g fun y => { y with concealRun := y.concealRun + 1, prevForm := some form }).pictureDone g { x with
      input := [y.prevPicture.getD (replaceUnits r all none)], damage := all, unitKind := 2, concealed := true
      form := form }

/-- Gives back the slot of a gate that shifts to HOST once its last DEVICE sample is done with: the sample before h, or any where
a feed from h onward has been taken (R119). -/
def Dev.freeCore (d : Dev) (g counter : Nat) : Dev :=
  let x := d.gate g
  let left := x.pipe.any (·.coded) || x.feeds.any fun f => f.coded && !f.refused
  let past : Bool := match x.shift with
    | some (h, false) => (counter + 1) % 2 ^ 32 == h || x.feeds.any fun f => atOrPast h f.counter
    | _ => false
  if Settings.decoder x.settings ≠ 0 ∧ !left ∧ (x.hostMode ∨ past) ∧ (x.shift.map (·.2)) ≠ some true then
    d.modGate g fun x => { x with core := none }
  else d

/-- Coded samples at the front that need no decoder: HEVC pictures before the IRAP that ends the damage (R99). -/
def Dev.skipCoded : Nat → Env → Nat → Dev → Dev
  | 0, _, _, d => d
  | fuel + 1, e, g, d =>
    match (d.gate g).pipe.find? (·.coded) with
    | none => d
    | some x =>
      if (d.gate g).awaitIrap && Settings.decoder x.st == 1 && !(d.decodeOf g x).irap then
        Dev.skipCoded fuel e g ((d.concealFull e g x).freeCore g x.counter)
      else d

/-- The planes of a coded picture for the detector of R78. -/
def codedPlanes (c : Config.Coded) (b : List Byte) : List (List (List Byte)) :=
  planesOf c.width c.height (codedYuv c) (codedSub c).1 (codedSub c).2 c.depth b

/-- The detector on a decoded picture before concealment (R79, R80, R101): a tile with a damaged unit counts as changed, and
the counter is read where no unit of the first line is damaged. It does not look at Ethernet samples.
DEDUCED: log entry 53. -/
def Dev.judgeCoded (d : Dev) (g : Nat) (x : Sample) (c : Config.Coded) (damage : List Nat) : Bool × Dev :=
  if Settings.kind x.st = 1 then (false, d)
  else
    let n := c.picture.length
    let mark (b : Byte) : List (List (List Byte)) := codedPlanes c (replaceUnits c damage (some (codedForm c, List.replicate n b)))
    let bad (i j : Nat) : Bool := !damage.isEmpty && tileBytes (mark 0) i j != tileBytes (mark 0xFF) i j
    let row := if damage.any fun u => u < codedColumns c then (false, d)
      else d.checkCounter g x.counter x.st (c.picture.take (c.width * if c.depth ≤ 8 then 1 else 2))
    let j := row.2.judgeTiles g x.counter (tileCrcs (codedPlanes c c.picture) bad)
    (row.1 || j.1, j.2)

/-- The decoder has ended its work on the first coded sample, with the units from `cut` on unfinished (R89, R94 to R101).
DESIGN CHOICE: log entry 14. DEDUCED: log entry 58. -/
def Dev.decodeDone (d : Dev) (e : Env) (g : Nat) (x : Sample) (cut : Option Nat) : Dev :=
  let y := d.gate g
  let st := x.st
  let c := d.decodeOf g x
  let src := 0x240 + y.core.getD 0
  let arg := g * 2 ^ 32 + x.counter
  let d := d.countUsage g x
  let out :=
    if !codedSupported (Settings.decoder st) (Settings.width st) (Settings.height st) c then
      (d.raise src 0x16 0 arg).dropCoded e g x
    else if (y.streamSize.map fun z => z != (c.width, c.height)).getD false then (d.raise src 0x16 1 arg).dropCoded e g x
    else
      let hevc := Settings.decoder st == 1
      let damage := codedDamage hevc x.lost cut c
      let full := damage.length == codedUnits c && !damage.isEmpty
      let d := d.modGate g fun y => { y with
        awaitIrap := hevc && (!damage.isEmpty || (y.awaitIrap && !c.irap))
        paramSets := c.sets, streamSize := some (c.width, c.height), concealRun := if full then y.concealRun else 0 }
      if 30 < (ranges damage).length then (d.raise (0x200 + g) 0x12 1 x.counter).dropCoded e g x
      else if full && decide (Settings.get st 0x23 8 ≤ y.concealRun) then (d.raise (0x200 + g) 0x12 5 x.counter).dropCoded e g x
      else
        let j := if full then (false, d) else d.judgeCoded g x c damage
        let pic := replaceUnits c damage (y.prevForm.bind fun f => y.prevPicture.map fun b => (f, b))
        (j.2.modGate g fun y => { y with
          concealRun := if full then y.concealRun + 1 else 0, refs := (pic :: y.refs).take 6, prevForm := some (codedForm c) }).pictureDone g { x with
            input := [pic], damage := damage, form := codedForm c, unitKind := 2
            concealed := x.concealed || !damage.isEmpty, repeated := j.1 }
  out.freeCore g x.counter

/-- After a decode: samples that need no decoder, drop notices at the head, and a stop that waited. -/
def Dev.afterDecode (d : Dev) (e : Env) (g : Nat) : Dev :=
  ((Dev.skipCoded (d.gate g).pipe.length e g d).flushDrops e g).settleGate e g

/-! ## Load split (R117 to R119) -/

/-- The mode in force for a frame counter: true for HOST. -/
def Gate.modeAt (x : Gate) (counter : Nat) : Bool :=
  match x.shift with
  | some (h, toDevice) => if atOrPast h counter then !toDevice else x.hostMode
  | none => x.hostMode

/-- The handover: the first sample from h onward ends a pending shift; a shift to DEVICE waits for an IRAP picture
(R119, R120). DEDUCED: log entry 58. -/
def Dev.handover (d : Dev) (g counter : Nat) : Dev :=
  match (d.gate g).shift with
  | none => d
  | some (h, toDevice) =>
    if atOrPast h counter then
      (d.modGate g fun x => { x with
        shift := none, hostMode := !toDevice, awaitIrap := x.awaitIrap || toDevice }).freeCore g counter
    else d

/-- A core's measured utilisation over its last 100 rounds, in per cent of its core time (R118). -/
def Dev.coreLoad (d : Dev) (e : Env) (c : Nat) : Nat :=
  let now := e.raw / 1000000
  (((tgetD d.race.coreUse c []).filter fun u => now < u.1 + 100).map (·.2)).sum * 100 / 100000

/-- The length a feed must have in the mode of its counter (R63, R88, R116). DEDUCED: log entry 56. -/
def feedLengthOk (st : Settings) (host : Bool) (n : Nat) : Bool :=
  if Settings.decoder st = 0 then n = Settings.lineBytes st * Settings.height st
  else if host then n = Settings.hostPicture st
  else n ≤ Settings.maxBitstream st

/-- Refused feeds whose turn has come post their drop notices (R63, R123). DEDUCED: log entry 55. -/
def Dev.flushRefused : Nat → Env → Nat → Dev → Dev
  | 0, _, _, d => d
  | fuel + 1, e, g, d =>
    match (d.gate g).feeds with
    | f :: rest =>
      if f.refused then
        Dev.flushRefused fuel e g ((d.modGate g fun x => { x with feeds := rest }).dropSample e g
          { counter := f.counter, capture := f.capture, domB := f.domB, inst := f.inst, st := (d.gate g).settings })
      else d
    | [] => d

/-- Feeds already taken that a handover at h puts into a new mode (R119): one whose length does not fit it is refused, with its
drop notice in its turn. DEDUCED: log entry 58. -/
def Dev.remode (d : Dev) (e : Env) (g h : Nat) (host : Bool) : Dev :=
  (d.gate g).feeds.foldl (fun d f =>
    let put (n : Feed) (d : Dev) : Dev := d.modGate g fun x => { x with
      feeds := x.feeds.map fun y => if y.q == f.q && y.tag == f.tag && !y.refused then n else y }
    if f.refused ∨ !atOrPast h f.counter then d
    else if feedLengthOk (d.gate g).settings host f.length then put { f with coded := !host } d
    else
      let d := put { f with refused := true } (d.raise (0x200 + g) 0x12 4 f.counter)
      match d.outstBy f.q f.tag with
      | some o => d.finish e o { status := stBadArg }
      | none => d) d

/-- A stop cancels a pending shift: a slot reserved for it is given back, and feeds from its handover on are judged in the mode
that stays (R120). -/
def Dev.cancelShift (d : Dev) (e : Env) (g : Nat) : Dev :=
  match (d.gate g).shift with
  | none => d
  | some (h, toDevice) =>
    (d.modGate g fun x => { x with shift := none, core := if toDevice then none else x.core }).remode e g h (d.gate g).hostMode

/-- Firmware's decision after the gate's sample n (R118, R119). A gate shifts to DEVICE on the core with the most unreserved time
among those below low_threshold; with fewer than 32 samples the utilisation is that of those there are.
DEDUCED: log entry 103. -/
def Dev.decideShift (d : Dev) (e : Env) (g n : Nat) : Dev :=
  let x := d.gate g
  let st := x.settings
  let h := (n + Settings.get st 0x39 4) % 2 ^ 32
  let note (d : Dev) (toDevice : Bool) : Dev := d.notify e 2 (g + if toDevice then 65536 else 0) h n false
  if Settings.split st ≠ 2 ∨ x.fn ≠ .running ∨ x.shift.isSome ∨ (x.sinceShift.map fun k => decide (k < 100)) = some true then d
  else if x.hostMode then
    match d.coreAmong ((coresOf (Settings.decoder st)).filter fun c => d.coreLoad e c < Settings.get st 0x38 60) (d.slotLenUs st) with
    | none => d
    | some c => note ((d.modGate g fun x => { x with
        shift := some (h, true), sinceShift := some 0, core := some c, slotUs := d.slotLenUs st }).remode e g h false) true
  else
    let used := (x.usage.map (·.1)).sum
    let slot := (x.usage.map (·.2)).sum
    if 0 < slot ∧ Settings.get st 0x37 90 * slot < 100 * used then
      note ((d.modGate g fun x => { x with shift := some (h, false), sinceShift := some 0 }).remode e g h true) false
    else d

end Sys2Proof.Machine
end

