-- ==== Sys2Proof/Machine/RaceEvents.lean ====
section
/-! DEFINITION. What reaches the gates and what their timers do (R47 to R80, R93 to R101, R121, R123, R604, R605): CSI-2
packets, sensor frames on Ethernet, feeds, decoder slots, readiness notices and releases. -/

namespace Sys2Proof.Machine

open Sys2Proof

/-! ## CSI-2 packets (R47, R55, R605) -/

/-- A packet that no gate takes (R47): counted at the port, and a fault each second for unmapped traffic. -/
def Dev.discardPacket (d : Dev) (e : Env) (port : Nat) (g : Option Nat) : Dev :=
  match g with
  | none => (d.modPort port fun p => { p with discarded := p.discarded + 1 }).raiseSecond e (0x248 + port) 0x15 0 0 true
  | some g =>
    if (d.gate g).fn = .unconfigured then d else d.modPort port fun p => { p with discarded := p.discarded + 1 }

/-- A gate that a camera packet reaches: it takes a CSI-2 source, and is RUNNING or finishes its open frame (R45, R47, R48). Packets
mapped to a gate with another source are discarded and counted as at a gate that is not RUNNING. DESIGN CHOICE: log entry 89. -/
def Dev.takesCsi (d : Dev) (g : Nat) : Bool :=
  ((d.gate g).fn == .running || ((d.gate g).fn == .stopping && (d.gate g).frame.isSome)) && Settings.kind (d.gate g).settings == 0

/-- Counts a corrected header (R55). -/
def Dev.countHeader (d : Dev) (port : Nat) (ecc : HeaderEcc) : Dev :=
  match ecc with
  | .corrected => d.modPort port fun p => { p with corrected := p.corrected + 1 }
  | _ => d

/-- An uncorrectable header: counted, with a LINE fault at the port, and seen by every gate of the port (R605). -/
def Dev.badHeader (d : Dev) (port : Nat) : Dev :=
  let d := (d.modPort port fun p => { p with uncorrectable := p.uncorrectable + 1 }).raise (0x248 + port) 0x10 0 0
  (d.gatesOfPort port).foldl (fun d g => d.modGate g fun x => { x with headerBad := true }) d

/-- The argument of a LINE fault (R510). -/
def lineArg (counter line : Nat) : Nat := counter % 2 ^ 24 * 2 ^ 16 + line % 2 ^ 16

/-- A line of the open frame of a gate: content, or none where it is damaged with a LINE detail; a line beyond the height is
discarded, and the first one raises the FRAME fault of its drop. DEDUCED: log entry 50. -/
def Dev.addLine (d : Dev) (e : Env) (g : Nat) (line : Option (List Byte)) (detail : Nat) : Dev :=
  match (d.gate g).frame with
  | none => d
  | some f =>
    let y := f.lines.length
    let h := Settings.height f.smp.st
    let d := if line.isNone ∧ y < h then d.raise (0x200 + g) 0x10 detail (lineArg f.smp.counter y) else d
    let d := if y = h ∧ f.surplus = 0 then d.raise (0x200 + g) 0x11 2 f.smp.counter else d
    let f := { f with lastPacket := some e.raw }
    d.modGate g fun x => { x with frame := some (if h ≤ y then { f with surplus := f.surplus + 1 } else { f with lines := f.lines ++ [line] }) }

/-- A Frame Start at a RUNNING gate: the frame before it closes, then the new one opens, a dropped one too: its packets are
checked and it stays dropped at its close (R55, R65, R70 to R72). DEDUCED: log entry 50. DEDUCED: log entry 60. -/
def Dev.frameStart (d : Dev) (e : Env) (g number : Nat) : Dev :=
  let d := d.closeCamera e g false
  if (d.gate g).fn ≠ .running then d
  else
    let d := d.boundary e g
    let x := d.gate g
    let st := x.settings
    let early := (x.lastFs.map fun t => decide (e.raw < t + 1000 * d.minIntervalUs st)).getD false
    let d := d.modGate g fun x => { x with lastFs := some e.raw, silentSince := e.raw }
    let k := d.gateDomain st
    let cap := d.domTime k e.raw + Settings.captureOffset st
    let a := d.assign g cap
    let b := a.2.beginSample g a.1.1 cap (k == 1) a.1.2.1 (if early then some 3 else a.1.2.2)
    let f : OpenFrame := { smp := b.1.1, startRaw := e.raw, number := number, dropped := b.1.2.isSome }
    match b.1.2 with
    | some k =>
      let d := if early then (b.2.raise (0x200 + g) 0x11 5 b.1.1.counter).dropSample e g b.1.1 else b.2.dropWith e g b.1.1 k
      if (d.gate g).fn = .running then d.modGate g fun x => { x with frame := some f } else d
    | none => b.2.modGate g fun x => { x with frame := some f }

def execCsiFrameStart (port vc : Nat) (ecc : HeaderEcc) (frameNumber : Nat) (s : State) : Host.Outcome State Fault Refusal :=
  runClocked (.csiFrameStart port vc ecc frameNumber) (fun e d =>
    if ecc = .uncorrectable then d.badHeader port
    else
      let d := d.countHeader port ecc
      match d.gateOf port vc with
      | none => d.discardPacket e port none
      | some g =>
        if !d.takesCsi g then d.discardPacket e port (some g)
        else if (d.gate g).fn = .running then d.frameStart e g frameNumber
        else (d.discardPacket e port (some g)).closeCamera e g false) s

/-- Closes the open frame with its timeout's FRAME fault. DEDUCED: log entry 51. -/
def Dev.timeOut (d : Dev) (e : Env) (g detail : Nat) : Dev :=
  match (d.gate g).frame with
  | none => d
  | some f => (d.raise (0x200 + g) 0x11 detail f.smp.counter).closeCamera e g false

/-- A frame number of 0 in Frame Start skips the check (R56); a 0 in Frame End is compared. DEDUCED: log entry 60. -/
def execCsiFrameEnd (port vc : Nat) (ecc : HeaderEcc) (frameNumber : Nat) (s : State) : Host.Outcome State Fault Refusal :=
  runClocked (.csiFrameEnd port vc ecc frameNumber) (fun e d =>
    if ecc = .uncorrectable then d.badHeader port
    else
      let d := d.countHeader port ecc
      match d.gateOf port vc with
      | none => d.discardPacket e port none
      | some g =>
        if !d.takesCsi g then d.discardPacket e port (some g)
        else match (d.gate g).frame with
          | none => d
          | some f =>
            if f.startRaw + Settings.frameTimeMax f.smp.st < e.raw then d.timeOut e g 4
            else d.closeCamera e g (f.number ≠ 0 && frameNumber ≠ f.number)) s

/-- A long packet at a gate with no open frame: the first one after an uncorrectable header since the gate's last frame closed fails
its instance (R605). -/
def Dev.orphanPacket (d : Dev) (e : Env) (g : Nat) : Dev :=
  if (d.gate g).headerBad ∧ !(d.gate g).orphaned ∧ (d.gate g).fn = .running then
    let c := Config.freeNat d.free % 2 ^ 32
    ((d.spend.modGate g fun x => { x with orphaned := true }).raise (0x200 + g) 0x11 0 c).gateFailed e g c
  else d

/-- A line packet at a gate with an open frame (R53, R55). -/
def Dev.linePacket (d : Dev) (e : Env) (g : Nat) (f : OpenFrame) (dt wc : Nat) (crcOk fifoFull : Bool) (data : List Byte) : Dev :=
  let st := f.smp.st
  if (dataTypeBits dt).isNone then
    d.modGate g fun x => { x with frame := some { f with lastPacket := some e.raw } }
  else if dt ≠ Settings.dataType st then d.addLine e g none 1
  else if wc ≠ Settings.lineBytes st then d.addLine e g none 2
  else if !crcOk then
    let f := { f with got := if f.lines.length < Settings.height st then tset f.got f.lines.length (padTo wc (data.take wc)) else f.got }
    (d.modGate g fun x => { x with frame := some f }).addLine e g none 3
  else if fifoFull then d.addLine e g none 4
  else
    let line := padTo wc (data.take wc)
    if f.lines.isEmpty then
      let r := d.checkCounter g f.smp.counter st line
      let d := if r.1 then r.2.modGate g fun x => { x with frame := some { f with smp := { f.smp with repeated := true } } } else r.2
      d.addLine e g (some line) 0
    else d.addLine e g (some line) 0

def execCsiLongPacket (port vc : Nat) (ecc : HeaderEcc) (dt wc : Nat) (crcOk fifoFull : Bool) (data : List Byte)
    (s : State) : Host.Outcome State Fault Refusal :=
  runClocked (.csiLongPacket port vc ecc dt wc crcOk fifoFull data) (fun e d =>
    if ecc = .uncorrectable then
      let d := d.badHeader port
      match (d.gatesOfPort port).filter fun g => (d.gate g).frame.isSome with
      | [g] => d.addLine e g none 0
      | _ => d
    else
      let d := d.countHeader port ecc
      match d.gateOf port vc with
      | none => d.discardPacket e port none
      | some g =>
        if !d.takesCsi g then d.discardPacket e port (some g)
        else match (d.gate g).frame with
          | none => d.orphanPacket e g
          | some f => d.linePacket e g f dt wc crcOk fifoFull data) s

/-- Line Start and Line End packets are accepted and ignored (R52) once their header has passed its check (R55, R605). -/
def execCsiLineMarker (port : Nat) (h : MarkerHeader) (s : State) : Host.Outcome State Fault Refusal :=
  runClocked (.csiLineMarker port h) (fun e d =>
    if h.ecc = .uncorrectable then d.badHeader port
    else
      let d := d.countHeader port h.ecc
      match d.gateOf port h.vc with
      | none => d.discardPacket e port none
      | some g => if d.takesCsi g then d else d.discardPacket e port (some g)) s

/-- DEDUCED: log entry 51. -/
def execLineTimeout (g : Nat) (s : State) : Host.Outcome State Fault Refusal :=
  runClocked (.lineTimeout g) (fun e d =>
    match (d.gate g).frame with
    | none => d
    | some f =>
      match f.lastPacket with
      | some t => if Settings.kind f.smp.st = 0 ∧ t + Settings.lineTimeout f.smp.st ≤ e.raw then d.timeOut e g 3 else d
      | none => d) s

/-- DEDUCED: log entry 51. -/
def execFrameTimeMax (g : Nat) (s : State) : Host.Outcome State Fault Refusal :=
  runClocked (.frameTimeMax g) (fun e d =>
    match (d.gate g).frame with
    | none => d
    | some f =>
      if Settings.kind f.smp.st = 0 ∧ f.startRaw + Settings.frameTimeMax f.smp.st < e.raw then d.timeOut e g 4 else d) s

/-- No Frame Start within silence_timeout (R50, R55). DEDUCED: log entry 51. -/
def execSilenceTimeout (g : Nat) (s : State) : Host.Outcome State Fault Refusal :=
  runClocked (.silenceTimeout g) (fun e d =>
    let x := d.gate g
    if x.fn = .running ∧ Settings.kind x.settings = 0 ∧ x.silentSince + d.silenceNs x.settings ≤ e.raw then
      let c := Config.freeNat d.free % 2 ^ 32
      ((d.spend.modGate g fun x => { x with silentSince := e.raw }).raise (0x200 + g) 0x11 6 c).gateFailed e g c
    else d) s

/-- Faults of the seconds that have ended are raised, with their counts (R604). DEDUCED: log entry 80. -/
def execSecondFaultReport (s : State) : Host.Outcome State Fault Refusal :=
  run .secondFaultReport (fun e d =>
    let past (x : SecEvent) : Bool := x.second < e.raw / 1000000000
    (d.col.perSecond.filter past).foldl (fun d x => d.raise x.src x.kind x.detail (if x.counted then x.count else x.arg))
      { d with col := { d.col with perSecond := d.col.perSecond.filter fun x => !past x } }) s

/-! ## Ethernet sensor frames (R57 to R60) -/

/-- A frame matches a gate's filter (R57, R401, R406). -/
def filterHit (b : List Byte) (f : SensorFrame) : Bool :=
  let n := if f.ipVersion = 4 then 4 else 16
  fieldAt b 0 1 == f.port && fieldAt b 1 1 == f.ipVersion &&
    (match f.vlan with
     | none => fieldAt b 2 2 == 0xFFFF
     | some v => fieldAt b 2 2 == v) &&
    padTo n ((b.drop 4).take n) == padTo n (f.srcAddr.take n) && fieldAt b 20 2 == f.dstPort &&
    (fieldAt b 22 2 == 0 || fieldAt b 22 2 == f.srcPort)

/-- The configured gates whose filter a frame matches; each of them takes it (R57). -/
def Dev.filterGates (d : Dev) (f : SensorFrame) : List Nat :=
  tkeys d.race.gates fun x => x.fn != .unconfigured && Settings.kind x.settings == 1 &&
    ((Settings.bytes x.settings 0x02).map fun b => filterHit b f).getD false

/-- Counts a lost packet of a gate. DEDUCED: log entry 59. -/
def Dev.losePacket (d : Dev) (g : Nat) : Dev := d.modGate g fun x => { x with lost := x.lost + 1 }

/-- A frame that checks 2 to 5 of R58 discard: a lost packet of the gate and of its open sample. DEDUCED: log entry 59. -/
def Dev.discardFrame (d : Dev) (g : Nat) : Dev :=
  (d.losePacket g).modGate g fun x => { x with
    unslotted := x.unslotted + 1, frame := x.frame.map fun f => { f with discards := f.discards + 1 } }

/-- A gap of the sequence field stands for frames already counted as discarded: they count once.
DEDUCED: log entry 59. -/
def Dev.slotDiscards (d : Dev) (g gap : Nat) : Dev :=
  d.modGate g fun x =>
    let k := min gap x.unslotted
    { x with unslotted := 0, lost := x.lost - k, frame := x.frame.map fun f => { f with discards := f.discards - k } }

/-- Closes the open Ethernet sample; a coded one may need no decoder (R99). -/
def Dev.closeEth (d : Dev) (e : Env) (g : Nat) : Dev := (d.closeEthernet e g).afterDecode e g

/-- The first packet opens a sample (R70 to R72). -/
def Dev.openEthernet (d : Dev) (e : Env) (g stamp : Nat) : Dev :=
  let d := d.boundary e g
  let st := (d.gate g).settings
  let k := d.gateDomain st
  let cap := d.domTime k stamp + Settings.captureOffset st
  let a := d.assign g cap
  let b := a.2.beginSample g a.1.1 cap (k == 1) a.1.2.1 a.1.2.2
  let d := b.2.modGate g fun x => { x with frame := some { smp := b.1.1, startRaw := stamp, dropped := b.1.2.isSome } }
  match b.1.2 with
  | some k => d.dropWith e g b.1.1 k
  | none => d

/-- One packet slot: content, or none for a lost packet (R59, R60). -/
def Dev.pushSlot (d : Dev) (e : Env) (g stamp : Nat) (l : Option (List Byte)) : Dev :=
  let d := if (d.gate g).frame.isNone ∧ (d.gate g).fn = .running then d.openEthernet e g stamp else d
  match (d.gate g).frame with
  | none => d
  | some f =>
    let st := f.smp.st
    if Settings.sampleMode st ≠ 0 ∧ Settings.get st 0x16 4096 ≤ f.lines.length then
      (d.modGate g fun x => { x with frame := some { f with lostMore := f.lostMore + 1 } }).losePacket g
    else
      let d := d.modGate g fun x => { x with frame := some { f with lines := f.lines ++ [l] } }
      let d := if l.isNone then d.losePacket g else d
      if Settings.sampleMode st = 0 ∧ Settings.get st 0x15 4096 ≤ f.lines.length + 1 then d.closeEth e g else d

/-- PERIOD mode: a packet of a later instance, or one min_interval after the first, closes the open sample first. -/
def Dev.periodClose (d : Dev) (e : Env) (g stamp : Nat) : Dev :=
  match (d.gate g).frame with
  | none => d
  | some f =>
    let st := f.smp.st
    if Settings.sampleMode st ≠ 2 then d
    else match f.smp.inst with
      | some (s, i) =>
        match (d.fset s).cfg with
        | none => d
        | some c =>
          let cap := d.domTime c.dom stamp + Settings.captureOffset st
          if i < (2 * (cap - c.epoch) + c.period).fdiv (2 * c.period) then d.closeEth e g else d
      | none => if f.startRaw + 1000 * d.minIntervalUs st ≤ stamp then d.closeEth e g else d

/-- The sequence field of a packet: its distance from the previous value, or none for the first or where it is off; the
value is open where the payload is too short for the field (R58). The field's offset counts from the start of the UDP payload,
before strip, and a distance of half the field's range or more is a value that goes back. DESIGN CHOICE: log entry 90. -/
def Dev.sequence (d : Dev) (g : Nat) (b : List Byte) : Option Nat × Dev :=
  let c := Settings.get (d.gate g).settings 0x19 0
  let n := c % 256 / 8
  if n = 0 then (none, d)
  else
    let f := (b.drop (bitsAt c 8 8)).take n
    let v := if f.length = n then leNat (if bitOf c 16 then f.reverse else f) else Config.freeNat d.free % 2 ^ (8 * n)
    let d1 := d.spend
    match (d.gate g).seqPrev with
    | none => (none, d1.modGate g fun x => { x with seqPrev := some v })
    | some p =>
      let k := (v + 2 ^ (8 * n) - p) % 2 ^ (8 * n)
      if k = 0 ∨ 2 ^ (8 * n - 1) ≤ k then (some 0, d1) else (some k, d1.modGate g fun x => { x with seqPrev := some v })

/-- A packet that passed its checks. The marker byte's offset counts from the start of the UDP payload, before strip, and a packet
too short for it closes no sample. DEDUCED: log entry 59. DESIGN CHOICE: log entry 90. -/
def Dev.takePacket (d : Dev) (e : Env) (g stamp lost : Nat) (payload : List Byte) : Dev :=
  let st := (d.gate g).settings
  let d := (d.slotDiscards g lost).periodClose e g stamp
  let d := (List.range lost).foldl (fun d _ => d.pushSlot e g stamp none) d
  let d := d.pushSlot e g stamp (some ((payload.drop (Settings.get st 0x17 0)).take (Settings.windowLen st)))
  let m := Settings.get st 0x1B 0
  match payload[m % 65536]? with
  | some b =>
    if Settings.sampleMode st = 1 ∧ (b.toNat &&& bitsAt m 16 8) = bitsAt m 24 8 then d.closeEth e g else d
  | none => d

/-- The checks of R58 in their order; the UDP length of check 5 is that of the payload, without the UDP header.
DESIGN CHOICE: log entry 91. -/
def Dev.sensorFrame (d : Dev) (e : Env) (g : Nat) (f : SensorFrame) : Dev :=
  let st := (d.gate g).settings
  if f.ipVersion = 4 ∧ !f.ipChecksumOk then d.discardFrame g
  else if f.fragment then (d.discardFrame g).raiseSecond e (0x200 + g) 0x15 1 0 true
  else if (f.ipVersion = 6 ∨ !f.udpChecksumZero) ∧ !f.udpChecksumOk then d.discardFrame g
  else if f.udpPayload.length < Settings.get st 0x17 0 + Settings.windowLen st then d.discardFrame g
  else
    let q := d.sequence g f.udpPayload
    let stamp := e.raw - tgetD d.tu.delayIn f.port 0
    match q.1 with
    | some 0 => (q.2.losePacket g).modGate g fun x => { x with duplicates := x.duplicates + 1 }
    | some k => q.2.takePacket e g stamp (k - 1) f.udpPayload
    | none => q.2.takePacket e g stamp 0 f.udpPayload

/-- A matched frame at a gate: checked where the gate is at work, else discarded and counted (R48). -/
def Dev.gateFrame (d : Dev) (e : Env) (g : Nat) (f : SensorFrame) : Dev :=
  let x := d.gate g
  if x.fn = .running ∨ (x.fn = .stopping ∧ x.frame.isSome) then d.sensorFrame e g f
  else d.modGate g fun x => { x with discarded := x.discarded + 1 }

/-- Rows 2 to 6 of R436 for a UDP frame at a MAC port. -/
def Dev.classify (d : Dev) (e : Env) (f : BridgeFrame) (u : Option SensorFrame) : Dev :=
  if frameRefused f then d.countDiscard f.inPort
  else if d.isPtp f then d.bridgeFrame e f
  else match u with
    | none => d.classifyRest e f
    | some x =>
      let l := d.filterGates x
      if l.isEmpty then d.classifyRest e f else l.foldl (fun d g => d.gateFrame e g x) d

/-- A sensor frame as the bridge's port sees it. -/
def sensorToBridge (f : SensorFrame) : BridgeFrame := { f.l2 with inPort := f.port, vlan := f.vlan }

/-- What the gates see of a frame at a MAC port. -/
def bridgeToSensor (f : BridgeFrame) : Option SensorFrame :=
  f.udp.map fun u => {
    port := f.inPort, fcsOk := f.fcsOk, vlan := f.vlan, ipVersion := u.ipVersion, srcAddr := u.srcAddr, dstPort := u.dstPort
    srcPort := u.srcPort, ipChecksumOk := u.ipChecksumOk, fragment := u.fragment, udpChecksumZero := u.udpChecksumZero
    udpChecksumOk := u.udpChecksumOk, udpPayload := u.udpPayload, l2 := f }

/-- A frame at a MAC port, by the first row of R436 that matches; the bridge's internal port has no such rows. -/
def Dev.portFrame (d : Dev) (e : Env) (f : BridgeFrame) (u : Option SensorFrame) : Dev :=
  if 4 ≤ f.inPort then d.bridgeFrame e f
  else if !f.fcsOk then d.modMac f.inPort fun m => { m with fcsErrors := m.fcsErrors + 1 }
  else d.classify e f u

/-- A frame with an FCS error is not classified further (R436); one that no gate's filter matches goes on to the rows after. -/
def execEthSensorFrame (f : SensorFrame) (s : State) : Host.Outcome State Fault Refusal :=
  runClocked (.ethSensorFrame f) (fun e d => d.portFrame e { sensorToBridge f with fcsOk := f.fcsOk } (some f)) s

/-- The end of a PERIOD sample that no later packet has closed (R60): for a gate in a frame set 100 µs after t_i + P/2 in the set's
domain, as R326 counts it, with no capture_offset. DEDUCED: log entry 102. -/
def execPeriodSampleClose (g : Nat) (s : State) : Host.Outcome State Fault Refusal :=
  runClocked (.periodSampleClose g) (fun e d =>
    match (d.gate g).frame with
    | none => d
    | some f =>
      let st := f.smp.st
      if Settings.kind st ≠ 1 ∨ Settings.sampleMode st ≠ 2 then d
      else match f.smp.inst with
        | some (k, i) =>
          match (d.fset k).cfg with
          | none => d
          | some c =>
            let now := d.domTime c.dom e.raw
            if (2 * i + 1) * c.period + 200000 ≤ 2 * (now - c.epoch) then d.closeEth e g else d
        | none => if f.startRaw + 1000 * d.minIntervalUs st + 100000 ≤ e.raw then d.closeEth e g else d) s

/-! ## Feeds (R61 to R64, R71, R116, R119, R403) -/

/-- A feed's bytes become a sample: a bitstream to be decoded, a host-made picture, or camera lines.
DEDUCED: log entry 54. -/
def Dev.feedSample (d : Dev) (e : Env) (g : Nat) (f : Feed) (x : Sample) (b : List Byte) : Dev :=
  let st := x.st
  let w := Settings.width st
  let h := Settings.height st
  if f.coded then
    (d.modGate g fun y => { y with pipe := y.pipe ++ [{ x with input := [b], coded := true }] }).afterDecode e g
  else if Settings.decoder st ≠ 0 then
    let yuv := Settings.decoder st = 1 ∨ Settings.dataType st = 0x1E
    let f : PicForm := { x.form with yuv := yuv, sx := if yuv then 2 else 1, sy := if yuv then 2 else 1 }
    let x := { x with input := [b], form := f }
    let c := d.checkCounter g x.counter st (b.take (w * if f.bits ≤ 8 then 1 else 2))
    let j := c.2.judgeTiles g x.counter (tileCrcs (planesOf w h yuv f.sx f.sy f.bits b) fun _ _ => false)
    (j.2.modGate g fun y => { y with prevPicture := some b, prevForm := some f, concealRun := 0 }).forward
      e g { x with repeated := c.1 || j.1 }
  else
    let l := chunks h (Settings.lineBytes st) b
    let c := d.checkCounter g x.counter st (l.headD [])
    let j := c.2.judgeTiles g x.counter (tileCrcs [l] fun _ _ => false)
    j.2.forward e g { x with input := l, repeated := c.1 || j.1 }

/-- The gate reads the source of its oldest feed; the feed completes, or is dropped for its CRC (R64, R403). -/
def Dev.readFeed (d : Dev) (e : Env) (g : Nat) (f : Feed) (rest : List Feed) : Dev :=
  let d := ((d.modGate g fun x => { x with feeds := rest }).boundary e g).handover g f.counter
  let r := d.fetchBytes e (0x200 + g) f.source f.length
  let bad := match f.crc with
    | some c => c != crc32c r.1
    | none => false
  let b := r.2.2.beginSample g f.counter f.capture f.domB f.inst (if bad then some (f.drop.getD 7) else f.drop)
  let d := match b.2.outstBy f.q f.tag with
    | some o => b.2.finish e o { status := if bad then stIntegrity else stOk, r0 := f.counter }
    | none => b.2
  let x := { b.1.1 with poisoned := r.2.1 }
  match b.1.2 with
  | some k => d.dropWith e g x k
  | none => d.feedSample e g f x r.1

def execFeedRead (g : Nat) (s : State) : Host.Outcome State Fault Refusal :=
  runClocked (.feedRead g) (fun e d =>
    if !(d.gate g).fn.active then d
    else match (d.gate g).feeds with
      | [] => d
      | f :: rest =>
        let d := if f.refused then d else d.readFeed e g f rest
        (Dev.flushRefused (d.gate g).feeds.length e g d).settleGate e g) s

/-! ## Decoder slots (R91 to R101) -/

/-- Core time joins the core's rounds (R118). DEDUCED: log entry 57. -/
def Dev.useCore (d : Dev) (e : Env) (c used : Nat) : Dev :=
  let now := e.raw / 1000000
  let l := (tgetD d.race.coreUse c []).filter fun u => now < u.1 + 100
  { d with race := { d.race with coreUse := tset d.race.coreUse c (l ++ [(now, used)]) } }

/-- A gate's slot in its core's round begins: `used` µs of work on the oldest coded sample, none where no sample waits; less than
the whole slot means that the picture is finished. A slot that the order of R91 does not allow does not come about (R91, R93,
R94). DEDUCED: log entry 57. -/
def execDecodeSlot (g : Nat) (used : Nat) (s : State) : Host.Outcome State Fault Refusal :=
  runClocked (.decodeSlot g used) (fun e d =>
    let y := d.gate g
    match y.core with
    | none => d
    | some c =>
      if !d.slotDue e c g ∨ y.slotUs < used then d
      else
        let d := d.slotRun e c g
        match y.pipe.find? (·.coded) with
        | none => d
        | some x =>
          let budget := Settings.budgetUs x.st
          let d := d.useCore e c used
          let x1 := { x with usedUs := min (x.usedUs + used) budget, slotsPassed := x.slotsPassed + 1 }
          if used < y.slotUs ∧ x.usedUs + used ≤ budget then (d.decodeDone e g x1 none).afterDecode e g
          else d.modGate g fun y => { y with pipe := replaceCoded (fun _ => [x1]) y.pipe }) s

/-- The budget is used up inside the slot, which is the gate's of this round unless the slot before it ended with the budget: the
decoder stops after the last unit it completed (R94, R96). DEDUCED: log entry 57. -/
def execDecodeBudgetExhausted (g : Nat) (unitsDone : Nat) (s : State) : Host.Outcome State Fault Refusal :=
  runClocked (.decodeBudgetExhausted g unitsDone) (fun e d =>
    let y := d.gate g
    match y.core, y.pipe.find? (·.coded) with
    | some c, some x =>
      let budget := Settings.budgetUs x.st
      let inSlot := decide (x.usedUs < budget)
      if x.usedUs + y.slotUs < budget ∨ (inSlot ∧ !d.slotDue e c g) then d
      else
        let x1 := { x with usedUs := budget, slotsPassed := if inSlot then x.slotsPassed + 1 else x.slotsPassed }
        let d := if inSlot then d.slotRun e c g else d
        ((d.useCore e c (budget - x.usedUs)).decodeDone e g x1 (some unitsDone)).afterDecode e g
    | _, _ => d) s

/-! ## Notices and releases (R17, R121, R123) -/

/-- The oldest sample of a gate is finished: written, its tally written, and its notice posted. -/
def execReadinessNotice (g : Nat) (s : State) : Host.Outcome State Fault Refusal :=
  runClocked (.readinessNotice g) (fun e d =>
    match (d.gate g).pipe with
    | [] => d
    | x :: rest =>
      if x.coded then d
      else
        let p := d.payloadOf g x
        let d := d.modGate g fun y => { y with pipe := rest }
        let d := if x.slot.isNone then d.dropNotice e g x else if x.abandoned then d.abandonSample e g x
          else d.spend.deliverSample e g x p false
        let d := (d.flushDrops e g).decideShift e g x.counter
        (Dev.flushRefused (d.gate g).feeds.length e g d).settleGate e g) s

/-- A release word reaches a gate (R123). -/
def execRaceReleaseEntry (i : Nat) (s : State) : Host.Outcome State Fault Refusal :=
  runClocked (.raceReleaseEntry i) (fun _ d =>
    match d.flights[i]? with
    | some (.release g data _) =>
      let d := { d with flights := d.flights.eraseIdx i }
      let a := fieldAt data 0 8
      if a = 0 then d
      else if (d.gate g).held.contains a then d.modGate g fun x => { x with held := x.held.filter (· != a) }
      else d.raise (0x200 + g) 8 4 (0x3F00 + g)
    | _ => d) s

end Sys2Proof.Machine
end

