-- ==== Sys2Proof/Machine/GateCommands.lean ====
section
/-! DEFINITION. The commands on gates, CSI-2 ports, frame sets and gate tables (R45 to R51, R63, R69, R81, R83, R92, R105,
R107, R108, R116 to R120, R320, R321, R330, R392 to R394, R400 to R405). -/

namespace Sys2Proof.Machine

open Sys2Proof

/-! ## Configure, set, release (R378, R392, R400 to R402) -/

/-- GATE_CONFIGURE: the block replaces every setting, and the tables return to their defaults (R107). -/
def hGateConfigure : Handler := fun _ _ s d =>
  if !s.zero 0x10 32 then refuse stBadArg d
  else if !(d.gate s.target).fn.canConfigure then refuse stBadState d
  else d.withBlock s fun b d =>
    match parseSettings b.length b with
    | none => refuse stBadArg d
    | some l =>
      if !d.settingsOk s.target l then refuse stBadArg d
      else ok (d.modGate s.target fun x => { x with
        fn := .stopped, settings := l, liveNext := [], coef := {}, tone := {}, remap := {}, lastSlot := none })

def execGateConfigure (q : Nat) (e : Sub) (s : State) : Host.Outcome State Fault Refusal :=
  run (.gateConfigure q e) (serveRow 0x0300 hGateConfigure q e) s

/-- GATE_SET: one record, in force at once on a STOPPED gate and at the next sample of a RUNNING one (R81). A new size or
grid spacing leaves no grid that fits. -/
def hGateSet : Handler := fun _ _ s d =>
  let x := d.gate s.target
  let id := s.field 0x10 2
  let n := s.field 0x12 2
  let v := ((padTo 48 s.args).drop 4).take n
  let now := x.liveNext.foldl (fun l r => Settings.put l r.1 r.2) x.settings
  if settingLen id ≠ some n ∨ !s.zero (0x14 + n) (0x2C - n) then refuse stBadArg d
  else if !x.fn.live ∨ (x.fn = .running ∧ !settingLive id) then refuse stBadState d
  else if !d.settingsOk s.target (Settings.put now id v) then refuse stBadArg d
  else if x.fn = .running then ok (d.modGate s.target fun x => { x with liveNext := x.liveNext ++ [(id, v)] })
  else ok (d.modGate s.target fun x => { x with
    settings := Settings.put now id v, liveNext := [], remap := if id = 0x26 ∨ id = 0x04 ∨ id = 0x05 then {} else x.remap })

/-- DEDUCED: log entry 59. -/
def execGateSet (q : Nat) (e : Sub) (s : State) : Host.Outcome State Fault Refusal :=
  run (.gateSet q e) (serveRow 0x0301 hGateSet q e) s

/-- GATE_RELEASE: an UNCONFIGURED gate remembers only the landing slots that its consumers still hold (R19). -/
def hGateRelease : Handler := fun _ _ s d =>
  let x := d.gate s.target
  if !s.zero 0x10 48 then refuse stBadArg d
  else if x.fn.release.1 ≠ stOk then refuse x.fn.release.1 d
  else ok (d.modGate s.target fun x => { held := x.held })

def execGateRelease (q : Nat) (e : Sub) (s : State) : Host.Outcome State Fault Refusal :=
  run (.gateRelease q e) (serveRow 0x0304 hGateRelease q e) s

/-! ## Start (R83, R92, R117, R330, R394) -/

/-- Every setting that the gate's kind needs and that has no default is there. -/
def Settings.complete (s : Settings) : Bool :=
  (Settings.opt s 0x01).isSome && (Settings.bytes s 0x08).isSome &&
    (Settings.kind s ≠ 1 || (Settings.bytes s 0x02).isSome) &&
    ((Settings.kind s = 1 && Settings.decoder s = 0) || ((Settings.opt s 0x04).isSome && (Settings.opt s 0x05).isSome)) &&
    (Settings.kind s ≠ 1 || Settings.sampleMode s ≠ 1 || (Settings.opt s 0x1B).isSome)

/-- R83: the gate's own rate, and the sum over RUNNING gates, in pixels a µs. -/
def Dev.rateOk (d : Dev) (g : Nat) : Bool :=
  let st := (d.gate g).settings
  if Settings.kind st = 1 then true
  else
    let others := (d.race.gates.filter fun x => x.1 != g && x.2.fn == .running && Settings.kind x.2.settings != 1).map
      fun x => d.declaredRate x.2.settings
    decide (d.declaredRate st ≤ 2000 ∧ d.declaredRate st + others.sum ≤ 12000)

/-- R330 for a frame set: busy count, hold allowance and slice cycles within three quarters of the period. -/
def Dev.schedulable (d : Dev) (f : Nat) : Bool :=
  match (d.fset f).cfg with
  | none => true
  | some c => d.insts.all fun x => match x.2.image with
    | none => true
    | some im => im.busy.all fun b => b.2 + c.hold + 75000 ≤ c.period * 3 / 4

/-- R405: the active coefficient block fits the data type. -/
def coefOk (st : Settings) (b : List Byte) : Bool :=
  (List.range 4).all (fun i => fieldAt b (4 * i) 4 ≤ 2 ^ Settings.sampleBits st - 2)

/-- The conditions of R394 for a gate, but for the decoder core. -/
def Dev.gateStartOk (d : Dev) (g : Nat) : Bool :=
  let x := d.gate g
  let st := x.settings
  let source := Settings.kind st ≠ 0 || (match d.sourceOf g with
    | some i => (d.port (i / 4)).cfg.isSome
    | none => false)
  let filter := Settings.kind st ≠ 1 || !(d.race.gates.any fun y => y.1 != g && y.2.fn == .running &&
    Settings.kind y.2.settings == 1 && Settings.bytes y.2.settings 0x02 == Settings.bytes st 0x02)
  Settings.complete st && source && filter && d.rateOk g && d.creditsOk g st &&
    0x140 + Settings.maxPayload st ≤ Settings.slotSize st &&
    (match Settings.fset st with
     | some f => (d.fset f).cfg.isSome && d.schedulable f
     | none => true) &&
    (Settings.noticeQueue st = 0 || (d.queue (Settings.noticeQueue st)).isSome) &&
    (Settings.remap st = 0 || x.remap.live.isSome) && coefOk st (x.coef.live.getD identityCoef)

/-- The decoder core a gate starts with: none needed, a core, or HOST mode (R92, R117); the outer none is a refusal. -/
def Dev.startCore (d : Dev) (g : Nat) : Option (Option Nat) :=
  let st := (d.gate g).settings
  let k := Settings.decoder st
  if k = 0 ∨ Settings.split st = 1 then some none
  else
    let c := if (coreRate k : Rat) < d.declaredRate st then none else d.coreFor k (d.slotLenUs st)
    if Settings.split st = 2 then some c else c.map some

/-- A gate starts with a decoder core or in HOST mode: counters, detector and decoder begin afresh (R63, R72, R79, R80, R98).
DEDUCED: log entry 55. -/
def Dev.startGate (d : Dev) (e : Env) (g : Nat) (c : Option Nat) : Dev :=
  let host := Settings.decoder (d.gate g).settings ≠ 0 && c.isNone
  let slot := d.slotLenUs (d.gate g).settings
  let n := d.race.startSeq
  ({ d with race := { d.race with startSeq := n + 1 } }.modGate g fun x => { x with
    fn := .running, failedRun := 0, nextCounter := 0, lastFs := none, silentSince := e.raw, served := []
    frame := none, feeds := [], pipe := [], prevTiles := none, runLen := 0, embPrev := none, seqPrev := none
    frozen := false, unslotted := 0, lastCapture := none, prevPicture := none, refs := [], paramSets := [], streamSize := none
    prevForm := none, awaitIrap := false, concealRun := 0
    core := c, slotUs := slot, startOrder := n, hostMode := host, shift := none, sinceShift := none, usage := []
    headerBad := false, orphaned := false }).recover e

def hGateStart : Handler := fun e _ s d =>
  let g := s.target
  if !s.zero 0x10 48 then refuse stBadArg d
  else if !(d.gate g).fn.canStart then refuse stBadState d
  else if !d.gateStartOk g then refuse stBadArg d
  else match d.startCore g with
    | none => refuse stBadArg d
    | some c => ok (d.startGate e g c)

def execGateStart (q : Nat) (e : Sub) (s : State) : Host.Outcome State Fault Refusal :=
  run (.gateStart q e) (serveRow 0x0302 hGateStart q e) s

/-! ## Stop (R49, R378, R379) -/

/-- Closes a gate as under DISCARD and puts it into STOPPED. -/
def Dev.discardGate (d : Dev) (e : Env) (g : Nat) : Dev := (d.abandonGate e g).gateStopped e g

def hGateStop : Handler := fun e _ s d =>
  let g := s.target
  let x := d.gate g
  if !s.stopForm then refuse stBadArg d
  else match x.fn.stopPath (s.field 0x10 1) (d.stopOf 0x303 g 0).isSome with
    | .refused st => refuse st d
    | .already => ok d
    | .fromFault => ok (d.gateStopped e g)
    | .drain =>
      let d := (d.modGate g fun x => { x with fn := .stopping }).cancelShift e g
      let d := Dev.flushRefused (d.gate g).feeds.length e g d
      let x := d.gate g
      if x.fn = .stopped then ok d
      else if x.frame.isNone ∧ x.feeds.isEmpty ∧ x.pipe.isEmpty then ok (d.gateStopped e g) else (.long none [], d)
    | .discard => ok (d.discardGate e g)
    | .escalate =>
      let d := d.discardGate e g
      ok (d.finishAll e (fun o => o.opcode == 0x303 && o.e.target == g) { status := stAborted })

/-- DEDUCED: log entry 60. -/
def execGateStop (q : Nat) (e : Sub) (s : State) : Host.Outcome State Fault Refusal :=
  run (.gateStop q e) (serveRow 0x0303 hGateStop q e) s

/-! ## Feeds (R61 to R63, R71, R72, R88, R116, R403) -/

/-- The source of a feed: in the buffer area, or in a GDDR6 region that one window maps at this moment (R342, R403). -/
def Dev.feedSource (d : Dev) (a n : Nat) : Bool :=
  a % 64 = 0 && (decide (commonBase + 0x2000000 ≤ a ∧ a + n ≤ commonBase + 0x4000000) ||
    (decide (gddrBase ≤ a) && d.host.windows.any fun w => w.2.1 ≤ a && a + n ≤ w.2.1 + w.2.2))

/-- A feed's capture time is taken as it is, in the domain it states. DEDUCED: log entry 55. DEDUCED: log entry 56.
DESIGN CHOICE: log entry 92. -/
def hGateFeed : Handler := fun e q s d =>
  let g := s.target
  let x := d.gate g
  let src := s.field 0x10 8
  let cap := s.field 0x18 8
  let n := s.field 0x20 4
  let fl := s.field 0x28 2
  if 4 ≤ fl ∨ !s.zero 0x2A 22 then refuse stBadArg d
  else if x.fn ≠ .running then refuse stBadState d
  else if Settings.kind x.settings ≠ 2 then refuse stBadArg d
  else if 4 ≤ (x.feeds.filter fun f => !f.refused).length then refuse stBusy d
  else if !d.feedSource src n then refuse stBadArg d
  else
    let a := d.assign g cap
    let host := Settings.decoder x.settings ≠ 0 && x.modeAt a.1.1
    let f : Feed := {
      q := q, tag := s.tag, source := src, length := n, capture := cap, domB := bitOf fl 0
      crc := if bitOf fl 1 then some (s.field 0x24 4) else none
      counter := a.1.1, inst := a.1.2.1, drop := a.1.2.2, coded := Settings.decoder x.settings ≠ 0 && !host }
    if feedLengthOk x.settings host n && (x.lastCapture.map fun c => decide (c < cap)).getD true then
      (.long none [], a.2.modGate g fun y => { y with feeds := y.feeds ++ [f], lastCapture := some cap })
    else
      let d := (a.2.raise (0x200 + g) 0x12 4 a.1.1).modGate g fun y => { y with
        feeds := y.feeds ++ [{ f with refused := true }], lastCapture := some cap }
      (.done { status := stBadArg }, if x.feeds.isEmpty then Dev.flushRefused 1 e g d else d)

def execGateFeed (q : Nat) (e : Sub) (s : State) : Host.Outcome State Fault Refusal :=
  run (.gateFeed q e) (serveRow 0x0305 hGateFeed q e) s

/-! ## Ports and their gates (R46, R51, R400) -/

/-- A gate gives up its port and channel. -/
def Dev.unmapGate (d : Dev) (g : Nat) : Dev :=
  match d.sourceOf g with
  | some i => { d with race := { d.race with portMap := tset d.race.portMap i none } }
  | none => d

def hGateMap : Handler := fun _ _ s d =>
  let g := s.target
  let p := s.field 0x10 1
  let c := s.field 0x11 1
  let loser := if p = 0xFF then none else d.gateOf p c
  if !s.zero 0x12 46 ∨ (11 < p ∧ p ≠ 0xFF) ∨ 3 < c then refuse stBadArg d
  else if (d.gate g).fn.active ∨ (loser.map fun l => (d.gate l).fn.active).getD false then refuse stBadState d
  else
    let d := d.unmapGate g
    ok (if p = 0xFF then d else { d with race := { d.race with portMap := tset d.race.portMap (4 * p + c) (some g) } })

def execGateMap (q : Nat) (e : Sub) (s : State) : Host.Outcome State Fault Refusal :=
  run (.gateMap q e) (serveRow 0x0306 hGateMap q e) s

/-- The lane rules of R51. -/
def portCfgOk (c : PortCfg) : Bool :=
  let lane (n : Nat) : Nat := bitsAt c.order (2 * n) 2
  let used := (List.range c.lanes).map lane
  (if c.cphy then decide (1 ≤ c.lanes ∧ c.lanes ≤ 3 ∧ 80 ≤ c.rate ∧ c.rate ≤ 6000) && used.all (· ≤ 2)
   else (c.lanes = 1 || c.lanes = 2 || c.lanes = 4) && decide (80 ≤ c.rate ∧ c.rate ≤ 4500)) &&
    decide used.Nodup && c.order < 2 ^ (2 * c.lanes) && c.polarity < 2 ^ c.lanes

def hPortConfigure : Handler := fun _ _ s d =>
  let c : PortCfg := { cphy := s.field 0x10 1 = 1, lanes := s.field 0x11 1, rate := s.field 0x14 4, order := s.field 0x18 1,
                       polarity := s.field 0x19 1 }
  if 1 < s.field 0x10 1 ∨ !s.zero 0x12 2 ∨ !s.zero 0x1A 38 ∨ !portCfgOk c then refuse stBadArg d
  else if !((d.gatesOfPort s.target).all fun g => (d.gate g).fn.canConfigure) then refuse stBadState d
  else ok (d.modPort s.target fun p => { p with cfg := some c })

def execPortConfigure (q : Nat) (e : Sub) (s : State) : Host.Outcome State Fault Refusal :=
  run (.portConfigure q e) (serveRow 0x0307 hPortConfigure q e) s

/-! ## Frame sets (R69, R320, R321, R400) -/

def hFsetConfigure : Handler := fun _ _ s d =>
  let c : FsetCfg := { period := s.field 0x10 4, dom := s.field 0x14 1, offset := s.field 0x18 4, hold := s.field 0x1C 4,
                       epoch := s.field 0x20 8 }
  if !s.zero 0x15 3 ∨ !s.zero 0x28 24 ∨ c.period < 10000000 ∨ 100000000 < c.period ∨ 1 < c.dom ∨ c.offset < 1000000 ∨
      3 * c.period < c.offset ∨ 1000000 < c.hold then refuse stBadArg d
  else if !((d.members s.target).all fun g => (d.gate g).fn == .stopped) then refuse stBadState d
  else ok (d.modFset s.target fun x => { x with cfg := some c })

def execFsetConfigure (q : Nat) (e : Sub) (s : State) : Host.Outcome State Fault Refusal :=
  run (.fsetConfigure q e) (serveRow 0x0308 hFsetConfigure q e) s

/-- FSET_HOLD is live. -/
def hFsetHold : Handler := fun _ _ s d =>
  if !s.zero 0x14 44 ∨ 1000000 < s.field 0x10 4 then refuse stBadArg d
  else if ((d.fset s.target).cfg).isNone then refuse stBadState d
  else ok (d.modFset s.target fun x => { x with cfg := x.cfg.map fun c => { c with hold := s.field 0x10 4 } })

def execFsetHold (q : Nat) (e : Sub) (s : State) : Host.Outcome State Fault Refusal :=
  run (.fsetHold q e) (serveRow 0x0309 hFsetHold q e) s

/-! ## Gate tables (R105, R107, R108, R404, R405) -/

/-- A load writes the shadow bank, every line of it afresh. -/
def GTable.load (t : GTable) (bank : Nat) (b : List Byte) : GTable :=
  let t := { t with err := t.err.filter fun x => x.1 / 2 ^ 16 != bank, bad := t.bad.filter fun l => l / 2 ^ 16 != bank, fresh := true }
  if bank = 0 then { t with bank0 := some b } else { t with bank1 := some b }

/-- A table block against the rules of R405 and R105. -/
def tableOk (st : Settings) (g k : Nat) (b : List Byte) : Bool :=
  if k = 0 then
    b.length = 128 && zeroAt b 0x68 24 && (List.range 22).all (fun i => f32Finite (fieldAt b (0x10 + 4 * i) 4)) && coefOk st b
  else if k = 1 then b.length = 24576
  else Settings.remap st ≠ 0 && b.length = Settings.gridBytes st &&
    gridReach b (Settings.width st) (Settings.height st) (Settings.remap st) (Config.remapBicubic g)
      (((Settings.bytes st 0x27).map fun f => fieldAt f 0 4 == 1).getD false) ≤ 256

def hGateTableLoad : Handler := fun _ _ s d =>
  let k := s.field 0x10 1
  let bank := s.field 0x11 1
  let x := d.gate s.target
  let t := x.table k
  if 2 < k ∨ 1 < bank ∨ !s.zero 0x12 30 then refuse stBadArg d
  else if x.fn = .unconfigured then refuse stBadState d
  else if bank = t.active ∨ t.pending then refuse stBusy d
  else d.withBlock s fun b d =>
    if !tableOk x.settings s.target k b then refuse stBadArg d
    else ok (d.modGate s.target fun x => x.setTable k ((x.table k).load bank b))

def execGateTableLoad (q : Nat) (e : Sub) (s : State) : Host.Outcome State Fault Refusal :=
  run (.gateTableLoad q e) (serveRow 0x0401 hGateTableLoad q e) s

/-- GATE_TABLE_SWITCH: at once on a STOPPED gate, else at the next sample. -/
def hGateTableSwitch : Handler := fun _ _ s d =>
  let k := s.field 0x10 1
  let x := d.gate s.target
  let t := x.table k
  if 2 < k ∨ !s.zero 0x11 47 then refuse stBadArg d
  else if t.pending then refuse stBusy d
  else if !t.fresh then refuse stBadState d
  else
    let d := d.modGate s.target fun x => x.setTable k { x.table k with pending := true }
    if x.fn = .stopped then ok (d.modGate s.target fun x => x.setTable k (x.table k).switched) else (.long none [], d)

def execGateTableSwitch (q : Nat) (e : Sub) (s : State) : Host.Outcome State Fault Refusal :=
  run (.gateTableSwitch q e) (serveRow 0x0402 hGateTableSwitch q e) s

end Sys2Proof.Machine
end

