-- ==== Sys2Proof/Machine/Ed25519.lean ====
section
/-! DEFINITION. Ed25519 verification (check 7 of R539): S below the group order, canonical encodings of A and R, and the equation
[8][S]B = [8]R + [8][k]A, with points in extended coordinates on −x² + y² = 1 + d x² y² over the integers mod 2^255 − 19. -/

namespace Sys2Proof.Machine

open Sys2Proof

/-- The field's prime, the order of the base point, d, and a square root of −1 (RFC 8032, which R538 names). -/
def edP : Nat := 2 ^ 255 - 19
def edL : Nat := 2 ^ 252 + 27742317777372353535851937790883648493
def edD : Nat := 37095705934669439343138083508754565189542113879843219016388785533085940283555
def edI : Nat := 19681161376707505956807079304988542015446066515923890162744021073123829784752

/-- b^e mod m for an exponent of at most `n` bits. -/
def powMod (m : Nat) : Nat → Nat → Nat → Nat
  | 0, _, _ => 1
  | n + 1, b, e =>
    let h := powMod m n (b * b % m) (e / 2)
    if e % 2 = 1 then b * h % m else h

/-- A point with x = X/Z, y = Y/Z, xy = T/Z. -/
structure EdPoint where
  x : Nat
  y : Nat
  z : Nat
  t : Nat
deriving DecidableEq, Repr

/-- The neutral point. -/
def edZero : EdPoint := { x := 0, y := 1, z := 1, t := 0 }

/-- The sum of two points; the formula has no exceptions. -/
def edAdd (p q : EdPoint) : EdPoint :=
  let a := (p.y + edP - p.x) * (q.y + edP - q.x) % edP
  let b := (p.y + p.x) * (q.y + q.x) % edP
  let c := 2 * edD * p.t % edP * q.t % edP
  let d := 2 * p.z * q.z % edP
  let e := b + edP - a
  let f := d + edP - c
  let g := d + c
  let h := b + a
  { x := e * f % edP, y := g * h % edP, z := f * g % edP, t := e * h % edP }

/-- [k]p for a scalar of at most `n` bits. -/
def edMul : Nat → Nat → EdPoint → EdPoint
  | 0, _, _ => edZero
  | n + 1, k, p =>
    let h := edMul n (k / 2) (edAdd p p)
    if k % 2 = 1 then edAdd p h else h

/-- Two points are one. -/
def edSame (p q : EdPoint) : Bool := p.x * q.z % edP == q.x * p.z % edP && p.y * q.z % edP == q.y * p.z % edP

/-- The x of a y: a square root of (y² − 1) / (d y² + 1). -/
def edRoot (y : Nat) : Option Nat :=
  let u := (y * y + edP - 1) % edP
  let v := (edD * (y * y % edP) + 1) % edP
  let v3 := v * v % edP * v % edP
  let x := u * v3 % edP * powMod edP 255 (u * (v3 * v3 % edP * v % edP) % edP) ((edP - 5) / 8) % edP
  let s := v * (x * x % edP) % edP
  if s = u then some x else if s = (edP - u) % edP then some (x * edI % edP) else none

/-- The point of a canonical encoding: y below the prime, and no sign on x = 0. -/
def edDecode (b : List Byte) : Option EdPoint :=
  let n := leNat b
  let y := n % 2 ^ 255
  let sign := n / 2 ^ 255
  if b.length ≠ 32 ∨ edP ≤ y then none
  else match edRoot y with
    | none => none
    | some r =>
      if r = 0 ∧ sign = 1 then none
      else
        let x := if r % 2 = sign then r else edP - r
        some { x := x, y := y, z := 1, t := x * y % edP }

/-- The base point. -/
def edBase : EdPoint :=
  { x := 15112221349535400772501151409588531511454012693041857206046113283949847762202
    y := 46316835694926478169428394003475163141307993866256225615783033603165251855960
    z := 1
    t := 46827403850823179245072216630277197565144205554125654976674165829533817101731 }

/-- The equation of check 7 with its cofactor. -/
def edEquation (s k : Nat) (a r : EdPoint) : Bool :=
  edSame (edMul 4 8 (edMul 256 s edBase)) (edAdd (edMul 4 8 r) (edMul 4 8 (edMul 256 k a)))

/-- Check 7 of R539: `key` is A, the signature is R and S, and k is SHA-512 of R, A and the message. -/
def edVerify (key msg sig : List Byte) : Bool :=
  let r := sig.take 32
  let s := leNat (sig.drop 32)
  match edDecode key, edDecode r with
  | some a, some p => sig.length == 64 && decide (s < edL) && edEquation s (leNat (Config.sha512 (r ++ key ++ msg)) % edL) a p
  | _, _ => false

end Sys2Proof.Machine
end

