-- ==== Sys2Proof/Machine/Containers.lean ====
section
/-! DEFINITION. Fuses as the device reads them (R535, R536), Lalen containers and their checks (R531, R537 to R541),
the identity that ROM derives (R542, R544, R545), and the fuses that a lifecycle transition burns (R534). -/

namespace Sys2Proof.Machine

open Sys2Proof

/-! ## Fuses (R535, R536) -/

/-- A pair of fuses reads as set when either is (R536). -/
def pairSet (v i : Nat) : Bool := bitOf v (2 * i) || bitOf v (2 * i + 1)

/-- Only one fuse of a pair is set. -/
def pairTorn (v i : Nat) : Bool := bitOf v (2 * i) != bitOf v (2 * i + 1)

/-- A thermometer's value: the index of its highest set bit plus 1 (R536). -/
def thermometer (v : BitVec 64) : Nat := ((List.range 64).filter fun i => v.getLsbD i).foldl (fun _ i => i + 1) 0

/-- A thermometer that reads as a value. -/
def thermometerOf (n : Nat) : BitVec 64 := BitVec.ofNat 64 (2 ^ min n 64 - 1)

/-- The hash of a key slot: 0 H0, 1 H1, 2 O0, 3 O1. -/
def Fuses.slotHash (f : Fuses) (i : Nat) : BitVec 256 :=
  if i = 0 then f.h0 else if i = 1 then f.h1 else if i = 2 then f.o0 else f.o1

/-- An uncorrectable hash slot is treated as revoked (R536). -/
def Fuses.slotGone (f : Fuses) (i : Nat) : Bool := pairSet f.slotRevoked.toNat i || f.uncorrectable.contains (1 + i)

/-- R537. -/
def Fuses.slotUsable (f : Fuses) (i : Nat) : Bool := decide (i < 4) && pairSet f.slotValid.toNat i && !f.slotGone i

/-- An O slot whose hash has bits set while its SLOT_VALID pair is clear (R536). -/
def Fuses.slotSpoiled (f : Fuses) (i : Nat) : Bool := 2 ≤ i && f.slotHash i != 0 && !pairSet f.slotValid.toNat i

/-- A single-bit pair, or a clear bit below a set bit in a thermometer (R536). -/
def Fuses.torn (f : Fuses) : Bool :=
  (List.range 4).any (fun i => pairTorn f.lifecycle.toNat i || pairTorn f.slotValid.toNat i || pairTorn f.slotRevoked.toNat i) ||
    (List.range 3).any (fun i => pairTorn f.bootCfg.toNat i) ||
    f.fwFloor != thermometerOf (thermometer f.fwFloor) || f.progFloor != thermometerOf (thermometer f.progFloor)

/-- ROM completes an interrupted transition: the highest partly set LIFECYCLE pair gets its other bit (R536). -/
def Fuses.mended (f : Fuses) : Fuses :=
  match (List.range 4).reverse.find? fun i => pairSet f.lifecycle.toNat i with
  | some i => if pairTorn f.lifecycle.toNat i then { f with lifecycle := f.lifecycle ||| BitVec.ofNat 8 (3 * 4 ^ i) } else f
  | none => f

def Fuses.flashOnly (f : Fuses) : Bool := pairSet f.bootCfg.toNat 0
def Fuses.pushOnly (f : Fuses) : Bool := pairSet f.bootCfg.toNat 1
def Fuses.bscanKeep (f : Fuses) : Bool := pairSet f.bootCfg.toNat 2

/-- Fuse word W6 as the device reads it (R533). -/
def Fuses.keyWord (f : Fuses) : Nat := f.slotValid.toNat + 256 * f.slotRevoked.toNat

/-! ## Containers (R538) -/

def ctKind (b : List Byte) : Nat := fieldAt b 0x06 1
def ctSlot (b : List Byte) : Nat := fieldAt b 0x07 1
def ctVersion (b : List Byte) : Nat := fieldAt b 0x08 4
def ctSvn (b : List Byte) : Nat := fieldAt b 0x0C 2
def ctRaise (b : List Byte) : Bool := bitOf (fieldAt b 0x0E 2) 0
def ctDevelop (b : List Byte) : Bool := bitOf (fieldAt b 0x0E 2) 1
def ctSerial (b : List Byte) : Nat := fieldAt b 0x10 8
def ctBody (b : List Byte) : List Byte := b.drop 0x1580
def ctSigned (b : List Byte) : List Byte := b.take 0x840
def ctKeys (b : List Byte) : List Byte := (b.drop 0x80).take 1984

/-- SHAKE256 of the key block as a number, the form the fuses hold (R537). -/
def ctKeyHash (b : List Byte) : BitVec 256 := BitVec.ofNat 256 (leNat (Config.shake256 (ctKeys b) 32))

/-- Check 1 of R539. -/
def ctForm (b : List Byte) (len : Nat) : Bool :=
  decide (0x1580 ≤ len ∧ b.length = len ∧ fieldAt b 0 4 = 0x4E4C414C ∧ fieldAt b 4 2 = 1 ∧ fieldAt b 0x0E 2 < 4 ∧
    fieldAt b 0x18 4 = len ∧ fieldAt b 0x1C 4 = len - 0x1580) && zeroAt b 0x60 32 && zeroAt b 0x156D 19

/-- The slots that may sign a kind in a lifecycle state (R531): H slots 0 and 1, O slots 2 and 3. -/
def slotAllowed (lc kind slot : Nat) : Bool :=
  let h := slot < 2
  let o := slot = 2 || slot = 3
  if kind = 0 then h && lc != lcScrap
  else if lc = lcBlank then kind = 3 && h
  else if lc = lcDevelop ∨ lc = lcProduction then o
  else if lc = lcReturn then h
  else false

/-- The checks of R539 in order; `allowed` says which slots may sign, `selfSigned` checks the container against its own key
block, `zeroSerial` allows a serial of 0. The answer is the status, stOk when every check passes. -/
def checkContainer (f : Fuses) (kind : Nat) (allowed : Nat → Bool) (selfSigned zeroSerial : Bool) (len : Nat) (b : List Byte) : Nat :=
  let lc := lifecycleOf f
  let floor := if kind = 0 then thermometer f.fwFloor else if kind = 1 then thermometer f.progFloor else 0
  let keys := ctKeys b
  if !ctForm b len then stIntegrity
  else if ctKind b ≠ kind then stBadArg
  else if !selfSigned && !(allowed (ctSlot b) && f.slotUsable (ctSlot b) && ctKeyHash b == f.slotHash (ctSlot b)) then stDenied
  else if ctSerial b ≠ f.serial.toNat ∧ !(zeroSerial && ctSerial b == 0) then stDenied
  else if ctDevelop b && lc != lcDevelop && lc != lcReturn then stDenied
  else if ctSvn b < floor then stDenied
  else if !edVerify (keys.take 32) (ctSigned b) ((b.drop 0x840).take 64) then stIntegrity
  else if !Config.mlVerify (keys.drop 32) (ctSigned b) ((b.drop 0x880).take 3309) then stIntegrity
  else if Config.sha512 (ctBody b) ≠ (b.drop 0x20).take 64 then stIntegrity
  else stOk

/-- A firmware or program image under R539. -/
def checkImage (f : Fuses) (kind len : Nat) (b : List Byte) : Nat :=
  checkContainer f kind (slotAllowed (lifecycleOf f) kind) false true len b

/-- The SECURITY fault of a refused container (R539). -/
def Dev.refusedImage (d : Dev) (b : List Byte) : Dev := d.raise 0x3C0 0x3C 0 (ctVersion b)

/-! ## Identity (R544, R545) -/

/-- The bytes of a label, an ASCII string with no terminator. -/
def ascii (s : String) : List Byte := s.toList.map fun c => BitVec.ofNat 8 c.toNat

/-- The grade code of R396. -/
def Fuses.gradeCode (f : Fuses) : Nat := f.grade.toNat

/-- DESIGN CHOICE: log entry 76. -/
def udsBytes (f : Fuses) : List Byte := leBytes 32 f.uds.toNat
def devEd (f : Fuses) : List Byte := Config.shake256 (udsBytes f ++ ascii "CZ7-DEV-ED25519") 32
def devMl (f : Fuses) : List Byte := Config.shake256 (udsBytes f ++ ascii "CZ7-DEV-MLDSA65") 32

/-- cdi of R544: bound to the lifecycle, the grade and the firmware. -/
def cdi (f : Fuses) (m : List Byte) : List Byte :=
  Config.shake256 (udsBytes f ++ leBytes 1 (lifecycleOf f) ++ leBytes 1 f.gradeCode ++ m) 64

def aliasEd (f : Fuses) (m : List Byte) : List Byte := Config.shake256 (cdi f m ++ ascii "CZ7-ALIAS-ED25519") 32
def aliasMl (f : Fuses) (m : List Byte) : List Byte := Config.shake256 (cdi f m ++ ascii "CZ7-ALIAS-MLDSA65") 32

/-- What the key engine holds once ROM has derived the identity; the UDS port stays locked until the next cold reset (R542, R544). -/
def keyEngineOf (f : Fuses) (m : List Byte) : KeyEngine :=
  { cdi := cdi f m, aliasEd := aliasEd f m, aliasMl := aliasMl f m, udsLocked := true }

/-- The alias certificate (R545). -/
def aliasCert (f : Fuses) (x : Security) : List Byte :=
  let b := leBytes 4 0x54414C41 ++ leBytes 2 1 ++ leBytes 1 f.gradeCode ++ leBytes 1 (lifecycleOf f) ++
    leBytes 8 f.serial.toNat ++ padTo 64 (x.fwMeasure.take 64) ++ leBytes 4 x.fwVersion ++ leBytes 2 x.fwSvn ++
    List.replicate 10 0 ++ padTo 32 (Config.edPublic (aliasEd f x.fwMeasure)) ++
    padTo 1952 (Config.mlPublic (aliasMl f x.fwMeasure))
  b ++ padTo 64 (Config.edSign (devEd f) b) ++ padTo 3309 (Config.mlSign (devMl f) b)

/-! ## Lifecycle fuses (R534) -/

/-- What a checked authorisation burns: slot and hash pairs, BOOT_CFG bits, revoked O slots, target state. -/
structure Burn where
  hashes : List (Nat × Nat)
  bootCfg : Nat
  revoke : Nat
  target : Nat
deriving DecidableEq, Repr

/-- A fuse that a transition burns: a bit of a slot's hash or of a pair of a field. -/
inductive FuseBit where
  | hash (slot bit : Nat)
  | valid (bit : Nat)
  | boot (bit : Nat)
  | revoked (bit : Nat)
  | lifecycle (bit : Nat)
deriving DecidableEq, Repr

/-- The fuse is set. -/
def Fuses.isSet (f : Fuses) (x : FuseBit) : Bool :=
  match x with
  | .hash s i => (f.slotHash s).getLsbD i
  | .valid i => f.slotValid.getLsbD i
  | .boot i => f.bootCfg.getLsbD i
  | .revoked i => f.slotRevoked.getLsbD i
  | .lifecycle i => f.lifecycle.getLsbD i

/-- One fuse is burnt; only the O slots' hashes can be (R535). -/
def Fuses.setBit (f : Fuses) (x : FuseBit) : Fuses :=
  match x with
  | .hash s i =>
    if s = 2 then { f with o0 := f.o0 ||| BitVec.ofNat 256 (2 ^ i) }
    else if s = 3 then { f with o1 := f.o1 ||| BitVec.ofNat 256 (2 ^ i) } else f
  | .valid i => { f with slotValid := f.slotValid ||| BitVec.ofNat 8 (2 ^ i) }
  | .boot i => { f with bootCfg := f.bootCfg ||| BitVec.ofNat 6 (2 ^ i) }
  | .revoked i => { f with slotRevoked := f.slotRevoked ||| BitVec.ofNat 8 (2 ^ i) }
  | .lifecycle i => { f with lifecycle := f.lifecycle ||| BitVec.ofNat 8 (2 ^ i) }

/-- Fuses are burnt in order. -/
def Fuses.burnBits (f : Fuses) (l : List FuseBit) : Fuses := l.foldl Fuses.setBit f

/-- Both fuses of each pair. -/
def pairBits (l : List Nat) : List Nat := l.flatMap fun i => [2 * i, 2 * i + 1]

/-- One hash with its SLOT_VALID pair. -/
def hashBits (x : Nat × Nat) : List FuseBit :=
  ((List.range 256).filter fun i => x.2.testBit i).map (FuseBit.hash x.1) ++ (pairBits [x.1]).map FuseBit.valid

/-- The fuses of a transition that are not yet set, in the order of step 2 of R534: each hash with its SLOT_VALID pair, BOOT_CFG,
SLOT_REVOKED, and LIFECYCLE last. -/
def Burn.bits (f : Fuses) (b : Burn) : List FuseBit :=
  let boot := pairBits ((List.range 3).filter fun i => bitOf b.bootCfg i)
  let revoked := pairBits (((List.range 2).filter fun i => bitOf b.revoke i).map (· + 2))
  let life := if b.target = lifecycleOf f ∨ b.target = 0 then [] else pairBits [b.target - 1]
  (b.hashes.flatMap hashBits ++ boot.map FuseBit.boot ++ revoked.map FuseBit.revoked ++ life.map FuseBit.lifecycle).filter
    fun x => !f.isSet x

/-- Step 2 of R534 to its end. -/
def Fuses.burn (f : Fuses) (b : Burn) : Fuses := f.burnBits (b.bits f)

/-- A recorded burn as an outstanding command keeps it, and back. -/
def Burn.pack (b : Burn) : List Nat := [b.target, b.bootCfg, b.revoke] ++ b.hashes.flatMap fun x => [x.1, x.2]

def pairsOf : Nat → List Nat → List (Nat × Nat)
  | fuel + 1, a :: b :: t => (a, b) :: pairsOf fuel t
  | _, _ => []

def Burn.unpack (l : List Nat) : Burn :=
  { target := l.getD 0 0, bootCfg := l.getD 1 0, revoke := l.getD 2 0, hashes := pairsOf 2 (l.drop 3) }

/-- The fuses at a raw time when the burning stops there: a bit takes 20 µs, the one begun completes and no further one is started
(R534). DEDUCED: log entry 119. -/
def Security.burnt (x : Security) (raw : Nat) (f : Fuses) : Fuses :=
  match x.burning with
  | some (t, l) => f.burnBits (((Burn.unpack l).bits f).take ((raw - t) / 20000 + 1))
  | none => f

/-- The fuses as a reset finds them now. -/
def State.fuseNow (s : State) : Fuses := s.dev.sec.burnt s.clk.raw s.fuse

end Sys2Proof.Machine
end

