-- ==== Sys2Proof/Machine/Threads.lean ====
section
/-! DEFINITION. Thread instructions (R129 to R141, R292 to R295, R302, R308, R453): issue and fetch, arithmetic, memory
access, fences, waits, posts and END. -/

namespace Sys2Proof.Machine

open Sys2Proof

/-! ## Issue and fetch (R130, R131, R139) -/

/-- The first READY thread of a priority in round-robin order after a context (R130). DESIGN CHOICE: log entry 6. -/
def Dev.pickOf (d : Dev) (n last : Nat) (high : Bool) : Option Nat :=
  ((List.range 64).map fun i => 64 * n + (last + 1 + i) % 64).find? fun t =>
    (d.thread t).st == .ready && (d.thread t).high == high

/-- The thread that a fold's thread unit issues from next: HIGH before NORMAL (R130). -/
def Dev.pick (d : Dev) (n : Nat) : Option Nat :=
  match d.pickOf n (d.fold n).lastHigh true with
  | some t => some t
  | none => d.pickOf n (d.fold n).lastNormal false

/-- A fold whose units run: clocked, mapped, awake and not in replacement; the Collie runs while it is clocked. -/
def Dev.foldAwake (d : Dev) (n : Nat) : Bool :=
  d.clocked && (n == collieFold || (!(d.fold n).gated && !(d.fold n).replacing && d.physOf n != 0xFF))

/-- The thread unit may issue from this thread now. -/
def Dev.mayIssue (d : Dev) (t : Nat) : Bool :=
  let n := foldOfThread t
  d.foldAwake n && d.pick n == some t

/-- The round-robin pointer after an issue; the fold was not idle (R142). -/
def Dev.issued (d : Dev) (e : Env) (t : Nat) : Dev :=
  d.modFold (foldOfThread t) fun f =>
    if (d.thread t).high then { f with lastHigh := ctxOfThread t, idleSince := e.raw }
    else { f with lastNormal := ctxOfThread t, idleSince := e.raw }

/-- The next instruction word, or the thread fault that its fetch is: 5 outside own fold memory, 1 from a poisoned line
(R138, R139, R167). -/
inductive Fetched where
  | word (w : Nat)
  | bad (code : Nat)
deriving DecidableEq, Repr

/-- DESIGN CHOICE: log entry 20. -/
def Dev.fetch (d : Dev) (t : Nat) : Fetched × Dev :=
  let pc := (d.thread t).pc.toNat
  if ownSize (foldOfThread t) < pc + 8 then (.bad 5, d)
  else
    let a := ownBase (foldOfThread t) + pc
    let r := d.readLines (d.threadSrc t) true a 8
    if r.1 then (.bad 1, r.2) else (.word (leNat (d.raw a 8)), r.2)

/-- The class of a word (R131). DESIGN CHOICE: log entry 20. -/
def classOf (w : Nat) : Nat := bitsAt w 58 6

/-- Sets the pc past the instruction. -/
def Dev.advance (d : Dev) (t : Nat) : Dev := d.modThread t fun th => { th with pc := th.pc + 8 }

/-- A thread row: it acts when the thread unit would issue this thread and the word at its pc has the row's class.
DESIGN CHOICE: log entry 20. -/
def Dev.instr (d : Dev) (e : Env) (t cls : Nat) (f : Nat → Dev → Dev) : Dev :=
  if d.mayIssue t then
    match d.fetch t with
    | (.word w, d1) => if classOf w = cls then f w (d1.issued e t) else d
    | (.bad _, _) => d
  else d

/-- A register of a thread. -/
def Dev.reg (d : Dev) (t r : Nat) : Word := (d.thread t).reg r

/-- An instruction that writes one register and goes on. -/
def Dev.result (d : Dev) (t rd : Nat) (v : Word) : Dev :=
  (d.modThread t fun th => th.setReg rd v).advance t

/-- The thread enters WAITING (R129). -/
def Dev.park (d : Dev) (e : Env) (t : Nat) (w : WaitFor) : Dev :=
  d.modThread t fun th => { th with st := .waiting, wait := some { what := w, since := e.raw } }

/-! ## Arithmetic (R131; DESIGN CHOICE, log entries 20, 21) -/

/-- A shift; by 64 or more the result is a free value. DESIGN CHOICE: log entry 21. -/
def shiftBy (d : Dev) (a b : Word) (f : Word → Nat → Word) : Word :=
  if b.toNat < 64 then f a b.toNat else Config.freeWord d.free

/-- The result of an ALU operation on two registers and, for select, a third. DESIGN CHOICE: log entry 20. -/
def aluResult (d : Dev) (op : AluOp) (a b c : Word) : Word :=
  match op with
  | .add => a + b
  | .sub => a - b
  | .and => a &&& b
  | .or => a ||| b
  | .xor => a ^^^ b
  | .shl => shiftBy d a b fun x k => x <<< k
  | .shrLogical => shiftBy d a b fun x k => x >>> k
  | .shrArith => shiftBy d a b fun x k => x.sshiftRight k
  | .cmpEq => if a = b then 1 else 0
  | .cmpLt => if a.slt b then 1 else 0
  | .cmpLtu => if a.ult b then 1 else 0
  | .select => if a = 0 then c else b

def execAlu (t : Nat) (op : AluOp) (rd ra rb rc : Nat) (s : State) : Host.Outcome State Fault Refusal :=
  run (.alu t op rd ra rb rc) (fun e d => d.instr e t 0x01 fun _ d =>
    (d.result t rd (aluResult d op (d.reg t ra) (d.reg t rb) (d.reg t rc))).spend) s

/-- The low 64 bits of the product (R131). -/
def execMul (t rd ra rb : Nat) (s : State) : Host.Outcome State Fault Refusal :=
  run (.mul t rd ra rb) (fun e d => d.instr e t 0x02 fun _ d => d.result t rd (d.reg t ra * d.reg t rb)) s

/-- Whether a branch is taken. -/
def branchTaken (c : BranchCond) (a b : Word) : Bool :=
  match c with
  | .always => true
  | .eq => a == b
  | .ne => a != b
  | .lt => a.slt b
  | .ltu => a.ult b

/-- A jump within own fold memory (R131). -/
def execBranch (t : Nat) (c : BranchCond) (ra rb target : Nat) (s : State) : Host.Outcome State Fault Refusal :=
  run (.branch t c ra rb target) (fun e d => d.instr e t 0x03 fun _ d =>
    if branchTaken c (d.reg t ra) (d.reg t rb) then d.modThread t fun th => { th with pc := BitVec.ofNat 32 target }
    else d.advance t) s

/-- Reads the counter in domain A, B or raw (R131, R414); another number is an illegal instruction (DESIGN CHOICE, log entry 22). -/
def execTime (t rd dom : Nat) (s : State) : Host.Outcome State Fault Refusal :=
  run (.time t rd dom) (fun e d => d.instr e t 0x0C fun _ d =>
    if dom ≤ 2 then d.result t rd (BitVec.ofInt 64 (d.counter dom e.raw)) else d.faultThread e t 1) s

/-! ## Stores reach memory (R136, R140) -/

/-- The waits that a thread's drained stores end: FENCE and MARK_FULL (R136, R308, R449, R453). -/
def Dev.storesDone (d : Dev) (t : Nat) : Bool :=
  !(d.posted.any (·.thread == t)) && !(d.flock.reqs.any fun r => r.thread == some t && r.write) &&
    !(d.flock.peers.any fun p => p.2.unacked.any fun x => x.thread == some t)

/-- Releases a thread whose FENCE or MARK_FULL waited. -/
def Dev.fenceCheck (d : Dev) (t : Nat) : Dev :=
  if d.storesDone t then
    match d.whatOf t with
    | some .fence => d.wake t []
    | some (.markFull ident) => (d.wake t []).launchFlight (.mark ident true (d.threadSrc t))
    | _ => d
  else d

/-- The value an atomic writes; min and max are open where signed and unsigned order differ (DESIGN CHOICE, log entry 23). -/
def atomicResult (d : Dev) (op : AtomicOp) (size : Nat) (old v swap : Nat) : Nat :=
  let m := 2 ^ (8 * size)
  let pick (a b : Bool) (x y : Nat) : Nat := if (if a = b then a else Config.freeBool d.free) then x else y
  let ult := decide (old % m < v % m)
  let slt := decide (signedOf old (8 * size) < signedOf v (8 * size))
  match op with
  | .add => (old + v) % m
  | .min => pick ult slt (old % m) (v % m)
  | .max => pick ult slt (v % m) (old % m)
  | .swap => v % m
  | .compareSwap => if old % m = v % m then swap % m else old % m

/-- The guard of a slot refuses a posted store or atomic now (R305). -/
def Dev.refusesPosted (d : Dev) (p : Posted) : Bool := (d.slotsIn p.addr p.data.length).any fun x => !slotAdmits x.2 true

/-- The write of an atomic, whose line has been read: in served memory the port replaces its bytes (R140). -/
def Dev.atomicWrite (d : Dev) (e : Env) (acc : Nat) (p : Posted) (bs : List Byte) (bad : Bool) : Dev :=
  match d.reachOf acc p.addr with
  | .served =>
    if d.gddrFailed p.addr || (commonBase ≤ p.addr && p.addr < commonBase + 0x2000) then
      d.writeFrom e (d.threadSrc p.thread) acc p.addr bs bad (.thread p.thread)
    else (d.touch e p.addr).mergePiece p.addr bs bad false
  | _ => d

/-- A posted store or atomic reaches its memory: merged at the port (R140), an atomic's old value returned to its thread
(R131, R167), which no longer waits for it where it has been halted. DESIGN CHOICE: log entry 23. -/
def Dev.land (d : Dev) (e : Env) (p : Posted) : Dev :=
  let src := d.threadSrc p.thread
  let acc := foldOfThread p.thread
  match p.atomic with
  | none => d.writeFrom e src acc p.addr p.data p.poisoned (.thread p.thread)
  | some (op, rd, swap) =>
    let n := p.data.length
    let r := d.readFrom e (if d.reachOf acc p.addr = .served then d.memSource p.addr else src) acc p.addr n
    let old := leNat r.1
    let d := r.2.2.atomicWrite e acc p (leBytes n (atomicResult d op n old (leNat p.data) swap)) (p.poisoned || r.2.1)
    if p.dead then d.spend
    else
      let d := d.wake p.thread [(rd, BitVec.ofNat 64 old)]
      (if r.2.1 then d.modThread p.thread fun th => { th with poisonMark := true } else d).spend

/-- Lands the posted entries that meet a test, oldest first. -/
def Dev.landAll (d : Dev) (e : Env) (f : Posted → Bool) : Dev :=
  (d.posted.filter f).foldl (fun d p => d.land e p) { d with posted := d.posted.filter fun p => !f p }

/-- Posted entries that meet a test wait at the guard, from now on where they did not wait yet, and their threads with them
(R142, R306). -/
def Dev.refusePosted (d : Dev) (e : Env) (f : Posted → Bool) : Dev :=
  let ts := (d.posted.filter fun p => f p && !p.dead && p.refusedAt.isNone).map (·.thread)
  let d := { d with posted := d.posted.map fun p => if f p then { p with refusedAt := some (p.refusedAt.getD e.raw) } else p }
  ts.dedup.foldl (fun d t => (d.parkHeld t).modFold (foldOfThread t) fun x => { x with idleSince := e.raw }) d

/-- What the landing of a thread's store, or its end at a guard, may release: the wait at the guard, FENCE and MARK_FULL (R306,
R308). -/
def Dev.storeGone (d : Dev) (t : Nat) : Dev := (d.unhold t).fenceCheck t

/-- The requests of one thread to one line complete in order (R136, R177, R182), and a guard that has closed meanwhile holds a
request back (R305). DEDUCED: log entry 29. -/
def execNarrowStoreMerge (i : Nat) (s : State) : Host.Outcome State Fault Refusal :=
  runClocked (.narrowStoreMerge i) (fun e d =>
    match d.posted[i]? with
    | none => d
    | some p =>
      if (d.posted.take i).any fun x => x.thread == p.thread && x.addr / 64 == p.addr / 64 then d
      else if d.refusesPosted p then d.refusePosted e fun x => x == p
      else (({ d with posted := d.posted.eraseIdx i }).land e p).storeGone p.thread) s

/-! ## LOAD, STORE, ATOMIC (R131, R136, R139, R168, R305, R447, R448) -/

/-- The address of an access: register plus offset, 64 bits. -/
def Dev.addrOf (d : Dev) (t ra : Nat) (off : Int) : Nat := (d.reg t ra + BitVec.ofInt 64 off).toNat

/-- Loaded bytes into a register, zeros above them, with the poison mark of R168. DESIGN CHOICE: log entry 109. -/
def Dev.loadResult (d : Dev) (t rd : Nat) (bs : List Byte) (poison : Bool) : Dev :=
  let d := d.modThread t fun th => th.setReg rd (BitVec.ofNat 64 (leNat bs))
  if poison then d.modThread t fun th => { th with poisonMark := true } else d

/-- The thread's own earlier requests to the line of an access (R136, R177). -/
def ownStore (t a : Nat) (p : Posted) : Bool := p.thread == t && p.addr / 64 == a / 64

/-- They complete, in their order, before the load of that line does (R136, R177). -/
def Dev.landLine (d : Dev) (e : Env) (t a : Nat) : Dev := (d.landAll e (ownStore t a)).unhold t

/-- Where a guard refuses an own store that must land first, the thread waits at the guard and tries again (R306). -/
def Dev.unlessParked (d : Dev) (e : Env) (f : Posted → Bool) (go : Dev) : Dev :=
  let g (p : Posted) : Bool := f p && d.refusesPosted p
  if d.posted.any g then d.refusePosted e g else go

/-- The size and alignment an access must have. -/
def accessSizes : List Nat := [1, 2, 4, 8]

/-- A LOAD at an address. -/
def Dev.load (d : Dev) (e : Env) (t size rd a : Nat) : Dev :=
  let n := foldOfThread t
  let src := d.threadSrc t
  if a % size ≠ 0 then d.faultThread e t 2
  else match d.guardOf a size false with
    | some (ident, _) => d.park e t (.slotRead ident a size rd)
    | none =>
      match d.reachOf (foldOfThread t) a with
      | .stileSpace dev off =>
        if d.flock.dev = some dev then
          let c := d.stileCheck dev off size false
          if c.1 = 0 then
            let r := d.readFrom e 0x2C6 n c.2 size
            (r.2.2.loadResult t rd r.1 r.2.1).advance t
          else
            let x := ((d.stileFault src a c.1).stileTargetFault e dev off c.1).freeBytes size
            (x.2.loadResult t rd x.1 true).advance t
        else match d.narrowRemote e t dev off size rd none false with
          | some d => (d.advance t).park e t (.loadData a size rd)
          | none =>
            let x := (d.stileFault src a 0).freeBytes size
            (x.2.loadResult t rd x.1 true).advance t
      | .served =>
        if isOwn n a then
          let d := d.landLine e t a
          let r := d.readFrom e src n a size
          (r.2.2.loadResult t rd r.1 r.2.1).advance t
        else (d.advance t).park e t (.loadData a size rd)
      | _ =>
        let r := d.readFrom e src n a size
        (r.2.2.loadResult t rd r.1 r.2.1).advance t

def execThreadLoad (t size rd ra : Nat) (x : LoadOff) (s : State) : Host.Outcome State Fault Refusal :=
  run (.threadLoad t size rd ra x) (fun e d => d.instr e t 0x04 fun _ d =>
    if accessSizes.contains size then
      d.unlessParked e (ownStore t (d.addrOf t ra x.off))
        ((d.meetEdc (d.addrOf t ra x.off) x.edc).load e t size rd (d.addrOf t ra x.off))
    else d.faultThread e t 1) s

/-- A load that finds its slot's guard closed when it arrives waits there (R142, R305, R306): the instruction is tried again. -/
def Dev.parkRead (d : Dev) (e : Env) (t a size rd : Nat) : Dev :=
  match d.guardOf a size false with
  | some x => ((d.modThread t fun th => { th with pc := th.pc - 8 }).park e t (.slotRead x.1 a size rd)).modFold
      (foldOfThread t) fun f => { f with idleSince := e.raw }
  | none => d

/-- The data of a load reach its thread, after the thread's earlier stores to that line (R136, R177). -/
def Dev.loadArrives (d : Dev) (e : Env) (t a size rd : Nat) : Dev :=
  let r := (d.landLine e t a).readFrom e (d.threadSrc t) (foldOfThread t) a size
  (r.2.2.loadResult t rd r.1 r.2.1).wake t []

/-- A load from another memory than the fold's own is ready (R129, R185). -/
def execLoadDataReturn (t : Nat) (s : State) : Host.Outcome State Fault Refusal :=
  runClocked (.loadDataReturn t) (fun e d =>
    match d.whatOf t with
    | some (.loadData a size rd) =>
      if d.flock.reqs.any (fun r => r.thread == some t && !r.write && !r.dead) then d
      else if (d.guardOf a size false).isSome then d.parkRead e t a size rd
      else d.unlessParked e (ownStore t a) (d.loadArrives e t a size rd)
    | _ => d) s

/-- A store or atomic leaves its thread. -/
def Dev.postStore (d : Dev) (p : Posted) : Dev := { d with posted := d.posted ++ [p] }

/-- A STORE at an address: posted (R131, R136). -/
def Dev.store (d : Dev) (e : Env) (t size a : Nat) (v : Word) : Dev :=
  let src := d.threadSrc t
  let mark := (d.thread t).poisonMark
  let bs := leBytes size v.toNat
  if a % size ≠ 0 then d.faultThread e t 2
  else match d.guardOf a size true with
    | some (ident, _) => d.park e t (.slotWrite ident a)
    | none =>
      match d.reachOf (foldOfThread t) a with
      | .stileSpace dev off =>
        if d.flock.dev = some dev then
          let c := d.stileCheck dev off size true
          if c.1 = 0 then (d.writeFrom e 0x2C6 (foldOfThread t) c.2 bs mark (.thread t)).advance t
          else ((d.stileFault src a c.1).stileTargetFault e dev off c.1).advance t
        else match d.narrowRemote e t dev off size 0 (some bs) mark with
          | some d => d.advance t
          | none => (d.stileFault src a 0).advance t
      | .served =>
        (d.postStore { thread := t, addr := a, data := bs, poisoned := mark }).advance t
      | r => (d.missed src (foldOfThread t) r a).advance t

def execThreadStore (t size ra : Nat) (off : Int) (rs : Nat) (s : State) : Host.Outcome State Fault Refusal :=
  run (.threadStore t size ra off rs) (fun e d => d.instr e t 0x05 fun _ d =>
    if accessSizes.contains size then d.store e t size (d.addrOf t ra off) (d.reg t rs) else d.faultThread e t 1) s

/-- An ATOMIC: it counts as a write for the guard, faults on stile space, and its thread waits for the old value. -/
def Dev.atomic (d : Dev) (e : Env) (t : Nat) (op : AtomicOp) (size rd a : Nat) (v swap : Word) : Dev :=
  let x : Posted := { thread := t, addr := a, data := leBytes size v.toNat, poisoned := (d.thread t).poisonMark,
                      atomic := some (op, rd, swap.toNat) }
  if a % size ≠ 0 then d.faultThread e t 2
  else match d.reachOf (foldOfThread t) a, d.guardOf a size true with
    | .stileSpace _ _, _ => d.faultThread e t 4
    | _, some (ident, _) => d.park e t (.slotWrite ident a)
    | .served, none => ((d.postStore x).advance t).park e t (.atomicData rd)
    | _, none =>
        let r := d.readFrom e (d.threadSrc t) (foldOfThread t) a size
        (r.2.2.loadResult t rd r.1 r.2.1).advance t

def execThreadAtomic (t : Nat) (op : AtomicOp) (size rd ra rb rc : Nat) (s : State) : Host.Outcome State Fault Refusal :=
  run (.threadAtomic t op size rd ra rb rc) (fun e d => d.instr e t 0x06 fun _ d =>
    if size = 4 ∨ size = 8 then d.atomic e t op size rd (d.addrOf t ra 0) (d.reg t rb) (d.reg t rc)
    else d.faultThread e t 1) s

/-- FENCE waits for the thread's earlier stores, atomics, stile stores and messages (R136, R449, R453). -/
def execFence (t : Nat) (s : State) : Host.Outcome State Fault Refusal :=
  run (.fence t) (fun e d => d.instr e t 0x07 fun _ d =>
    if d.storesDone t then d.advance t else (d.advance t).park e t .fence) s

/-! ## WAIT (R292 to R295) -/

/-- The fields of a WAIT or POST word. -/
def fKind (w : Nat) : Nat := bitsAt w 54 4
def fA (w : Nat) : Nat := bitsAt w 49 5
def fB (w : Nat) : Nat := bitsAt w 44 5
def fC (w : Nat) : Nat := bitsAt w 39 5

/-- The word form of a WAIT: [38:0] zero, a defined kind, rd at most 29 for QUEUE (R292). -/
def waitFormOk (w : Nat) : Bool := w % 2 ^ 39 = 0 && fKind w ≤ 7 && !(fKind w = 1 && 29 < fA w)

/-- The identifier a WAIT or POST names. -/
def identOf (v : Word) : Nat := v.toNat % 65536

/-- A WAIT that faults its thread for what its registers name (R290, R292, R299; DESIGN CHOICE, log entry 22 for an engine or counter
number outside the table). -/
def Dev.waitIllegal (d : Dev) (t w : Nat) : Bool :=
  let a := d.reg t (fB w)
  let id := identOf a
  let own := id / 256 == foldOfThread t
  if !waitFormOk w then true
  else match fKind w with
    | 0 => decide (engineCount (foldOfThread t) ≤ a.toNat)
    | 1 | 7 => !own || (tget d.queues id).isNone
    | 2 => ((tget d.queues id).bind fun q => prodIndex q (.thread t)).isNone
    | 3 | 4 => (tget d.slots id).isNone
    | 5 => (tget d.hurdles id).isNone
    | _ => decide (3 ≤ a.toNat)

/-- A WAIT row of one kind. DESIGN CHOICE: log entry 38. -/
def Dev.waitRow (d : Dev) (e : Env) (t kind : Nat) (f : Nat → Nat → Nat → Dev → Dev) : Dev :=
  d.instr e t 0x0A fun w d =>
    if fKind w ≠ kind then d
    else if d.waitIllegal t w then d.faultThread e t 1
    else f (fA w) (identOf (d.reg t (fB w))) (d.reg t (fC w)).toNat d

/-- A wait whose condition does not hold: its deadline may have passed already, which makes it a poll (R295).
DESIGN CHOICE: log entry 38. -/
def Dev.parkUntil (d : Dev) (e : Env) (t rd dl : Nat) (w : WaitFor) : Dev :=
  if dl ≠ 0 ∧ dl ≤ e.raw then d.result t rd 3 else (d.advance t).park e t w

/-- Whether an engine's completion count has reached v (R133). -/
def reached (completed v : Nat) : Bool := (completed + 2 ^ 32 - v % 2 ^ 32) % 2 ^ 32 < 2 ^ 31

def Dev.slotState (d : Dev) (ident : Nat) : Option SlotState := (tget d.slots ident).map (·.st)

def Dev.engine (d : Dev) (n k : Nat) : Engine := tgetD (d.fold n).engines k {}

def execWaitEngine (t : Nat) (s : State) : Host.Outcome State Fault Refusal :=
  run (.waitEngine t) (fun e d => d.waitRow e t 0 fun rd eng v d =>
    if reached (d.engine (foldOfThread t) eng).completed v then d.result t rd 0
    else ((d.advance t).modThread t fun th => th.setReg rd 0).park e t (.engine eng v)) s

def execWaitQueue (t : Nat) (s : State) : Host.Outcome State Fault Refusal :=
  run (.waitQueue t) (fun e d => d.waitRow e t 1 fun rd id dl d =>
    match tget d.queues id with
    | none => d
    | some q =>
      if (takePos q).isSome && q.waiters.isEmpty then (d.advance t).takeEntry id t rd
      else if dl ≠ 0 ∧ dl ≤ e.raw then d.result t rd 3
      else { (d.advance t).park e t (.queue id rd dl) with
        queues := tset d.queues id { q with waiters := q.waiters ++ [t] } }) s

def execWaitCredit (t : Nat) (s : State) : Host.Outcome State Fault Refusal :=
  run (.waitCredit t) (fun e d => d.waitRow e t 2 fun rd id dl d =>
    let free := ((tget d.queues id).bind fun q => (prodIndex q (.thread t)).bind fun i =>
      (q.prods[i]?).map fun p => decide (p.used < p.credits)).getD false
    if free then d.result t rd 0 else d.parkUntil e t rd dl (.credit id rd dl)) s

def execWaitSlotFull (t : Nat) (s : State) : Host.Outcome State Fault Refusal :=
  run (.waitSlotFull t) (fun e d => d.waitRow e t 3 fun rd id dl d =>
    match d.slotState id with
    | some .full => d.result t rd 0
    | some .abandoned => d.result t rd 1
    | _ => d.parkUntil e t rd dl (.slotFull id rd dl)) s

def execWaitSlotEmpty (t : Nat) (s : State) : Host.Outcome State Fault Refusal :=
  run (.waitSlotEmpty t) (fun e d => d.waitRow e t 4 fun rd id dl d =>
    match d.slotState id with
    | some .empty => d.result t rd 0
    | _ => d.parkUntil e t rd dl (.slotEmpty id rd dl)) s

/-- WAIT HURDLE counts one arrival, which travels to the home fold, and holds the thread (R311, R313, R314). -/
def execWaitHurdle (t : Nat) (s : State) : Host.Outcome State Fault Refusal :=
  run (.waitHurdle t) (fun e d => d.waitRow e t 5 fun rd id _ d =>
    match (tget d.hurdles id).bind (·.broken) with
    | some c =>
      let d := d.result t rd (BitVec.ofNat 64 c)
      if c = causeTimeout then d.starve t 4 id else d
    | none => ((d.advance t).park e t (.hurdle id rd)).launchFlight (.arrive id (some t) (d.threadSrc t))) s

def execWaitTime (t : Nat) (s : State) : Host.Outcome State Fault Refusal :=
  run (.waitTime t) (fun e d => d.waitRow e t 6 fun rd k v d =>
    if (v : Int) ≤ d.counter k e.raw then d.result t rd 0 else (d.advance t).park e t (.time k v rd)) s

/-- QSTAT: entries present and the overrun bit, which is then cleared (R292). -/
def execWaitQstat (t : Nat) (s : State) : Host.Outcome State Fault Refusal :=
  run (.waitQstat t) (fun e d => d.waitRow e t 7 fun rd id _ d =>
    match tget d.queues id with
    | none => d
    | some q =>
      { d with queues := tset d.queues id { q with overrun := false } }.result t rd
        (BitVec.ofNat 64 (q.entries.length % 65536 + if q.overrun then 65536 else 0))) s

/-- A wait ends at its deadline with status 3 (R294, R295). -/
def execWaitDeadline (t : Nat) (s : State) : Host.Outcome State Fault Refusal :=
  run (.waitDeadline t) (fun e d =>
    let hit (rd dl : Nat) : Dev := if dl ≠ 0 ∧ dl ≤ e.raw then (d.unqueue t).wakeStatus t rd 3 else d
    match d.whatOf t with
    | some (.queue _ rd dl) => hit rd dl
    | some (.credit _ rd dl) => hit rd dl
    | some (.slotFull _ rd dl) => hit rd dl
    | some (.slotEmpty _ rd dl) => hit rd dl
    | _ => d) s

/-- Declared timeout of a queue has passed for a wait. -/
def expired (e : Env) (w : Wait) (timeout : Option Nat) : Bool :=
  match timeout with
  | some n => decide (w.since + n ≤ e.raw)
  | none => false

/-- Reader's timeout at a slot (R307): a parked read is delivered poisoned, a WAIT SLOT_FULL returns TIMEOUT; the
starvation fault is the waiting fold's (R294). A read through the device's own stile space ends with status 5 (R450). -/
def Dev.readerTimeout (d : Dev) (e : Env) (ident t : Nat) : Dev :=
  match d.waitOf t, tget d.slots ident with
  | some w, some s =>
    if s.st = .empty && expired e w (some s.timeoutNs) then
      let late (d : Dev) : Dev := { d with slots := tset d.slots ident { s with late := true } }
      match w.what with
      | .slotFull i rd _ => if i = ident then ((late d).wakeStatus t rd 2).starve t 2 ident else d
      | .slotRead i a n rd =>
        if i ≠ ident then d
        else if inStile a then
          let x := (d.stileFault (d.threadSrc t) a 5).freeBytes n
          ((x.2.loadResult t rd x.1 true).wake t []).advance t
        else
          let d := late d
          (((d.loadResult t rd (d.raw a n) true).wake t []).advance t).starve t 2 ident
      | _ => d
    else d
  | _, _ => d

/-- The writer's timeout of stores that had left their thread when the guard closed: they are dropped, on a FULL slot with the
taint, and a thread that waits for an atomic's old value goes on (R307). DEDUCED: log entry 29. -/
def Dev.dropParked (d : Dev) (t ident : Nat) (mine : Posted → Bool) (s : Slot) : Dev :=
  let dead := d.posted.all fun p => !mine p || p.dead
  let d := { d with
    posted := d.posted.filter fun p => !mine p
    slots := if s.st = SlotState.full then tset d.slots ident { s with taint := true } else d.slots }
  let d := match d.whatOf t with
    | some (.atomicData _) => if dead then d else d.wake t []
    | _ => d
  (d.storeGone t).starve t 3 ident

/-- Writer's timeout at a slot (R307): a parked write is dropped, a WAIT SLOT_EMPTY returns TIMEOUT; on a FULL slot the
taint is set. A write through the device's own stile space ends with status 5 (R450). -/
def Dev.writerWaitTimeout (d : Dev) (e : Env) (ident t : Nat) : Dev :=
  match d.waitOf t, tget d.slots ident with
  | some w, some s =>
    if s.st ≠ .empty && expired e w (some s.timeoutNs) then
      let mark (d : Dev) : Dev :=
        if s.st = .full then { d with slots := tset d.slots ident { s with taint := true } } else d
      match w.what with
      | .slotEmpty i rd _ => if i = ident then ((mark d).wakeStatus t rd 2).starve t 3 ident else d
      | .slotWrite i a =>
        if i ≠ ident then d
        else if inStile a then ((d.stileFault (d.threadSrc t) a 5).wake t []).advance t
        else (((mark d).wake t []).advance t).starve t 3 ident
      | _ => d
    else d
  | _, _ => d

/-- Writer's timeout at a slot, of a write that its thread waits with or that has left it (R307). -/
def Dev.writerTimeout (d : Dev) (e : Env) (ident t : Nat) : Dev :=
  match tget d.slots ident with
  | some s =>
    let mine (p : Posted) : Bool := p.thread == t && (p.refusedAt.map fun r => decide (r + s.timeoutNs ≤ e.raw)).getD false &&
      (d.slotsIn p.addr p.data.length).any (·.1 == ident)
    if d.posted.any mine && s.st != .empty then d.dropParked t ident mine s else d.writerWaitTimeout e ident t
  | none => d

/-- A wait ends at its object's declared timeout with status 2 and a starvation fault (R294, R295). -/
def execWaitTimeout (t : Nat) (s : State) : Host.Outcome State Fault Refusal :=
  run (.waitTimeout t) (fun e d =>
    match d.waitOf t with
    | none => d
    | some w =>
      let q (id : Nat) : Option Nat := (tget d.queues id).bind (·.timeoutNs)
      match w.what with
      | .queue id rd _ => if expired e w (q id) then ((d.unqueue t).wakeStatus t rd 2).starve t 0 id else d
      | .credit id rd _ => if expired e w (q id) then (d.wakeStatus t rd 2).starve t 1 id else d
      | .slotFull id _ _ => d.readerTimeout e id t
      | .slotEmpty id _ _ => d.writerTimeout e id t
      | _ => d) s

/-- WAIT TIME ends when its counter reaches the time (R292). -/
def execTimeWaitExpiry (t : Nat) (s : State) : Host.Outcome State Fault Refusal :=
  run (.timeWaitExpiry t) (fun e d =>
    match d.whatOf t with
    | some (.time k v rd) => if (v : Int) ≤ d.counter k e.raw then d.wakeStatus t rd 0 else d
    | _ => d) s

/-! ## POST (R293, R302, R308, R453, R454) -/

/-- The word form of a POST (R293). -/
def postFormOk (w : Nat) : Bool := w % 2 ^ 39 = 0 && fKind w ≤ 4

/-- A message's queue operand has zero in [63:32] and [29:25] (R453). -/
def messageOperandOk (a : Word) : Bool := a.toNat < 2 ^ 32 && bitsAt a.toNat 25 5 = 0

/-- A POST that faults its thread. -/
def Dev.postIllegal (d : Dev) (t w : Nat) : Bool :=
  !postFormOk w || (fKind w ≤ 1 && (d.reg t (fA w)).toNat / 2 ^ 31 % 2 = 1 && !messageOperandOk (d.reg t (fA w)))

/-- A POST row of one kind. -/
def Dev.postRow (d : Dev) (e : Env) (t kind : Nat) (f : Nat → Dev → Dev) : Dev :=
  d.instr e t 0x0B fun w d =>
    if fKind w ≠ kind then d
    else if d.postIllegal t w then d.faultThread e t 1
    else f w d

/-- The MESSAGE payload's header (R453). -/
def messageBody (ident : Nat) (atEnd broadcast : Bool) (origin bseq : Nat) : List Nat :=
  [ident, flagWord [(0, atEnd), (1, broadcast)], origin, bseq]

/-- The root numbers, delivers and sends a broadcast to its children; another device relays it to its parent (R454). -/
def Dev.broadcast (d : Dev) (e : Env) (ident : Nat) (atEnd : Bool) (origin : Nat) (data : List Byte) (t : Option Nat) : Dev :=
  match d.treeParent with
  | some p =>
    match d.linkTo p with
    | some k => d.ndSend e k 0xA (messageBody ident atEnd true origin 0) data t
    | none => d
  | none =>
    let n := d.flock.nextBroadcast
    let d := { d with flock := { d.flock with nextBroadcast := (n + 1) % 2 ^ 32 } }
    let d := d.deliver ident .broadcast data atEnd 0x2C5
    d.sendTo e d.treeChildren 0xA (messageBody ident atEnd true origin n) data t

/-- Posts one entry: to a queue, to a Race release queue, or as a MESSAGE (R289, R293, R453). -/
def Dev.postEntry (d : Dev) (e : Env) (t : Nat) (a : Word) (data : List Byte) (atEnd : Bool) : Dev :=
  let id := identOf a
  let src := d.threadSrc t
  if a.toNat / 2 ^ 31 % 2 = 1 then
    if a.toNat / 2 ^ 30 % 2 = 1 then d.broadcast e id atEnd (d.flock.dev.getD 0) data (some t)
    else
      let dev := bitsAt a.toNat 16 9
      match d.linkTo dev with
      | some k =>
        if (d.peer k).fn = .running then d.ndSend e k 0xA (messageBody id atEnd false (d.flock.dev.getD 0) 0) data (some t)
        else d.raise src 0x0F 2 dev
      | none => d.raise src 0x0F 2 dev
  else if id / 256 = 0x3F then
    if id % 256 < 64 then d.launchFlight (.release (id % 256) data src) else d.objFault src 0 id
  else d.launchFlight (.entry id (.thread t) data atEnd src)

def Dev.postQueueAs (d : Dev) (e : Env) (t kind : Nat) : Dev :=
  d.postRow e t kind fun w d =>
    (d.postEntry e t (d.reg t (fA w)) (leBytes 8 (d.reg t (fB w)).toNat ++ leBytes 8 (d.reg t (fC w)).toNat)
      (kind = 1)).advance t

def execPostQueue (t : Nat) (s : State) : Host.Outcome State Fault Refusal :=
  run (.postQueue t) (fun e d => d.postQueueAs e t 0) s

def execPostQueueEnd (t : Nat) (s : State) : Host.Outcome State Fault Refusal :=
  run (.postQueueEnd t) (fun e d => d.postQueueAs e t 1) s

/-- MARK_FULL first waits, like FENCE, for the thread's earlier stores (R308). -/
def execPostMarkFull (t : Nat) (s : State) : Host.Outcome State Fault Refusal :=
  run (.postMarkFull t) (fun e d => d.postRow e t 2 fun w d =>
    let id := identOf (d.reg t (fA w))
    if d.storesDone t then (d.advance t).launchFlight (.mark id true (d.threadSrc t))
    else (d.advance t).park e t (.markFull id)) s

def execPostMarkEmpty (t : Nat) (s : State) : Host.Outcome State Fault Refusal :=
  run (.postMarkEmpty t) (fun e d => d.postRow e t 3 fun w d =>
    (d.advance t).launchFlight (.mark (identOf (d.reg t (fA w))) false (d.threadSrc t))) s

def execPostArrive (t : Nat) (s : State) : Host.Outcome State Fault Refusal :=
  run (.postArrive t) (fun e d => d.postRow e t 4 fun w d =>
    (d.advance t).launchFlight (.arrive (identOf (d.reg t (fA w))) none (d.threadSrc t))) s

/-! ## END and illegal words (R129, R138, R151, R153) -/

/-- Every thread of an instance is HALTED. -/
def Dev.allHalted (d : Dev) (k : Nat) : Bool := (d.threadsOf k).all fun t => (d.thread t).st == .halted

/-- No engine holds a job of an instance's threads. -/
def Dev.enginesIdle (d : Dev) (k : Nat) : Bool :=
  d.folds.all fun x => x.2.engines.all fun y =>
    (y.2.running.toList ++ y.2.queue).all fun j => !(d.threadsOf k).contains j.thread

/-- An instance whose threads have all ended: its invocation completes; a DRAIN ends once its engines are idle (R151,
R153, R379). -/
def Dev.settleInst (d : Dev) (e : Env) (k : Nat) : Dev :=
  if !d.allHalted k then d
  else
    let d := match (d.inst k).invoc with
      | some (q, tag) =>
        let n := (d.inst k).invocCount
        let d := d.modInst k fun x => { x with invoc := none }
        match d.outstBy q tag with
        | some o => d.finish e o { r0 := n }
        | none => d
      | none => d
    if (d.inst k).fn = .stopping ∧ d.enginesIdle k then
      let d := d.modInst k fun x => { x with fn := .stopped }
      match d.stopOf 0x203 k 0 with
      | some o => d.finish e o {}
      | none => d
    else d

def execEndThread (t : Nat) (s : State) : Host.Outcome State Fault Refusal :=
  run (.endThread t) (fun e d => d.instr e t 0x0D fun _ d =>
    let d := (d.advance t).haltThread t
    match d.ownerOf t with
    | some k => d.settleInst e k
    | none => d) s

/-- A word whose class is not listed, a malformed WAIT or POST, or a fetch that fails faults the thread (R131, R138). -/
def execIllegalInstruction (t : Nat) (s : State) : Host.Outcome State Fault Refusal :=
  run (.illegalInstruction t) (fun e d =>
    if d.mayIssue t then
      match d.fetch t with
      | (.bad c, d1) => (d1.issued e t).faultThread e t c
      | (.word w, d1) =>
        if !(1 ≤ classOf w && classOf w ≤ 0x0D) || (classOf w = 0x0A && d1.waitIllegal t w) ||
            (classOf w = 0x0B && d1.postIllegal t w) then (d1.issued e t).faultThread e t 1
        else d
    else d) s

/-! ## Hand-offs arrive (R303, R308, R313) -/

/-- Takes flight `i` out of the list. -/
def Dev.dropFlight (d : Dev) (i : Nat) : Dev := { d with flights := d.flights.eraseIdx i }

/-- The entries of one producer reach a queue in the order in which they were written (R300). DEDUCED: log entry 29. -/
def execQueueEntryArrival (i : Nat) (s : State) : Host.Outcome State Fault Refusal :=
  runClocked (.queueEntryArrival i) (fun _ d =>
    match d.flights[i]? with
    | some (.entry id who data atEnd src) =>
      if (d.flights.take i).any (sameEntry id who) then d else (d.dropFlight i).deliver id who data atEnd src
    | _ => d) s

/-- DEDUCED: log entry 29. -/
def execSlotMarkArrival (i : Nat) (s : State) : Host.Outcome State Fault Refusal :=
  runClocked (.slotMarkArrival i) (fun _ d =>
    match d.flights[i]? with
    | some (.mark id full src) => (d.dropFlight i).slotMark id full src
    | _ => d) s

/-- DEDUCED: log entry 29. -/
def execHurdleArrival (i : Nat) (s : State) : Host.Outcome State Fault Refusal :=
  runClocked (.hurdleArrival i) (fun e d =>
    match d.flights[i]? with
    | some (.arrive id w src) => (d.dropFlight i).hurdleArrive e id w src
    | _ => d) s

/-- The release reaches a member fold and its waiting threads go on (R313). -/
def execHurdleReleaseArrival (i : Nat) (s : State) : Host.Outcome State Fault Refusal :=
  runClocked (.hurdleReleaseArrival i) (fun _ d =>
    match d.flights[i]? with
    | some (.freed id _ ts) => ts.foldl (fun d t =>
        match d.whatOf t with
        | some (.hurdle j rd) => if j = id then d.wakeStatus t rd 0 else d
        | _ => d) (d.dropFlight i)
    | _ => d) s

/-- A hurdle breaks when its timeout passes after the first arrival of a phase (R314). -/
def execHurdleTimeout (ident : Nat) (s : State) : Host.Outcome State Fault Refusal :=
  run (.hurdleTimeout ident) (fun e d =>
    match tget d.hurdles ident with
    | none => d
    | some h =>
      let began := decide (0 < h.count) || (h.flock.map fun n => (d.flockState n).own).getD false
      if began && h.broken.isNone && decide (h.firstArrival + h.timeoutNs ≤ e.raw) then
        d.breakHurdle e ident causeTimeout none
      else d) s

end Sys2Proof.Machine
end

