-- ==== Sys2Proof/Machine/Trough.lean ====
section
/-! DEFINITION. How jobs read their operands: the fill cycles and the walker's line slots (R208, R220, R274 to R276), the trough
rows that tile jobs fill and read (R162 to R165, R169, R170, R208), and the weights in the cells (R194, R196, R201). -/

namespace Sys2Proof.Machine

open Sys2Proof

/-! ## The state of a fold's units -/

def Dev.array (d : Dev) (n k : Nat) : ArrayState := tgetD (d.fold n).arrays k {}
def Dev.modArray (d : Dev) (n k : Nat) (f : ArrayState → ArrayState) : Dev :=
  d.modFold n fun x => { x with arrays := tmod x.arrays k {} f }

/-- A JOB fault (R510). -/
def Dev.jobFault (d : Dev) (n k detail issue : Nat) : Dev := d.raise (d.workSrc n) 7 detail (k * 2 ^ 32 + issue)

/-- The free-value index of item `x` of one event. DESIGN CHOICE: log entry 3. -/
def freeAt (d : Dev) (x : Nat) : Nat := d.free + (x + 1) * 2 ^ 64

/-! ## Fill cycles (R208, R210, R274, R275) -/

/-- The line slots that the walker spends on output row `i` in a step; a tap in padding reads nothing (R274, R275). -/
def walkerLines (d : List Byte) (s : StepOf) (i : Nat) : List (Option Nat) :=
  let c := convBlock d
  let ea := fmtBytes (tjFmtA d)
  (List.range (c.th * c.tw)).flatMap fun t =>
    if t * c.cp < 128 * s.kb + s.kc ∧ 128 * s.kb < (t + 1) * c.cp then
      let c0 := max (128 * s.kb) (t * c.cp) - t * c.cp
      let c1 := min (128 * s.kb + s.kc) ((t + 1) * c.cp) - t * c.cp
      let first := c0 * ea / 64
      (List.range ((c1 * ea + 63) / 64 - first)).map fun x => (tapAddr d i t).map fun a => a / 64 + first + x
    else []

/-- The line slots of a step's A fill, row by row (R208, R210, R274). -/
def aSlots (d : List Byte) (s : StepOf) : List (Option Nat) :=
  let ea := fmtBytes (tjFmtA d)
  let w := 128 / tjQ d
  ((List.range s.mc).map fun x => 128 * s.i + x).flatMap fun i =>
    match tjKind d with
    | 1 => walkerLines d s i
    | 2 => ((linesOf (tjA d + i * tjLda d + w * s.j * ea) (s.nc * ea)) ++
        (if tjQ d = 2 then linesOf (tjB d + i * tjLdb d + w * s.j * ea) (s.nc * ea) else [])).map some
    | _ => (linesOf (tjA d + i * tjLda d + 128 * s.kb * ea) (s.kc * ea)).map some

/-- The lines of a step's B fill (R208). -/
def bSlots (d : List Byte) (s : StepOf) : List Nat :=
  let eb := fmtBytes (tjFmtB d)
  (List.range s.kc).flatMap fun x => linesOf (tjB d + (128 * s.kb + x) * tjLdb d + 128 * s.j * eb) (s.nc * eb)

/-- Four line slots to a cycle (R157, R274). -/
def fours (l : List (Option Nat)) : List (List (Option Nat)) :=
  (List.range ((l.length + 3) / 4)).map fun i => (l.drop (4 * i)).take 4

/-- The cycles in which a job reads memory, in order, and whether the walker reads in them (R208, R220). A vector instruction's
ranges, and the vectors, A and B of a tile job, each begin a cycle. DESIGN CHOICE: log entry 97. -/
def jobCycles (k : Nat) (b : List Byte) : List (Bool × List (Option Nat)) :=
  let plain (l : List Nat) : List (Bool × List (Option Nat)) := (fours (l.map some)).map fun c => (false, c)
  if k = 2 then
    if viIsConv (viOp b) then ((viReads b).drop 1).flatMap (fun r => plain r.lineList) ++ (viTapLines b).flatMap plain
    else (viReads b).flatMap fun r => plain r.lineList
  else
    plain ((if tjScaleVec b then linesOf (tjScale b) (4 * tjN b) else []) ++
      (if tjBiasVec b then linesOf (tjBias b) (4 * tjN b) else [])) ++
    (tjSteps b).flatMap fun s =>
      (if tjFillsA b s then (fours (aSlots b s)).map fun c => (decide (tjKind b = 1), c) else []) ++
      (if tjFillsB b s then plain (bSlots b s) else [])

/-- The memory lines that a job reads. -/
def jobLines (k : Nat) (b : List Byte) : List Nat := ((jobCycles k b).flatMap fun c => c.2.filterMap id).dedup

/-- The hold of one walker cycle: different lines of one bank, address bits [10:6], wait for each other (R276); what waits together
shares the hold (R163). -/
def conflictHold (l : List (Option Nat)) : Nat :=
  let ls := (l.filterMap id).dedup
  (ls.map fun x => (ls.filter fun y => y % 32 == x % 32).length - 1).foldl max 0

/-- The hold of one cycle of operand reads: a correction, or different walker lines of one bank (R163). -/
def Dev.cycleHold (d : Dev) (c : Bool × List (Option Nat)) : Nat :=
  max (if (c.2.filterMap id).any d.corrects then 3 else 0) (if c.1 then conflictHold c.2 else 0)

/-- The reads of one cycle. The accumulator holds the lines delivered poisoned; a guarded slot that spoils its content counts
(R310). -/
def Dev.fillCycle (n : Nat) (acc : List Nat × Dev) (c : Bool × List (Option Nat)) : List Nat × Dev :=
  (c.2.filterMap id).dedup.foldl (fun x l =>
    let y := x.2.readLine (x.2.workSrc n) false l
    (if y.1 || (y.2.slotsIn (64 * l) 64).any (fun s => slotSpoils s.2) then (if x.1.contains l then x.1 else x.1 ++ [l]) else x.1,
      y.2)) acc

/-- The cycles of several jobs that start together, cycle by cycle. -/
def besides {α : Type} (l : List (List α)) : List (List (Nat × α)) :=
  (List.range ((l.map List.length).foldl max 0)).map fun t =>
    l.zipIdx.filterMap fun x => (x.1[t]?).map fun c => (x.2, c)

/-- Reads the operands of the jobs that start on one cycle (R134): the lines delivered poisoned to each, and the device after the reads.
The causes of a hold in one cycle share the longest (R163). -/
def Dev.readTogether (d : Dev) (n : Nat) (l : List (Nat × List Byte)) : List (List Nat) × Dev :=
  (besides (l.map fun x => jobCycles x.1 x.2)).foldl (fun acc row =>
    let h := (row.map fun x => acc.2.cycleHold x.2).foldl max 0
    let d := if h = 0 ∨ n = collieFold then acc.2 else acc.2.hold (acc.2.physOf n) h
    row.foldl (fun acc x =>
      let r := Dev.fillCycle n (acc.1.getD x.1 [], acc.2) x.2
      (acc.1.set x.1 r.1, r.2)) (acc.1, d)) (l.map fun _ => [], d)

/-! ## The operands a job used (R220) -/

/-- What has been written to the operand lines of a running job since its start, or is being written by a mate of its GROUP: line,
content, poison (R220). -/
def Dev.writtenTo (d : Dev) (j : Job) (ahead : List (Nat × List Byte × Bool)) : List (Nat × List Byte × Bool) :=
  d.mem.past.drop j.since ++ ahead

/-- The content that one fill of a running job took of a line written since its start: any content the line has had, a free choice fill
by fill and line by line (R220). DEDUCED: log entry 28. -/
def Dev.taken (d : Dev) (w : List (Nat × List Byte × Bool)) (fill l : Nat) : Option (List Byte × Bool) :=
  let c := w.filter (·.1 == l)
  (c.drop (Config.freeNat (freeAt d (l + fill * 2 ^ 52)) % (c.length + 1))).head?.map (·.2)

/-- The operand bytes that each fill of a job took, and the lines among them that were poisoned. DEDUCED: log entry 28. -/
def Dev.jobView (d : Dev) (j : Job) (ahead : List (Nat × List Byte × Bool)) : (Nat → Nat → Byte) × (Nat → Nat → Bool) :=
  let w := d.writtenTo j ahead
  (fun fill a => match d.taken w fill (a / 64) with
    | some x => x.1.getD (a % 64) 0
    | none => mget j.snap a,
   fun fill l => match d.taken w fill l with
    | some x => x.2
    | none => j.badLines.contains l)

/-! ## Trough rows (R158, R169, R170, R208) -/

/-- Writes one line of a side: its row is then valid (R170). Lines are counted from bank 0 on, four to a row. -/
def Trough.put (t : Trough) (i : Nat) (l : TLine) : Trough :=
  let row := tgetD t.rows (i / 4) []
  { t with rows := tset t.rows (i / 4) ((List.range 4).map fun x => if x = i % 4 then l else row.getD x {}) }

def Trough.fill (t : Trough) (i : Nat) (ls : List TLine) : Trough := ls.zipIdx.foldl (fun t x => t.put (i + x.2) x.1) t

/-- No row of the side is valid. -/
def Trough.unwritten (t : Trough) : Bool := t.rows.isEmpty && !t.pattern

/-- A memory line as it enters a trough: its check and poison come with it (R27, R169). -/
def Dev.lineIn (d : Dev) (v : Nat → Byte) (bad : Nat → Bool) (l : Nat) : TLine :=
  let bs := (List.range 64).map fun i => v (64 * l + i)
  { bytes := bs, check := if bs = d.raw (64 * l) 64 then d.checkOf l else lineCheck bs, poison := bad l }

/-- The first line of a step's block on the A side: the panel of a row chunk in one bank, the next chunk's in the other, or one block
a bank, alternating (R208). DESIGN CHOICE: log entry 97. -/
def aPlace (d : List Byte) (s : StepOf) : Nat :=
  let kt := if tjKind d = 2 then 1 else ceilDiv (tjK d) 128
  if tjPanel d then 4096 * (s.i % 2) + s.mc * (2 * fmtBytes (tjFmtA d)) * s.kb
  else 4096 * ((s.tile * kt + s.kb) % 2)

/-- The first line of a step's block on the B side: one block a bank, alternating, or all of B over both banks (R208).
DESIGN CHOICE: log entry 97. -/
def bPlace (d : List Byte) (s : StepOf) : Nat :=
  let eb := fmtBytes (tjFmtB d)
  if tjBMode d = 0 then 4096 * ((s.tile * ceilDiv (tjK d) 128 + s.kb) % 2)
  else tjK d * (2 * eb) * s.j + 128 * s.kb * lines (s.nc * eb)

/-- Lines of a step's blocks. -/
def aCount (d : List Byte) (s : StepOf) : Nat :=
  let ea := fmtBytes (tjFmtA d)
  if tjKind d = 2 then s.mc * tjQ d * lines (s.nc * ea) else s.mc * lines (s.kc * ea)
def bCount (d : List Byte) (s : StepOf) : Nat := if tjKind d = 2 then 0 else s.kc * lines (s.nc * fmtBytes (tjFmtB d))

/-- The assembled lines of one output row of a CONV step: a fresh check over each, poisoned where a line it draws on is (R269,
R272). DESIGN CHOICE: log entry 97. -/
def convLines (d : List Byte) (v : Nat → Byte) (bad : Nat → Bool) (s : StepOf) (i : Nat) : List TLine :=
  let c := convBlock d
  let ea := fmtBytes (tjFmtA d)
  let at_ (x : Nat) : Option Nat :=
    if x % c.cp < c.inC then (tapAddr d i (x / c.cp)).map fun a => a + x % c.cp * ea else none
  let el (x : Nat) : List Byte := match at_ x with
    | some a => (List.range ea).map fun y => v (a + y)
    | none => leBytes ea (if x % c.cp < c.inC ∧ c.mode = 1 then c.const else 0)
  (List.range (lines (s.kc * ea))).map fun y =>
    let xs := ((List.range s.kc).drop (64 / ea * y)).take (64 / ea) |>.map (128 * s.kb + ·)
    let bs := padTo 64 (xs.flatMap el)
    { bytes := bs, check := lineCheck bs, poison := xs.any fun x => ((at_ x).map fun a => bad (a / 64)).getD false }

/-- The lines of a step's A block. -/
def Dev.aLines (d : Dev) (b : List Byte) (v : Nat → Byte) (bad : Nat → Bool) (s : StepOf) : List TLine :=
  if tjKind b = 1 then ((List.range s.mc).map fun x => 128 * s.i + x).flatMap (convLines b v bad s)
  else ((aSlots b s).filterMap id).map (d.lineIn v bad)

/-- Fills a step's blocks into the troughs of an array. -/
def Dev.fillStep (d : Dev) (n k : Nat) (b : List Byte) (v : Nat → Byte) (bad : Nat → Bool) (s : StepOf) : Dev :=
  d.modArray n k fun a => { a with
    sideA := if tjFillsA b s then a.sideA.fill (aPlace b s) (d.aLines b v bad s) else a.sideA
    sideB := if tjFillsB b s then a.sideB.fill (bPlace b s) ((bSlots b s).map (d.lineIn v bad)) else a.sideB }

/-- A side of an array, and its change. -/
def ArrayState.side (a : ArrayState) (b : Bool) : Trough := if b then a.sideB else a.sideA
def ArrayState.setSide (a : ArrayState) (b : Bool) (t : Trough) : ArrayState :=
  if b then { a with sideB := t } else { a with sideA := t }

/-- The argument of a fault at a trough row (R164). -/
def troughArg (k : Nat) (b : Bool) (i : Nat) : Nat := (if b then 2048 else 0) + 1024 * k + i / 4 % 1024

/-- The cells of line `i` of a side, as `Mem.stuck` keys them. DESIGN CHOICE: log entry 112. -/
def Dev.troughKey (d : Dev) (n k : Nat) (b : Bool) (i : Nat) : Nat :=
  2 ^ 45 + d.physOf n * 2 ^ 15 + k * 2 ^ 14 + (if b then 8192 else 0) + i % 8192

/-- The bit that a read of line `i` of a side corrects (R162, R530). -/
def Dev.troughFix (d : Dev) (n k : Nat) (b : Bool) (i : Nat) (l : TLine) : Option Nat :=
  match l.err with
  | some .uncorrectable => none
  | some (.single bit) => some bit
  | _ => tget d.mem.stuck (d.troughKey n k b i)

/-- Reads one line of a valid row through its checks, correcting first (R29, R162, R164, R165); what is corrected or found bad is stored by
the side's write port before the next read. DESIGN CHOICE: log entry 97. -/
def Dev.readTroughLine (d : Dev) (n k : Nat) (b : Bool) (i : Nat) (l : TLine) : Bool × Dev :=
  let arg := troughArg k b i
  let key := i + if b then 8192 else 0
  let store (d : Dev) (l : TLine) : Dev := d.modArray n k fun a => a.setSide b ((a.side b).put i l)
  let bad : Option Nat :=
    if l.poison then none
    else if l.err == some .uncorrectable then some 0
    else if l.err == some .checkMismatch || l.check != lineCheck l.bytes then some 1 else none
  let d := match d.troughFix n k b i l with
    | none => d
    | some bit =>
      let c := tgetD (d.array n k).corrected key 0
      let d := (store d { l with err := none }).modArray n k fun a => { a with corrected := tset a.corrected key (c + 1) }
      if c = 0 then d.raise (0x0C0 + d.physOf n) 1 bit arg
      else if c = 1 then d.raise (0x0C0 + d.physOf n) 2 bit arg else d
  match bad with
  | some detail => (true, (store d { l with poison := true, err := none }).raise (d.workSrc n) 3 detail arg)
  | none => (l.poison, d)

/-- The lines from `i` on within `i .. i + c` that lie in one row of a side, where the row is valid. -/
def Dev.rowLines (d : Dev) (n k : Nat) (b : Bool) (row i c : Nat) : List (Nat × TLine) :=
  match tget ((d.array n k).side b).rows row with
  | none => []
  | some ls => ((List.range 4).filter fun x => i ≤ 4 * row + x && 4 * row + x < i + c).map fun x => (4 * row + x, ls.getD x {})

/-- Reads one row of a side: a row that is not valid is delivered poisoned with the trough-unwritten fault (R170). -/
def Dev.readRow (d : Dev) (n k : Nat) (b : Bool) (issue row i c : Nat) : Bool × Dev :=
  let t := (d.array n k).side b
  if (tget t.rows row).isNone then (if t.pattern then (false, d) else (true, d.jobFault n k 1 issue))
  else (d.rowLines n k b row i c).foldl (fun acc x =>
    let r := acc.2.readTroughLine n k b x.1 x.2
    (acc.1 || r.1, r.2)) (false, d)

/-- The rows that hold `c` lines from line `i` on. -/
def rowsAt (i c : Nat) : List Nat := ((List.range c).map fun x => (i + x) / 4).dedup

/-- One round of a step: the sides are read side by side, a row of each in a cycle (R157, R196), and corrections in one cycle share a
hold (R163). -/
def Dev.readRound (d : Dev) (n k : Nat) (j : Job) (s : StepOf) : Bool × Dev :=
  let a := (aPlace j.desc s, aCount j.desc s)
  let b := (bPlace j.desc s, bCount j.desc s)
  (besides [(rowsAt a.1 a.2).map fun r => (false, r, a), (rowsAt b.1 b.2).map fun r => (true, r, b)]).foldl (fun acc row =>
    let fixed := row.any fun x => (acc.2.rowLines n k x.2.1 x.2.2.1 x.2.2.2.1 x.2.2.2.2).any fun y =>
      (acc.2.troughFix n k x.2.1 y.1 y.2).isSome
    let d := if fixed then acc.2.hold (acc.2.physOf n) 3 else acc.2
    row.foldl (fun acc x =>
      let r := acc.2.readRow n k x.2.1 j.issue x.2.2.1 x.2.2.2.1 x.2.2.2.2
      (acc.1 || r.1, r.2)) (acc.1, d)) (false, d)

/-- The steps of a tile job: while a step streams from the troughs, the next one's blocks are filled (R208, R209). The fill of
the first step came with the job's start, and took what its lines then came to hold (R220). -/
def Dev.runSteps (d : Dev) (n k : Nat) (j : Job) (written : List Nat) (v : Nat → Nat → Byte) (bad : Nat → Nat → Bool) : Bool × Dev :=
  let l := tjSteps j.desc
  let d := match l with
    | s :: _ => if ((aSlots j.desc s).filterMap id ++ bSlots j.desc s).any written.contains then
        d.fillStep n k j.desc (v 0) (bad 0) s else d
    | [] => d
  (l.zip ((l.zipIdx.drop 1).map some ++ [none])).foldl (fun acc x =>
    let d := match x.2 with
      | some s => acc.2.fillStep n k j.desc (v s.2) (bad s.2) s.1
      | none => acc.2
    (List.range (max 1 (pairLimbs (tjFmtA j.desc) (tjFmtB j.desc)))).foldl (fun acc _ =>
      let r := acc.2.readRound n k j x.1
      (acc.1 || r.1, r.2)) (acc.1, d)) (false, d)

/-- A byte of B as the B side holds it after a LOAD (R208, R217). -/
def Trough.byteB (t : Trough) (d : List Byte) (a : Nat) : Byte :=
  let eb := fmtBytes (tjFmtB d)
  let x := (a - tjB d) / tjLdb d
  let c := (a - tjB d) % tjLdb d
  let j := c / (128 * eb)
  let nc := min 128 (tjN d - 128 * j)
  let i := tjK d * (2 * eb) * j + x * lines (nc * eb) + c % (128 * eb) / 64
  ((tgetD t.rows (i / 4) []).getD (i % 4) {}).bytes.getD (c % 64) 0

/-! ## The cells (R194, R196, R201, R210) -/

/-- The weight that cell (row, column) holds in a round: limb `rb` of an element of B, or for EWISE w0 or w1 on its segment's
diagonal; zero beyond the job's indices. -/
def cellWeight (d : List Byte) (vb : Nat → Byte) (s : StepOf) (rb row col : Nat) : Rat :=
  let fb := tjFmtB d
  let r := pairLimbs (tjFmtA d) fb
  if tjKind d = 2 then
    let w (x : Nat) : Rat := cellOperand fb (encodeVal fb 0 false (f32 x)) r rb
    if s.nc ≤ col then 0 else if row = col then w (tjW0 d) else if tjQ d = 2 ∧ row = s.nc + col then w (tjW1 d) else 0
  else if row < s.kc ∧ col < s.nc then
    let eb := fmtBytes fb
    cellOperand fb (viewNat vb (tjB d + (128 * s.kb + row) * tjLdb d + (128 * s.j + col) * eb) eb) r rb
  else 0

/-- The weight block of a round, row by row. -/
def weightBlock (d : List Byte) (vb : Nat → Byte) (s : StepOf) (rb : Nat) : List Rat :=
  (List.range 128).flatMap fun row => (List.range 128).map fun col => cellWeight d vb s rb row col

/-- The partial sums that the last sub-row of a step leaves at the feet of the columns: A limb 0 of the chunk's last row against
B limb 0 (R194, R201, R228). -/
def lastPartials (d : List Byte) (va vb : Nat → Nat → Byte) (s : StepOf) : List Rat :=
  let fa := tjFmtA d
  let fb := tjFmtB d
  let r := pairLimbs fa fb
  (List.range 128).map fun col =>
    if s.nc ≤ col then 0
    else
      let j := (if tjKind d = 2 then 128 / tjQ d else 128) * s.j + col
      let i := 128 * s.i + s.mc - 1
      let l := ((tjPairs d (fun kb => va (tjFillA d i j kb)) (fun kb => vb (tjFillB d i j kb)) i j).filter fun x => x.1 / 128 == s.kb).map fun x =>
        cellOperand fa x.2.1 r 0 * cellOperand fb x.2.2 r 0
      if pairExact fa then l.sum else l.foldl (alignedAdd 57) 0

/-- The weights and sums that a finished job leaves in the cells (R194, R196). DESIGN CHOICE: log entry 97. -/
def Dev.settleCells (d : Dev) (n k : Nat) (b : List Byte) (va vb : Nat → Nat → Byte) : Dev :=
  match (tjSteps b).getLast? with
  | none => d
  | some s =>
    let w := weightBlock b (vb (tjFillB b (128 * s.i) (128 * s.j) s.kb)) s 0
    d.modArray n k fun a => { a with active := w, shadow := w, partials := lastPartials b va vb s }

/-- The first round's weights enter the shadow registers in the prologue (R196, R209). -/
def Dev.firstWeights (d : Dev) (n k : Nat) (b : List Byte) (vb : Nat → Byte) : Dev :=
  match (tjSteps b).head? with
  | none => d
  | some s => d.modArray n k fun a => { a with shadow := weightBlock b vb s (pairLimbs (tjFmtA b) (tjFmtB b) - 1) }

end Sys2Proof.Machine
end

