-- ==== Sys2Proof/Machine/Collie.lean ====
section
/-! DEFINITION. The Collie (R254, R486): its 16 thread contexts are threads 3,072 to 3,087, which make fold 48 of the model with
the Collie memory as own memory; engines 0 to 3 of that fold are its arrays, 4 to 7 its vector units. DESIGN CHOICE: log entry 31. -/

namespace Sys2Proof.Machine

open Sys2Proof

/-- What an engine is by the numbers of a fold (R124): a Collie array runs tile jobs, a Collie vector unit vector instructions. -/
def kindOf (n k : Nat) : Nat := if n = collieFold then (if k < 4 then 0 else 2) else k

/-- The engines that the sequencer of a fold, or the Collie, starts. -/
def sequenced (n : Nat) : Nat := if n = collieFold then 8 else 3

/-- A tile job that a Collie array can run: FP16 inputs, nothing held or loaded. -/
def collieTileOk (b : List Byte) : Bool :=
  tileOk collieFold b && tjFmtA b == 0x12 && tjFmtB b == 0x12 && tjBMode b == 0 && !tjKeep b && !tjContinue b

/-- A value as the epilogue takes it. -/
def Acc.ofVal : Val → Acc
  | .nan => { nan := true }
  | .inf neg => { posInf := !neg, negInf := neg }
  | .fin q _ => { sum := q }

/-- One output of a Collie array: each addition is rounded to FP32 (R486). -/
def collieSum (l : List (Nat × Nat × Nat)) : Val :=
  l.foldl (fun a x => decodeVal 0x14 (encodeVal 0x14 0 false (mulAdd (decodeVal 0x12 x.2.1) (decodeVal 0x12 x.2.2) a))) vzero

/-- The sums of a job on a Collie array, row by row. -/
def collieAccs (b : List Byte) (v : Nat → Byte) : List Acc :=
  (List.range (tjM b)).flatMap fun i => (List.range (tjN b)).map fun j => Acc.ofVal (collieSum (tjPairs b (fun _ => v) (fun _ => v) i j))

/-- The cells of the 32 × 32 array after a job: the sums of its last tile. -/
def collieCells (b : List Byte) (accs : List Acc) : List Rat :=
  let i0 := (tjM b - 1) / 32 * 32
  let j0 := (tjN b - 1) / 32 * 32
  (List.range (tjM b - i0)).flatMap fun i => (List.range (tjN b - j0)).map fun j =>
    (accs.getD ((i0 + i) * tjN b + j0 + j) {}).sum

end Sys2Proof.Machine
end

