-- ==== Sys2Proof/Machine/Engines.lean ====
section
/-! DEFINITION. The engines of a fold (R124 to R137, R142 to R144, R167, R186 to R190, R202 to R220, R249, R259 to R263):
ISSUE and GROUP, job start and completion, drovers, gating and waking. -/

namespace Sys2Proof.Machine

open Sys2Proof

/-! ## Queues of the engines (R124, R132, R133) -/

/-- Queue depth of an engine (R124). -/
def engineDepth (k : Nat) : Nat := if k = 2 then 32 else 16

def Dev.modEngine (d : Dev) (n k : Nat) (f : Engine → Engine) : Dev :=
  d.modFold n fun x => { x with engines := tmod x.engines k {} f }

/-! ## Drover descriptors (R186, R187) -/

def dvOp (d : List Byte) : Nat := dfield d 0x00 1
def dvElem (d : List Byte) : Nat := 2 ^ dfield d 0x01 1
def dvPost (d : List Byte) : Bool := bitOf (dfield d 0x02 2) 0
def dvQueue (d : List Byte) : Nat := dfield d 0x04 2
def dvSrc (d : List Byte) : Nat := dfield d 0x08 8
def dvDst (d : List Byte) : Nat := dfield d 0x10 8
def dvCount (d : List Byte) (i : Nat) : Nat := if i = 0 then dfield d 0x18 4 else max 1 (dfield d (0x1A + 2 * i) 2)
def dvSrcStride (d : List Byte) (i : Nat) : Int := signedOf (dfield d (0x20 + 4 * i) 4) 32
def dvDstStride (d : List Byte) (i : Nat) : Int := signedOf (dfield d (0x2C + 4 * i) 4) 32

/-- A run of bytes that a descriptor moves. -/
structure Move where
  src : Int
  dst : Int
  len : Nat
deriving DecidableEq, Repr

/-- Offsets of the outer dimensions 2 and 3. -/
def dvOuter (d : List Byte) : List (Int × Int) :=
  (List.range (dvCount d 3)).flatMap fun k => (List.range (dvCount d 2)).map fun j =>
    ((k : Int) * dvSrcStride d 3 + j * dvSrcStride d 2, (k : Int) * dvDstStride d 3 + j * dvDstStride d 2)

/-- The runs of a descriptor that reads and writes (R187). -/
def dvMoves (d : List Byte) : List Move :=
  let s : Int := (dvSrc d : Nat)
  let t : Int := (dvDst d : Nat)
  let w := dvElem d
  match dvOp d with
  | 0 | 4 => [{ src := s, dst := t, len := dvCount d 0 }]
  | 1 => (dvOuter d).flatMap fun o => (List.range (dvCount d 1)).map fun i =>
      { src := s + o.1 + i * dvSrcStride d 1, dst := t + o.2 + i * dvDstStride d 1, len := dvCount d 0 * w }
  | 2 => (dvOuter d).flatMap fun o => (List.range (dvCount d 1)).flatMap fun (r : Nat) => (List.range (dvCount d 0)).map fun (c : Nat) =>
      { src := s + o.1 + r * dvSrcStride d 1 + ((c * w : Nat) : Int), dst := t + o.2 + c * dvDstStride d 1 + ((r * w : Nat) : Int), len := w }
  | _ => []

/-- The ranges a descriptor reads and those it writes. -/
def dvReads (d : List Byte) : List (Int × Nat) :=
  match dvOp d with
  | 3 => []
  | 5 => [((dvSrc d : Nat), dvCount d 0)]
  | _ => (dvMoves d).map fun m => (m.src, m.len)

def dvWrites (d : List Byte) : List (Int × Nat) :=
  match dvOp d with
  | 3 => [((dvDst d : Nat), dvCount d 0)]
  | 5 => [((dvDst d : Nat), 4)]
  | _ => (dvMoves d).map fun m => (m.dst, m.len)

/-- A range lies in one populated area of memory that a drover may touch (R41, R43, R187). -/
def droverRange (x : Int × Nat) : Bool :=
  let a := x.1.toNat
  decide (0 ≤ x.1) && match zoneOf a with
  | .foldMem _ off => off + x.2 ≤ 0x800000
  | .common off => off + x.2 ≤ 0xC000000
  | .gddr off => off + x.2 ≤ gddrSize
  | _ => false

/-- The format check of a drover descriptor (R132, R186, R187, R448). -/
def droverOk (d : List Byte) : Bool :=
  let op := dvOp d
  let w := dvElem d
  let stile := (op ≠ 3 && inStile (dvSrc d)) || inStile (dvDst d)
  let range (a : Nat) : Bool := inStile a || droverRange ((a : Nat), dvCount d 0)
  op ≤ 5 && dfield d 0x01 1 ≤ 2 && dfield d 0x02 2 < 2 && zeroAt d 0x06 2 && zeroAt d 0x22 2 && zeroAt d 0x3C 4 &&
    1 ≤ dvCount d 0 && dvCount d 0 ≤ 2 ^ 30 && (op = 3 || dvSrc d % w = 0) && dvDst d % w = 0 &&
    (op ≠ 3 || dvDst d % 8 = 0) && (op ≠ 5 || (dfield d 0x01 1 = 0 && dvDst d % 4 = 0)) &&
    (if op = 3 || stile then true else (dvReads d).all droverRange) && (if stile then true else (dvWrites d).all droverRange) &&
    (!stile || ((op = 0 || op = 4) && dvSrc d % 64 = 0 && dvDst d % 64 = 0 && dvCount d 0 % 64 = 0 &&
      range (dvSrc d) && range (dvDst d)))

/-- The format check of an engine's descriptor. -/
def descOk (n k : Nat) (d : List Byte) : Bool :=
  if kindOf n k ≤ 1 then (if n = collieFold then collieTileOk d else tileOk n d)
  else if kindOf n k = 2 then vecOk n d else droverOk d

/-! ## ISSUE and GROUP (R132 to R137, R167) -/

/-- Bytes of a descriptor: 64 for a drover, else 128 (R132). -/
def descLen (n k : Nat) : Nat := if kindOf n k ≤ 2 then 128 else 64

/-- What a copy of one descriptor finds: its bytes, or none where it fails its check or its address is not one for a descriptor
(R132). DESIGN CHOICE: log entry 110. -/
def Dev.readDesc (d : Dev) (t k : Nat) (a : Word) : Option (List Byte) × Dev :=
  let n := foldOfThread t
  let len := descLen n k
  if a.toNat % 64 ≠ 0 ∨ !inFold n a.toNat len then (none, d)
  else
    let r := d.readLines (d.threadSrc t) true a.toNat len
    let b := d.raw a.toNat len
    (if r.1 || !descOk n k b then none else some b, r.2)

/-- A thread's earlier stores and atomics to its own fold memory. -/
def ownIn (t : Nat) (p : Posted) : Bool :=
  p.thread == t && inFold (foldOfThread t) p.addr 1

/-- They reach it first (R137). -/
def Dev.landOwn (d : Dev) (e : Env) (t : Nat) : Dev := d.landAll e (ownIn t)

/-- Queues one checked descriptor and returns its issue number in rd. -/
def Dev.enqueue (d : Dev) (t k rd : Nat) (b : List Byte) (mates : List Nat) : Dev :=
  let n := foldOfThread t
  let v := ((d.engine n k).issued + 1) % 2 ^ 32
  let j : Job := { issue := v, thread := t, desc := b, mates := mates }
  (d.modEngine n k fun x => { x with issued := v, queue := x.queue ++ [j] }).modThread t fun th =>
    th.setReg rd (BitVec.ofNat 64 v)

def Dev.engineFull (d : Dev) (n k : Nat) : Bool := engineDepth (kindOf n k) ≤ (d.engine n k).queue.length

/-- Checks and queues a list of descriptors together, or waits for room, or faults the thread. -/
def Dev.issueAll (d : Dev) (e : Env) (t : Nat) (l : List (Nat × Nat × Nat)) (mates : List Nat) : Dev :=
  let n := foldOfThread t
  let d := d.landOwn e t
  let r := l.foldl (fun acc x =>
    let y := acc.2.readDesc t x.1 (acc.2.reg t x.2.2)
    (acc.1 ++ [(x.1, x.2.1, y.1)], y.2)) (([] : List (Nat × Nat × Option (List Byte))), d)
  if r.1.any (fun x => x.2.2.isNone) then r.2.faultThread e t 3
  else if l.any fun x => d.engineFull n x.1 then d.park e t (.fullQueue (l.map (·.1)))
  else (r.1.foldl (fun d x => d.enqueue t x.1 x.2.1 (x.2.2.getD []) mates) r.2).advance t

/-- ISSUE; an engine number outside the table is an illegal instruction (DESIGN CHOICE, log entry 22). -/
def execIssue (t engine rd ra : Nat) (s : State) : Host.Outcome State Fault Refusal :=
  run (.issue t engine rd ra) (fun e d => d.instr e t 0x08 fun _ d =>
    if engine < engineCount (foldOfThread t) then d.unlessParked e (ownIn t) (d.issueAll e t [(engine, rd, ra)] []) else d.faultThread e t 1) s

/-- GROUP names two or three different engines of array 0, array 1 and the vector engine (R134), on the Collie of its arrays and
vector units. -/
def execGroup (t : Nat) (members : List (Nat × Nat × Nat)) (s : State) : Host.Outcome State Fault Refusal :=
  run (.group t members) (fun e d => d.instr e t 0x09 fun _ d =>
    let k := members.map (·.1)
    if (members.length = 2 ∨ members.length = 3) ∧ (k.all fun x => decide (x < sequenced (foldOfThread t))) = true ∧ k.Nodup then d.unlessParked e (ownIn t) (d.issueAll e t members k)
    else d.faultThread e t 1) s

/-- Threads whose engine count is reached go on (R133). -/
def Dev.wakeEngine (d : Dev) (n k : Nat) : Dev :=
  (d.waiting fun w => match w with
    | .engine j v => j == k && reached (d.engine n k).completed v
    | _ => false).foldl (fun d t => if foldOfThread t = n then d.wake t [] else d) d

/-! ## Starting a job (R125 to R127, R134, R196, R214 to R220, R261) -/

def Dev.lut (d : Dev) (n s : Nat) : Lut := tgetD (d.fold n).luts s {}
def Dev.modLut (d : Dev) (n s : Nat) (f : Lut → Lut) : Dev :=
  d.modFold n fun x => { x with luts := tmod x.luts s {} f }

/-- A bank of a table slot. -/
def Lut.bank (l : Lut) (b : Nat) : Option LutBank := if b = 0 then l.bank0 else l.bank1
def Lut.setBank (l : Lut) (b : Nat) (x : Option LutBank) : Lut := if b = 0 then { l with bank0 := x } else { l with bank1 := x }

/-- The checks at the start of a tile job (R214, R215, R217). -/
def Dev.tileStart (d : Dev) (n k : Nat) (j : Job) : Job × Dev :=
  let b := j.desc
  let a := d.array n k
  let same (h : Held) : Bool := h.m == tjM b && h.n == tjN b && h.fmtA == tjFmtA b && h.fmtB == tjFmtB b
  let good := (a.held.map same).getD false
  let (j, d) :=
    if tjContinue b then (if good then ({ j with useHeld := true }, d) else ({ j with badCheck := true }, d.jobFault n k 0 j.issue))
    else if a.held.isSome then (j, (d.modArray n k fun a => { a with held := none }).jobFault n k 0 j.issue)
    else (j, d)
  if tjBMode b = 2 ∧ tjKind b ≠ 2 then
    let hit (l : Loaded) : Bool := l.b == tjB b && l.ldb == tjLdb b && l.k == tjK b && l.n == tjN b && l.fmtB == tjFmtB b
    if (a.loaded.map hit).getD false then (j, d)
    else ({ j with badCheck := true, openOut := true }, d.jobFault n k (if a.sideB.unwritten then 1 else 2) j.issue)
  else (j, d.modArray n k fun a => { a with loaded := none })

/-- The weights' source: B in memory, or under REUSE the B side. -/
def Dev.weightsOf (d : Dev) (n k : Nat) (b : List Byte) (v : Nat → Byte) : Nat → Byte :=
  if tjBMode b = 2 ∧ tjKind b ≠ 2 then (d.array n k).sideB.byteB b else v

/-- The prologue of a tile job: the window of R164 begins, the first step's blocks are filled and the first weights written
(R208, R209). -/
def Dev.prologue (d : Dev) (n k : Nat) (j : Job) : Dev :=
  let b := j.desc
  let v (a : Nat) : Byte := mget j.snap a
  let d := d.modArray n k fun a => { a with corrected := [] }
  let d := match (tjSteps b).head? with
    | some s => d.fillStep n k b v j.badLines.contains s
    | none => d
  d.firstWeights n k b (d.weightsOf n k b v)

/-- The check at the start of a LOOKUP and the bank it uses (R261, R263). -/
def Dev.vecStart (d : Dev) (n k : Nat) (j : Job) : Job × Dev :=
  if viOp j.desc ≠ 0x18 then (j, d)
  else
    let l := d.lut n (viSlot j.desc)
    match l.active with
    | some x => if (l.bank x).isSome then ({ j with bank := x }, d)
      else ({ j with badCheck := true, openOut := true }, d.jobFault n k 3 j.issue)
    | none => ({ j with badCheck := true, openOut := true }, d.jobFault n k 3 j.issue)

/-- Takes the head of a queue, whose operand lines have been read, into its engine: their content is kept and what is later written to
them is noted (R28, R30, R220). DEDUCED: log entry 28. -/
def Dev.takeJob (d : Dev) (n k : Nat) (bad : List Nat) : Dev :=
  match (d.engine n k).queue with
  | [] => d
  | j :: rest =>
    let kind := kindOf n k
    let lines := jobLines kind j.desc
    let j := { j with
      badLines := bad, cycles := if kind = 2 then viCycles j.desc else tjCycles j.desc, since := d.mem.past.length
      snap := d.mem.bytes.filter fun c => lines.contains (c.1 / 64) }
    let d := d.modMem fun m => { m with watch := tset m.watch (8 * n + k) lines }
    let x := if kind = 2 then (d.lutFlip n).vecStart n k j else if n = collieFold then (j, d) else
      let y := d.tileStart n k j
      (y.1, y.2.prologue n k y.1)
    (x.2.modEngine n k fun g => { g with queue := rest, running := some x.1 }).wakeFull n k

/-- The heads of the queues of some engines start on one cycle (R134). -/
def Dev.beginJobs (d : Dev) (n : Nat) (l : List Nat) : Dev :=
  let r := d.readTogether n (l.filterMap fun k => ((d.engine n k).queue.head?).map fun j => (kindOf n k, j.desc))
  ((l.filter fun k => (d.engine n k).queue ≠ []).zip r.1).foldl (fun d x => d.takeJob n x.1 x.2) r.2

/-- A table switch waits for a vector unit of the Collie to come to its boundary: none starts an instruction before (R263). -/
def Dev.switchWaits (d : Dev) (n k : Nat) : Bool :=
  n == collieFold && kindOf n k == 2 && (d.fold n).luts.any (·.2.pending)

/-- An engine of the sequencer is free and its fold can start a job. -/
def Dev.canStart (d : Dev) (n k : Nat) : Bool :=
  d.foldAwake n && (d.engine n k).running.isNone && !d.switchWaits n k &&
    (n == collieFold || (d.physFold (d.physOf n)).slice.isNone)

def execJobStart (n eng : Nat) (s : State) : Host.Outcome State Fault Refusal :=
  run (.jobStart n eng) (fun _ d =>
    match (d.engine n eng).queue with
    | j :: _ => if d.canStart n eng && j.mates.isEmpty then d.beginJobs n [eng] else d
    | [] => d) s

/-- The engines of the group whose descriptors head all their queues; none where no group is ready (R134). -/
def Dev.readyGroup (d : Dev) (n : Nat) : Option (List Nat) :=
  (List.range (sequenced n)).findSome? fun k =>
    match (d.engine n k).queue with
    | j :: _ =>
      if !j.mates.isEmpty && j.mates.all (fun m => d.canStart n m &&
          (((d.engine n m).queue.head?).map fun x => x.mates == j.mates && x.thread == j.thread).getD false)
      then some j.mates else none
    | [] => none

def execGroupStart (n : Nat) (s : State) : Host.Outcome State Fault Refusal :=
  run (.groupStart n) (fun _ d =>
    match d.readyGroup n with
    | some l => d.beginJobs n l
    | none => d) s

/-! ## Completing a job (R133, R202, R206, R213 to R217, R255, R260) -/

/-- Writes the output of a job: one run of bytes after another, each merge with its hold (R318). DEDUCED: log entry 28. -/
def Dev.writeOut (d : Dev) (l : List (Nat × List Byte)) (p openOut : Bool) : Dev :=
  l.zipIdx.foldl (fun d' x =>
    let bs := if openOut then (List.range x.1.2.length).map fun i => BitVec.ofNat 8 (Config.freeNat (freeAt d x.2) / 256 ^ i)
      else x.1.2
    (d'.mergeHold x.1.1 bs.length).write x.1.1 bs p) d

/-- The effect of a tile job that has run: its troughs and cells, its output, or the accumulators and loaded B that it leaves. -/
def Dev.tileDone (d : Dev) (n k : Nat) (j : Job) (ahead : List (Nat × List Byte × Bool)) : Dev :=
  let b := j.desc
  let v := d.jobView j ahead
  let a := d.array n k
  let vb (fill : Nat) : Nat → Byte := d.weightsOf n k b (v.1 fill)
  let start (x : Nat) : Acc := if j.useHeld then ((a.held.map fun h => h.accs.getD x {}).getD {}) else {}
  let accs := tjAccs b v.1 vb start fun x => Config.freeRat (freeAt d x)
  let r := d.runSteps n k j ((d.writtenTo j ahead).map (·.1)) v.1 v.2
  let bad := r.1 || (List.range (tjSteps b).length).any (fun x => (jobLines k b).any (v.2 x)) || j.badCheck || (j.useHeld && (a.held.map (·.poisoned)).getD false)
  let d := r.2.settleCells n k b v.1 vb
  let d := if tjBMode b = 1 ∧ tjKind b ≠ 2 then
      d.modArray n k fun a => { a with
        loaded := some { b := tjB b, ldb := tjLdb b, k := tjK b, n := tjN b, fmtB := tjFmtB b } }
    else d
  if tjKeep b then
    d.modArray n k fun a => { a with held := some {
      m := tjM b, n := tjN b, fmtA := tjFmtA b, fmtB := tjFmtB b, poisoned := bad, accs := accs } }
  else
    let rows := (List.range (tjM b)).map fun i => (tjC b + i * tjLdc b, tjRow b (v.1 0) accs i)
    (d.modArray n k fun a => { a with held := none }).writeOut rows bad j.openOut

/-- The effect of a tile job on a Collie array. -/
def Dev.collieDone (d : Dev) (k : Nat) (j : Job) (ahead : List (Nat × List Byte × Bool)) : Dev :=
  let b := j.desc
  let v := d.jobView j ahead
  let accs := collieAccs b (v.1 0)
  let rows := (List.range (tjM b)).map fun i => (tjC b + i * tjLdc b, tjRow b (v.1 0) accs i)
  (d.modArray collieFold k fun a => { a with partials := collieCells b accs }).writeOut rows ((jobLines 0 b).any (v.2 0)) j.openOut

/-- The effect of a vector instruction that has run. -/
def Dev.vecDone (d : Dev) (n : Nat) (j : Job) (ahead : List (Nat × List Byte × Bool)) : Dev :=
  let v := d.jobView j ahead
  let t := (d.lut n (viSlot j.desc)).bank j.bank
  let out := viOutput j.desc (v.1 0) t (fun x => Config.freeBool (freeAt d x)) (fun x => Config.freeRat (freeAt d x))
    (Config.freeNat d.free)
  d.writeOut out ((jobLines 2 j.desc).any (v.2 0) || j.badCheck) j.openOut

/-- The effect of a job that has run. -/
def Dev.jobDone (d : Dev) (n k : Nat) (j : Job) (ahead : List (Nat × List Byte × Bool)) : Dev :=
  if kindOf n k = 2 then d.vecDone n j ahead else if n = collieFold then d.collieDone k j ahead else d.tileDone n k j ahead

/-- The lines that a job writes. -/
def outLines (k : Nat) (b : List Byte) : List Nat :=
  if k = 2 then (viWrites b).lineList else if tjKeep b then [] else (tjWrites b).lineList

/-- The output lines, as they will stand, of the mates of a job's GROUP that still run: their epilogues write them while it reads (R220).
DEDUCED: log entry 28. -/
def Dev.mateLines (d : Dev) (n k : Nat) (j : Job) (ahead : Nat → Job → List (Nat × List Byte × Bool)) : List (Nat × List Byte × Bool) :=
  (j.mates.filter (· != k)).flatMap fun m =>
    match (d.engine n m).running with
    | some x =>
      if x.mates = j.mates ∧ x.thread = j.thread then
        let o := d.jobDone n m x (ahead m x)
        ((outLines (kindOf n m) x.desc).filter fun l => (jobLines (kindOf n k) j.desc).contains l).map fun l =>
          (l, o.raw (64 * l) 64, o.isPoisoned l)
      else []
    | none => []

/-- The effect of a running job, with what its mates are writing for it. -/
def Dev.jobResult (d : Dev) (n k : Nat) (j : Job) : Dev :=
  d.jobDone n k j (d.mateLines n k j fun m y => d.mateLines n m y fun _ _ => [])

/-- An engine's job ends: the completion count advances and threads that wait for it go on. -/
def Dev.countJob (d : Dev) (e : Env) (n k : Nat) (j : Job) : Dev :=
  let d := d.modEngine n k fun g => { g with
    running := none, completed := (g.completed + 1) % 2 ^ 32, refusedAt := none, passed := [], buf := [] }
  let d := d.rewatch
  let d := (d.modFold n fun f => { f with idleSince := e.raw }).wakeEngine n k
  let d := if kindOf n k = 2 ∧ d.vecIdle n then d.lutSwitch e n else d
  match d.ownerOf j.thread with
  | some i => d.settleInst e i
  | none => d

/-- The hold cycles of the job's conflicts with other scheduled ports come with its end (R172). DESIGN CHOICE: log entry 98. -/
def execJobComplete (n : Nat) (x : JobEnd) (s : State) : Host.Outcome State Fault Refusal :=
  run (.jobComplete n x) (fun e d =>
    match (d.engine n x.eng).running with
    | some j =>
      if d.foldAwake n then
        let d := if n = collieFold then d else d.hold (d.physOf n) x.conflicts
        ((d.jobResult n x.eng j).spend).countJob e n x.eng j
      else d
    | none => d) s

/-! ## Drovers (R135, R187 to R190, R305 to R307, R445 to R449) -/

/-- The slots whose guard refuses a descriptor's accesses now, but those whose timeout has passed. -/
def Dev.droverRefused (d : Dev) (n r : Nat) (b : List Byte) : List Nat :=
  let passed := (d.engine n (3 + r)).passed
  let hit (write : Bool) (x : Int × Nat) : List Nat :=
    ((d.slotsIn x.1.toNat x.2).filter fun y => !slotAdmits y.2 write && !passed.contains y.1).map (·.1)
  (dvReads b).flatMap (hit false) ++ (dvWrites b).flatMap (hit true)

/-- The accesses of a descriptor through the device's own stile space that a guard refuses now: the address of the line, the slot
(R450). -/
def Dev.droverStiled (d : Dev) (n r : Nat) (b : List Byte) : List (Nat × Nat) :=
  let passed := (d.engine n (3 + r)).passed
  let hit (write : Bool) (x : Int × Nat) : List (Nat × Nat) :=
    if inStile x.1.toNat then
      (List.range (x.2 / 64)).filterMap fun i =>
        ((d.guardOf (x.1.toNat + 64 * i) 64 write).filter fun y => !passed.contains y.1).map fun y => (x.1.toNat + 64 * i, y.1)
    else []
  (dvReads b).flatMap (hit false) ++ (dvWrites b).flatMap (hit true)

/-- Every slot that holds a descriptor back (R306). -/
def Dev.droverHeld (d : Dev) (n r : Nat) (b : List Byte) : List Nat :=
  d.droverRefused n r b ++ (d.droverStiled n r b).map (·.2)

/-- An access meets a slot whose timeout has passed for the present transfer of a drover (R307). -/
def Dev.passedAt (d : Dev) (n r a len : Nat) (write : Bool) : Bool :=
  ((d.servedAt a len write).map fun x => (d.slotsIn x len).any fun y => (d.engine n (3 + r)).passed.contains y.1).getD false

/-- A line received by value: its check is that of its bytes. -/
def TLine.of (bs : List Byte) (p : Bool) : TLine := { bytes := bs, check := lineCheck bs, poison := p }

/-- One source line as a drover receives it, with the check stored with it (R27); its own device's stile space is served under
R446. -/
def Dev.droverLine (d : Dev) (e : Env) (n r l : Nat) : TLine × Dev :=
  let a := 64 * l
  let src := d.workSrc n
  match d.reach a with
  | .stileSpace dev off =>
    let c := d.stileCheck dev off 64 false
    if d.passedAt n r a 64 false then
      let x := d.freeBytes 64
      (TLine.of x.1 true, x.2)
    else if c.1 = 0 then
      let x := d.readFrom e 0x2C6 n c.2 64
      ({ bytes := x.1, check := d.checkOf (c.2 / 64), poison := x.2.1 }, x.2.2)
    else
      let x := ((d.stileFault src a c.1).stileTargetFault e dev off c.1).freeBytes 64
      (TLine.of x.1 true, x.2)
  | .served =>
    let x := d.readFrom e src n a 64
    ({ bytes := x.1, check := d.checkOf l, poison := x.2.1 || d.passedAt n r a 64 false }, x.2.2)
  | _ =>
    let x := d.readFrom e src n a 64
    (TLine.of x.1 true, x.2.2)

/-- The source lines of a descriptor, each read once. -/
def Dev.droverGather (d : Dev) (e : Env) (n r : Nat) (b : List Byte) : Tab TLine × Dev :=
  (((dvReads b).flatMap fun x => linesOf x.1.toNat x.2).dedup).foldl (fun acc l =>
    let x := acc.2.droverLine e n r l
    (tset acc.1 l x.1, x.2)) (([] : Tab TLine), d)

/-- A byte and a run of gathered lines. -/
def lineByte (t : Tab TLine) (a : Nat) : Byte := ((tget t (a / 64)).map fun x => x.bytes.getD (a % 64) 0).getD 0
def lineRun (t : Tab TLine) (a n : Nat) : List Byte := (List.range n).map fun i => lineByte t (a + i)
def lineBad (t : Tab TLine) (a n : Nat) : Bool := (linesOf a n).any fun l => ((tget t l).map (·.poison)).getD false

/-- One piece of a destination line: address, bytes, poison, and the check of the source line that it is a whole aligned copy of
(R188). -/
structure Piece where
  addr : Nat
  bytes : List Byte
  poison : Bool
  check : Option Nat := none
deriving DecidableEq, Repr

/-- The destination pieces of a run of `bs` from gathered lines: each within one line. -/
def runPieces (t : Tab TLine) (src dst : Nat) (bs : List Byte) : List Piece :=
  (linePieces (bs.length / 64 + 2) dst bs).map fun x =>
    let s := src + (x.1 - dst)
    { addr := x.1, bytes := x.2, poison := lineBad t s x.2.length
      check := if x.2.length = 64 ∧ s % 64 = 0 ∧ x.2 = lineRun t s 64 then (tget t (s / 64)).map (·.check) else none }

/-- The destination pieces of a list of runs. -/
def piecesOf (t : Tab TLine) (l : List Move) : List Piece :=
  l.flatMap fun m => runPieces t m.src.toNat m.dst.toNat (lineRun t m.src.toNat m.len)

/-- Writes bytes to served memory; a whole-line copy keeps its source's check (R27, R188). -/
def Dev.putLine (d : Dev) (e : Env) (src n a : Nat) (p : Piece) : Dev :=
  let r := d.writeFrom e src n a p.bytes p.poison (.thread (64 * n))
  match p.check, d.reach a with
  | some c, .served => if d.gddrFailed a then r else r.setCheck (a / 64) c
  | _, _ => r

/-- Writes one destination piece; a slot whose timeout has passed takes nothing (R307). -/
def Dev.droverPut (d : Dev) (e : Env) (n r : Nat) (p : Piece) : Dev :=
  if d.passedAt n r p.addr p.bytes.length true then d
  else match d.reach p.addr with
    | .stileSpace dev off =>
      let c := d.stileCheck dev off p.bytes.length true
      if c.1 = 0 then d.putLine e 0x2C6 n c.2 p
      else (d.stileFault (d.workSrc n) p.addr c.1).stileTargetFault e dev off c.1
    | _ => d.putLine e (d.workSrc n) n p.addr p

/-- Assembles pieces into lines: a line wholly covered is written whole, another piece by piece. A parity error of the assembly
buffer writes the line poisoned (R188); `parity` lists those lines (DESIGN CHOICE, log entry 99). -/
def Dev.droverWrite (d : Dev) (e : Env) (n r : Nat) (parity : List Nat) (ps : List Piece) : Dev :=
  ((ps.map fun p => p.addr / 64).dedup).foldl (fun d l =>
    let mine := ps.filter fun p => p.addr / 64 == l
    match mine with
    | [⟨a, bs, p, some c⟩] => d.droverPut e n r ⟨a, bs, p, some c⟩
    | _ =>
      let bad := parity.contains l
      let d := if bad then d.raise (d.workSrc n) 3 5 (64 * l) else d
      if (List.range 64).all fun i => mine.any fun p => p.addr ≤ 64 * l + i && 64 * l + i < p.addr + p.bytes.length then
        let bytes := mine.foldl (fun m p => mput m p.addr p.bytes) ([] : List Host.Cell)
        d.droverPut e n r { addr := 64 * l, bytes := mread bytes (64 * l) 64, poison := bad || mine.any fun p => p.poison }
      else mine.foldl (fun d p => d.droverPut e n r { p with poison := bad || p.poison, check := none }) d) d

/-- SAMPLE: one of the moved sample's CRCs fails (R31, R190). -/
def sampleBad (b : List Byte) : Bool :=
  !tallyOk b || crc32c ((b.drop 0x140).take (fieldAt b 0x10 4)) != fieldAt b 0x14 4

/-- The moved sample where `bad`: POISONED set in the destination tally, with a fresh tally_crc (R30, R190). -/
def sampleFix (bad : Bool) (b : List Byte) : List Byte :=
  if bad then (tallyFlag (b.take 32) flPoisoned ++ b.drop 32).take b.length else b

/-- The bytes of two ranges of one descriptor meet (R187). DESIGN CHOICE: log entry 37. -/
def dvSelf (b : List Byte) : Bool :=
  (dvReads b).any fun x => (dvWrites b).any fun y => x.1 < y.1 + y.2 && y.1 < x.1 + x.2

/-- The local part of a transfer: what it reads and what it then writes. DESIGN CHOICE: log entry 37. -/
def Dev.droverMove (d : Dev) (e : Env) (n r : Nat) (b : List Byte) : List Piece × Dev :=
  let src := d.workSrc n
  let g := d.droverGather e n r b
  let d := g.2
  match dvOp b with
  | 3 =>
    let pat := leBytes 8 (dvSrc b)
    let bs := (List.range (dvCount b 0)).map fun i => pat.getD (i % 8) 0
    ((linePieces (bs.length / 64 + 2) (dvDst b) bs).map fun x => { addr := x.1, bytes := x.2, poison := false }, d)
  | 5 =>
    let bad := lineBad g.1 (dvSrc b) (dvCount b 0)
    ([{ addr := dvDst b, bytes := leBytes 4 (crc32c (lineRun g.1 (dvSrc b) (dvCount b 0))), poison := bad }], d)
  | 4 =>
    let bs := lineRun g.1 (dvSrc b) (dvCount b 0)
    let bad := sampleBad bs || lineBad g.1 (dvSrc b) (dvCount b 0)
    (runPieces g.1 (dvSrc b) (dvDst b) (sampleFix bad bs), if sampleBad bs then d.raise src 3 2 (dvSrc b) else d)
  | _ => (piecesOf g.1 (dvMoves b), d)

/-- Where a descriptor writes bytes that it reads, the content written is open (R187, DESIGN CHOICE, log entry 3).
DESIGN CHOICE: log entry 37. -/
def Dev.droverData (d : Dev) (e : Env) (n r : Nat) (b : List Byte) : List Piece × Dev :=
  let x := d.droverMove e n r b
  if dvOp b ≠ 3 ∧ dvOp b ≠ 4 ∧ dvSelf b then
    (x.1.zipIdx.map fun y =>
      { y.1 with
        bytes := (List.range y.1.bytes.length).map fun i => BitVec.ofNat 8 (Config.freeNat (freeAt d y.2) / 256 ^ i)
        check := none }, x.2.spend)
  else x

/-- An address in the stile space of another device. -/
def Dev.remoteStile (d : Dev) (a : Nat) : Option (Nat × Nat) :=
  match zoneOf a with
  | .stile dev off => if d.flock.dev = some dev then none else some (dev, off)
  | _ => none

/-- Cuts a transfer of `n` bytes at a stile offset into frames: at most 128 lines, none across 8 KiB of offset (R448). -/
def frameCuts : Nat → Nat → Nat → Nat → List (Nat × Nat)
  | 0, _, _, _ => []
  | fuel + 1, off, done, n =>
    if n ≤ done then []
    else
      let k := min (n - done) (0x2000 - (off + done) % 0x2000)
      (done, k) :: frameCuts fuel off (done + k) n

/-- The parts of a transfer at stile-space address a, each in one device's stile space: address, offset in the transfer, length
(R447, R448). -/
def stileParts (a n : Nat) : List (Nat × Nat × Nat) :=
  let k := min n (0x80000000 - a % 0x80000000)
  (a, 0, k) :: if k < n then [(a + k, k, n - k)] else []

/-- A part of a transfer lies in another device's stile space. -/
def Dev.peerStile (d : Dev) (a n : Nat) : Bool := (stileParts a n).any fun x => (d.remoteStile x.1).isSome

/-- A descriptor reads from a peer, or writes to one; COPY and SAMPLE alone can (R448). -/
def Dev.peerFrom (d : Dev) (b : List Byte) : Bool := (dvOp b = 0 || dvOp b = 4) && d.peerStile (dvSrc b) (dvCount b 0)
def Dev.peerTo (d : Dev) (b : List Byte) : Bool := (dvOp b = 0 || dvOp b = 4) && d.peerStile (dvDst b) (dvCount b 0)

/-- Sends the WRITE frames of a part of a drover transfer with its lines' poison; none where no RUNNING link leads there (R447).
DESIGN CHOICE: log entry 37. -/
def Dev.sendWritesTo (d : Dev) (e : Env) (n r dev off : Nat) (ls : List (List Byte × Bool)) : Dev :=
  match d.linkTo dev with
  | none => d.stileFault (d.workSrc n) (stileBase + dev * 0x80000000 + off) 0
  | some k =>
    if (d.peer k).fn ≠ .running then d.stileFault (d.workSrc n) (stileBase + dev * 0x80000000 + off) 0
    else (frameCuts (ls.length + 1) off 0 (64 * ls.length)).foldl (fun d c =>
      let mine := (ls.drop (c.1 / 64)).take (c.2 / 64)
      let x := d.nextReq
      let q : NdReq := {
        id := x.1, peer := k, write := true, thread := none, drover := some (n, r), size := c.2
        addr := stileBase + dev * 0x80000000 + off + c.1 }
      let d := { x.2 with flock := { x.2.flock with reqs := x.2.flock.reqs ++ [q] } }
      d.ndSend e k 6 [off + c.1, x.1, c.2 / 64, 0, flagWord (mine.zipIdx.map fun y => (y.2, y.1.2))]
        (mine.flatMap (·.1)) none) d

/-- The lines of a transfer to stile space: to peers as WRITE frames, where this device serves an address to its memory. -/
def Dev.sendWrites (d : Dev) (e : Env) (n r a : Nat) (ls : List (List Byte × Bool)) : Dev :=
  (stileParts a (64 * ls.length)).foldl (fun d x =>
    let mine := (ls.drop (x.2.1 / 64)).take (x.2.2 / 64)
    match d.remoteStile x.1 with
    | some (dev, off) => d.sendWritesTo e n r dev off mine
    | none => mine.zipIdx.foldl (fun d y => d.droverPut e n r
        { addr := x.1 + 64 * y.2, bytes := y.1.1, poison := y.1.2, check := some (lineCheck y.1.1) }) d) d

/-- Sends the READ_REQ frames of a part of a drover transfer that begins at byte `at_` of it; without a link its data come in
poisoned (R447). -/
def Dev.sendReadsTo (d : Dev) (e : Env) (n r dev off at_ len : Nat) : Dev :=
  let dead (d : Dev) : Dev :=
    let x := (d.stileFault (d.workSrc n) (stileBase + dev * 0x80000000 + off) 0).freeBytes len
    x.2.modEngine n (3 + r) fun g => { g with
      buf := g.buf ++ (linePieces (len / 64 + 1) 0 x.1).map fun y => (at_ + y.1, y.2, true) }
  match d.linkTo dev with
  | none => dead d
  | some k =>
    if (d.peer k).fn ≠ .running then dead d
    else (frameCuts (len / 64 + 1) off 0 len).foldl (fun d c =>
      let x := d.nextReq
      let q : NdReq := {
        id := x.1, peer := k, write := false, thread := none, drover := some (n, r), size := c.2, dst := at_ + c.1
        addr := stileBase + dev * 0x80000000 + off + c.1 }
      let d := { x.2 with flock := { x.2.flock with reqs := x.2.flock.reqs ++ [q] } }
      d.ndSend e k 7 [off + c.1, x.1, c.2 / 64, 0, 0] [] none) d

/-- The lines of a transfer from stile space come into the drover: from peers by READ_REQ, else from this device's memory. -/
def Dev.sendReads (d : Dev) (e : Env) (n r a len : Nat) : Dev :=
  (stileParts a len).foldl (fun d x =>
    match d.remoteStile x.1 with
    | some (dev, off) => d.sendReadsTo e n r dev off x.2.1 x.2.2
    | none => (List.range (x.2.2 / 64)).foldl (fun d i =>
        let y := d.droverLine e n r (x.1 / 64 + i)
        y.2.modEngine n (3 + r) fun g => { g with buf := g.buf ++ [(x.2.1 + 64 * i, y.1.bytes, y.1.poison)] }) d) d

/-- The requests of a drover that still wait for an answer. -/
def Dev.droverOpen (d : Dev) (n r : Nat) : Bool := d.flock.reqs.any fun q => q.drover == some (n, r)

/-- The bytes that came in from a peer, as one run with poison by line; SAMPLE checks them (R190). -/
def Dev.droverInput (d : Dev) (n r : Nat) (b : List Byte) : List (List Byte × Bool) × Dev :=
  let buf := (d.engine n (3 + r)).buf
  let line (i : Nat) : List Byte × Bool := ((buf.find? fun x => x.1 == 64 * i).map (·.2)).getD (List.replicate 64 0, true)
  let ls := (List.range (dvCount b 0 / 64)).map line
  let bs := ls.flatMap (·.1)
  if dvOp b = 4 ∧ (sampleBad bs || ls.any (·.2)) = true then
    (((linePieces (bs.length / 64 + 1) 0 (sampleFix true bs)).zip ls).map fun x => (x.1.2, x.2.2),
      if sampleBad bs then d.raise (d.workSrc n) 3 2 (dvSrc b) else d)
  else (ls, d)

/-- A transfer whose source has come in from a peer and whose destination is a peer's: its WRITE frames leave once every
READ_RESP is there (R448). -/
def Dev.droverRelay (d : Dev) (e : Env) (n r : Nat) : Dev :=
  match (d.engine n (3 + r)).running with
  | none => d
  | some j =>
    if !(d.peerFrom j.desc && d.peerTo j.desc) || d.droverOpen n r then d
    else
      let x := d.droverInput n r j.desc
      x.2.sendWrites e n r (dvDst j.desc) x.1

/-- The first steps of a transfer, once no guard refuses it: a peer's data are asked for or sent. -/
def Dev.droverTry (d : Dev) (e : Env) (n r : Nat) (b : List Byte) : Dev :=
  if d.droverHeld n r b ≠ [] then
    d.modEngine n (3 + r) fun g => { g with refusedAt := some (g.refusedAt.getD e.raw) }
  else
    let d := d.modEngine n (3 + r) fun g => { g with refusedAt := none }
    if d.peerFrom b then (d.sendReads e n r (dvSrc b) (dvCount b 0)).droverRelay e n r
    else if d.peerTo b then
      let x := d.droverData e n r b
      x.2.sendWrites e n r (dvDst b) (x.1.map fun p => (p.bytes, p.poison))
    else d

def execDroverStart (n dr : Nat) (s : State) : Host.Outcome State Fault Refusal :=
  run (.droverStart n dr) (fun e d =>
    let g := d.engine n (3 + dr)
    match g.queue, g.running with
    | j :: rest, none =>
      if d.foldAwake n then
        ((d.modEngine n (3 + dr) fun g => { g with
            queue := rest, running := some j, refusedAt := none, passed := [], buf := [] }).wakeFull n (3 + dr)).droverTry
          e n dr j.desc
      else d
    | _, _ => d) s

/-- The completion word of R186 and R296, written after the count has advanced. -/
def Dev.completionWord (d : Dev) (n r : Nat) (b : List Byte) : Dev :=
  if dvPost b then
    d.launchFlight (.entry (dvQueue b) (.drover n r)
      (leBytes 4 (d.engine n (3 + r)).completed ++ leBytes 4 (256 * n + r) ++ leBytes 8 0) true (d.workSrc n))
  else d

/-- A transfer ends: the local writes land, the count advances and the completion word leaves. -/
def Dev.droverEnd (d : Dev) (e : Env) (n r : Nat) (parity : List Nat) (j : Job) : Dev :=
  let b := j.desc
  let d :=
    if d.peerTo b then d
    else if d.peerFrom b then
      let x := d.droverInput n r b
      x.2.droverWrite e n r parity (x.1.zipIdx.map fun (y : (List Byte × Bool) × Nat) =>
        { addr := dvDst b + 64 * y.2, bytes := y.1.1, poison := y.1.2, check := some (lineCheck y.1.1) })
    else
      let x := d.droverData e n r b
      x.2.droverWrite e n r parity x.1
  (d.countJob e n (3 + r) j).completionWord n r b

/-- Parity errors of the assembly buffer come with the transfer's end (R188; DESIGN CHOICE, log entry 99). -/
def execDroverComplete (n : Nat) (x : DroverEnd) (s : State) : Host.Outcome State Fault Refusal :=
  run (.droverComplete n x) (fun e d =>
    let dr := x.drover
    let g := d.engine n (3 + dr)
    match g.running, g.refusedAt with
    | some j, none =>
      if !d.foldAwake n || d.droverOpen n dr then d
      else if d.droverHeld n dr j.desc ≠ [] then d.modEngine n (3 + dr) fun g => { g with refusedAt := some e.raw }
      else d.droverEnd e n dr x.parity j
    | _, _ => d) s

def execDroverGuardRetry (n dr : Nat) (s : State) : Host.Outcome State Fault Refusal :=
  run (.droverGuardRetry n dr) (fun e d =>
    let g := d.engine n (3 + dr)
    match g.running, g.refusedAt with
    | some j, some _ => d.droverTry e n dr j.desc
    | _, _ => d) s

/-- The thread that a slot timeout's reader or writer number names: below 3,072 itself, from 3,168 up a context of the Collie. -/
def waiterThread (k : Nat) : Option Nat := if k < 3072 then some k else if k < 3168 then none else some (k - 96)

/-- A drover's timeout at a slot: readers and writers from 3,072 up name drover r of fold n as 3,072 + 2n + r. Its parked
read is delivered poisoned, its parked write dropped; a writer's timeout at a FULL slot sets the taint (R295, R306, R307). Through the
device's own stile space the request ends with status 5 (R450). -/
def Dev.droverTimeout (d : Dev) (e : Env) (ident k : Nat) (write : Bool) : Dev :=
  let n := (k - 3072) / 2
  let r := 3 + (k - 3072) % 2
  let g := tgetD (d.fold n).engines r {}
  match g.running, g.refusedAt, tget d.slots ident with
  | some j, some at_, some s =>
    if (d.droverRefused n (r - 3) j.desc).contains ident && (s.st == .empty) != write && decide (at_ + s.timeoutNs ≤ e.raw) then
      let d := if write && s.st == .full then { d with slots := tset d.slots ident { s with taint := true } } else d
      (d.modFold n fun f => { f with
          engines := tmod f.engines r {} fun g => { g with passed := g.passed ++ [ident] } }).raise
        (d.workSrc n) 0x09 (if write then 3 else 2) (ident % 65536)
    else match (d.droverStiled n (r - 3) j.desc).find? (·.2 == ident) with
      | some (a, _) =>
        if (s.st == .empty) != write && decide (at_ + s.timeoutNs ≤ e.raw) then
          (d.modFold n fun f => { f with
            engines := tmod f.engines r {} fun g => { g with passed := g.passed ++ [ident] } }).stileFault (d.workSrc n) a 5
        else d
      | none => d
  | _, _, _ => d

def execSlotReaderTimeout (ident reader : Nat) (s : State) : Host.Outcome State Fault Refusal :=
  run (.slotReaderTimeout ident reader) (fun e d =>
    match waiterThread reader with
    | some t => d.readerTimeout e ident t
    | none => d.droverTimeout e ident reader false) s

def execSlotWriterTimeout (ident writer : Nat) (s : State) : Host.Outcome State Fault Refusal :=
  run (.slotWriterTimeout ident writer) (fun e d =>
    match waiterThread writer with
    | some t => d.writerTimeout e ident t
    | none => d.droverTimeout e ident writer true) s

/-! ## Gating and waking (R142 to R144, R170, R216, R475) -/

/-- The gate_delay of a fold: the shortest of the instances that share it, 20 µs by default. -/
def Dev.gateDelay (d : Dev) (n : Nat) : Nat :=
  let l := d.insts.filterMap fun x => match x.2.image with
    | some im => if im.folds.contains n then some im.gateDelayNs else none
    | none => none
  l.foldl min (l.headD 20000)

/-- Wait reasons 1, 2, 3 and 8 of R129. -/
def waitBusy : WaitFor → Bool
  | .engine _ _ | .fullQueue _ | .loadData _ _ _ | .atomicData _ | .fence | .markFull _ => true
  | _ => false

/-- Every context is EMPTY, HALTED or WAITING for a reason other than 1, 2, 3 or 8, the engine queues are empty and nothing
runs (R142). -/
def Dev.foldQuiet (d : Dev) (n : Nat) : Bool :=
  ((List.range 64).all fun c =>
    let th := d.thread (64 * n + c)
    match th.st with
    | .empty | .halted => true
    | .waiting => !((th.wait.map fun w => waitBusy w.what).getD true)
    | _ => false) &&
  ((List.range 5).all fun k => (d.engine n k).queue.isEmpty && (d.engine n k).running.isNone)

def execFoldGate (n : Nat) (s : State) : Host.Outcome State Fault Refusal :=
  run (.foldGate n) (fun e d =>
    if d.foldAwake n && d.foldQuiet n && (d.physFold (d.physOf n)).slice.isNone &&
        decide ((d.fold n).idleSince + d.gateDelay n ≤ e.raw) then
      d.modFold n fun f => { f with gated := true, arrays := [] }
    else d) s

/-- The engine domain of a fold comes up: trough rows are invalid (R143, R170). -/
def Dev.wakeFold (d : Dev) (e : Env) (n : Nat) : Dev :=
  d.modFold n fun f => { f with
    gated := false, memAwake := false, arrays := [], idleSince := e.raw, wakeDue := false, heldBack := false }

/-- A gated fold that can wake: mapped, not in replacement, its units clocked. -/
def Dev.asleepFold (d : Dev) (n : Nat) : Bool :=
  (d.fold n).gated && !(d.fold n).replacing && d.physOf n != 0xFF && d.clocked

/-- The folds that began to power up in the last 250 ns (R566). -/
def Dev.justWoken (d : Dev) (e : Env) : List Nat := d.pow.foldWakes.filter fun t => decide (e.raw < t + 250)

/-- A fold may begin to power up: fewer than 8 did in the last 250 ns, and no fold of a lower physical number is held back (R566). -/
def Dev.mayWake (d : Dev) (e : Env) (n : Nat) : Bool :=
  decide ((d.justWoken e).length < 8) &&
    !(List.range 48).any fun m => (d.fold m).heldBack && d.asleepFold m && decide (d.physOf m < d.physOf n)

/-- A fold's engine domain powers up, or is held back (R566). -/
def Dev.tryWake (d : Dev) (e : Env) (n : Nat) : Dev :=
  if d.mayWake e n then
    { d.wakeFold e n with pow := { (d.wakeFold e n).pow with foldWakes := d.justWoken e ++ [e.raw] } }
  else d.modFold n fun f => { f with heldBack := true }

/-- A waking event: it has made a thread of the fold READY, or it is the start or invoke of an instance there (R143). -/
def execFoldWake (n : Nat) (s : State) : Host.Outcome State Fault Refusal :=
  run (.foldWake n) (fun e d =>
    if d.asleepFold n && ((d.pick n).isSome || (d.fold n).wakeDue) then d.tryWake e n else d) s

/-- Fold memory that an access from elsewhere woke returns to retention (R144). -/
def execFoldMemoryRetention (n : Nat) (s : State) : Host.Outcome State Fault Refusal :=
  run (.foldMemoryRetention n) (fun e d =>
    if (d.fold n).gated && (d.fold n).memAwake && decide ((d.fold n).memIdleSince + d.gateDelay n ≤ e.raw) then
      d.modFold n fun f => { f with memAwake := false }
    else d) s

end Sys2Proof.Machine
end

