-- ==== Sys2Proof/Machine/Links.lean ====
section
/-! DEFINITION. Peer links and stiles as shared operations: which frames a link takes (R440, R443), acknowledgement, the
service of a peer's stile requests (R445 to R450), and the end of a link's open work (R444, R457). -/

namespace Sys2Proof

/-- The bytes a request covers, and whether its fields are those of R439. -/
def NdAccess.size (a : NdAccess) : Nat := if a.count = 0 then a.nsize else 64 * a.count

/-- DEDUCED: log entry 64. -/
def NdAccess.formOk (a : NdAccess) : Bool :=
  if a.count = 0 then (a.nsize = 1 || a.nsize = 2 || a.nsize = 4 || a.nsize = 8) && a.offset % (max a.nsize 1) = 0
  else decide (a.count ≤ 128 ∧ a.offset % 64 = 0 ∧ a.nsize = 0)

end Sys2Proof

namespace Sys2Proof.Machine

open Sys2Proof

/-! ## Sending answers -/

/-- Acknowledges what has come in on a link (R443). -/
def Dev.sendAck (d : Dev) (e : Env) (k : Nat) : Dev :=
  d.putFrame e k 4 0 [] []

/-! ## Draining a link (R444) -/

/-- A draining link with nothing admitted left sends CLOSE and starts the close timer (R443, R444). -/
def Dev.drainLink (d : Dev) (e : Env) (k : Nat) : Dev :=
  let p := d.peer k
  if p.fn = .stopping ∧ p.closeAt.isNone ∧ p.unacked.isEmpty ∧ !(d.flock.reqs.any fun r => r.peer == k) then
    (d.ndSend e k 3 [] [] none).modPeer k fun p => { p with closeAt := some (e.raw + 1000000) }
  else d

/-! ## Acknowledgements received (R443) -/

/-- An ack field advances the link: frames below it leave, threads that waited for their MESSAGE go on, and frames that the
window now lets through are sent. -/
def Dev.ackPeer (d : Dev) (e : Env) (k ack window : Nat) : Dev :=
  let p := d.peer k
  let base := ((p.unacked.head?).map (·.seq)).getD p.txSeq
  let adv := (ack + 2 ^ 32 - base % 2 ^ 32) % 2 ^ 32
  if p.unacked.length < adv then d
  else
    let d := d.modPeer k fun p => { p with
      unacked := p.unacked.drop adv, peerWindow := window, retries := if adv = 0 then p.retries else 0 }
    let d := d.pumpPeer e k (base + p.peerWindow)
    let d := (((p.unacked.take adv).filterMap (·.thread)).dedup).foldl (fun d t => d.fenceCheck t) d
    d.drainLink e k

/-! ## Arriving frames (R440) -/

/-- A frame fails a check: the fault of R440 comes at the end of the second. -/
def Dev.ndDiscard (d : Dev) (e : Env) (check : Nat) : Dev := d.raiseSecond e 0x2C5 0x29 check 0 true

/-- The first five checks of R440 on a frame that the engine takes (R436): the context that names the sender. -/
def Dev.ndAdmit (d : Dev) (e : Env) (h : NdHdr) : Option Nat × Dev :=
  if !d.claims h then (none, d.unclaimed h)
  else if !h.crcOk then (none, d.ndDiscard e 0)
  else if h.version ≠ 1 then (none, d.ndDiscard e 1)
  else if !h.lengthOk then (none, d.ndDiscard e 2)
  else if d.flock.dev ≠ some h.dstDev then (none, d.ndDiscard e 3)
  else match d.peerOf h.srcDev with
    | none => (none, d.ndDiscard e 4)
    | some k => (some k, d)

/-- All checks of R440 for a frame other than CONNECT, and its ack field. A session mismatch raises no fault.
DEDUCED: log entry 64. -/
def Dev.ndReceive (d : Dev) (e : Env) (h : NdHdr) : Option Nat × Dev :=
  match d.ndAdmit e h with
  | (none, d) => (none, d)
  | (some k, d) =>
    if h.session ≠ (d.peer k).session then (none, d)
    else
      let d := d.modPeer k fun p => { p with lastRx := e.raw }
      (some k, if h.ackValid then d.ackPeer e k h.ack h.window else d)

/-- Bytes that a frame takes in the receive buffer: its header, its payload and its CRC (R437). -/
def frameBytes (payload : Nat) : Nat := 28 + payload

/-- The payload of a request held for service. -/
def NdServe.payload (x : NdServe) : Nat := if x.message.isSome then 28 else 32 + x.access.data.length

/-- Bytes of the shared receive buffer in use (R443). -/
def Dev.rxUsed (d : Dev) : Nat := (d.flock.peers.flatMap fun p => p.2.serve.map fun x => frameBytes x.payload).sum

/-- Takes a sequenced frame on an active link when its seq is the next expected and the shared buffer has room for it; out of
order it is discarded and draws at most one duplicate ACK in 10 µs (R443). -/
def Dev.ndSequenced (d : Dev) (e : Env) (h : NdHdr) (payload : Nat) : Option Nat × Dev :=
  match d.ndReceive e h with
  | (none, d) => (none, d)
  | (some k, d) =>
    let p := d.peer k
    if !p.fn.active then (none, d)
    else if h.seq = p.rxNext % 2 ^ 32 then
      if 0x400000 < d.rxUsed + frameBytes payload then (none, d)
      else (some k, (d.modPeer k fun p => { p with rxNext := p.rxNext + 1 }).sendAck e k)
    else if (p.lastDupAck.map fun r => decide (e.raw < r + 10000)).getD false then (none, d)
    else (none, (d.modPeer k fun p => { p with lastDupAck := some e.raw }).sendAck e k)

/-! ## Serving a peer's requests (R445, R446, R449, R450) -/

/-- The stile status of a request and the address it maps to; one that a guard held back has been admitted, and a
draining stile finishes it (R446, R451). -/
def Dev.serveStatus (d : Dev) (dev : Nat) (x : NdServe) : Nat × Nat :=
  let r := d.stileCheck dev x.access.offset x.access.size x.write
  if r.1 = 3 ∧ x.refusedAt.isSome then
    match d.flock.stiles.find? fun s => s.2.fn == .stopping && ((s.2.cfg.map fun c =>
        c.offset ≤ x.access.offset && x.access.offset + x.access.size ≤ c.offset + c.length).getD false) with
    | some (_, s) => (0, ((s.cfg.map fun c => c.base + (x.access.offset - c.offset)).getD 0))
    | none => r
  else r

/-- Sends DONE or READ_RESP with a status; nothing goes out on a link whose work has ended (R444). -/
def Dev.answerServe (d : Dev) (e : Env) (k : Nat) (x : NdServe) (status : Nat) (bs : List Byte) (poison : Nat) : Dev :=
  if x.mute then d
  else if x.write then d.ndSend e k 9 [x.access.reqId, status] [] none
  else d.ndSend e k 8 [0, x.access.reqId, if status = 0 then x.access.count else 0, status, poison] bs none

/-- Writes a request's lines or its narrow value (R161, R448). -/
def Dev.serveWrite (d : Dev) (e : Env) (x : NdServe) (a : Nat) : Dev :=
  if x.access.count = 0 then
    d.writeFrom e 0x2C6 0xFF a ((padTo 8 x.access.data).take x.access.nsize) (bitOf x.access.poison 0) (.thread 0)
  else (List.range x.access.count).foldl (fun d i =>
    d.writeFrom e 0x2C6 0xFF (a + 64 * i) (((padTo (64 * x.access.count) x.access.data).drop (64 * i)).take 64)
      (bitOf x.access.poison i) (.thread 0)) d

/-- Reads a request's lines or its narrow value, with the poison bit of each line. The 8 bytes of a narrow answer are the memory's,
lowest address first, then zeros; those of a narrow WRITE are read the same way. DESIGN CHOICE: log entry 116. -/
def Dev.serveRead (d : Dev) (e : Env) (x : NdServe) (a : Nat) : List Byte × Nat × Dev :=
  if x.access.count = 0 then
    let r := d.readFrom e 0x2C6 0xFF a x.access.nsize
    (padTo 8 r.1, if r.2.1 then 1 else 0, r.2.2)
  else (List.range x.access.count).foldl (fun acc i =>
    let r := acc.2.2.readFrom e 0x2C6 0xFF (a + 64 * i) 64
    (acc.1 ++ r.1, acc.2.1 + (if r.2.1 then 2 ^ i else 0), r.2.2)) (([] : List Byte), 0, d)

/-- The guarded slot that refuses a request now (R450). -/
def Dev.serveRefused (d : Dev) (x : NdServe) (a : Nat) : Option (Nat × Slot) :=
  (d.slotsIn a x.access.size).find? fun y => !slotAdmits y.2 x.write

/-- A MESSAGE: delivered as from the peer device, or, of a broadcast, relayed up the tree, or delivered and sent on down
(R453, R454). -/
def Dev.messageIn (d : Dev) (e : Env) (src : Nat) (m : NdMessage) : Dev :=
  if !m.broadcast then d.deliver m.ident (.peer src) m.entry m.atEnd 0x2C5
  else if d.treeParent = some src then
    (d.deliver m.ident .broadcast m.entry m.atEnd 0x2C5).sendTo e d.treeChildren 0xA
      (messageBody m.ident m.atEnd true m.origin m.bseq) m.entry
  else d.broadcast e m.ident m.atEnd m.origin m.entry none

/-- Serves one request that no guard refuses, or answers it with its failing status. -/
def Dev.serveOne (d : Dev) (e : Env) (k dev : Nat) (x : NdServe) (st a : Nat) : Dev :=
  if st ≠ 0 then (d.stileTargetFault e dev x.access.offset st).answerServe e k x st [] 0
  else if x.write then (d.serveWrite e x a).answerServe e k x 0 [] 0
  else
    let r := d.serveRead e x a
    r.2.2.answerServe e k x 0 r.1 r.2.1

/-- A request that a guard has held back, and so has been admitted, waits for a stile (R450, R451). -/
def Dev.stileBusy (d : Dev) (i : Nat) : Bool :=
  d.flock.peers.any fun p => p.2.serve.any fun x => x.refusedAt.isSome &&
    ((((d.stile i).cfg).map fun c => c.offset ≤ x.access.offset && x.access.offset < c.offset + c.length).getD false)

/-- A stile that drains is STOPPED once no admitted request of it is left; its stop completes, and a stop that no command
caused is notified (R451). -/
def Dev.settleStiles (d : Dev) (e : Env) : Dev :=
  ((tkeys d.flock.stiles fun s => s.fn == .stopping).filter fun i => !d.stileBusy i).foldl (fun d i =>
    let own := d.mbox.outst.any fun o => o.opcode == 0x622 && o.e.target == i
    let d := d.modStile i fun s => { s with fn := .stopped }
    if own then d.finishAll e (fun o => o.opcode == 0x622 && o.e.target == i) {} else d.noteState e 4 .stopped i 0) d

/-- Serves a peer's requests in order until a guard refuses one (R449, R450), and the messages between them in their place, so
that an entry does not precede the data written before it; the first argument is how many there are. -/
def Dev.servePeer : Nat → Env → Nat → Dev → Dev
  | 0, e, _, d => d.settleStiles e
  | fuel + 1, e, k, d =>
    match (d.peer k).serve with
    | [] => d.settleStiles e
    | x :: rest =>
      let dev := (((d.peer k).cfg).map (·.dev)).getD 0
      match x.message with
      | some m => Dev.servePeer fuel e k ((d.modPeer k fun p => { p with serve := rest }).messageIn e dev m)
      | none =>
      let st := d.serveStatus dev x
      if st.1 = 0 ∧ (d.serveRefused x st.2).isSome then
        d.modPeer k fun p => { p with serve := { x with refusedAt := some (x.refusedAt.getD e.raw) } :: rest }
      else Dev.servePeer fuel e k ((d.modPeer k fun p => { p with serve := rest }).serveOne e k dev x st.1 st.2)

/-- A request joins the peer's service queue. -/
def Dev.serveRequest (d : Dev) (e : Env) (k : Nat) (x : NdServe) : Dev :=
  let d := d.modPeer k fun p => { p with serve := p.serve ++ [x] }
  Dev.servePeer ((d.peer k).serve.length) e k d

/-! ## Answers to this device's requests (R446, R449) -/

/-- The fault source of a request's issuer. -/
def Dev.reqSrc (d : Dev) (r : NdReq) : Nat :=
  match r.thread, r.drover with
  | some t, _ => d.threadSrc t
  | _, some (n, _) => d.workSrc n
  | _, _ => 0x2C5

/-- A read's data reach their thread or drover; bad data are poisoned. DEDUCED: log entry 65. -/
def Dev.giveRead (d : Dev) (e : Env) (r : NdReq) (bs : List Byte) (poison : Nat → Bool) : Dev :=
  match r.thread, r.drover with
  | some t, _ =>
    match d.whatOf t with
    | some (.loadData _ _ _) => if r.dead then d else (d.loadResult t r.rd (bs.take r.size) (poison 0)).wake t []
    | _ => d
  | _, some (n, x) =>
    let got := (linePieces (r.size / 64 + 1) 0 bs).map fun y => (r.dst + y.1, y.2, poison (y.1 / 64))
    (d.modEngine n (3 + x) fun g => { g with buf := g.buf ++ got }).droverRelay e n x
  | _, _ => d

/-- Takes a request out of those that wait. -/
def Dev.takeReq (d : Dev) (k id : Nat) (write : Bool) : Option NdReq × Dev :=
  match d.flock.reqs.find? fun r => r.peer == k && r.id == id && r.write == write with
  | none => (none, d)
  | some r => (some r, { d with flock := { d.flock with
      reqs := d.flock.reqs.filter fun x => !(x.peer == k && x.id == id && x.write == write) } })

/-! ## Flock hurdles (R456, R457) -/

/-- A flock hurdle breaks here and at the neighbours but the one the break came from; a device that does not declare the
number passes the break on. -/
def Dev.flockBreak (d : Dev) (e : Env) (num cause : Nat) (from_ : Option Nat) : Dev :=
  match d.flockHurdle num with
  | some ident => d.breakHurdle e ident cause from_
  | none => d.sendTo e (d.treeNeighbours.filter fun c => some c != from_) 0xB [num, 2, (d.flockState num).phase, cause] []

/-- The numbers of the flock hurdles that this device declares or holds arrivals of. -/
def Dev.flockNumbers (d : Dev) : List Nat :=
  ((d.hurdles.filterMap fun x => x.2.flock) ++ tkeys d.flock.hurdles fun x => x.own || !x.children.isEmpty).dedup

/-! ## The end of a link's open work (R444) -/

/-- One local access that the link leaves unanswered: a read is delivered poisoned, a write counts as done, and its issuer's
fold has lost work. -/
def Dev.loseReq (d : Dev) (e : Env) (dev : Nat) (r : NdReq) : Dev :=
  let d := d.raise (d.reqSrc r) 0x0F (if r.write then 1 else 0) dev
  if r.write then match r.thread with
    | some t => d.fenceCheck t
    | none => d
  else
    let x := d.freeBytes r.size
    x.2.giveRead e r x.1 fun _ => true

/-- A tree link has left RUNNING: the flock hurdles that use it break with cause TIMEOUT (R444, R457). -/
def Dev.linkLeaves (d : Dev) (e : Env) (k : Nat) : Dev :=
  let dev := (((d.peer k).cfg).map (·.dev)).getD 0
  if d.treeNeighbours.contains dev then d.flockNumbers.foldl (fun d n => d.flockBreak e n causeTimeout (some dev)) d else d

/-- Ends a link's open work: the link is STOPPED, so nothing more is sent on it; a caller may give it another state. -/
def Dev.endLink (d : Dev) (e : Env) (k : Nat) : Dev :=
  let p := d.peer k
  let dev := (p.cfg.map (·.dev)).getD 0
  let mine := d.flock.reqs.filter fun r => r.peer == k
  let lost := p.unacked.filter fun x => x.kind == 0xA && x.thread.isSome
  let d := { d with flock := { d.flock with reqs := d.flock.reqs.filter fun r => r.peer != k } }
  let d := d.modPeer k fun p => { p with
    fn := .stopped, unacked := [], connecting := false, session := 0, closeAt := none, retries := 0, peerWindow := 16,
    serve := p.serve.map fun x => { x with mute := true } }
  let d := mine.foldl (fun d r => d.loseReq e dev r) d
  let d := lost.foldl (fun d x => d.raise ((x.thread.map fun t => d.threadSrc t).getD 0x2C5) 0x0F 2 dev) d
  let d := ((p.unacked.filterMap (·.thread)).dedup).foldl (fun d t => d.fenceCheck t) d
  if p.fn.active then d.linkLeaves e k else d

/-- A link enters STOPPED with its work ended. DEDUCED: log entry 64. -/
def Dev.stopLink (d : Dev) (e : Env) (k : Nat) : Dev := d.endLink e k

/-- A link enters FAULTED with a LINK fault of R442 or R443: its work ends, a STATE notification is posted (R378). -/
def Dev.faultLink (d : Dev) (e : Env) (k detail : Nat) : Dev :=
  let dev := (((d.peer k).cfg).map (·.dev)).getD 0
  let d := (d.raise 0x2C5 0x28 detail dev).endLink e k
  (d.modPeer k fun p => { p with fn := .faulted }).noteState e 5 .faulted k (faultMsg 0x2C5 0x28 detail dev).toNat

/-- A stile closes as under DISCARD: requests that have not reached memory are answered with status 3 (R451). -/
def Dev.closeStile (d : Dev) (e : Env) (i : Nat) (st : FnState) : Dev :=
  let d := d.modStile i fun s => { s with fn := st }
  (tkeys d.flock.peers fun p => !p.serve.isEmpty).foldl (fun d k => Dev.servePeer ((d.peer k).serve.length) e k d) d

end Sys2Proof.Machine
end

