-- ==== Sys2Proof/Machine/Domains.lean ====
section
/-! DEFINITION. Time domains and triggers as shared operations: parameter sets and steps (R415, R416, R419 to R422), and
the edges of trigger outputs (R394, R426 to R429). -/

namespace Sys2Proof.Machine

open Sys2Proof

/-! ## Triggers -/

/-- The ball's level: active or inactive by polarity (R427). -/
def TrigCfg.ball (c : TrigCfg) (active : Bool) : Bool := active != c.activeLow

/-- The domain time of a trigger's edge j (R426). -/
def TrigCfg.edgeAt (c : TrigCfg) (j : Nat) : Int := (c.start : Int) + j * c.period

/-- The first j whose edge lies at least 1 ms after a domain time (R394, R427, R428). -/
def TrigCfg.lateEdge (c : TrigCfg) (now : Int) : Nat :=
  (-((c.start : Int) - (now + 1000000)).fdiv (c.period : Int)).toNat

/-- The source of a trigger (R431). -/
def trigSource (n : Nat) : Nat := 0x310 + n

/-- A trigger enters STOPPED at its inactive level. -/
def Dev.trigStopped (d : Dev) (n : Nat) : Dev :=
  d.modTrig n fun t => { t with
    fn := .stopped, inPulse := false, waitLock := false, resume := none, level := (t.cfg.map fun c => c.ball false).getD false }

/-- The pulse of a trigger ends: one that stops completes its STOP, a once trigger stops, a periodic one goes on to its next
edge (R379, R426), which after a step is the one that R428 names. -/
def Dev.pulseEnds (d : Dev) (e : Env) (n : Nat) (c : TrigCfg) : Dev :=
  if (d.trig n).fn = .stopping then
    (d.trigStopped n).finishAll e (fun o => o.opcode == 0x512 && o.e.target == n) {}
  else if c.periodic then d.modTrig n fun t => { t with
    inPulse := false, level := c.ball false, edge := t.resume.getD (t.edge + 1), resume := none }
  else (d.trigStopped n).noteState e 3 .stopped n 0

/-- The edges of a trigger after a step of its domain to a time (R428). -/
def Dev.trigStep (d : Dev) (e : Env) (n : Nat) (now : Int) : Dev :=
  let t := d.trig n
  match t.cfg with
  | none => d
  | some c =>
    if !t.fn.active then d
    else
      let past := t.inPulse && decide (c.edgeAt t.edge + c.width ≤ now)
      if c.periodic then
        let d := d.modTrig n fun t => if t.inPulse then { t with resume := some (c.lateEdge now) } else { t with edge := c.lateEdge now }
        if past then d.pulseEnds e n c else d
      else if past then d.pulseEnds e n c
      else if !t.inPulse ∧ c.edgeAt 0 < now then
        let d := d.raise (trigSource n) 0x26 0 0
        (d.trigStopped n).noteState e 3 .stopped n (faultMsg (trigSource n) 0x26 0 0).toNat
      else d

/-- Triggers of a domain. -/
def Dev.trigsOf (d : Dev) (k : Nat) : List Nat := tkeys d.tu.trigs fun t => (t.cfg.map (·.dom)) == some k

/-! ## Parameter sets -/

/-- Firmware replaces a domain's set at most once in 4 ms; the set of a domain never started does not count (R416, R417). -/
def Domain.canReplace (x : Domain) (raw : Nat) : Bool :=
  match x.params with
  | p :: _ => decide (p.rs + 4000000 ≤ raw ∨ p.rs = 0)
  | [] => true

/-- A rate within the limit of R414. -/
def rateIn (rho : Int) : Int := max (-549755814) (min 549755814 rho)

/-- The sets of a domain; one never started has (0, 0, 0) (R417). -/
def Domain.sets (x : Domain) : List ParamSet := if x.params.isEmpty then [{}] else x.params

/-- A new set before a domain's others; the 64 newest are kept (R416). -/
def Dev.addSet (d : Dev) (k : Nat) (p : ParamSet) (old : List ParamSet) : Dev :=
  (d.modDom k fun x => { x with params := (p :: old).take 64 }).rewriteDomain k

/-- A new set in force from now on (R415, R416). -/
def Dev.pushSet (d : Dev) (e : Env) (k : Nat) (ts : Int) (rho : Int) : Dev :=
  d.addSet k { rs := e.raw, ts := ts.toNat, rho := rateIn rho } (d.dom k).sets

/-- A change of rate at the first instant that the 4 ms of R416 leave, now where they have passed: T_s is the time at that
instant under the old set, and a set whose instant has not come gives way (R415, R416). DESIGN CHOICE: log entry 114. -/
def Dev.pushRate (d : Dev) (e : Env) (k : Nat) (rho : Int) : Dev :=
  let x := d.dom k
  if x.canReplace e.raw then d.pushSet e k (d.domTime k e.raw) rho
  else
    let p := x.params.headD {}
    let old := if e.raw < p.rs then x.params.drop 1 else x.sets
    let rs := if e.raw < p.rs then p.rs else p.rs + 4000000
    d.addSet k { rs := rs, ts := ((setAt old rs).time rs).toNat, rho := rateIn rho } old

/-- A domain carried by another takes its rate at every change (R419, R421). -/
def Dev.carry (d : Dev) (e : Env) (k : Nat) : Dev :=
  let o := 1 - k
  if (d.dom o).fn = .running ∧ (d.dom o).sync = .carried ∧ d.rho o ≠ d.rho k then d.pushRate e o (d.rho k) else d

/-- A change of rate without a step; a domain carried by this one takes the same rate (R415, R419). -/
def Dev.setRate (d : Dev) (e : Env) (k : Nat) (rho : Int) : Dev :=
  if d.rho k = rateIn rho then d else (d.pushRate e k rho).carry e k

/-- A step to a time with a new rate: monitors of the domain stop without judging, triggers find their next edges (R419, R422, R428). -/
def Dev.stepTo (d : Dev) (e : Env) (k : Nat) (t rho : Int) : Dev :=
  let d := (d.pushSet e k t rho).carry e k
  let d := (tkeys d.fsets fun s => s.running && (s.cfg.map (·.dom)) == some k).foldl
    (fun d f => d.modFset f fun s => { s with running := false }) d
  (d.trigsOf k).foldl (fun d n => d.trigStep e n t) d

/-! ## Sync states (R419) -/

/-- A domain enters HOLDOVER: its rate is the master's as last measured, without the slew part. No step follows a master found
again, though none has been measured yet. -/
def Dev.enterHoldover (d : Dev) (e : Env) (k : Nat) : Dev :=
  (d.modDom k fun x => { x with sync := .holdover, stepped := true }).setRate e k (d.dom k).masterRho

/-- A domain enters CARRIED with the other domain's rate. -/
def Dev.enterCarried (d : Dev) (e : Env) (k : Nat) (disagree : Bool) : Dev :=
  (d.modDom k fun x => { x with sync := .carried, forDisagreement := disagree, stepped := true }).setRate e k (d.rho (1 - k))

/-- The other domain has left LOCKED: one carried by it, but for disagreement, enters HOLDOVER. -/
def Dev.leftLock (d : Dev) (e : Env) (k : Nat) : Dev :=
  let o := d.dom (1 - k)
  if o.fn = .running ∧ o.sync = .carried ∧ !o.forDisagreement then d.enterHoldover e (1 - k) else d

/-- The domain has entered LOCKED: the other leaves HOLDOVER for CARRIED, and triggers held back since STANDBY fire from the
first edge 1 ms on (R427). -/
def Dev.enteredLock (d : Dev) (e : Env) (k : Nat) : Dev :=
  let d := if (d.dom (1 - k)).fn = .running ∧ (d.dom (1 - k)).sync = .holdover then d.enterCarried e (1 - k) false else d
  (d.trigsOf k).foldl (fun d n =>
    if (d.trig n).waitLock then d.modTrig n fun t => { t with
      waitLock := false, edge := (t.cfg.map fun c => c.lateEdge (d.domTime k e.raw)).getD t.edge }
    else d) d

/-- A domain leaves RUNNING for a state in which it runs free at its last rate (R417). -/
def Dev.domFree (d : Dev) (e : Env) (k : Nat) (st : FnState) : Dev :=
  let was := (d.dom k).sync
  let d := d.modDom k fun x => { x with fn := st, sync := .free, forDisagreement := false, pending := none }
  if was = .locked then d.leftLock e k else d

/-- A domain enters FAULTED with a STATE notification (R413, R419, R514). -/
def Dev.faultDomain (d : Dev) (e : Env) (k msg : Nat) : Dev :=
  if (d.dom k).fn.active then (d.domFree e k .faulted).noteState e 2 .faulted k msg else d

/-- A domain starts in ACQUIRING; the first offset measured steps its time (R419). -/
def Dev.startDomain (d : Dev) (e : Env) (k : Nat) : Dev :=
  d.modDom k fun x => { x with
    fn := .running, sync := .acquiring, stepped := false, goodSyncs := 0, forDisagreement := false, pending := none,
    offsets := [], delayReq := none, best := none, lastSync := e.raw, lastOrigin := 0, syncInterval := 0, announceLog := 0, lastAnnounce := e.raw, master := false }

end Sys2Proof.Machine
end

