-- ==== Sys2Proof/Machine/Power.lean ====
section
/-! DEFINITION. Power states and resets as shared operations: fold-memory images (R40, R149, R192, R291), entry to STANDBY
and HIBERNATE (R560, R561), wakes (R562 to R565), the ROM (R536, R542, R543), cold, warm and domain resets (R514, R575 to
R578), and retirement (R146, R477, R478). -/

namespace Sys2Proof.Machine

open Sys2Proof

/-! ## Fold-memory images -/

/-- Objects of the folds that meet a test are emptied (R291). -/
def Dev.emptyObjects (d : Dev) (p : Nat → Bool) : Dev :=
  { d with
    queues := d.queues.map fun x => if p (x.1 / 256) then (x.1, { x.2 with
      entries := [], overrun := false, waiters := [], prods := x.2.prods.map fun y => { y with used := 0 } }) else x
    slots := d.slots.map fun x => if p (x.1 / 256) then (x.1, { x.2 with st := .empty, taint := false, late := false }) else x
    hurdles := d.hurdles.map fun x => if p (x.1 / 256) then (x.1, { x.2 with
      count := 0, broken := none, waiters := [], phase := 0 }) else x
    flock := { d.flock with hurdles := d.flock.hurdles.filter fun x =>
      !(d.hurdles.any fun y => p (y.1 / 256) && y.2.flock == some x.1) } }

/-- Empties the objects, and releases the waits that this ends: of slots now EMPTY and of credits that have come back (R292). -/
def Dev.resetObjects (d : Dev) (p : Nat → Bool) : Dev :=
  let qs := d.queues.filter fun x => p (x.1 / 256)
  let ss := d.slots.filter fun x => p (x.1 / 256)
  let d := ss.foldl (fun d x => d.slotChanged x.1) (d.emptyObjects p)
  qs.foldl (fun d x => x.2.prods.foldl (fun d y => d.creditFreed x.1 y.who) d) d

/-- A stretch that has an image: fold memory and the Collie memory (R40). -/
def imaged (a : Nat) : Bool := match zoneOf a with
  | .foldMem _ _ | .collie _ => true
  | _ => false

/-- Firmware reads what a stretch of memory now holds, line by line through the checks of R30, and writes it into its image in GDDR6, a
line that came in poisoned as poisoned (R30, R40, R149). DESIGN CHOICE: log entry 73. -/
def Dev.keepImage (d : Dev) (a n : Nat) : Dev :=
  if imaged a then
    (linePieces (n / 64 + 2) a (d.raw a n)).foldl (fun d x =>
      let l := x.1 / 64
      let r := d.readLine 0x003 true l
      let old := tgetD r.2.mem.images l {}
      let bs := old.bytes.take (x.1 % 64) ++ x.2 ++ old.bytes.drop (x.1 % 64 + x.2.length)
      let p := r.1 || (x.2.length != 64 && old.poison)
      r.2.modMem fun m => { m with images := tset m.images l (TLine.of bs p) }) d
  else d

/-- Where the image of a line lies in GDDR6. -/
def imageAt (l : Nat) : Nat := gddrBase + 64 * (Config.imageLine l % (gddrSize / 64))

/-- A correction in an image line: CORRECTED first, STUCK_BIT second in the interface's scrub pass, and the line written back (R162,
R164). -/
def Dev.fixImage (d : Dev) (l bit : Nat) : Dev :=
  let k := tgetD d.mem.imageFixed l 0
  let d := d.modMem fun m => { m with
    imageFixed := tset m.imageFixed l (k + 1), images := tmod m.images l {} fun x => { x with err := none } }
  if k < 2 then d.raise (d.memSource (imageAt l)) (k + 1) bit (imageAt l) else d

/-- Whether firmware's read of an image line delivers it poisoned, with the fault at firmware's source: a failed interface, a stored
poison bit, an uncorrectable error or a check mismatch; a single-bit error is corrected first (R29, R30, R40, R164, R165, R584).
DESIGN CHOICE: log entry 73. -/
def Dev.imageBad (d : Dev) (l : Nat) : Bool × Dev :=
  let x := tgetD d.mem.images l {}
  let bad (detail : Nat) (d : Dev) : Bool × Dev :=
    (true, (d.modMem fun m => { m with images := tmod m.images l {} fun y => { y with poison := true } }).raise 0x003 3 detail (imageAt l))
  let d := match x.err with
    | some (.single bit) => d.fixImage l bit
    | _ => d
  if d.gddrFailed (imageAt l) || x.poison then (true, d)
  else if x.err == some .uncorrectable then bad 0 d
  else if x.err == some .checkMismatch || x.check != lineCheck x.bytes then bad 1 d
  else (false, d)

/-- Loads a stretch of memory from its image; a line that comes in poisoned is written poisoned (R30, R40). -/
def Dev.loadKept (d : Dev) (a n : Nat) : Dev :=
  (linePieces (n / 64 + 2) a (List.replicate n 0)).foldl (fun d x =>
    let l := x.1 / 64
    let r := d.imageBad l
    let d := r.2.init x.1 (((tgetD d.mem.images l {}).bytes.drop (x.1 % 64)).take x.2.length)
    if r.1 then d.setPoison l true else d) d

/-- The write-back regions of an instance as they stand (R149). DESIGN CHOICE: log entry 73. -/
def Dev.copyBack (d : Dev) (k : Nat) : Dev :=
  match (d.inst k).image with
  | none => d
  | some im => (im.regions.filter fun r => r.kind == 1).foldl (fun d r => d.keepImage r.base r.size) d

/-- Loads what the image holds for the addresses that meet a test: the resident regions as they were at the load, and the write-back
regions as last copied (R149). DESIGN CHOICE: log entry 73. -/
def Dev.restoreInst (d : Dev) (k : Nat) (here : Nat → Bool) : Dev :=
  match (d.inst k).image with
  | none => d
  | some im =>
    let l := im.content.map (fun c => (c.1, c.2.length)) ++ (im.regions.filter fun r => r.kind != 2).map fun r => (r.base, r.size)
    (l.filter fun c => here c.1).foldl (fun d c => d.loadKept c.1 c.2) d

/-- A memory that lost its contents is zeroed and loaded from the images (R40, R192, R193). -/
def Dev.reloadRange (d : Dev) (a n : Nat) : Dev :=
  (d.insts.map (·.1)).foldl (fun d k => d.restoreInst k fun x => a ≤ x && x < a + n) (d.zeroRange a n)

/-- One logical fold's memory (R149). DESIGN CHOICE: log entry 73. -/
def Dev.reloadFold (d : Dev) (n : Nat) : Dev := d.reloadRange (foldBase n) 0x800000

/-- The Collie memory. -/
def Dev.reloadCollie (d : Dev) : Dev := d.reloadRange collieBase 0x1000000

/-- A fold's engine domain is off: jobs, held accumulators and loaded sides are gone; tables stay, and a fold that waited for its
vector engine has switched (R39, R259, R263). -/
def Dev.engineOff (d : Dev) (n : Nat) : Dev :=
  (d.modFold n fun f => { f with
    gated := true, engines := [], arrays := [], wakeDue := false, heldBack := false
    luts := f.luts.map fun (x : Nat × Lut) => (x.1, x.2.switched) }).rewatch

/-! ## Entry to STANDBY and HIBERNATE -/

/-- Every trigger output is low (R427). -/
def Dev.trigLow (d : Dev) : Dev :=
  { d with tu := { d.tu with trigs := d.tu.trigs.map fun x => (x.1, { x.2 with level := false, inPulse := false, resume := none }) } }

/-- R397: no gate, instance or stile is RUNNING or STOPPING. -/
def Dev.anyActive (d : Dev) : Bool :=
  d.race.gates.any (·.2.fn.active) || d.insts.any (·.2.fn.active) || d.flock.stiles.any (·.2.fn.active)

/-- Fold memory and the Collie memory lose their power and with it their contents (R38, R159). -/
def Dev.losePower (d : Dev) : Dev :=
  ((List.range 48).foldl (fun d n => d.loseRange (foldBase n) 0x800000) d).loseRange collieBase 0x1000000

/-- R560. The clock's part is `clockAfter`'s; the GDDR6 controllers write their cached metadata lines back before self-refresh (R182).
DESIGN CHOICE: log entry 72. -/
def Dev.enterStandby (d : Dev) : Dev :=
  let d := (d.insts.map (·.1)).foldl (fun d k => d.copyBack k) d
  let d := d.losePower.modMem fun m => { m with metaCache := [] }
  let d := (List.range 49).foldl (fun d n => (d.engineOff n).modFold n fun f => { f with memAwake := false }) d
  let d := d.trigLow
  { d with
    gddr := { d.gddr with selfRefresh := true }
    host := { d.host with pages := [] }
    mbox := { d.mbox with queues := d.mbox.queues.map fun (x : Nat × MQueue) => (x.1, { x.2 with irq := false }) }
    safe := { d.safe with rails := terase d.safe.rails 4, runs := [] }
    pow := { d.pow with state := .standby, phase := .settled, pwrFold := false, penAt := none, refclkLost := false, timePllLost := false } }.pins

/-- What HIBERNATE keeps: fuse shadow, fold map, retired mask, BOOT_SEL; the flash is not the device's memory (R561). -/
def Dev.hibernated (d : Dev) : Dev :=
  { (default : Dev) with
    mem := { stuck := d.mem.stuck }
    foldMap := d.foldMap
    phys := d.phys.map fun (x : Nat × PhysFold) => (x.1, {
      retired := x.2.retired, fenced := x.2.retired, holdCycles := x.2.holdCycles, sliceCycles := x.2.sliceCycles })
    sec := { flashA := d.sec.flashA, flashB := d.sec.flashB, everOpened := d.sec.everOpened }
    host := { resetLow := d.host.resetLow }
    safe := { rails := d.safe.rails.filter fun x => x.1 < 2 }
    pow := { state := .hibernate, phase := .settled, porstLow := d.pow.porstLow, warmLow := d.pow.warmLow,
             supplyLow := d.pow.supplyLow, holdup := d.pow.holdup, bootSel := d.pow.bootSel, fromHibernate := true,
             wakeWaiting := d.pow.wakeWaiting }
    free := d.free }

/-! ## The ROM (R536, R542, R543, R579) -/

/-- ROM stops: HPC_READY[0] stays clear and the pins stay low until PORST_N (R543). -/
def Dev.romStop (d : Dev) : Dev :=
  { d with
    mbox := { d.mbox with boot := { d.mbox.boot with stage := 15 } }
    pow := { d.pow with romStopped := true, phase := .rom } }.pins

/-- Step 4 of R542: ROM derives the identity of the image that it starts, writes the alias certificate, and locks the UDS port.
DEDUCED: log entry 119. -/
def Security.identified (x : Security) (f : Fuses) : Security :=
  { x with keyEngine := keyEngineOf f x.fwMeasure, cert := aliasCert f x }

/-- The image that ROM chose: 0 slot A, 1 slot B, 2 a push (R542, R581). -/
def Dev.bootImage (d : Dev) (f : Fuses) (source : Nat) (b : List Byte) : Dev :=
  { d with
    mbox := { d.mbox with boot := { d.mbox.boot with stage := 2, source := source } }
    sec := { d.sec with
      runningB := source = 1, fwVersion := ctVersion b, fwSvn := ctSvn b, fwMeasure := Config.sha512 (ctSigned b) }.identified f
    pow := { d.pow with phase := .rom } }

/-- A flash slot as ROM checks it. -/
def slotImage (f : Fuses) (x : Option FlashSlot) : Option (List Byte) :=
  match x with
  | some s => if s.valid && checkImage f 0 s.container.length s.container = stOk then some s.container else none
  | none => none

/-- Image versions of valid slots that the checks refuse (R543). -/
def slotRefused (f : Fuses) (x : Option FlashSlot) : List Nat :=
  match x with
  | some s => if s.valid && checkImage f 0 s.container.length s.container ≠ stOk then [ctVersion s.container] else []
  | none => []

/-- Steps 1 to 3 of R542 after the start-up test item 0. DESIGN CHOICE: log entry 10. -/
def Dev.romBoot (d : Dev) (f : Fuses) (b : StartUp) : Dev :=
  let d := { d with pow := { d.pow with startUp := some b, phase := .rom, romStopped := false } }
  let d := { d with mbox := { d.mbox with boot := {} }, sec := { d.sec with fuseAlarm := f.torn, refused := [] } }
  if b.failedItems.contains 0 || [0, 5, 6].any f.uncorrectable.contains || lifecycleOf f = lcScrap then d.romStop
  else
    let flash := !f.pushOnly && (!d.pow.bootSel || f.flashOnly)
    let a := if flash then slotImage f d.sec.flashA else none
    let c := if flash then slotImage f d.sec.flashB else none
    let d := if flash then { d with sec := { d.sec with
      refused := slotRefused f d.sec.flashA ++ slotRefused f d.sec.flashB } } else d
    match a, c with
    | some x, some y => if ctVersion x < ctVersion y then d.bootImage f 1 y else d.bootImage f 0 x
    | some x, none => d.bootImage f 0 x
    | none, some y => d.bootImage f 1 y
    | none, none =>
      if f.flashOnly then d.romStop
      else { d with
        mbox := { d.mbox with boot := { d.mbox.boot with stage := 1 } }
        pow := { d.pow with phase := .awaitPush } }

/-- A pushed container (R542, R582): checked, and refused with STAGE back at 1. -/
def Dev.pushBoot (d : Dev) (f : Fuses) : Dev :=
  if d.pow.phase = .awaitPush then
    let len := fieldAt (d.raw (commonBase + 0x2000018) 4) 0 4
    let b := d.raw (commonBase + 0x2000000) (min len 0x2000000)
    if checkImage f 0 len b = stOk then d.bootImage f 2 b
    else { d with sec := { d.sec with refused := d.sec.refused ++ [ctVersion b] } }
  else d

/-! ## Cold reset and start -/

/-- Every domain and every memory at its cold-reset value; the inputs, the flash and the free values' number stay (R575,
R576). -/
def Dev.coldReset (d : Dev) : Dev :=
  { (default : Dev) with
    mem := { stuck := d.mem.stuck }
    sec := { flashA := d.sec.flashA, flashB := d.sec.flashB }
    host := { resetLow := d.host.resetLow }
    safe := { rails := d.safe.rails.filter fun x => x.1 < 2 }
    pow := { porstLow := d.pow.porstLow, warmLow := d.pow.warmLow, supplyLow := d.pow.supplyLow, holdup := d.pow.holdup,
             bootSel := d.pow.bootSel }
    free := d.free }

/-- A start from OFF or HIBERNATE: rails on, memory zeroed, ROM runs; the raw counter starts at 0 between 0.8 and 1.0 ms
and the host port answers 2 ms after the start (R353, R561, R583, R586). -/
def Dev.coldStart (d : Dev) (f : Fuses) (b : StartUp) : Dev :=
  let d := { d with pow := { d.pow with
    state := .standby, pwrMain := true, penAt := some (1000000 + Config.freeNat d.free % 200001), wakeWaiting := false
    phase := .rom } }.spend
  (d.romBoot f b).pins

/-- The state after a start sequence began: fuses mended, counter at 0 and running. -/
def coldStarted (s : State) (d : Dev) (b : StartUp) : State :=
  { s with fuse := s.fuse.mended, clk := { running := true }, dev := d.coldStart s.fuse b }

/-- A start that the device begins of itself, with an open outcome of its tests (DESIGN CHOICE, log entry 3). -/
def selfStarted (s : State) (d : Dev) : State := coldStarted s d.spend (Config.startUpOutcome d.free)

/-! ## Warm reset (R575 to R578, R586) -/

/-- What a warm reset leaves: memory, fold map, retired mask, hold counters, the port and its writes, sticky bits but that
of source 0x000, domain parameter sets, HPC_NOTIFY_LOST (R192, R517, R576, R577). -/
def Dev.warmReset (d : Dev) : Dev :=
  { (default : Dev) with
    mem := d.mem
    gddr := { d.gddr with selfRefresh := true }
    folds := d.folds.map fun (x : Nat × Fold) => (x.1, { luts := x.2.luts.map fun (l : Nat × Lut) => (l.1, { l.2 with pending := false }) })
    phys := d.phys.map fun (x : Nat × PhysFold) => (x.1, {
      retired := x.2.retired, fenced := x.2.fenced, holdCycles := x.2.holdCycles, sliceCycles := x.2.sliceCycles
      covered := x.2.covered })
    foldMap := d.foldMap
    host := { d.host with windows := [] }
    mbox := { notifyLost := d.mbox.notifyLost }
    tu := { doms := d.tu.doms.map fun (x : Nat × Domain) => (x.1, { params := x.2.params }) }
    flock := { out := d.flock.out }
    col := { held := terase d.col.held 0, dropped := d.col.dropped }
    safe := { rails := d.safe.rails, foldRailBad := d.safe.foldRailBad, clockBad := d.safe.clockBad }
    sec := { flashA := d.sec.flashA, flashB := d.sec.flashB, everOpened := d.sec.everOpened, tdo := d.sec.tdo,
             boundary := d.sec.boundary, tapCode := d.sec.tapCode, keyEngine := { udsLocked := d.sec.keyEngine.udsLocked } }
    pow := { d.pow with state := .standby, phase := .inReset, startUp := none, wakeWaiting := false }
    free := d.free }.pins

/-- A warm start: ROM runs again with the short test (R586); a ROM that has stopped stays so until PORST_N (R543). -/
def Dev.warmStart (d : Dev) (f : Fuses) (b : StartUp) : Dev :=
  if d.pow.romStopped then d.romStop else (d.romBoot f b).pins

/-! ## Wakes (R562 to R565) -/

/-- A wake from STANDBY begins: PWR_EN_FOLD rises and the PLLs start. DEDUCED: log entry 82. -/
def Dev.beginWake (d : Dev) (e : Env) : Dev :=
  { d with pow := { d.pow with phase := .waking, pwrFold := true, wakeAsleep := e.asleep, wakeWaiting := false, penAt := none } }

/-- A wake event in STANDBY: it waits while the hold-up sequence is active (R562, R564). DEDUCED: log entry 82. -/
def Dev.wakeStandby (d : Dev) (e : Env) : Dev :=
  if d.pow.sleeping then
    if d.pow.holdup then { d with pow := { d.pow with wakeWaiting := true } } else d.beginWake e
  else d

/-- The host pen is answered (R353, R563): in IDLE, and during a start or wake from the port's time on. -/
def Dev.penAnswers (d : Dev) (e : Env) : Bool :=
  match d.pow.state with
  | .idle => true
  | .standby => !d.pow.sleeping && (d.pow.penAt.map fun t => decide (t ≤ e.raw)).getD false
  | _ => false

/-! ## Domain resets (R514, R572) -/

/-- A gate with work in a reset domain closes as under DISCARD and enters FAULTED (R514). DEDUCED: log entry 70. -/
def Dev.faultGate (d : Dev) (e : Env) (g msg : Nat) : Dev :=
  if (d.gate g).fn.active then
    ((d.abandonGate e g).modGate g fun x => { x with fn := .faulted, core := none }).noteState e 0 .faulted g msg
  else d

/-- Instances with a thread on a logical fold. -/
def Dev.instsOn (d : Dev) (n : Nat) : List Nat :=
  (d.insts.map (·.1)).filter fun k => (d.threadsOf k).any fun t => foldOfThread t == n

/-- The logical fold that a physical fold serves. -/
def Dev.logicalOf (d : Dev) (p : Nat) : Option Nat := (d.foldMap.find? fun x => x.2 == p).map (·.1)

/-- Reset of the engine and fold-memory domains of a physical fold: its memory is reloaded from the image (R192, R514). -/
def Dev.resetFold (d : Dev) (e : Env) (p m : Nat) : Dev :=
  match d.logicalOf p with
  | none => d
  | some n =>
    let d := (d.instsOn n).foldl (fun d k => d.faultInst e k m) d
    (((d.engineOff n).lutSwitch e n).resetObjects (· == n)).reloadFold n

/-- Reset of the Race and decoders domain; its tables are rewritten from firmware's record (R514, R576). -/
def Dev.resetRace (d : Dev) (e : Env) (m : Nat) : Dev :=
  let d := (tkeys d.race.gates fun x => x.fn.active).foldl (fun d g => d.faultGate e g m) d
  { d with race := { d.race with
      ports := d.race.ports.map fun (x : Nat × CsiPort) => (x.1, { x.2 with discarded := 0, corrected := 0, uncorrectable := 0 }) } }

/-- Reset of the Ethernet and time domain: monitors stop, its active functions enter FAULTED; the raw counter runs on (R323,
R514). -/
def Dev.resetEthernet (d : Dev) (e : Env) (m : Nat) : Dev :=
  let d := { d with fsets := d.fsets.map fun (x : Nat × FSet) => (x.1, { x.2 with running := false }) }
  let d := [0, 1].foldl (fun d k => d.faultDomain e k m) d
  let d := (tkeys d.tu.trigs fun t => t.fn.active).foldl (fun d n =>
    (d.modTrig n fun t => { t with fn := .faulted, inPulse := false, level := false }).noteState e 3 .faulted n m) d
  let d := (tkeys d.flock.peers fun p => p.fn.active).foldl (fun d k =>
    ((d.endLink e k).modPeer k fun p => { p with fn := .faulted }).noteState e 5 .faulted k m) d
  let d := (tkeys d.flock.stiles fun s => s.fn.active).foldl (fun d i => (d.closeStile e i .faulted).noteState e 4 .faulted i m) d
  { d with flock := { d.flock with
    learn := [], bridgeDrops := 0, ports := d.flock.ports.map fun (x : Nat × MacPort) => (x.1, { x.2 with fcsErrors := 0, discarded := 0, queue := [], busyTo := 0 }) } }

/-- Reset of the Collie domain. -/
def Dev.resetCollie (d : Dev) (e : Env) (m : Nat) : Dev :=
  let d := ((d.insts.map (·.1)).filter fun k => ((d.inst k).image.map (·.collie)).getD false).foldl
    (fun d k => d.faultInst e k m) d
  ((d.engineOff collieFold).lutSwitch e collieFold).reloadCollie

/-- A group 2 trip: every fold's engine domain; fold memory stays. At a wake the device returns to STANDBY (R572). -/
def Dev.resetEngines (d : Dev) (e : Env) (m : Nat) : Dev :=
  let d := (d.insts.map (·.1)).foldl (fun d k =>
    if ((d.inst k).image.map (·.collie)).getD false then d else d.faultInst e k m) d
  let d := (List.range 48).foldl (fun d n => (d.engineOff n).lutSwitch e n) d
  if d.pow.phase = .waking then { d with
    safe := { d.safe with rails := terase d.safe.rails 4 }
    pow := { d.pow with phase := .settled, pwrFold := false, penAt := none } }
  else d

/-! ## Retirement and replacement (R146 to R148, R475, R477, R478) -/

/-- Spares whose SPARE_TEST is open; a replacement never selects one (R408). -/
def Dev.underTest (d : Dev) : List Nat := (d.mbox.outst.filter fun o => o.opcode == 0x702).flatMap (·.aux)

/-- Spares: physical folds neither retired nor mapped. -/
def Dev.spares (d : Dev) : List Nat :=
  (List.range 52).filter fun p => !(d.physFold p).retired && (d.logicalOf p).isNone

/-- The draining instances of a list may have nothing left to run (R151). -/
def Dev.settleDrains (d : Dev) (e : Env) (ks : List Nat) : Dev :=
  (ks.filter fun k => (d.inst k).fn == .stopping).foldl (fun d k => d.settleInst e k) d

/-- Engine counts of an instance's folds start at zero (R133, R146). -/
def Dev.zeroCounts (d : Dev) (k : Nat) : Dev :=
  match (d.inst k).image with
  | none => d
  | some im => im.folds.foldl (fun d n => d.modFold n fun f => { f with
      engines := f.engines.map fun (x : Nat × Engine) => (x.1, { x.2 with issued := 0, completed := 0 }) }) d

/-- The fenced port of a physical fold drops the stores that the fold has sent and that have not landed, each with a retired-spoke fault;
those to its own memory die with the fold (R478, R510). DESIGN CHOICE: log entry 43. -/
def Dev.dropPackets (d : Dev) (p n : Nat) : Dev :=
  let mine (x : Posted) : Bool := foldOfThread x.thread == n
  let gone := d.posted.filter mine
  gone.foldl (fun d x => match zoneOf x.addr with
    | .foldMem m _ => if m = n then d else d.raise (0x080 + p) 0x0B 0 x.addr
    | _ => d.raise (0x080 + p) 0x0B 0 x.addr) { d with posted := d.posted.filter fun x => !mine x }

/-- Step 1 of R146, and R478: the fold is fenced and switched off; the logical fold it serves is in replacement until
FOLD_RETIREMENT ends it. -/
def Dev.fence (d : Dev) (e : Env) (p : Nat) : Dev :=
  if (d.physFold p).retired then d
  else
    let d := d.modPhys p fun x => { x with retired := true, fenced := true, slice := none, parityAt := [], flitAt := [] }
    match d.logicalOf p with
    | some n => ((((d.engineOff n).lutSwitch e n).dropPackets p n).modFold n fun f =>
        { f with replacing := true, replaceRaised := [], idleSince := e.raw }).settleDrains e (d.insts.map (·.1))
    | none => d

/-- The open work of an active instance closes as under DISCARD: threads halt, jobs are dropped, an open invocation ends with its
unfinished results ABANDONED (R146, R315, R377, R379). DESIGN CHOICE: log entry 43. -/
def Dev.closeActive (d : Dev) (e : Env) (k : Nat) : Dev :=
  let open_ := (d.inst k).invoc.isSome
  let d := d.closeInst e k false
  (if open_ then d.abandonOutputs k else d).endInvoke e k stAborted

/-- Step 2 of R146: the open work of every active instance with threads on the fold closes as under DISCARD; the threads of those
instances that were not HALTED are listed for their restart, and stores of the fold that have not landed are lost. DESIGN CHOICE: log
entry 43. -/
def Dev.closeOn (d : Dev) (e : Env) (n : Nat) : List Nat × Dev :=
  let ks := (d.instsOn n).filter fun k => (d.inst k).fn.active
  let ts := (ks.flatMap d.threadsOf).filter fun t => (d.thread t).st != .empty && (d.thread t).st != .halted
  let d := ks.foldl (fun d k => d.closeActive e k) d
  (ts, { d with posted := d.posted.filter fun x => foldOfThread x.thread != n })

/-- All four slices run on a spare during its image load: they pass, or one of them mismatches, which retires it once its message is
collected; which is open (R473, R475; DESIGN CHOICE, log entry 3). -/
def Dev.runAllSlices (d : Dev) (e : Env) (spare : Nat) : Dev :=
  let was := (d.physFold spare).lastPass
  let d := d.modPhys spare fun x => { x with
    lastPass := [(0, e.raw), (1, e.raw), (2, e.raw), (3, e.raw)], lapsed := [], countedTo := e.raw
    sliceCycles := (x.sliceCycles + 75000) % 2 ^ 64 }
  let sl := Config.freeNat d.free % 5
  if sl = 4 then d.spend
  else (d.spend.modPhys spare fun x => { x with lastPass := tset x.lastPass sl (tgetD was sl 0) }).raise (0x100 + spare) 0x0C sl
    (tgetD was sl 0 / 1024)

/-- Steps 3 to 6 on a spare: image loaded, objects reset, contexts initialised, the threads of the closed instances restarted with s2 = 3
and their engine counts with them, all four slices run (R146, R291, R475). -/
def Dev.replace (d : Dev) (e : Env) (n spare : Nat) (ts : List Nat) : Dev :=
  let d := { d with foldMap := tset d.foldMap n spare }
  let d := ((d.engineOff n).resetObjects (· == n)).reloadFold n
  let d := d.modFold n fun f => { f with replacing := false, replaceRaised := [], gated := false, idleSince := e.raw }
  let d := d.runAllSlices e spare
  let d := ((ts.filterMap d.ownerOf).dedup).foldl (fun d k => d.zeroCounts k) d
  ts.foldl (fun d t =>
    match (d.ownerOf t).bind fun k => (d.inst k).image.bind fun im => im.threads.find? fun x => x.thread == t with
    | some x => (d.modThread t fun th => th.launch x (th.reg 1).toNat 3).parkHeld t
    | none => d) d

/-- Steps 2 to 6 of a retirement; with no spare left the fold stays unmapped and its instances enter FAULTED (R146, R148,
R510). -/
def Dev.retire (d : Dev) (e : Env) (n : Nat) : Dev :=
  let r := d.closeOn e n
  match r.2.spares.filter fun s => !d.underTest.contains s with
  | s :: _ => (r.2.replace e n s r.1).settleDrains e (d.insts.map (·.1))
  | [] => if r.2.spares ≠ [] then d else
    let d := { r.2 with foldMap := terase r.2.foldMap n }
    let d := (d.modFold n fun f => { f with replacing := false, replaceRaised := [] }).raise 0x005 0x0A 1 n
    (d.instsOn n).foldl (fun d k => if (d.inst k).fn.active then
      (d.modInst k fun x => { x with fn := .faulted }).noteState e 1 .faulted k (faultMsg 0x005 0x0A 1 n).toNat else d) d

/-- A fold whose monitor's HALT a warm reset serves is retired all the same (R477, R514). -/
def Dev.retireHalted (d : Dev) : Dev :=
  d.col.halts.foldl (fun d h => match h.1 with
    | .foldMonitor p => d.modPhys p fun x => { x with retired := true, fenced := true }
    | _ => d) d

/-- Performs a domain reset that a HALT's message calls for; cold and warm resets are the device's own (R514). -/
def Dev.domainReset (d : Dev) (e : Env) (h : HaltReset) (m : Nat) : Dev :=
  match h with
  | .fold p => d.resetFold e p m
  | .foldMonitor p => (d.resetFold e p m).fence e p
  | .foldEngines => d.resetEngines e m
  | .race => d.resetRace e m
  | .ethernet => d.resetEthernet e m
  | .collie => d.resetCollie e m
  | .warm => d.retireHalted.warmReset
  | .warmZeroGddr =>
    let d := d.retireHalted.warmReset
    { d with pow := { d.pow with zeroGddr := true } }
  | .cold => d.coldReset

end Sys2Proof.Machine
end

