-- ==== Sys2Proof/Machine/SelfTest.lean ====
section
/-! DEFINITION. The rolling self-test, coverage, spares and retirement (R127, R146, R319, R320, R408, R468 to R479). -/

namespace Sys2Proof.Machine

open Sys2Proof

/-! ## Ages (R470) -/

/-- The age of a slice of a physical fold (R470). -/
def PhysFold.age (x : PhysFold) (raw s : Nat) : Nat := raw - tgetD x.lastPass s 0

/-! ## Slices (R471 to R475) -/

/-- Cycles of R9 as ns. -/
def cycleNs (c : Nat) : Int := ((c * 4 / 3 : Nat) : Int)

/-- The terms of an image's path of a frame set. -/
def Image.termsOf (im : Image) (f : Nat) : PathTerms := (im.terms.find? fun x => x.fset == f).getD default

/-- What R329 adds to the latest position of a path on `folds` folds with hold allowance `h`, and R332 to its earliest, in cycles: holds,
reserved gaps, hand-offs of 50 cycles and wakes; or hand-offs of 24 cycles alone. -/
def PathTerms.late (x : PathTerms) (h folds : Nat) : Nat := h * folds + x.gaps + 50 * x.handoffs + 1500 * x.wakes
def PathTerms.early (x : PathTerms) : Nat := 24 * x.handoffs

/-- The earliest and latest raw start of a path on logical fold `n`, with its frame set: of the open invocation from its take on, or
of the frame-set instances about the present one from t_i on, with the extras of R329 and R332 (R156, R472).
DESIGN CHOICE: log entry 32. -/
def Dev.anchors (d : Dev) (e : Env) (n k : Nat) (x : Inst) (im : Image) : List (Option Nat × Int × Int) :=
  if im.invokeMode then
    if x.invoc.isSome && im.folds.contains n then
      let p := im.termsOf 0
      [(none, (x.invocAt : Int) + cycleNs p.early, (x.invocAt : Int) + cycleNs (p.late 0 im.folds.length))]
    else []
  else (pathSets im n).flatMap fun f =>
    match (d.fset f).cfg with
    | none => []
    | some c =>
      let now := d.domTime c.dom e.raw
      let p := im.termsOf f
      let folds := (((im.paths.find? fun y => y.1 == f).map (·.2)).getD []).dedup.length
      ([-3, -2, -1, 0, 1] : List Int).map fun j =>
        let t := (e.raw : Int) + c.epoch + ((now - c.epoch).fdiv c.period + j) * c.period - now
        (some f, t + Config.pathEarliest k f + cycleNs p.early, t + Config.pathLatest k f + cycleNs (p.late c.hold folds))

/-- A stretch of fold `n` that belongs to an anchor. -/
def Stretch.fits (s : Stretch) (n : Nat) (a : Option Nat × Int × Int) : Bool := s.fold == n && (a.1.map (· == s.fset)).getD true

/-- Whether the present moment may hold a slice: in a gap of every RUNNING path on the fold, and 30 µs clear of the next protected
window. A fold with no RUNNING path is always in a gap (R156, R471, R472). -/
def Dev.inGap (d : Dev) (e : Env) (n : Nat) : Bool :=
  let now : Int := e.raw
  d.insts.all fun x =>
    x.2.fn != .running || (x.2.image.map fun im =>
      let l := d.anchors e n x.1 x.2 im
      l.isEmpty ||
        (l.any (fun a => im.gaps.any fun g => g.fits n a && a.2.2 + cycleNs g.first ≤ now && now ≤ a.2.1 + cycleNs g.last) &&
          l.all fun a => im.windows.all fun w =>
            !w.fits n a || now + 30000 ≤ a.2.1 + cycleNs w.first || a.2.2 + cycleNs w.last ≤ now)).getD true

/-- R471 but for age and gap: idle engines, empty queues, no held accumulators, the fold awake and no slice in it. -/
def Dev.sliceRoom (d : Dev) (p n : Nat) : Bool :=
  d.foldAwake n && (d.physFold p).slice.isNone &&
    [0, 1, 2].all (fun k => (d.engine n k).running.isNone && (d.engine n k).queue.isEmpty) &&
    [0, 1].all (fun k => (d.array n k).held.isNone)

/-- The slices old enough to start, and the oldest of them. -/
def Dev.dueSlice (d : Dev) (e : Env) (p n : Nat) : Option Nat :=
  let age (s : Nat) : Nat := (d.physFold p).age e.raw s
  ((List.range 4).filter fun s => d.coverage n ≤ 2 * age s).foldl (fun best s =>
    match best with
    | none => some s
    | some b => if age b < age s then some s else best) none

/-- A self-test mismatch: the fold is retired when the message is collected, or at once where another message of the source
waits and this one is not sent (R146, R473, R504). DESIGN CHOICE: log entry 32. -/
def Dev.mismatch (d : Dev) (e : Env) (p sl arg : Nat) : Dev :=
  let busy := d.col.waiting.any fun m => msgSource m == 0x100 + p
  let d := d.raise (0x100 + p) 0x0C sl arg
  if busy then d.fence e p else d

/-- What a slice leaves in an array: its troughs hold the slice's patterns, and no loaded B (R469). -/
def sliceArray (a : ArrayState) : ArrayState :=
  { a with loaded := none, sideA := { pattern := true }, sideB := { pattern := true } }

/-- A slice begins: it writes the troughs of both arrays, which ends their loaded state (R469).
DESIGN CHOICE: log entry 32. -/
def execSliceStart (p sl : Nat) (s : State) : Host.Outcome State Fault Refusal :=
  run (.sliceStart p sl) (fun e d =>
    match d.logicalOf p with
    | none => d
    | some n =>
      if d.sliceRoom p n && d.dueSlice e p n == some sl && d.inGap e n then
        ((d.modPhys p fun x => { x with slice := some sl }).modArray n 0 sliceArray).modArray n 1 sliceArray
      else d) s

/-- A slice ends after 18,750 cycles: its signature goes to the test store and is compared with the one held there for the die, and a
mismatch retires the fold (R127, R469, R473, R476). DESIGN CHOICE: log entry 32. -/
def execSliceEnd (p : Nat) (signature : Word) (s : State) : Host.Outcome State Fault Refusal :=
  runClocked (.sliceEnd p signature) (fun e d =>
    match (d.physFold p).slice, d.logicalOf p with
    | some sl, some n =>
      let x := d.physFold p
      let d := d.modPhys p fun x => { x.counted e.raw (d.coverage n) with
        slice := none, sliceCycles := (x.sliceCycles + 18750) % 2 ^ 64, signatures := tset x.signatures sl signature }
      let d := d.modFold n fun f => { f with idleSince := e.raw }
      if signature = Config.sliceSignature sl then
        d.modPhys p fun x => { x with lastPass := tset x.lastPass sl e.raw, lapsed := terase x.lapsed sl }
      else d.mismatch e p sl (tgetD x.lastPass sl 0 / 1024)
    | _, _ => d) s

/-- Once per lapse (R474). -/
def execCoverageLapse (p sl : Nat) (s : State) : Host.Outcome State Fault Refusal :=
  run (.coverageLapse p sl) (fun e d =>
    match d.logicalOf p with
    | none => d
    | some n =>
      let a := (d.physFold p).age e.raw sl
      if (d.physFold p).retired || a ≤ d.coverage n || tgetD (d.physFold p).lapsed sl false then d
      else (d.modPhys p fun x => { x with lapsed := tset x.lapsed sl true }).raise (0x140 + p) 0x0D sl (a / 1000)) s

/-- A gated fold wakes for its slices once the oldest age is 3C ÷ 4 (R475). -/
def execSliceWake (n : Nat) (s : State) : Host.Outcome State Fault Refusal :=
  run (.sliceWake n) (fun e d =>
    let x := d.physFold (d.physOf n)
    if d.asleepFold n && (List.range 4).any (fun sl => 3 * d.coverage n ≤ 4 * x.age e.raw sl) then d.tryWake e n else d) s

/-! ## Spares (R408, R476) -/

/-- A free spare has had its full test: a failing one is retired without replacement, with the fault of R473; which slice
failed is open (DESIGN CHOICE, log entry 3). DESIGN CHOICE: log entry 45. -/
def Dev.spareTested (d : Dev) (e : Env) (p : Nat) (ok : Bool) : Dev :=
  let x := d.physFold p
  let d := d.modPhys p fun y => { y with lastSpareTest := e.raw, sliceCycles := (y.sliceCycles + 75000) % 2 ^ 64 }
  if ok then d.modPhys p fun y => { y with
    lastPass := [(0, e.raw), (1, e.raw), (2, e.raw), (3, e.raw)], countedTo := e.raw }
  else
    let sl := Config.freeNat d.free % 4
    d.spend.mismatch e p sl (tgetD x.lastPass sl 0 / 1024)

/-- Firmware tests each free spare once every 3,600 s (R476). DESIGN CHOICE: log entry 45. -/
def execSparePeriodicTest (passed : List Nat) (s : State) : Host.Outcome State Fault Refusal :=
  run (.sparePeriodicTest passed) (fun e d =>
    if d.pow.state = .idle then
      (d.spares.filter fun p => (d.physFold p).lastSpareTest + 3600000000000 ≤ e.raw).foldl
        (fun d p => d.spareTested e p (passed.contains p)) d
    else d) s

/-- SPARE_TEST records the spares under test; the outcome comes when its work is complete. -/
def hSpareTest : Handler := fun _ _ s d =>
  if !s.zero 0x10 48 then refuse stBadArg d
  else if (List.range 48).any fun n => (d.fold n).replacing then refuse stBusy d
  else (.long none d.spares, d)

def execSpareTest (q : Nat) (e : Sub) (s : State) : Host.Outcome State Fault Refusal :=
  run (.spareTest q e) (serveRow 0x0702 hSpareTest q e) s

/-! ## The plan and retirement -/

/-- The 8 bytes of a logical fold in the SELFTEST_PLAN reply (R408, R476). -/
def Dev.planBytes (d : Dev) (e : Env) (n : Nat) : List Byte :=
  let p := d.physOf n
  let x := d.physFold p
  if p = 0xFF then leBytes 2 0 ++ leBytes 2 0xFF ++ leBytes 4 0
  else leBytes 2 4 ++ leBytes 2 p ++ leBytes 4 (x.covered + x.newlyCovered e.raw (d.coverage n))

def hSelftestPlan : Handler := fun e _ s d =>
  if !s.zero 0x10 32 ∨ !s.replyOk 384 then refuse stBadArg d
  else ok (d.reply s ((List.range 48).flatMap fun n => d.planBytes e n))

def execSelftestPlan (q : Nat) (e : Sub) (s : State) : Host.Outcome State Fault Refusal :=
  run (.selftestPlan q e) (serveRow 0x0700 hSelftestPlan q e) s

/-- Firmware ends the replacement of a fenced fold (R146). -/
def execFoldRetirement (p : Nat) (s : State) : Host.Outcome State Fault Refusal :=
  run (.foldRetirement p) (fun e d =>
    match d.logicalOf p with
    | some n => if (d.fold n).replacing && (d.physFold p).retired then d.retire e n else d
    | none => d) s

end Sys2Proof.Machine
end

