-- ==== Sys2Proof/Machine/Collector.lean ====
section
/-! DEFINITION. The fault collector: collection, the log ring, severities, sticky bits, and the resets of a HALT (R409, R477,
R498 to R501, R504 to R519, R604). -/

namespace Sys2Proof.Machine

open Sys2Proof

/-! ## The log ring (R518, R519) -/

/-- The ring's header. -/
def Dev.logHeader (d : Dev) (l : LogRing) : Dev :=
  d.write l.base (leBytes 4 l.next ++ leBytes 4 l.capacity ++ leBytes 8 l.written ++ leBytes 8 d.col.dropped ++
    List.replicate 40 0) false

/-- The 32 bytes of a log entry. -/
def logEntry (m : BitVec 64) (at_ sev : Nat) : List Byte :=
  let b := leBytes 8 m.toNat ++ leBytes 8 at_ ++ leBytes 1 sev ++ List.replicate 11 0
  b ++ leBytes 4 (crc32c b)

/-- A message enters the ring, or is counted as dropped where there is none. -/
def Dev.logMessage (d : Dev) (m : BitVec 64) (at_ sev : Nat) : Dev :=
  match d.col.log with
  | none => { d with col := { d.col with dropped := d.col.dropped + 1 } }
  | some l =>
    let d := d.write (l.base + 64 + 32 * l.next) (logEntry m at_ sev) false
    let l := { l with next := if l.next + 1 = l.capacity then 0 else l.next + 1, written := l.written + 1 }
    { d with col := { d.col with log := some l } }.logHeader l

/-- A fault of a source interrupts at once: its bit holds SAFE or HALT (R512). -/
def Dev.urgent (d : Dev) (src : Nat) : Bool := 3 ≤ tgetD d.col.held src 0

/-- The log entry and notification of a collected message (R512, R513, R518). -/
def Dev.reportMessage (d : Dev) (e : Env) (m : BitVec 64) (at_ sev : Nat) : Dev :=
  let d := d.logMessage m at_ sev
  if sev = 0 then d else d.notify e 3 sev m.toNat at_ (d.urgent (msgSource m))

/-- The notifications owed for a source's faults that were not sent: the set line names the source, and the rest of the message is open
(R504, R513). DESIGN CHOICE: log entry 120. -/
def Dev.reportUnsent (d : Dev) (e : Env) (src : Nat) : Dev :=
  let n := tgetD d.col.unsent src 0
  let sev := d.severityOf src
  let d := { d with col := { d.col with unsent := terase d.col.unsent src } }
  if sev = 0 then d
  else (List.range n).foldl (fun d _ =>
    d.spend.notify e 3 sev (src * 2 ^ 54 + Config.freeNat d.free % 2 ^ 54) e.raw (d.urgent src)) d

/-! ## Collection (R477, R504, R509, R513, R515) -/

/-- Messages that retire a fold: a self-test mismatch, two residue or address-parity errors, or four flit-parity errors, within 1 s (R477). -/
def Dev.countParity (d : Dev) (e : Env) (m : BitVec 64) : Dev :=
  let s := msgSource m
  if 0x100 ≤ s ∧ s < 0x134 ∧ msgKind m = 0x0C then d.fence e (s - 0x100)
  else if msgKind m ≠ 4 then d
  else if 0x080 ≤ s ∧ s < 0x0B4 ∧ msgDetail m = 0 then
    let l := e.raw :: (d.physFold (s - 0x080)).flitAt.filter fun t => e.raw < t + 1000000000
    let d := d.modPhys (s - 0x080) fun x => { x with flitAt := l }
    if 4 ≤ l.length then d.fence e (s - 0x080) else d
  else if 0x100 ≤ s ∧ s < 0x134 ∧ (msgDetail m = 1 ∨ msgDetail m = 2) then
    let l := e.raw :: (d.physFold (s - 0x100)).parityAt.filter fun t => e.raw < t + 1000000000
    let d := d.modPhys (s - 0x100) fun x => { x with parityAt := l }
    if 2 ≤ l.length then d.fence e (s - 0x100) else d
  else d

/-- The collector takes a message: sticky bit, severity, log, notification. In STANDBY it holds up to 512 messages for
later (R560). DEDUCED: log entry 67. DESIGN CHOICE: log entry 72. -/
def Dev.collect (d : Dev) (e : Env) (m : BitVec 64) : Dev :=
  let c := asCollected d m
  let sev := d.severityOf (msgSource c)
  let d := d.react c sev
  let d := if d.pow.sleeping || d.pow.phase == .waking then
      if d.col.asleep.length < 512 then { d with col := { d.col with asleep := d.col.asleep ++ [(c, e.raw, sev)] } }
      else { d with col := { d.col with dropped := d.col.dropped + 1 } }
    else d.reportMessage e c e.raw sev
  (d.reportUnsent e (msgSource c)).countParity e c

/-- A message that finds the collector's queue full is dropped and counted; one with a parity error is the fault network's own fault.
Either way the set line has acted, and the severity's reaction takes place (R500, R504). DESIGN CHOICE: log entry 120. -/
def Dev.lostMessage (d : Dev) (e : Env) (m : BitVec 64) (garbled : Bool) : Dev :=
  let c := asCollected d m
  let d := if garbled then d.raise 0x040 0x3A 0 0 else { d with col := { d.col with dropped := d.col.dropped + 1 } }
  (d.unsentFault c).reportUnsent e (msgSource c)

/-- The message that waits at a source arrives. -/
def Dev.takeMessage (d : Dev) (e : Env) (x : Delivery) (src : Nat) : Dev :=
  match d.col.waiting.find? fun m => msgSource m == src with
  | none => d
  | some m =>
    let d := { d with col := { d.col with waiting := d.col.waiting.filter fun x => msgSource x != src } }
    if x.full || x.garbled then d.lostMessage e m x.garbled else d.collect e m

/-- What a block has found is raised at its source (R477, R499, R500, R510). -/
def Dev.findFault (d : Dev) : Finding → Dev
  | .flitParity p dest => d.raise (0x080 + p) 4 0 dest
  | .residue p => d.raise (0x100 + p) 4 1 0
  | .droverParity p addr => d.raise (0x100 + p) 4 2 addr
  | .copies agree =>
    let was := d.safe.stateDisagree
    let d := { d with safe := { d.safe with stateDisagree := !agree } }
    (if agree || was then d else d.raise 0x040 0x3A 1 0).pins

/-- Messages of one cycle are collected in ascending order of source (R519). -/
def execFaultCollect (x : Delivery) (s : State) : Host.Outcome State Fault Refusal :=
  run (.faultCollect x) (fun e d =>
    (x.sources.insertionSort (· ≤ ·)).foldl (fun d src => d.takeMessage e x src) (x.found.foldl (fun d f => d.findFault f) d)) s

/-! ## Resets of a HALT (R514) -/

/-- The first reset that a HALT called for takes place; a cold one keeps PWR_EN_MAIN low until RAIL_RETRY (R572), a warm
one goes straight on to ROM. -/
def execDomainReset (s : State) : Host.Outcome State Fault Refusal :=
  match s.dev.col.halts with
  | [] => run .domainReset (fun _ d => d) s
  | (h, m) :: rest =>
    let d := ({ s.dev with col := { s.dev.col with halts := rest } }).domainReset s.env h m
    match h with
    | .cold => .next { s with dev := { d with pow := { d.pow with retryDue := true } }.pins, clk := {}, fuse := s.fuseNow }
    | .warm | .warmZeroGddr =>
      .next { s with dev := d.spend.warmStart s.fuseNow (Config.startUpOutcome d.free), fuse := s.fuseNow.mended }
    | _ => .next { s with dev := d }

/-! ## Once in each second (R604) is SECOND_FAULT_REPORT's. Severities and sticky bits (R409, R511, R516) -/

def hSeveritySet : Handler := fun e _ s d =>
  let src := s.field 0x10 2
  let v := s.field 0x12 1
  if 1023 < src ∨ 3 < v ∨ !s.zero 0x13 45 then refuse stBadArg d
  else if (sourceRow src).isNone then refuse stBadArg d
  else if v < minimumOf e src ∨ (src = 0 ∧ lifecycleOf e.fuse ≠ lcDevelop) then refuse stDenied d
  else ok { d with col := { d.col with severity := tset d.col.severity src v } }

def execSeveritySet (q : Nat) (e : Sub) (s : State) : Host.Outcome State Fault Refusal :=
  run (.severitySet q e) (serveRow 0x0800 hSeveritySet q e) s

/-- One byte of the SEVERITY_READ reply. -/
def Dev.severityByte (d : Dev) (e : Env) (src : Nat) : Byte :=
  match sourceRow src with
  | none => 0
  | some _ => BitVec.ofNat 8 (d.severityOf src + 4 * minimumOf e src + 128)

def hSeverityRead : Handler := fun e _ s d =>
  if !s.zero 0x10 32 ∨ !s.replyOk 1024 then refuse stBadArg d
  else ok (d.reply s ((List.range 1024).map fun i => d.severityByte e i))

def execSeverityRead (q : Nat) (e : Sub) (s : State) : Host.Outcome State Fault Refusal :=
  run (.severityRead q e) (serveRow 0x0801 hSeverityRead q e) s

/-- The sticky bits as bytes, bit s for source s. -/
def stickyBytes (held : Tab Nat) : List Byte :=
  (List.range 128).map fun i => BitVec.ofNat 8 (maskOf ((List.range 8).filter fun b => (tget held (8 * i + b)).isSome))

def hStickyRead : Handler := fun _ _ s d =>
  if !s.zero 0x10 32 ∨ !s.replyOk 128 then refuse stBadArg d
  else ok (d.reply s (stickyBytes d.col.held))

def execStickyRead (q : Nat) (e : Sub) (s : State) : Host.Outcome State Fault Refusal :=
  run (.stickyRead q e) (serveRow 0x0802 hStickyRead q e) s

/-- Rails of a rail group (R570). -/
def railGroup (r : Nat) : Nat := if r < 2 then 0 else if r < 4 then 1 else if r = 4 then 2 else 3

/-- The condition that keeps a source's bit set (R516). DESIGN CHOICE: log entry 71. -/
def Dev.persists (d : Dev) (e : Env) (src : Nat) : Bool :=
  if src = 0 then true
  else if src = 0x005 then (List.range 48).any fun n => d.physOf n = 0xFF
  else if 0x140 ≤ src ∧ src < 0x174 then
    match d.logicalOf (src - 0x140) with
    | some n => (List.range 4).any fun s => d.coverage n < (d.physFold (src - 0x140)).age e.raw s
    | none => false
  else if 0x380 ≤ src ∧ src < 0x3B4 then tgetD d.safe.foldRailBad (src - 0x380) false
  else if 0x3B4 ≤ src ∧ src < 0x3B8 then
    (List.range 9).any fun r => railGroup r = src - 0x3B4 && !(tgetD d.safe.rails r {}).inWindow
  else if src = 0x3B8 then d.pow.supplyLow
  else if src = 0x3B9 then (List.range 5).any fun c => tgetD d.safe.clockBad c false
  else if 0x3BA ≤ src ∧ src ≤ 0x3BC then tgetD d.safe.clockBad (src - 0x3B5) false
  else if src = 0x3BD then 0 < tgetD d.safe.tempCount 2 0
  else false

/-- Clears the named bits whose condition does not persist; result0 counts the named bits that stay set. -/
def hStickyClear : Handler := fun e _ s d =>
  if !s.zero 0x10 32 then refuse stBadArg d
  else d.withBlock s fun b d =>
    if b.length ≠ 128 then refuse stBadArg d
    else
      let named (k : Nat) : Bool := bitOf (fieldAt b (k / 8) 1) (k % 8)
      let held := d.col.held.filter fun x => !named x.1 || d.persists e x.1
      (.done { r0 := (held.filter fun x => named x.1).length }, { d with col := { d.col with held := held } }.pins)

def execStickyClear (q : Nat) (e : Sub) (s : State) : Host.Outcome State Fault Refusal :=
  run (.stickyClear q e) (serveRow 0x0803 hStickyClear q e) s

def hLogConfigure : Handler := fun _ _ s d =>
  let base := s.field 0x10 8
  let size := s.field 0x18 4
  if base % 64 ≠ 0 ∨ base < commonBase ∨ commonBase + 0xC000000 < base + size ∨ size % 4096 ≠ 0 ∨ size < 4096 ∨
      2 ^ 20 < size ∨ !s.zero 0x1C 36 then refuse stBadArg d
  else
    let l : LogRing := { base := base, capacity := (size - 64) / 32 }
    ok ({ d with col := { d.col with log := some l } }.logHeader l)

def execLogConfigure (q : Nat) (e : Sub) (s : State) : Host.Outcome State Fault Refusal :=
  run (.logConfigure q e) (serveRow 0x0804 hLogConfigure q e) s

/-- Development only (R391): the message reaches the collector as though its source had sent it. -/
def hFaultInject : Handler := fun e _ s d =>
  if !s.zero 0x18 40 then refuse stBadArg d
  else if lifecycleOf e.fuse ≠ lcDevelop then refuse stDenied d
  else ok (d.collect e (BitVec.ofNat 64 (s.field 0x10 8)))

def execFaultInject (q : Nat) (e : Sub) (s : State) : Host.Outcome State Fault Refusal :=
  run (.faultInject q e) (serveRow 0x0805 hFaultInject q e) s

end Sys2Proof.Machine
end

