-- ==== Sys2Proof/Machine/Security.lean ====
section
/-! DEFINITION. Security, identity and debug: attestation (R544 to R547), lifecycle changes (R532 to R534), debug sessions
(R549 to R553) and the TAP (R554, R555). -/

namespace Sys2Proof.Machine

open Sys2Proof

/-! ## Attestation (R546, R547) -/

/-- The mask of retired physical folds, and the fold map (R396). -/
def Dev.retiredMask (d : Dev) : Nat := maskOf ((List.range 52).filter fun p => (d.physFold p).retired)
def Dev.mapBytes (d : Dev) : List Byte := (List.range 48).map fun n => BitVec.ofNat 8 (d.physOf n)

/-- The record of an instance (R547). -/
def Dev.attestRecord (d : Dev) (loaded : List Nat) (k : Nat) : List Byte :=
  let x := d.inst k
  match x.image with
  | some im =>
    if x.fn = .unconfigured ∨ !loaded.contains k then List.replicate 128 0
    else
      leBytes 1 k ++ leBytes 1 (fnCode x.fn) ++ leBytes 1 im.slot ++ leBytes 1 (if im.collie then 1 else 0) ++
        leBytes 4 im.version ++ leBytes 2 im.svn ++ List.replicate 6 0 ++ padTo 64 (im.measure.take 64) ++ List.replicate 48 0
  | none => List.replicate 128 0

/-- Instances whose LOAD has completed. -/
def Dev.loadedInsts (d : Dev) : List Nat := (List.range 16).filter fun k => (d.inst k).fn != .unconfigured

/-- The attestation report with its signatures (R546). -/
def Dev.attestReport (d : Dev) (e : Env) (nonce : List Byte) (loaded : List Nat) : List Byte :=
  let f := e.fuse
  let slots (p : Nat → Bool) : Nat := maskOf ((List.range 4).filter p)
  let keys := slots f.slotUsable + 16 * slots f.slotGone + 256 * (slots f.slotSpoiled / 4)
  let dbg := flagWord [(0, d.sec.session.isSome), (1, d.sec.everOpened), (2, d.safe.lockstepBroken)]
  let used := ((List.range 16).filter fun k => loaded.contains k && (d.inst k).fn != .unconfigured).length
  let b := leBytes 4 0x52545441 ++ leBytes 2 1 ++ leBytes 1 f.gradeCode ++ leBytes 1 (lifecycleOf f) ++
    leBytes 8 f.serial.toNat ++ nonce ++ leBytes 8 e.raw ++ leBytes 4 d.sec.fwVersion ++ leBytes 2 d.sec.fwSvn ++
    leBytes 2 (thermometer f.fwFloor) ++ leBytes 2 (thermometer f.progFloor) ++ leBytes 2 dbg ++ leBytes 2 keys ++
    leBytes 2 used ++ leBytes 8 d.retiredMask ++ d.mapBytes ++ padTo 64 (d.sec.fwMeasure.take 64) ++
    padTo 64 ((Config.sha512 d.sec.cert).take 64) ++ (List.range 16).flatMap (fun k => d.attestRecord loaded k) ++
    List.replicate 1792 0
  b ++ padTo 64 (Config.edSign d.sec.keyEngine.aliasEd b) ++ padTo 3309 (Config.mlSign d.sec.keyEngine.aliasMl b) ++
    List.replicate 723 0

/-- The 8 KiB reply of ATTEST. -/
def Dev.attestReply (d : Dev) (e : Env) (nonce : List Byte) (loaded : List Nat) : List Byte :=
  if nonce.all (· == 0) then padTo 8192 d.sec.cert else d.attestReport e nonce loaded

/-- ATTEST records the instances that are loaded when it is taken; it signs when its work is complete. -/
def hAttest : Handler := fun _ _ s d =>
  if !s.replyOk 8192 then refuse stBadArg d else (.long none d.loadedInsts, d)

def execAttest (q : Nat) (e : Sub) (s : State) : Host.Outcome State Fault Refusal :=
  run (.attest q e) (serveRow 0x0900 hAttest q e) s

/-! ## Lifecycle changes (R532 to R534) -/

/-- Which slots may sign a transition; the outer none is a request that R532 does not list, the inner none is self-signed. -/
def transitionSigner (lc target : Nat) : Option (Option (Nat → Bool)) :=
  let h : Nat → Bool := fun s => s < 2
  let o : Nat → Bool := fun s => s = 2 || s = 3
  if lc = lcBlank then if target = lcDevelop ∨ target = lcProduction ∨ target = lcScrap then some none else none
  else if (lc = lcDevelop ∨ lc = lcProduction) ∧ target = lcScrap then some (some fun s => h s || o s)
  else if (lc = lcDevelop ∨ lc = lcProduction) ∧ target = lc then some (some o)
  else if lc = lcDevelop ∧ (target = lcProduction ∨ target = lcReturn) then some (some o)
  else if lc = lcProduction ∧ target = lcReturn then some (some o)
  else if lc = lcReturn ∧ target = lcScrap then some (some h)
  else none

/-- An O slot that nothing has been fused into. -/
def Fuses.slotEmpty (f : Fuses) (i : Nat) : Bool := f.slotHash i == 0 && !pairSet f.slotValid.toNat i

/-- The first empty O slot at or after an index, but one already chosen (R536). -/
def Fuses.freeSlot (f : Fuses) (i : Nat) (taken : List Nat) : Option Nat :=
  [2, 3].find? fun k => i ≤ k && f.slotEmpty k && !taken.contains k

/-- The body checks of R533 and the O slots of R536; none refuses with BAD_ARG. -/
def authBurn (f : Fuses) (b : List Byte) (target : Nat) : Option Burn :=
  let a := ctBody b
  let lc := lifecycleOf f
  let revoke := fieldAt a 2 1
  let boot := fieldAt a 3 1
  let o1 := fieldAt a 0x08 32
  let keyOp := decide (target = lc)
  let fresh := decide (lc = lcBlank ∧ target ≠ lcScrap)
  let after (i : Nat) : Bool := f.slotUsable i && !bitOf revoke (i - 2)
  if a.length ≠ 0x30 ∨ !zeroAt a 0x28 8 ∨ fieldAt a 0 1 ≠ target ∨ fieldAt a 1 1 ≠ lc ∨ fieldAt a 4 4 ≠ f.keyWord ∨
      3 < revoke ∨ 7 < boot then none
  else if (f.flashOnly || bitOf boot 0) && (f.pushOnly || bitOf boot 1) && boot % 4 != 0 then none
  else if revoke ≠ 0 ∧ (!keyOp || !(after 2 || after 3)) then none
  else if boot ≠ 0 ∧ !(fresh || (lc = lcDevelop && (target = lcProduction || target = lcReturn))) then none
  else if o1 ≠ 0 ∧ !(fresh || keyOp) then none
  else
    let own := if fresh then (f.freeSlot 2 []).map fun i => [(i, (ctKeyHash b).toNat)] else some []
    match own with
    | none => none
    | some l =>
      if o1 = 0 then some { hashes := l, bootCfg := boot, revoke := revoke, target := target }
      else if keyOp ∧ pairSet f.slotValid.toNat 3 then none
      else match f.freeSlot 3 (l.map (·.1)) with
        | some i => some { hashes := l ++ [(i, o1)], bootCfg := boot, revoke := revoke, target := target }
        | none => none

/-- Every function is UNCONFIGURED (R410). -/
def Dev.allUnconfigured (d : Dev) : Bool :=
  d.race.gates.all (·.2.fn == .unconfigured) && d.insts.all (·.2.fn == .unconfigured) && d.tu.doms.all (·.2.fn == .unconfigured) &&
    d.tu.trigs.all (·.2.fn == .unconfigured) && d.flock.peers.all (·.2.fn == .unconfigured) &&
    d.flock.stiles.all (·.2.fn == .unconfigured)

/-- LIFECYCLE_SET: its checks; an ABORT may win until firmware begins to burn (R410). DESIGN CHOICE: log entry 76. -/
def hLifecycleSet : Handler := fun e _ s d =>
  let lc := lifecycleOf e.fuse
  let target := s.field 0x10 1
  if 4 < target ∨ !s.zero 0x11 31 then refuse stBadArg d
  else if !d.allUnconfigured then refuse stBadState d
  else d.withBlock s fun b d =>
    match transitionSigner lc target with
    | none => refuse stDenied d
    | some signer =>
      let st := checkContainer e.fuse 2 (signer.getD fun _ => false) signer.isNone (lc = lcBlank) b.length b
      if st ≠ stOk then refuse st (d.refusedImage b)
      else match authBurn e.fuse b target with
        | none => refuse stBadArg d
        | some x => (.long none x.pack, d)

def execLifecycleSet (q : Nat) (e : Sub) (s : State) : Host.Outcome State Fault Refusal :=
  run (.lifecycleSet q e) (serveRow 0x0901 hLifecycleSet q e) s

/-- Step 4 of R534: the device resets as by a cold reset and starts in the new state. -/
def execLifecycleReset (s : State) : Host.Outcome State Fault Refusal :=
  if s.dev.sec.lifecycleDue then .next (selfStarted s s.dev.coldReset) else run .lifecycleReset (fun _ d => d) s

/-! ## Debug sessions (R550 to R553) -/

/-- A fresh challenge: an open 16-byte value (DESIGN CHOICE, log entry 3). -/
def Dev.newChallenge (d : Dev) (e : Env) : Nat × Nat × Dev :=
  let a := (Config.freeWord d.free).toNat
  let b := (Config.freeWord (d.free + 1)).toNat
  (a, b, { d.spend.spend with sec := { d.sec with challenge := some (leBytes 8 a ++ leBytes 8 b, e.raw) } })

def hDebugChallenge : Handler := fun e _ s d =>
  if !s.zero 0x10 48 then refuse stBadArg d
  else if d.sec.session.isSome then refuse stBusy d
  else
    let r := d.newChallenge e
    (.done { r1 := r.1, r2 := r.2.1 }, r.2.2)

def execDebugChallenge (q : Nat) (e : Sub) (s : State) : Host.Outcome State Fault Refusal :=
  run (.debugChallenge q e) (serveRow 0x0902 hDebugChallenge q e) s

/-- Judges a debug response and opens the session: its status, and the level granted. A challenge serves one response.
DESIGN CHOICE: log entry 76. -/
def Dev.openSession (d : Dev) (e : Env) (b : List Byte) : Nat × Nat × Dev :=
  let lc := lifecycleOf e.fuse
  let a := ctBody b
  let level := fieldAt a 0x10 1
  let secs := fieldAt a 0x14 4
  let good := match d.sec.challenge with
    | some (c, at_) => decide (c = a.take 16 ∧ e.raw ≤ at_ + 60000000000)
    | none => false
  let d := { d with sec := { d.sec with challenge := none } }
  if checkContainer e.fuse 3 (slotAllowed lc 3) false (lc = lcBlank) b.length b ≠ stOk then (stDenied, 0, d.refusedImage b)
  else if !good ∨ a.length ≠ 24 ∨ d.mbox.outst.any (·.opcode == 0x901) ∨ level = 0 ∨ 2 < level ∨ !zeroAt a 0x11 3 ∨
      secs = 0 ∨ 86400 < secs ∨ d.sec.session.isSome then (stDenied, 0, d)
  else
    let d := { d with sec := { d.sec with
      session := some { level := level, until_ := e.raw + secs * 1000000000 }, granted := false, everOpened := true } }
    let d := d.raise 0x3C1 0x3C 1 0
    (stOk, level, if level = 2 then ({ d with safe := { d.safe with lockstepBroken := true } }.raise 0x000 0x30 2 0).pins else d)

def hDebugUnlock : Handler := fun e _ s d =>
  if !s.zero 0x10 32 then refuse stBadArg d
  else d.withBlock s fun b d =>
    let r := d.openSession e b
    (.done { status := r.1, r0 := r.2.1 }, r.2.2)

def execDebugUnlock (q : Nat) (e : Sub) (s : State) : Host.Outcome State Fault Refusal :=
  run (.debugUnlock q e) (serveRow 0x0903 hDebugUnlock q e) s

def execDebugAccessGrant (s : State) : Host.Outcome State Fault Refusal :=
  run .debugAccessGrant (fun _ d =>
    if d.sec.session.isSome then { d with sec := { d.sec with granted := true } } else d) s

/-- Access is withdrawn, then HPC_DEBUG is cleared (R551). -/
def Dev.endSession (d : Dev) : Dev := { d with sec := { d.sec with session := none, granted := false } }

def hDebugLock : Handler := fun _ _ s d => if !s.zero 0x10 48 then refuse stBadArg d else ok d.endSession

def execDebugLock (q : Nat) (e : Sub) (s : State) : Host.Outcome State Fault Refusal :=
  run (.debugLock q e) (serveRow 0x0904 hDebugLock q e) s

def execDebugSessionExpiry (s : State) : Host.Outcome State Fault Refusal :=
  run .debugSessionExpiry (fun e d =>
    match d.sec.session with
    | some x => if x.until_ ≤ e.raw then d.endSession else d
    | none => d) s

/-! ## The TAP (R553 to R555) -/

/-- The TAP answers more than IDCODE and BYPASS: neither OFF nor HIBERNATE (R553). -/
def Dev.tapFull (d : Dev) : Bool := d.pow.state == .idle || d.pow.state == .standby

/-- The one-bit bypass register. -/
def Dev.tapBypass (d : Dev) : Dev := { d with sec := { d.sec with tapCode := 0xFF, tdo := [] } }

def execAuthChal (s : State) : Host.Outcome State Fault Refusal :=
  run .authChal (fun e d =>
    if d.tapFull && d.mbox.ready && d.sec.session.isNone then
      let r := d.newChallenge e
      { r.2.2 with sec := { r.2.2.sec with tapCode := 0x10, tdo := leBytes 8 r.1 ++ leBytes 8 r.2.1 } }
    else d.tapBypass) s

/-- A response given through the TAP; in STANDBY it waits for IDLE. -/
def execAuthResp (container : List Byte) (s : State) : Host.Outcome State Fault Refusal :=
  run (.authResp container) (fun e d =>
    if !d.tapFull || !d.mbox.ready then d.tapBypass
    else
      let d := { d with sec := { d.sec with tapCode := 0x11, tdo := [] } }
      if d.pow.state = .idle then (d.openSession e container).2.2
      else { d with sec := { d.sec with respWaiting := some container } }) s

/-- The debug access port: level 1 reads the address map outside control space, level 2 also writes and reaches control
space, whose contents the manual does not give (R549, R553; DESIGN CHOICE, log entry 3). DESIGN CHOICE: log entry 77. -/
def Dev.dap (d : Dev) (e : Env) (write : Bool) (a : Nat) (data : List Byte) : Dev :=
  let n := data.length
  let out (b : List Byte) (d : Dev) : Dev := { d with sec := { d.sec with tapCode := 0x12, tdo := b } }
  match d.sec.session with
  | none => d.tapBypass
  | some x =>
    if !d.sec.granted || d.pow.state != .idle then d.tapBypass
    else match d.reach a with
      | .served =>
        if write then if x.level = 2 then out [] ((d.touch e a).write a data false) else d.tapBypass
        else
          let r := (d.touch e a).readLines 0x3C1 false a n
          out (r.2.bytes a n) r.2
      | .control =>
        if x.level ≠ 2 then d.tapBypass
        else if write then out [] d
        else
          let r := d.freeBytes n
          out r.1 r.2
      | _ =>
        if write then out [] (d.raise 0x3C1 5 0 a)
        else
          let r := d.freeBytes n
          out r.1 (r.2.raise 0x3C1 5 0 a)

def execDap (write : Bool) (addr : Nat) (data : List Byte) (s : State) : Host.Outcome State Fault Refusal :=
  run (.dap write addr data) (fun e d => d.dap e write addr data) s

/-- Boundary scan takes effect: WARM_RST_N low in a state that R553 marks. DESIGN CHOICE: log entry 77. -/
def Dev.scanLive (d : Dev) (e : Env) : Bool :=
  let lc := lifecycleOf e.fuse
  d.tapFull && d.pow.warmLow && (lc = lcBlank || lc = lcDevelop || lc = lcReturn || (lc = lcProduction && e.fuse.bscanKeep))

/-- DESIGN CHOICE: log entry 77. -/
def execExtest (values : List Bool) (s : State) : Host.Outcome State Fault Refusal :=
  run (.extest values) (fun e d =>
    if d.scanLive e then { d with sec := { d.sec with tapCode := 0, boundary := values, tdo := [] } } else d.tapBypass) s

/-- R554. -/
def idcodeValue : Nat := 0x1C70718F

def execIdcode (s : State) : Host.Outcome State Fault Refusal :=
  run .idcode (fun _ d => { d with sec := { d.sec with tapCode := 1, tdo := leBytes 4 idcodeValue } }) s

/-- The boundary register is preloaded; what SAMPLE captures is the pins in an order the manual does not give (DESIGN CHOICE, log entry
3). DESIGN CHOICE: log entry 77. -/
def execSamplePreload (values : List Bool) (s : State) : Host.Outcome State Fault Refusal :=
  run (.samplePreload values) (fun _ d =>
    if d.tapFull then
      let r := d.freeBytes (ceilDiv values.length 8)
      { r.2 with sec := { r.2.sec with tapCode := 2, boundary := values, tdo := r.1 } }
    else d.tapBypass) s

def execHighz (s : State) : Host.Outcome State Fault Refusal :=
  run .highz (fun e d => if d.scanLive e then { d with sec := { d.sec with tapCode := 3, tdo := [] } } else d.tapBypass) s

def execClamp (s : State) : Host.Outcome State Fault Refusal :=
  run .clamp (fun e d => if d.scanLive e then { d with sec := { d.sec with tapCode := 4, tdo := [] } } else d.tapBypass) s

def execBypass (code : Nat) (s : State) : Host.Outcome State Fault Refusal :=
  run (.bypass code) (fun _ d => d.tapBypass) s

end Sys2Proof.Machine
end

