-- ==== Sys2Proof/Machine/Mailbox.lean ====
section
/-! DEFINITION. Host queues and the device commands: CREATE_QUEUE (R365, R368, R371), DEVICE_INFO, IRQ_DEST and FUNC_STATE
(R395, R396), POWER (R397), and firmware's own acts on the mailbox: heartbeat, liveness, interrupts (R362, R382, R383, R386). -/

namespace Sys2Proof.Machine

open Sys2Proof

/-! ## Queues (R365, R368, R371) -/

/-- Memory zeroed by firmware's writes: fresh lines, the scrubber's counts stay (R161, R164). -/
def Dev.blank (d : Dev) (a n : Nat) : Dev :=
  (d.zeroRange a n).modMem fun m => { m with corrected := d.mem.corrected }

/-- A power of two no larger than 8,192. -/
def powerOfTwo (n : Nat) : Bool := (List.range 14).any fun i => 2 ^ i == n

/-- A queue's rings as host offset and length. -/
def MQueue.rings (m : MQueue) : List (Nat × Nat) := [(m.sqBase, 64 * m.sqEntries), (m.cqBase, 32 * m.cqEntries)]

def rangesMeet (x y : Nat × Nat) : Bool := x.1 < y.1 + y.2 && y.1 < x.1 + x.2

/-- The queue that a CREATE_QUEUE asks for. -/
def queueOf (s : Sub) : MQueue :=
  { sqEntries := s.field 0x12 2, cqEntries := s.field 0x14 2, irqEn := bitOf (s.field 0x16 2) 0
    ethIrq := bitOf (s.field 0x16 2) 1, sqBase := s.field 0x18 4, cqBase := s.field 0x1C 4
    coalCount := s.field 0x20 1, coalTimeUs := s.field 0x22 2, notifyMask := s.field 0x24 4 }

/-- The BAD_ARG rules of R371 on a queue, its rings apart from those of every other queue and from each other. -/
def Dev.queueOk (d : Dev) (m : MQueue) : Bool :=
  powerOfTwo m.sqEntries && powerOfTwo m.cqEntries && 16 ≤ m.sqEntries && m.sqEntries ≤ 4096 &&
    m.sqEntries + 16 ≤ m.cqEntries && m.cqEntries ≤ 8192 && m.sqBase % 4096 = 0 && m.cqBase % 4096 = 0 &&
    m.rings.all (fun r => 0x10000 ≤ r.1 && r.1 + r.2 ≤ 0x2000000 &&
      d.mbox.queues.all fun x => x.2.rings.all fun y => !rangesMeet r y) &&
    !rangesMeet (m.sqBase, 64 * m.sqEntries) (m.cqBase, 32 * m.cqEntries)

def hCreateQueue : Handler := fun _ q s d =>
  let n := s.field 0x10 2
  let m := queueOf s
  if q ≠ 0 ∨ n = 0 ∨ 31 < n ∨ 4 ≤ s.field 0x16 2 ∨ m.coalCount = 0 ∨ !s.zero 0x21 1 ∨ 10000 < m.coalTimeUs ∨
      16 ≤ m.notifyMask ∨ !s.zero 0x28 24 ∨ (m.ethIrq && d.mbox.irqDest.isNone) then refuse stBadArg d
  else if (d.queue n).isSome then refuse stBadState d
  else if !d.queueOk m then refuse stBadArg d
  else
    let d := d.blank (commonBase + m.cqBase) (32 * m.cqEntries)
    ok { d with mbox := { d.mbox with queues := tset d.mbox.queues n m } }

def execCreateQueue (q : Nat) (e : Sub) (s : State) : Host.Outcome State Fault Refusal :=
  run (.createQueue q e) (serveRow 0x0001 hCreateQueue q e) s

/-! ## Device commands (R395, R396) -/

/-- A fold engine domain is on (R558). -/
def Dev.isActive (d : Dev) : Bool := d.folds.any fun x => !x.2.gated

/-- The power state's code (R380). -/
def Dev.powerCode (d : Dev) : Nat :=
  match d.pow.state with
  | .off => 0
  | .hibernate => 1
  | .standby => 2
  | .idle => if d.isActive then 4 else 3

/-- The DEVICE_INFO block (R396). -/
def Dev.infoBlock (d : Dev) (e : Env) : List Byte :=
  let b := leBytes 1 e.fuse.gradeCode ++ leBytes 1 (lifecycleOf e.fuse) ++ leBytes 2 1 ++ leBytes 4 d.sec.fwVersion ++
    leBytes 2 1 ++ leBytes 2 0 ++ leBytes 2 (d.flock.dev.getD 0xFFFF) ++ leBytes 1 d.powerCode ++ [0] ++ d.mapBytes ++
    ((d.spares.map fun p => BitVec.ofNat 8 p) ++ List.replicate 4 0xFF).take 4 ++ leBytes 4 0 ++ leBytes 8 d.retiredMask ++
    leBytes 8 gddrSize ++ leBytes 4 0
  b ++ leBytes 4 (crc32c b)

def hDeviceInfo : Handler := fun e _ s d =>
  if !s.zero 0x10 32 ∨ !s.replyOk 96 then refuse stBadArg d else ok (d.reply s (d.infoBlock e))

def execDeviceInfo (q : Nat) (e : Sub) (s : State) : Host.Outcome State Fault Refusal :=
  run (.deviceInfo q e) (serveRow 0x0004 hDeviceInfo q e) s

/-- An address field of 16 bytes: an IPv4 address leaves the last 12 zero (R395). -/
def ipOk (version : Nat) (ip : List Byte) : Bool := version = 6 || (version = 4 && zeroAt ip 4 12)

def hIrqDest : Handler := fun _ _ s d =>
  let a := padTo 48 s.args
  let x : IrqDest := {
    port := s.field 0x10 1, ipVersion := s.field 0x11 1, udpPort := s.field 0x12 2, resendUs := s.field 0x14 4
    mac := (a.drop 8).take 6, ip := (a.drop 16).take 16 }
  if 3 < x.port ∨ x.resendUs < 100 ∨ 100000 < x.resendUs ∨ !s.zero 0x1E 2 ∨ !s.zero 0x30 16 ∨ !ipOk x.ipVersion x.ip then
    refuse stBadArg d
  else if d.mbox.queues.any fun y => y.2.ethIrq then refuse stBusy d
  else ok { d with mbox := { d.mbox with irqDest := some x } }

def execIrqDest (q : Nat) (e : Sub) (s : State) : Host.Outcome State Fault Refusal :=
  run (.irqDest q e) (serveRow 0x0005 hIrqDest q e) s

/-- The state of a function by the kind code of R380; none: no such function. -/
def Dev.funcState (d : Dev) (kind n : Nat) : Option FnState :=
  if kind = 0 ∧ n < 64 then some (d.gate n).fn
  else if kind = 1 ∧ n < 16 then some (d.inst n).fn
  else if kind = 2 ∧ n < 2 then some (d.dom n).fn
  else if kind = 3 ∧ n < 17 then some (d.trig n).fn
  else if kind = 4 ∧ n < 64 then some (d.stile n).fn
  else if kind = 5 ∧ n < 512 then some (d.peer n).fn
  else none

def hFuncState : Handler := fun _ _ s d =>
  if !s.zero 0x11 1 ∨ !s.zero 0x14 44 then refuse stBadArg d
  else match d.funcState (s.field 0x10 1) (s.field 0x12 2) with
    | some f => (.done { r0 := fnCode f }, d)
    | none => refuse stBadArg d

def execFuncState (q : Nat) (e : Sub) (s : State) : Host.Outcome State Fault Refusal :=
  run (.funcState q e) (serveRow 0x0006 hFuncState q e) s

/-! ## Power (R356, R386, R397) -/

/-- The settings that POWER carries; a silence already reported stays so until the value changes (R386). -/
def Dev.powerSettings (d : Dev) (e : Env) (sleep timeout : Nat) : Dev :=
  let d := if sleep = 0 then d else { d with mbox := { d.mbox with hostSleep := sleep = 1 } }
  if timeout = 0 then d
  else { d with mbox := { d.mbox with
    hostTimeoutMs := if timeout = 0xFFFFFFFF then none else some timeout
    aliveSeen := d.mbox.hostAlive, aliveAt := e.raw
    silentRaised := d.mbox.silentRaised && d.mbox.hostAlive == d.mbox.aliveSeen } }

/-- Conditions of R397 for a power request: its refusal, if any. -/
def Dev.powerRefusal (d : Dev) : Option Nat :=
  if d.anyActive then some stBadState else if d.mbox.outst.isEmpty then none else some stBusy

/-- The completion is posted, then the device enters the state. -/
def hPower : Handler := fun e q s d =>
  let req := s.field 0x10 1
  let t := s.field 0x14 4
  let fin (d : Dev) : Dev := (d.powerSettings e (s.field 0x11 1) t).complete e q 0x0100 s {}
  if 2 < req ∨ 2 < s.field 0x11 1 ∨ !s.zero 0x12 2 ∨ !s.zero 0x18 40 ∨ (t ≠ 0 ∧ t ≠ 0xFFFFFFFF ∧ (t < 10 ∨ 10000 < t)) then
    refuse stBadArg d
  else if req = 0 then (.posted, fin d)
  else match d.powerRefusal with
    | some st => refuse st d
    | none => (.posted, if req = 2 then (fin d).enterStandby else (fin d).enterStandby.hibernated.pins)

def execPower (q : Nat) (e : Sub) (s : State) : Host.Outcome State Fault Refusal :=
  runPower (.power q e) (serveRow 0x0100 hPower q e) s

/-! ## Firmware's own acts (R362, R382, R383, R386) -/

/-- The oldest unread interrupting entry has reached coalesce_time_us. -/
def execCoalesceTimeout (q : Nat) (s : State) : Host.Outcome State Fault Refusal :=
  run (.coalesceTimeout q) (fun e d => if d.serving then d.evalIrq e q else d) s

/-- The resend interval has passed since a queue's last interrupt message (R383, R395). -/
def Dev.resendDue (d : Dev) (e : Env) (m : MQueue) : Bool :=
  match d.mbox.irqDest with
  | some x => m.irqSentAt + 1000 * x.resendUs ≤ e.raw
  | none => false

/-- The message is repeated at the resend interval while the interrupt of an ETH_IRQ queue is pending. -/
def execIrqMessageResend (q : Nat) (s : State) : Host.Outcome State Fault Refusal :=
  run (.irqMessageResend q) (fun e d =>
    match d.queue q with
    | some m => if d.serving && m.irq && m.ethIrq && d.resendDue e m then d.sendIrq e q else d
    | none => d) s

/-- Every 1 ms while firmware serves. -/
def execHpcHeartbeat (s : State) : Host.Outcome State Fault Refusal :=
  run .hpcHeartbeat (fun e d => if d.serving then { d with mbox := { d.mbox with heartbeat := e.raw } } else d) s

/-- One look at HPC_HOST_ALIVE: a silence is reported once, and again only after the value has changed. -/
def Dev.silentCheck (d : Dev) (e : Env) : Dev :=
  match d.mbox.hostTimeoutMs with
  | none => d
  | some ms =>
    if d.mbox.hostAlive ≠ d.mbox.aliveSeen then
      { d with mbox := { d.mbox with aliveSeen := d.mbox.hostAlive, aliveAt := e.raw, silentRaised := false } }
    else if d.mbox.silentRaised || e.raw < d.mbox.aliveAt + 1000000 * ms then d
    else { d with mbox := { d.mbox with silentRaised := true } }.raise 0x004 0x1B 0 ms

def execHostSilentCheck (s : State) : Host.Outcome State Fault Refusal :=
  run .hostSilentCheck (fun e d => if d.serving then d.silentCheck e else d) s

end Sys2Proof.Machine
end

