-- ==== Sys2Proof/Machine/Programs.lean ====
section
/-! DEFINITION. Program instances and images: LOAD, UNLOAD, START, STOP, INVOKE (R148 to R153, R288 to R291, R297, R298, R304,
R311, R331, R378, R379, R398, R541) and FIRMWARE_STAGE (R398, R542). -/

namespace Sys2Proof.Machine

open Sys2Proof

/-! ## What an image may declare (R150, R152, R288, R297, R298, R304, R311) -/

/-- A region lies wholly in one memory that an image may use. -/
def regionFits (collie : Bool) (r : Region) : Bool :=
  let inside (base size : Nat) : Bool := base ≤ r.base && r.base + r.size ≤ base + size
  inside commonBase 0xC000000 || inside gddrBase gddrSize || (collie && inside collieBase 0x1000000) ||
    (List.range 48).any fun n => inside (foldBase n) 0x800000

def regionsMeet (x y : Region) : Bool := rangesMeet (x.base, x.size) (y.base, y.size)

/-- The unit that a queue lists as producer exists. -/
def prodOk (p : ProdSlot) : Bool :=
  match p.who with
  | .thread t => t < 3088
  | .drover n r => n < 48 && r < 2
  | .gate g => g < 64
  | .peer k => k < 512
  | _ => true

/-- R297 and R298 for one queue. -/
def queueDeclOk (x : Nat × FQueue) : Bool :=
  let q := x.2
  decide (x.1 / 256 < 48 ∧ x.1 % 256 < 32 ∧ 8 ≤ q.capacity ∧ q.capacity ≤ 256 ∧ q.capacity % 8 = 0 ∧
    1 ≤ q.prods.length ∧ q.prods.length ≤ 16 ∧ (q.prods.map (·.credits)).sum + q.prods.length ≤ q.capacity) &&
  (match q.timeoutNs with
   | some t => decide (10000 ≤ t ∧ t ≤ 1000000000)
   | none => true) &&
  q.prods.all fun p => prodOk p && decide (1 ≤ p.credits ∧ p.credits ≤ q.capacity - 2)

/-- R304 for one slot. -/
def slotDeclOk (im : Image) (x : Nat × Slot) : Bool :=
  let s := x.2
  decide (x.1 / 256 < 48 ∧ x.1 % 256 < 64 ∧ s.base % 64 = 0 ∧ s.size % 64 = 0 ∧ 64 ≤ s.size ∧ s.size ≤ 0x400000 ∧
    foldBase (x.1 / 256) ≤ s.base ∧ s.base + s.size ≤ foldBase (x.1 / 256) + 0x800000 ∧ s.writer.getD 0 < 16 ∧
    10000 ≤ s.timeoutNs ∧ s.timeoutNs ≤ 100000000) &&
  im.regions.any fun r => r.base ≤ s.base && s.base + s.size ≤ r.base + r.size

/-- R311 and R456 for one hurdle. -/
def hurdleDeclOk (x : Nat × Hurdle) : Bool :=
  let h := x.2
  decide (x.1 / 256 < 48 ∧ x.1 % 256 < 16 ∧ 2 ≤ h.members ∧ h.members ≤ 3072 ∧ 10000 ≤ h.timeoutNs ∧ h.timeoutNs ≤ 100000000) &&
    (h.flock.map fun n => decide (n < 16)).getD true

/-- The identifiers of a list of declarations are distinct and none is taken. -/
def identsFree {α β : Type} (l : List (Nat × α)) (t : Tab β) : Bool :=
  decide (l.map (·.1)).Nodup && l.all fun x => (tget t x.1).isNone

/-- Images in use by other instances: loaded, or being loaded. -/
def Dev.otherImages (d : Dev) (k : Nat) : List Image :=
  (d.insts.filter fun x => x.1 != k && x.2.fn != .unconfigured).filterMap (·.2.image) ++
    (d.mbox.outst.filter fun o => o.opcode == 0x200 && o.e.target != k).filterMap (·.image)

/-- The images that outstanding LOADs are bringing in. -/
def Dev.loading (d : Dev) : List Image := (d.mbox.outst.filter fun o => o.opcode == 0x200).filterMap (·.image)

/-- A LOAD of an instance is outstanding: a later command on the instance would not act after it (R374). DESIGN CHOICE: log entry 42. -/
def Dev.loadOpen (d : Dev) (k : Nat) : Bool := d.mbox.outst.any fun o => o.opcode == 0x200 && o.e.target == k

/-- Queues, slots and hurdles that are declared: by loaded instances and by images being loaded (R288). -/
def Dev.allQueues (d : Dev) : Tab FQueue := d.queues ++ d.loading.flatMap (·.queues)
def Dev.allSlots (d : Dev) : Tab Slot := d.slots ++ d.loading.flatMap (·.slots)
def Dev.allHurdles (d : Dev) : Tab Hurdle := d.hurdles ++ d.loading.flatMap (·.hurdles)

/-- Entries of the queues that a logical fold already holds (R288, R298). -/
def Dev.entriesOn (d : Dev) (n : Nat) : Nat := ((d.allQueues.filter fun x => x.1 / 256 == n).map (·.2.capacity)).sum

/-- The BAD_ARG rules of a load, but for the schedule; a gate_delay outside R142's range is one. DESIGN CHOICE: log entry 13. DEDUCED:
log entry 111. -/
def Dev.imageOk (d : Dev) (k : Nat) (im : Image) : Bool :=
  let others := d.otherImages k
  im.complete && decide (im.threads.map (·.thread)).Nodup && im.threads.all (fun x => x.thread < 3088 && (foldOfThread x.thread == collieFold) == im.collie) &&
    im.folds.all (fun n => n < 48 || (im.collie && n == collieFold)) &&
    im.threads.all (fun x => others.all fun o => o.threads.all fun y => y.thread != x.thread) &&
    im.regions.all (fun r => regionFits im.collie r && others.all fun o => o.regions.all fun y => !regionsMeet r y) &&
    !(im.collie && others.any (·.collie)) &&
    im.queues.all queueDeclOk && im.slots.all (slotDeclOk im) && im.hurdles.all hurdleDeclOk &&
    identsFree im.queues d.allQueues && identsFree im.slots d.allSlots && identsFree im.hurdles d.allHurdles &&
    (List.range 48).all (fun n => d.entriesOn n + ((im.queues.filter fun x => x.1 / 256 == n).map (·.2.capacity)).sum ≤ 256) &&
    decide (im.slots.Pairwise fun x y => !rangesMeet (x.2.base, x.2.size) (y.2.base, y.2.size)) &&
    im.slots.all (fun x => d.allSlots.all fun y => !rangesMeet (x.2.base, x.2.size) (y.2.base, y.2.size)) &&
    decide (im.hurdles.filterMap (·.2.flock)).Nodup && decide (2000 ≤ im.gateDelayNs ∧ im.gateDelayNs ≤ 1000000) &&
    im.hurdles.all (fun x => (x.2.flock.map fun n => !d.allHurdles.any fun y => y.2.flock == some n).getD true)

/-- R330 again for every configured set at each load (R331). -/
def Dev.loadSchedulable (d : Dev) (k : Nat) (im : Image) : Bool :=
  let t := { d with insts := tset d.insts k { image := some im } }
  (List.range 16).all fun f => t.schedulable f

/-- The image of a container that passed its checks; one for the Collie uses the Collie's contexts (DESIGN CHOICE, log entry 31).
DESIGN CHOICE: log entry 13. -/
def imageOf (b : List Byte) : Image :=
  let im := Config.imageSections (ctBody b)
  { im with
    version := ctVersion b, svn := ctSvn b, slot := ctSlot b, raiseFloor := ctRaise b, measure := Config.sha512 (ctSigned b)
    folds := if im.collie then [collieFold] else im.folds }

/-! ## LOAD and UNLOAD -/

/-- Takes an instance's objects away and its contexts back to EMPTY (R129, R288). Flock arrivals of children stay held
(R456). -/
def Dev.clearInst (d : Dev) (k : Nat) : Dev :=
  let ts := d.threadsOf k
  let nums := (d.hurdles.filter fun x => x.2.inst == k).filterMap (·.2.flock)
  let d := nums.foldl (fun d n =>
    let x := d.flockState n
    d.setFlockState n { held := x.held ++ x.children.map fun c => (c, x.phase) }) d
  { d with
    insts := terase d.insts k
    threads := d.threads.filter fun x => !ts.contains x.1
    queues := d.queues.filter fun x => x.2.inst != k
    slots := d.slots.filter fun x => x.2.inst != k
    hurdles := d.hurdles.filter fun x => x.2.inst != k }

/-- The bytes of a source range (R398), with the poison that firmware meets. -/
def Dev.source (d : Dev) (a n : Nat) : List Byte × Bool × Dev :=
  let r := d.readLines 0x003 false a n
  (d.raw a n, r.1, r.2)

/-- LOAD: the image is checked when the command is taken; the instance is UNCONFIGURED until its regions are written. The
command records how many contexts the image uses. DESIGN CHOICE: log entry 31. DESIGN CHOICE: log entry 42. -/
def hLoad : Handler := fun e _ s d =>
  let k := s.target
  let a := s.field 0x10 8
  let n := s.field 0x18 4
  if !s.zero 0x1C 36 ∨ !sourceOk a n then refuse stBadArg d
  else if !(d.inst k).fn.canConfigure then refuse stBadState d
  else if d.loadOpen k then refuse stBusy d
  else
    let r := d.source a n
    let st := if r.2.1 then stIntegrity else checkImage e.fuse 1 n r.1
    if st ≠ stOk then refuse st (if r.2.1 then r.2.2 else r.2.2.refusedImage r.1)
    else
      let im := imageOf r.1
      let d := r.2.2
      let free := d.clearInst k
      if !free.imageOk k im || !free.loadSchedulable k im then refuse stBadArg d
      else if im.folds.any fun n => n < 48 && d.physOf n == 0xFF then refuse stBadState d
      else (.long (some im) [(Config.imageSections (ctBody r.1)).threads.length], free)

def execLoad (q : Nat) (e : Sub) (s : State) : Host.Outcome State Fault Refusal :=
  run (.load q e) (serveRow 0x0200 hLoad q e) s

/-- Held ARRIVE frames of a number reach the hurdle that now declares it (R456, R457). DEDUCED: log entry 63. -/
def Dev.takeHeld (d : Dev) (e : Env) (num : Nat) : Dev :=
  let l := (d.flockState num).held
  let d := d.setFlockState num {}
  if l.any fun x => x.2 != 0 then
    match d.flockHurdle num with
    | some ident => (d.breakHurdle e ident causeTimeout none).objFault (d.workSrc (ident / 256)) 3 ident
    | none => d
  else d.setFlockState num { children := (l.map (·.1)).dedup }

/-- A load completes: regions written, contexts HALTED, objects created empty, the image kept for reloads (R149, R152,
R291). DESIGN CHOICE: log entry 13. DESIGN CHOICE: log entry 42. -/
def Dev.loadImage (d : Dev) (e : Env) (k : Nat) (im : Image) : Dev :=
  let d := im.content.foldl (fun d c => d.init c.1 c.2) d
  let d := (im.regions.filter fun r => r.kind == 0).foldl (fun d r => d.keepImage r.base r.size) d
  let d := im.content.foldl (fun d c => d.keepImage c.1 c.2.length) d
  let d := im.threads.foldl (fun d x => { d with threads := tset d.threads x.thread { high := x.high, st := .halted } }) d
  let d := im.queues.foldl (fun d x => { d with queues := tset d.queues x.1 { x.2 with
    inst := k, entries := [], overrun := false, waiters := [], prods := x.2.prods.map fun p => { p with used := 0 } } }) d
  let d := im.slots.foldl (fun d x => { d with slots := tset d.slots x.1 { x.2 with
    inst := k, writer := some (x.2.writer.getD k), st := .empty, taint := false, late := false } }) d
  let d := im.hurdles.foldl (fun d x => { d with hurdles := tset d.hurdles x.1 { x.2 with
    inst := k, count := 0, broken := none, waiters := [], phase := 0 } }) d
  let d := { d with insts := tset d.insts k { fn := .stopped, image := some im } }
  (im.hurdles.filterMap (·.2.flock)).foldl (fun d n => d.takeHeld e n) (d.copyBack k)

/-- A gate that is neither STOPPED nor UNCONFIGURED names a queue of the instance (R393). -/
def Dev.noticeHeld (d : Dev) (k : Nat) : Bool :=
  d.race.gates.any fun g => g.2.fn != .stopped && g.2.fn != .unconfigured &&
    ((tget d.queues (Settings.noticeIdent g.2.settings)).map fun x => x.inst == k).getD false

def hUnload : Handler := fun _ _ s d =>
  let k := s.target
  let r := (d.inst k).fn.release
  if !s.zero 0x10 48 then refuse stBadArg d
  else if d.loadOpen k then refuse stBusy d
  else if r.1 ≠ stOk then refuse r.1 d
  else if d.noticeHeld k then refuse stBadState d
  else ok (if (d.inst k).fn = .stopped then d.clearInst k else d)

def execUnload (q : Nat) (e : Sub) (s : State) : Host.Outcome State Fault Refusal :=
  run (.unload q e) (serveRow 0x0201 hUnload q e) s

/-! ## START and INVOKE (R133, R152, R153, R291) -/

/-- Slots EMPTY, hurdles unbroken with count 0; an ARRIVE of a child in phase 0 still counts (R291, R456).
DEDUCED: log entry 63. -/
def Dev.resetInst (d : Dev) (k : Nat) : Dev :=
  let nums := (d.hurdles.filter fun x => x.2.inst == k).filterMap (·.2.flock)
  let d := { d with hurdles := d.hurdles.map fun (x : Nat × Hurdle) => if x.2.inst = k then
    (x.1, { x.2 with count := 0, broken := none, waiters := [], phase := 0 }) else x }
  let d := nums.foldl (fun d n =>
    let x := d.flockState n
    d.setFlockState n { x with own := false, phase := 0, children := if x.phase = 0 then x.children else [] }) d
  (tkeys d.slots fun x => x.inst == k).foldl (fun d i => d.setSlot i .empty false) d

/-- Scratch regions hold open content at every start and invoke (R152; DESIGN CHOICE, log entry 3).
DESIGN CHOICE: log entry 43. -/
def Dev.scramble (d : Dev) (k : Nat) : Dev :=
  match (d.inst k).image with
  | none => d
  | some im => (im.regions.filter fun r => r.kind == 2).foldl (fun d r =>
      (d.poke r.base ((List.range r.size).map fun i => BitVec.ofNat 8 (Config.freeNat d.free / 256 ^ i))).spend) d

/-- Releases every thread of an instance at its entry pc. DESIGN CHOICE: log entry 43. -/
def Dev.release (d : Dev) (k s1 s2 : Nat) : Dev :=
  match (d.inst k).image with
  | none => d
  | some im => im.threads.foldl (fun d x => (d.modThread x.thread fun th => th.launch x s1 s2).parkHeld x.thread) d

/-- An instance start or invoke is a waking event of its gated folds (R143). -/
def Dev.wakeFolds (d : Dev) (k : Nat) : Dev :=
  ((((d.inst k).image.map (·.folds)).getD []).filter (· != collieFold)).foldl (fun d n =>
    d.modFold n fun f => { f with wakeDue := f.wakeDue || f.gated }) d

/-- An instance starts: STREAM threads run with s2 = 1; s1, which names an argument block that STREAM does not have, is
open (DESIGN CHOICE, log entry 3). -/
def Dev.startInst (d : Dev) (k : Nat) : Dev :=
  let d := ((d.resetInst k).scramble k).zeroCounts k
  let d := (d.modInst k fun x => { x with fn := .running, invoc := none, invocCount := 0 }).wakeFolds k
  if ((d.inst k).image.map (·.invokeMode)).getD false then d
  else (d.release k (Config.freeWord d.free).toNat 1).spend

/-- The image uses an unmapped logical fold (R148, R394). -/
def Dev.unmappedUse (d : Dev) (k : Nat) : Bool :=
  ((d.inst k).image.map fun im => im.folds.any fun n => n < 48 && d.physOf n == 0xFF).getD false

/-- DESIGN CHOICE: log entry 31. -/
def hStart : Handler := fun _ _ s d =>
  if !s.zero 0x10 48 then refuse stBadArg d
  else if d.loadOpen s.target then refuse stBusy d
  else if !(d.inst s.target).fn.canStart || d.unmappedUse s.target then refuse stBadState d
  else ok (d.startInst s.target)

def execStart (q : Nat) (e : Sub) (s : State) : Host.Outcome State Fault Refusal :=
  run (.start q e) (serveRow 0x0202 hStart q e) s

/-- DESIGN CHOICE: log entry 31. DESIGN CHOICE: log entry 43. -/
def hInvoke : Handler := fun e q s d =>
  let k := s.target
  let off := s.field 0x10 4
  if !s.zero 0x14 44 ∨ off % 64 ≠ 0 ∨ off < 0x2000000 ∨ 0x4000000 < off + 64 then refuse stBadArg d
  else if d.loadOpen k then refuse stBusy d
  else if (d.inst k).fn ≠ .running ∨ !((d.inst k).image.map (·.invokeMode)).getD false then refuse stBadState d
  else if (d.inst k).invoc.isSome then refuse stBusy d
  else
    let d := (d.resetInst k).scramble k
    let d := d.modInst k fun x => { x with invoc := some (q, s.tag), invocAt := e.raw, invocCount := (x.invocCount + 1) % 2 ^ 32 }
    (.long none [], (d.wakeFolds k).release k (commonBase + off) 2)

def execInvoke (q : Nat) (e : Sub) (s : State) : Host.Outcome State Fault Refusal :=
  run (.invoke q e) (serveRow 0x0204 hInvoke q e) s

/-! ## STOP (R129, R315, R378, R379) -/

/-- An instance's work closes as under DISCARD and it enters STOPPED. -/
def Dev.discardInst (d : Dev) (e : Env) (k : Nat) : Dev := (d.closeActive e k).modInst k fun x => { x with fn := .stopped }

/-- From FAULTED: its threads are HALTED, and their folds may begin to rest (R142). -/
def Dev.restInst (d : Dev) (e : Env) (k : Nat) : Dev :=
  ((d.threadsOf k).foldl (fun d t =>
    ((d.haltThread t).unqueue t).modFold (foldOfThread t) fun f => { f with idleSince := e.raw }) d).modInst k fun x =>
      { x with fn := .stopped }

/-- A draining instance has nothing left to run. -/
def Dev.instDone (d : Dev) (k : Nat) : Bool := d.allHalted k && d.enginesIdle k

/-- DESIGN CHOICE: log entry 31. -/
def hStop : Handler := fun e _ s d =>
  let k := s.target
  if !s.stopForm then refuse stBadArg d
  else if d.loadOpen k then refuse stBusy d
  else match (d.inst k).fn.stopPath (s.field 0x10 1) (d.stopOf 0x203 k 0).isSome with
    | .refused st => refuse st d
    | .already => ok d
    | .fromFault => ok (d.restInst e k)
    | .drain =>
      if d.instDone k then ok (d.modInst k fun x => { x with fn := .stopped })
      else (.long none [], d.modInst k fun x => { x with fn := .stopping })
    | .discard => ok (d.discardInst e k)
    | .escalate =>
      ok ((d.discardInst e k).finishAll e (fun o => o.opcode == 0x203 && o.e.target == k) { status := stAborted })

def execStop (q : Nat) (e : Sub) (s : State) : Host.Outcome State Fault Refusal :=
  run (.stop q e) (serveRow 0x0203 hStop q e) s

/-! ## FIRMWARE_STAGE (R398, R399, R542) -/

/-- Changes the slot that does not hold the running image. DESIGN CHOICE: log entry 42. -/
def Dev.setInactive (d : Dev) (x : FlashSlot) : Dev :=
  { d with sec := if d.sec.runningB then { d.sec with flashA := some x } else { d.sec with flashB := some x } }

/-- The slot is invalid from the start of the write until the verified image is all in it.
DESIGN CHOICE: log entry 42. -/
def hFirmwareStage : Handler := fun e _ s d =>
  let a := s.field 0x10 8
  let n := s.field 0x18 4
  if !s.zero 0x1C 36 ∨ !sourceOk a n ∨ 0x2000000 < n then refuse stBadArg d
  else if d.mbox.outst.any fun o => o.opcode == 0x205 then refuse stBusy d
  else
    let r := d.source a n
    let st := if r.2.1 then stIntegrity else checkImage e.fuse 0 n r.1
    if st ≠ stOk then refuse st (if r.2.1 then r.2.2 else r.2.2.refusedImage r.1)
    else (.long none (r.1.map (·.toNat)), r.2.2.setInactive { container := [], valid := false })

def execFirmwareStage (q : Nat) (e : Sub) (s : State) : Host.Outcome State Fault Refusal :=
  run (.firmwareStage q e) (serveRow 0x0205 hFirmwareStage q e) s

end Sys2Proof.Machine
end

