-- ==== Sys2Proof/Machine/Tables.lean ====
section
/-! DEFINITION. WINDOW_MAP (R342, R343, R404), TABLE_LOAD and TABLE_SWITCH (R259, R262, R263, R404). -/

namespace Sys2Proof.Machine

open Sys2Proof

/-! ## Windows (R342, R343) -/

/-- A window's region obeys R342. -/
def windowOk (base len : Nat) : Bool :=
  decide (base % 64 = 0 ∧ len % 64 = 0 ∧ 64 ≤ len ∧ len ≤ 0x4000000 ∧ gddrBase ≤ base ∧ base + len ≤ gddrBase + gddrSize)

/-- A write to window `w` with a number below `n` has not yet reached GDDR6. DEDUCED: log entry 48. -/
def Dev.windowOwes (d : Dev) (w n : Nat) : Bool := d.host.winWrites.any fun x => x.win == w && decide (x.no < n)

/-- The mapping changes when the command is taken; it completes once every write accepted to the window before has landed.
The command records the number of the next write and the old mapping. DEDUCED: log entry 48. -/
def hWindowMap : Handler := fun _ _ s d =>
  let w := s.target
  let base := s.field 0x10 8
  let len := s.field 0x18 4
  let old := (tget d.host.windows w).getD (0, 0)
  if w = 0 ∨ !s.zero 0x1C 36 ∨ (len ≠ 0 ∧ !windowOk base len) then refuse stBadArg d
  else
    let owes := d.windowOwes w d.host.nextWrite
    let d := { d with host := { d.host with
      windows := if len = 0 then terase d.host.windows w else tset d.host.windows w (base, len) } }
    if owes then (.long none [d.host.nextWrite, old.1, old.2], d) else ok d

def execWindowMap (q : Nat) (e : Sub) (s : State) : Host.Outcome State Fault Refusal :=
  run (.windowMap q e) (serveRow 0x0400 hWindowMap q e) s

/-- Completes every WINDOW_MAP whose earlier writes have landed (R343). DEDUCED: log entry 48. -/
def Dev.settleWindows (d : Dev) (e : Env) : Dev :=
  d.finishAll e (fun o => o.opcode == 0x400 && !d.windowOwes o.e.target (o.aux.headD 0)) {}

/-! ## Lookup tables (R262, R263) -/

/-- The folds that a fold mask names; 48 is the Collie. -/
def maskFolds (m : Nat) : List Nat := (List.range 49).filter fun n => bitOf m n

/-- lo and hi finite with lo < hi (R259). -/
def lutRangeOk (lo hi : Nat) : Bool :=
  f32Finite lo && f32Finite hi && (match f32 lo, f32 hi with
    | .fin a _, .fin b _ => decide (a < b)
    | _, _ => false)

def hTableLoad : Handler := fun _ _ s d =>
  let m := s.field 0x10 8
  let sl := s.field 0x18 1
  let bank := s.field 0x19 1
  let lo := s.field 0x1C 4
  let hi := s.field 0x20 4
  let l := maskFolds m
  if 2 ^ 49 ≤ m ∨ 3 < sl ∨ 1 < bank ∨ !s.zero 0x1A 2 ∨ !s.zero 0x24 12 ∨ !lutRangeOk lo hi then refuse stBadArg d
  else if l.any fun n => n < 48 && d.physOf n == 0xFF then refuse stBadState d
  else if l.any fun n => (d.lut n sl).active == some bank || (d.lut n sl).pending then refuse stBusy d
  else d.withBlock s fun b d =>
    if b.length ≠ 4096 then refuse stBadArg d
    else
      let x : LutBank := { lo := lo, hi := hi, entries := words32 1024 b }
      ok (l.foldl (fun d n => d.modLut n sl fun t => { t.setBank bank (some x) with loadedBank := some bank }) d)

def execTableLoad (q : Nat) (e : Sub) (s : State) : Host.Outcome State Fault Refusal :=
  run (.tableLoad q e) (serveRow 0x0403 hTableLoad q e) s

/-- A fold whose vector engine runs no instruction switches at once. -/
def Dev.switchIdle (d : Dev) (e : Env) (l : List Nat) : Dev :=
  l.foldl (fun d n => if d.vecIdle n then d.lutSwitch e n else d) d

/-- TABLE_SWITCH records slot and folds. -/
def hTableSwitch : Handler := fun e _ s d =>
  let m := s.field 0x10 8
  let sl := s.field 0x18 1
  let l := maskFolds m
  if 2 ^ 49 ≤ m ∨ 3 < sl ∨ !s.zero 0x19 39 then refuse stBadArg d
  else if l.any fun n => (d.lut n sl).pending then refuse stBusy d
  else if l.any fun n => (d.lut n sl).loadedBank.isNone then refuse stBadState d
  else
    let d := (l.foldl (fun d n => d.modLut n sl fun t => { t with pending := true }) d).switchIdle e l
    match l.filter fun n => (d.lut n sl).pending with
    | [] => (.done { r1 := m }, d)
    | wait => (.long none (sl :: wait), d)

def execTableSwitch (q : Nat) (e : Sub) (s : State) : Host.Outcome State Fault Refusal :=
  run (.tableSwitch q e) (serveRow 0x0404 hTableSwitch q e) s

end Sys2Proof.Machine
end

