-- ==== Sys2Proof/Machine/TimeCommands.lean ====
section
/-! DEFINITION. Time domains, triggers and PTP: the commands of R406, the servo of R418 to R420, the cross-check of R421, the
input checks of R432, the edges of R426 to R428, and the bridge (R425, R435). -/

namespace Sys2Proof.Machine

open Sys2Proof

/-! ## Domain commands (R378, R379, R392, R394, R406) -/

def hDomainConfigure : Handler := fun _ _ s d =>
  let c : DomCfg := { protocol := s.field 0x10 1, number := s.field 0x11 1, portMask := s.field 0x12 1,
                      priority := s.field 0x13 1, vlan := s.field 0x14 2 }
  if 1 < c.protocol ∨ 127 < c.number ∨ 15 < c.portMask ∨ 7 < c.priority ∨ !vlanOk c.vlan ∨ !s.zero 0x16 42 then refuse stBadArg d
  else if !(d.dom s.target).fn.canConfigure then refuse stBadState d
  else ok (d.modDom s.target fun x => { x with fn := .stopped, cfg := some c })

def execDomainConfigure (q : Nat) (e : Sub) (s : State) : Host.Outcome State Fault Refusal :=
  run (.domainConfigure q e) (serveRow 0x0500 hDomainConfigure q e) s

/-- The MAC ports of a domain's mask. -/
def DomCfg.ports (c : DomCfg) : List Nat := (List.range 4).filter fun p => bitOf c.portMask p

/-- R394: the mask names at least one port, and only configured ones. -/
def Dev.domainReady (d : Dev) (k : Nat) : Bool :=
  ((d.dom k).cfg.map fun c => !c.ports.isEmpty && c.ports.all fun p => (d.mac p).cfg.isSome).getD false

/-- A domain that starts while the counter is stopped is FAULTED like every RUNNING one (R413). DEDUCED: log entry 35. -/
def hDomainStart : Handler := fun e _ s d =>
  let k := s.target
  if !s.zero 0x10 48 then refuse stBadArg d
  else if !(d.dom k).fn.canStart then refuse stBadState d
  else if !d.domainReady k then refuse stBadArg d
  else
    let d := d.startDomain e k
    ok (if d.pow.refclkLost ∨ d.pow.timePllLost then d.faultDomain e k (faultMsg 0x300 0x23 0 e.raw).toNat else d)

def execDomainStart (q : Nat) (e : Sub) (s : State) : Host.Outcome State Fault Refusal :=
  run (.domainStart q e) (serveRow 0x0501 hDomainStart q e) s

/-- A domain has no accepted work: it stops at once in either mode. -/
def hDomainStop : Handler := fun e _ s d =>
  let k := s.target
  if !s.stopForm then refuse stBadArg d
  else match (d.dom k).fn.stopPath (s.field 0x10 1) false with
    | .refused st => refuse st d
    | .already => ok d
    | _ => ok (d.domFree e k .stopped)

def execDomainStop (q : Nat) (e : Sub) (s : State) : Host.Outcome State Fault Refusal :=
  run (.domainStop q e) (serveRow 0x0502 hDomainStop q e) s

/-- The parameter sets stay: domain time runs on at its last rate (R417). DESIGN CHOICE: log entry 76. -/
def hDomainRelease : Handler := fun _ _ s d =>
  let r := (d.dom s.target).fn.release
  if !s.zero 0x10 48 then refuse stBadArg d
  else if r.1 ≠ stOk then refuse r.1 d
  else ok (d.modDom s.target fun x => { x with fn := .unconfigured, cfg := none })

def execDomainRelease (q : Nat) (e : Sub) (s : State) : Host.Outcome State Fault Refusal :=
  run (.domainRelease q e) (serveRow 0x0503 hDomainRelease q e) s

def hTimeSelect : Handler := fun _ _ s d =>
  if !s.zero 0x10 48 then refuse stBadArg d else ok { d with tu := { d.tu with preferred := s.target } }

def execTimeSelect (q : Nat) (e : Sub) (s : State) : Host.Outcome State Fault Refusal :=
  run (.timeSelect q e) (serveRow 0x0504 hTimeSelect q e) s

def hPortDelay : Handler := fun _ _ s d =>
  let v := s.field 0x14 4
  if 1 < s.field 0x10 1 ∨ !s.zero 0x11 3 ∨ 10000 < v ∨ !s.zero 0x18 40 then refuse stBadArg d
  else if s.field 0x10 1 = 0 then ok { d with tu := { d.tu with delayIn := tset d.tu.delayIn s.target v } }
  else ok { d with tu := { d.tu with delayOut := tset d.tu.delayOut s.target v } }

def execPortDelay (q : Nat) (e : Sub) (s : State) : Host.Outcome State Fault Refusal :=
  run (.portDelay q e) (serveRow 0x0505 hPortDelay q e) s

/-- The sync state's code (R419). -/
def syncCode : SyncState → Nat
  | .acquiring => 0
  | .locked => 1
  | .holdover => 2
  | .carried => 3
  | .free => 4

/-- Function state and sync state of a domain, as TIME_READ reports them. -/
def Dev.domState (d : Dev) (k : Nat) : Nat :=
  fnCode (d.dom k).fn + 256 * (if (d.dom k).fn = .running then syncCode (d.dom k).sync else 4)

def hTimeRead : Handler := fun e _ s d =>
  if !s.zero 0x10 48 then refuse stBadArg d
  else (.done { r0 := d.domState s.target, r1 := e.raw, r2 := patternOf (d.domTime s.target e.raw) 64 }, d)

def execTimeRead (q : Nat) (e : Sub) (s : State) : Host.Outcome State Fault Refusal :=
  run (.timeRead q e) (serveRow 0x0506 hTimeRead q e) s

/-! ## Trigger commands (R378, R379, R394, R406, R426, R427) -/

/-- The rules of R406 on a trigger, with those of PPS_OUT. -/
def trigCfgOk (n : Nat) (c : TrigCfg) : Bool :=
  decide (c.dom ≤ 1 ∧ 100 ≤ c.width ∧ c.width ≤ 1000000000 ∧ 1000 ≤ c.period ∧ c.period ≤ 10000000000 ∧ c.width < c.period) &&
    (n != 16 || (c.periodic && c.period == 1000000000 && c.start % 1000000000 == 0))

def hTrigConfigure : Handler := fun _ _ s d =>
  let n := s.target
  let c : TrigCfg := { dom := s.field 0x10 1, periodic := s.field 0x11 1 = 1, activeLow := s.field 0x12 1 = 1,
                       width := s.field 0x14 4, start := s.field 0x18 8, period := s.field 0x20 8 }
  if 1 < s.field 0x11 1 ∨ 1 < s.field 0x12 1 ∨ !s.zero 0x13 1 ∨ !s.zero 0x28 24 ∨ !trigCfgOk n c then refuse stBadArg d
  else if !(d.trig n).fn.canConfigure then refuse stBadState d
  else ok ((d.modTrig n fun t => { t with cfg := some c }).trigStopped n)

def execTrigConfigure (q : Nat) (e : Sub) (s : State) : Host.Outcome State Fault Refusal :=
  run (.trigConfigure q e) (serveRow 0x0510 hTrigConfigure q e) s

def hTrigStart : Handler := fun e _ s d =>
  let n := s.target
  if !s.zero 0x10 48 then refuse stBadArg d
  else if !(d.trig n).fn.canStart then refuse stBadState d
  else match (d.trig n).cfg with
    | none => refuse stBadState d
    | some c =>
      let now := d.domTime c.dom e.raw
      let late := decide ((c.start : Int) < now)
      if !c.periodic && late then refuse stBadArg d
      else ok (d.modTrig n fun t => { t with
        fn := .running, edge := if late then c.lateEdge now else 0, inPulse := false, waitLock := false, resume := none })

def execTrigStart (q : Nat) (e : Sub) (s : State) : Host.Outcome State Fault Refusal :=
  run (.trigStart q e) (serveRow 0x0511 hTrigStart q e) s

/-- Under DRAIN the pulse in progress finishes; under DISCARD it ends at once. -/
def hTrigStop : Handler := fun e _ s d =>
  let n := s.target
  if !s.stopForm then refuse stBadArg d
  else match (d.trig n).fn.stopPath (s.field 0x10 1) (d.stopOf 0x512 n 0).isSome with
    | .refused st => refuse st d
    | .already => ok d
    | .drain =>
      if (d.trig n).inPulse then (.long none [], d.modTrig n fun t => { t with fn := .stopping }) else ok (d.trigStopped n)
    | .escalate =>
      ok ((d.trigStopped n).finishAll e (fun o => o.opcode == 0x512 && o.e.target == n) { status := stAborted })
    | .fromFault => ok (d.trigStopped n)
    | .discard => ok (d.trigStopped n)

def execTrigStop (q : Nat) (e : Sub) (s : State) : Host.Outcome State Fault Refusal :=
  run (.trigStop q e) (serveRow 0x0512 hTrigStop q e) s

/-- An UNCONFIGURED output is low. -/
def hTrigRelease : Handler := fun _ _ s d =>
  let r := (d.trig s.target).fn.release
  if !s.zero 0x10 48 then refuse stBadArg d
  else if r.1 ≠ stOk then refuse r.1 d
  else ok (d.modTrig s.target fun _ => {})

def execTrigRelease (q : Nat) (e : Sub) (s : State) : Host.Outcome State Fault Refusal :=
  run (.trigRelease q e) (serveRow 0x0513 hTrigRelease q e) s

/-! ## Edges (R426, R428) -/

/-- A leading edge: the trigger runs, and its domain's time has reached the edge. -/
def execTriggerLeadingEdge (n : Nat) (s : State) : Host.Outcome State Fault Refusal :=
  run (.triggerLeadingEdge n) (fun e d =>
    let t := d.trig n
    match t.cfg with
    | some c =>
      if t.fn = .running ∧ !t.inPulse ∧ !t.waitLock ∧ d.clocked ∧ c.edgeAt t.edge ≤ d.domTime c.dom e.raw then
        d.modTrig n fun t => { t with inPulse := true, level := c.ball true }
      else d
    | none => d) s

def execTriggerTrailingEdge (n : Nat) (s : State) : Host.Outcome State Fault Refusal :=
  run (.triggerTrailingEdge n) (fun e d =>
    let t := d.trig n
    match t.cfg with
    | some c => if t.fn.active && t.inPulse && decide (c.edgeAt t.edge + c.width ≤ d.domTime c.dom e.raw) then d.pulseEnds e n c else d
    | none => d) s

/-! ## PTP input (R418, R419, R432) -/

/-- The source of a domain (R431). -/
def domSource (k : Nat) : Nat := 0x301 + k

/-- The domains that a message belongs to: RUNNING, with its protocol, domainNumber and port. -/
def Dev.ptpDomains (d : Dev) (m : PtpMsg) : List Nat :=
  if d.clocked then
    [0, 1].filter fun k => (d.dom k).fn == .running && (((d.dom k).cfg).map fun c =>
      c.protocol == m.protocol && c.number == m.domainNumber && bitOf c.portMask m.port).getD false
  else []

/-- A message fails the check of a row of R432. -/
def Dev.ptpDiscard (d : Dev) (e : Env) (k row : Nat) : Dev := d.raiseSecond e (domSource k) 0x27 row 0 true

/-- The correction field's range. -/
def correctionOk (m : PtpMsg) : Bool := decide (0 ≤ m.correction ∧ m.correction ≤ 1000000000)

/-- A domain's Syncs come from the master selected, at an interval that the device supports (R418). DEDUCED: log entry 35. -/
def Domain.follows (x : Domain) (m : PtpMsg) : Bool := x.best.map (·.2) == some m.sourcePort

/-- The intervals of R418 between Syncs. -/
def syncInterval (m : PtpMsg) : Bool := decide (-7 ≤ m.logInterval ∧ m.logInterval ≤ 0)

/-- A request may follow the one before it after 1 s. -/
def askDue (r : Option DelayReq) (raw : Nat) : Bool := (r.map fun r => decide (r.sent + 1000000000 ≤ raw)).getD true

/-- A Pdelay_Resp answers within 1 s on a port: the last Pdelay_Req has been answered, or the one before it and the last is not
yet 1 s old (R418). -/
def Dev.linkAnswers (d : Dev) (raw port : Nat) : Bool :=
  match tget d.tu.pdelayReq port with
  | some r => r.answered || (r.alive && decide (raw ≤ r.sent + 1000000000))
  | none => false

/-- A domain's protocol is 802.1AS. -/
def Domain.is8021AS (x : Domain) : Bool := x.cfg.map (·.protocol) == some 1

/-- The path delay that an offset uses: the link delay under 802.1AS and where a Pdelay_Resp answers within 1 s on the port,
the delay of request and response otherwise (R418). -/
def Dev.pathDelay (d : Dev) (e : Env) (k port : Nat) : Nat :=
  if (d.dom k).is8021AS || d.linkAnswers e.raw port then (tget d.tu.linkDelay port).getD (d.dom k).delay else (d.dom k).delay

/-- The egress stamp of a frame that the device sends now (R423). -/
def Dev.stampOut (d : Dev) (e : Env) (port : Nat) : Nat := e.raw + tgetD d.tu.delayOut port 0

/-- A request leaves by a port, tagged as the domain's configuration says (R418). DESIGN CHOICE: log entry 78. -/
def Dev.sendRequest (d : Dev) (k port : Nat) (peer : Bool) : Dev :=
  let seq := d.tu.ptpSeq
  let d := { d with tu := { d.tu with ptpSeq := (seq + 1) % 65536 } }
  { d with flock := { d.flock with out := d.flock.out ++ [.ptpRequest port ((d.dom k).cfg.getD default) peer seq] } }

/-- The requests that follow a Sync: a Pdelay_Req on its port and, where none answers, a Delay_Req under 1588 (R418).
DEDUCED: log entry 35. -/
def Dev.askDelay (d : Dev) (e : Env) (k port : Nat) : Dev :=
  let r := tget d.tu.pdelayReq port
  let d := if askDue r e.raw then
      let req : DelayReq := { seq := d.tu.ptpSeq, sent := d.stampOut e port, alive := (r.map (·.answered)).getD false }
      { d with tu := { d.tu with pdelayReq := tset d.tu.pdelayReq port req } }.sendRequest k port true
    else d
  if !(d.dom k).is8021AS && !d.linkAnswers e.raw port && askDue (d.dom k).delayReq e.raw then
    let req : DelayReq := { seq := d.tu.ptpSeq, sent := d.stampOut e port }
    (d.modDom k fun x => { x with delayReq := some req }).sendRequest k port false
  else d

/-- A rate within 100 ppm of the master's and within the limit of R414; where in that range the servo puts it is open (R420;
DESIGN CHOICE, log entry 3). -/
def servoRate (free : Nat) (master : Int) : Int :=
  rateIn (master + (Config.freeNat free % 219902325 : Nat) - 109951162)

/-- The middle of the last three measurements; of fewer, the newest. -/
def median3 : List Int → Int
  | a :: b :: c :: _ => max (min a b) (min (max a b) c)
  | a :: _ => a
  | [] => 0

/-- One good or bad offset in ACQUIRING; the eighth good one in a row locks. -/
def Dev.countGood (d : Dev) (e : Env) (k : Nat) (off : Int) : Dev :=
  let n := if off.natAbs < 1000 then (d.dom k).goodSyncs + 1 else 0
  let d := d.modDom k fun x => { x with goodSyncs := n }
  if n = 8 then (d.modDom k fun x => { x with sync := .locked }).enteredLock e k else d

/-- The servo on a measured offset, after the first step (R419, R420). -/
def Dev.slew (d : Dev) (e : Env) (k : Nat) (off : Int) : Dev :=
  let x := d.dom k
  let back := x.sync = .holdover ∨ x.sync = .carried
  let d := if back then d.modDom k fun x => { x with sync := .acquiring, goodSyncs := 0, offsets := [] } else d
  let d := d.modDom k fun x => { x with offsets := (off :: x.offsets).take 3 }
  let acq := (d.dom k).sync = .acquiring
  let use := if acq then off else median3 (d.dom k).offsets
  if 1000000 < use.natAbs then
    (d.raise (domSource k) 0x21 0 (patternOf use 40)).faultDomain e k (faultMsg (domSource k) 0x21 0 (patternOf use 40)).toNat
  else
    let d := if acq then d.countGood e k off else d
    if (d.dom k).canReplace e.raw then (d.setRate e k (servoRate d.free (d.dom k).masterRho)).spend else d

/-- The servo on an offset measured at a Sync: the first after start steps the time, later ones slew it. -/
def Dev.servo (d : Dev) (e : Env) (k : Nat) (off rate : Int) : Dev :=
  let x := d.dom k
  if x.sync = .carried ∧ x.forDisagreement then d
  else if x.stepped then d.slew e k off
  else if x.canReplace e.raw then
    ((d.modDom k fun x => { x with stepped := true, syncDiff := x.syncDiff - off }).stepTo e k (d.domTime k e.raw - off) (servoRate d.free rate)).spend
  else d

/-- An offset has been measured at a Sync (R418 to R420). -/
def Dev.offsetMeasured (d : Dev) (e : Env) (k stamp : Nat) (port : Nat) (origin : Nat) (correction : Int) (rate : Int) : Dev :=
  let diff := d.domTime k stamp - ((origin : Int) + correction)
  let off := diff - d.pathDelay e k port
  let d := d.modDom k fun x => { x with
    lastSync := e.raw, lastOrigin := origin, masterRho := rate, master := true, syncDiff := diff }
  (d.servo e k off rate).askDelay e k port

/-- The raw stamp of a frame that has just arrived (R423). -/
def Dev.stampIn (d : Dev) (e : Env) (port : Nat) : Nat := e.raw - tgetD d.tu.delayIn port 0

/-- A Sync: a two-step one waits for its Follow_Up; one of no master or of an interval not supported is passed over. DEDUCED: log entry 35. -/
def execSync (m : PtpMsg) (s : State) : Host.Outcome State Fault Refusal :=
  run (.sync m) (fun e d => (d.ptpDomains m).foldl (fun d k =>
    let x := d.dom k
    if !x.follows m || !syncInterval m then d
    else if !correctionOk m || (!m.twoStep && decide (m.origin < x.lastOrigin)) then d.ptpDiscard e k 0
    else
      let d := d.modDom k fun x => { x with syncInterval := m.logInterval }
      if m.twoStep then d.modDom k fun x => { x with pending := some (m, d.stampIn e m.port), lastSync := e.raw }
      else d.offsetMeasured e k (d.stampIn e m.port) m.port m.origin m.correction m.rateRatio) d) s

/-- A Follow_Up pairs only by sequenceId and source port; one later than 1 s after its Sync drops the Sync.
DEDUCED: log entry 35. -/
def execFollowUp (m : PtpMsg) (s : State) : Host.Outcome State Fault Refusal :=
  run (.followUp m) (fun e d => (d.ptpDomains m).foldl (fun d k =>
    if !(d.dom k).follows m then d
    else match (d.dom k).pending with
    | none => d.ptpDiscard e k 0
    | some (y, stamp) =>
      if y.sequenceId ≠ m.sequenceId ∨ y.sourcePort ≠ m.sourcePort ∨ !correctionOk m ∨ m.origin < (d.dom k).lastOrigin then
        d.ptpDiscard e k 0
      else
        let d := d.modDom k fun x => { x with pending := none }
        if stamp + 1000000000 < e.raw then d.ptpDiscard e k 0
        else d.offsetMeasured e k stamp y.port m.origin (y.correction + m.correction) m.rateRatio) d) s

/-- A measured delay lies in the range of R432. -/
def delayIn (delay : Int) : Bool := decide (0 ≤ delay ∧ delay ≤ 100000)

/-- An answer pairs with the request outstanding by its sequenceId and comes within 1 s of it (R432). -/
def answersReq (m : PtpMsg) (raw : Nat) (r : DelayReq) : Bool :=
  r.seq == m.sequenceId && !r.answered && decide (raw ≤ r.sent + 1000000000)

/-- The mean path delay: half of what a Sync took one way and the request the other (R418). -/
def Dev.respDelay (d : Dev) (k : Nat) (m : PtpMsg) (r : DelayReq) : Int :=
  ((d.dom k).syncDiff + (m.remote - m.correction - d.domTime k r.sent)).fdiv 2

/-- A Delay_Resp is taken. -/
def Dev.delayAnswered (d : Dev) (k : Nat) (r : DelayReq) (v : Int) : Dev :=
  d.modDom k fun x => { x with delay := v.toNat, delayReq := some { r with answered := true } }

/-- DEDUCED: log entry 35. -/
def execDelayResp (m : PtpMsg) (s : State) : Host.Outcome State Fault Refusal :=
  run (.delayResp m) (fun e d => (d.ptpDomains m).foldl (fun d k =>
    match (d.dom k).delayReq with
    | some r => if answersReq m e.raw r && delayIn (d.respDelay k m r) then d.delayAnswered k r (d.respDelay k m r) else d.ptpDiscard e k 1
    | none => d.ptpDiscard e k 1) d) s

/-- The link delay: half of a Pdelay exchange without the responder's turnaround, in domain time (R418, R425). -/
def Dev.peerDelay (d : Dev) (k stamp : Nat) (m : PtpMsg) (r : DelayReq) : Int :=
  (d.domTime k stamp - d.domTime k r.sent - m.remote - m.correction).fdiv 2

/-- The neighbour's clock at a Pdelay_Resp; its rate comes of two of them (R425). DEDUCED: log entry 35. -/
def neighbourAt (was : Option Neighbour) (m : PtpMsg) (stamp : Nat) : Neighbour :=
  match was with
  | some n =>
    let here : Int := stamp - n.stamp
    { origin := m.origin, stamp := stamp
      ratio := if 0 < here then ((((m.origin : Int) - n.origin) - here) * 2 ^ 41).fdiv here else n.ratio }
  | none => { origin := m.origin, stamp := stamp }

/-- A Pdelay_Resp is taken. -/
def Dev.peerAnswered (d : Dev) (m : PtpMsg) (stamp : Nat) (r : DelayReq) (v : Int) : Dev :=
  { d with tu := { d.tu with
    linkDelay := tset d.tu.linkDelay m.port v.toNat
    pdelayReq := tset d.tu.pdelayReq m.port { r with answered := true }
    neighbours := tset d.tu.neighbours m.port (neighbourAt (tget d.tu.neighbours m.port) m stamp) } }

/-- A link delay belongs to the port: the first domain that the message belongs to takes it. DEDUCED: log entry 35. -/
def execPdelayResp (m : PtpMsg) (s : State) : Host.Outcome State Fault Refusal :=
  run (.pdelayResp m) (fun e d =>
    match d.ptpDomains m, tget d.tu.pdelayReq m.port with
    | k :: _, some r =>
      let v := d.peerDelay k (d.stampIn e m.port) m r
      if answersReq m e.raw r && delayIn v then d.peerAnswered m (d.stampIn e m.port) r v else d.ptpDiscard e k 1
    | k :: _, none => d.ptpDiscard e k 1
    | [], _ => d) s

/-- The best master clock algorithm on a qualified Announce: the better master, or the one selected, is followed (R418).
DEDUCED: log entry 35. -/
def Domain.betterMaster (x : Domain) (m : PtpMsg) : Bool :=
  (x.best.map fun b => decide (m.rank < b.1) || b.2 == m.sourcePort).getD true

/-- A domain takes up a master; one that it did not follow before starts its Syncs afresh. -/
def Domain.announced (x : Domain) (raw : Nat) (m : PtpMsg) : Domain :=
  let new := x.best.map (·.2) != some m.sourcePort
  { x with
    best := some (m.rank, m.sourcePort), lastAnnounce := raw, announceLog := m.logInterval, ptpScale := m.ptpTimescale
    master := true, lastOrigin := if new then 0 else x.lastOrigin, pending := if new then none else x.pending }

/-- An Announce that the standard qualifies keeps the master or selects a better one; another is passed over (DEDUCED, log
entry 35). -/
def execAnnounce (m : PtpMsg) (s : State) : Host.Outcome State Fault Refusal :=
  run (.announce m) (fun e d => (d.ptpDomains m).foldl (fun d k =>
    let x := d.dom k
    if m.logInterval < -3 ∨ 4 < m.logInterval then d.ptpDiscard e k 3
    else if !m.qualified || !x.betterMaster m then d
    else
      let d := d.modDom k fun x => x.announced e.raw m
      if x.sync = .holdover ∨ (x.sync = .carried ∧ !x.forDisagreement) then
        d.modDom k fun x => { x with sync := .acquiring, goodSyncs := 0, offsets := [], lastSync := e.raw }
      else d) d) s

/-! ## Master loss and the cross-check (R419, R421) -/

/-- 2^l seconds in ns. -/
def intervalNs (l : Int) : Nat := if 0 ≤ l then 1000000000 * 2 ^ l.toNat else 1000000000 / 2 ^ (-l).toNat

/-- No Sync for 3 sync intervals, or no qualified Announce for 3 announce intervals (DEDUCED, log entry 35). -/
def Domain.masterGone (x : Domain) (raw : Nat) : Bool :=
  decide (x.lastSync + 3 * intervalNs x.syncInterval ≤ raw ∨ x.lastAnnounce + 3 * intervalNs x.announceLog ≤ raw)

def execMasterLoss (k : Nat) (s : State) : Host.Outcome State Fault Refusal :=
  run (.masterLoss k) (fun e d =>
    let x := d.dom k
    if x.fn = .running ∧ (x.sync = .acquiring ∨ x.sync = .locked) ∧ d.clocked ∧ x.masterGone e.raw then
      let d := (d.raise (domSource k) 0x20 (syncCode x.sync) 0).modDom k fun x => { x with master := false, best := none, pending := none }
      let o := d.dom (1 - k)
      let d := if o.fn = .running ∧ o.sync = .locked then d.enterCarried e k false else d.enterHoldover e k
      if x.sync = .locked then d.leftLock e k else d
    else d) s

/-- Both domains are LOCKED to masters on the PTP timescale. -/
def Dev.crossable (d : Dev) : Bool :=
  [0, 1].all fun k => (d.dom k).fn == .running && (d.dom k).sync == .locked && (d.dom k).ptpScale

/-- Δ at the second of raw time that the row finds, compared with the second before it. DEDUCED: log entry 35. -/
def execCrossCheck (s : State) : Host.Outcome State Fault Refusal :=
  runClocked .crossCheck (fun e d =>
    let tick := e.raw / 1000000000 * 1000000000
    if !d.crossable then { d with tu := { d.tu with lastDelta := none } }
    else if d.tu.lastDelta.map (·.1) = some tick then d
    else
      let delta := d.domTime 0 tick - d.domTime 1 tick
      let was := d.tu.lastDelta
      let d := { d with tu := { d.tu with lastDelta := some (tick, delta) } }
      match was with
      | some (t, v) =>
        if t + 1000000000 = tick ∧ 1000 < (delta - v).natAbs then
          (d.enterCarried e (1 - d.tu.preferred) true).raise 0x303 0x22 0 (patternOf (delta - v) 40)
        else d
      | none => d) s

/-! ## The bridge (R425, R434 to R436) -/

def execBridgeForward (f : BridgeFrame) (s : State) : Host.Outcome State Fault Refusal :=
  runClocked (.bridgeForward f) (fun e d => d.portFrame e f (bridgeToSensor f)) s

/-- Entries of the learning table age out after 300 s. -/
def execLearningTableAgeing (s : State) : Host.Outcome State Fault Refusal :=
  run .learningTableAgeing (fun e d => { d with flock := { d.flock with
    learn := d.flock.learn.filter fun x => e.raw < x.2.2.2 + 300000000000 } }) s

end Sys2Proof.Machine
end

