-- ==== Sys2Proof/Machine/FlockCommands.lean ====
section
/-! DEFINITION. The flock commands of R407: identity, MAC ports, peer contexts, stiles and flock events (R394, R433, R434,
R441 to R445, R451, R458, R462). -/

namespace Sys2Proof

/-- The EVENT payload with an operation: 0 REQUEST, 1 ORDER, 2 CANCEL, 3 REFUSE (R458). -/
def NdEvent.body (v : NdEvent) (op : Nat) : List Nat := [op, v.kind, v.domain, v.origin, v.eventId, v.tag, v.instant]

end Sys2Proof

namespace Sys2Proof.Machine

open Sys2Proof

/-! ## Identity and MAC ports (R407, R433, R434) -/

def hFlockIdentity : Handler := fun _ _ s d =>
  let n := s.field 0x10 2
  let t := s.field 0x12 2
  let m := s.field 0x14 1
  if (511 < n ∧ n ≠ 0xFFFF) ∨ (t ≠ 0 ∧ t < 0x600) ∨ 15 < m ∨ !s.zero 0x15 43 then refuse stBadArg d
  else if d.flock.peers.any (·.2.fn != .unconfigured) || d.flock.stiles.any (·.2.fn != .unconfigured) then refuse stBadState d
  else ok { d with flock := { d.flock with
    dev := if n = 0xFFFF then none else some n, etherType := if t = 0 then 0x88B5 else t, portMask := m } }

def execFlockIdentity (q : Nat) (e : Sub) (s : State) : Host.Outcome State Fault Refusal :=
  run (.flockIdentity q e) (serveRow 0x0600 hFlockIdentity q e) s

/-- Peer devices reached through a MAC port. -/
def Dev.peersOn (d : Dev) (m : Nat) : List Nat :=
  d.flock.peers.filterMap fun x =>
    if x.2.fn = .unconfigured then none else x.2.cfg.bind fun c => if c.port = m then some c.dev else none

/-- A RUNNING gate, domain, peer link or stile uses a MAC port; a stile uses the ports of the peers it lists. -/
def Dev.portUsed (d : Dev) (m : Nat) : Bool :=
  d.race.gates.any (fun x => x.2.fn == .running && Settings.kind x.2.settings == 1 &&
    ((Settings.bytes x.2.settings 0x02).map fun b => fieldAt b 0 1 == m).getD false) ||
  d.tu.doms.any (fun x => x.2.fn == .running && (x.2.cfg.map fun c => bitOf c.portMask m).getD false) ||
  d.flock.peers.any (fun x => x.2.fn == .running && (x.2.cfg.map fun c => c.port == m).getD false) ||
  d.flock.stiles.any (fun x => x.2.fn == .running &&
    (x.2.cfg.map fun c => c.peers.any ((d.peersOn m).contains ·)).getD false)

/-- ETH_PORT takes the port over when its work is complete. -/
def hEthPort : Handler := fun _ _ s d =>
  let i := s.field 0x10 1
  let v := s.field 0x11 1
  if 3 < i ∨ 3 < v ∨ (i < 2 ∧ v ≠ 0) ∨ !s.zero 0x12 46 then refuse stBadArg d
  else if d.portUsed s.target then refuse stBadState d
  else if d.mbox.outst.any fun o => o.opcode == 0x602 && o.e.target == s.target then refuse stBusy d
  else (.long none [i, v], d)

def execEthPort (q : Nat) (e : Sub) (s : State) : Host.Outcome State Fault Refusal :=
  run (.ethPort q e) (serveRow 0x0602 hEthPort q e) s

/-! ## Peer contexts (R378, R379, R394, R407, R441 to R444) -/

/-- DESIGN CHOICE: log entry 61. -/
def hPeerConfigure : Handler := fun _ _ s d =>
  let k := s.target
  let c : PeerCfg := { dev := s.field 0x10 2, port := s.field 0x12 1, priority := s.field 0x13 1, vlan := s.field 0x14 2,
                       mac := ((padTo 48 s.args).drop 8).take 6 }
  if 511 < c.dev ∨ 3 < c.port ∨ 7 < c.priority ∨ !vlanOk c.vlan ∨ !s.zero 0x16 2 ∨ !s.zero 0x1E 34 then refuse stBadArg d
  else if !(d.peer k).fn.canConfigure then refuse stBadState d
  else if (d.peer k).connecting then refuse stBusy d
  else if d.flock.peers.any fun x => x.1 != k && x.2.fn != .unconfigured && (x.2.cfg.map (·.dev)) == some c.dev then
    refuse stBadArg d
  else ok (d.modPeer k fun p => { p with fn := .stopped, cfg := some c })

def execPeerConfigure (q : Nat) (e : Sub) (s : State) : Host.Outcome State Fault Refusal :=
  run (.peerConfigure q e) (serveRow 0x0610 hPeerConfigure q e) s

/-- This device is the initiator of a link: the lower-numbered of the pair (R442). -/
def Dev.initiates (d : Dev) (k : Nat) : Bool :=
  match d.flock.dev, (d.peer k).cfg with
  | some n, some c => n < c.dev
  | _, _ => false

/-- The session of a start: the low 32 bits of the raw counter, 1 where they are 0. -/
def sessionOf (raw : Nat) : Nat := if raw % 2 ^ 32 = 0 then 1 else raw % 2 ^ 32

/-- PEER_START: the initiator sends its first CONNECT; the command completes once the link is RUNNING.
DESIGN CHOICE: log entry 61. -/
def hPeerStart : Handler := fun e _ s d =>
  let k := s.target
  if !s.zero 0x10 48 then refuse stBadArg d
  else if !(d.peer k).fn.canStart then refuse stBadState d
  else if d.flock.dev.isNone then refuse stBadArg d
  else if (d.peer k).connecting then refuse stBusy d
  else
    let d := d.modPeer k fun p => { p with
      connecting := true, session := if d.initiates k then sessionOf e.raw else 0, lastRx := e.raw, lastTx := e.raw }
    (.long none [], if d.initiates k then d.putFrame e k 1 0 [] [] else d)

def execPeerStart (q : Nat) (e : Sub) (s : State) : Host.Outcome State Fault Refusal :=
  run (.peerStart q e) (serveRow 0x0611 hPeerStart q e) s

/-- PEER_STOP: a DRAIN ends with the close timer, a DISCARD at once (R443, R444). DESIGN CHOICE: log entry 61. -/
def hPeerStop : Handler := fun e _ s d =>
  let k := s.target
  if !s.stopForm then refuse stBadArg d
  else match (d.peer k).fn.stopPath (s.field 0x10 1) (d.stopOf 0x612 k 0).isSome with
    | .refused st => refuse st d
    | .already => ok d
    | .fromFault => ok (d.modPeer k fun p => { p with fn := .stopped })
    | .drain => (.long none [], ((d.modPeer k fun p => { p with fn := .stopping }).linkLeaves e k).drainLink e k)
    | .discard => ok (d.stopLink e k)
    | .escalate =>
      ok ((d.stopLink e k).finishAll e (fun o => o.opcode == 0x612 && o.e.target == k) { status := stAborted })

def execPeerStop (q : Nat) (e : Sub) (s : State) : Host.Outcome State Fault Refusal :=
  run (.peerStop q e) (serveRow 0x0612 hPeerStop q e) s

/-- Requests of the peer still in service are finished at the local memory. DESIGN CHOICE: log entry 61. -/
def hPeerRelease : Handler := fun _ _ s d =>
  let r := (d.peer s.target).fn.release
  if !s.zero 0x10 48 then refuse stBadArg d
  else if r.1 ≠ stOk then refuse r.1 d
  else if (d.peer s.target).connecting then refuse stBusy d
  else ok (d.modPeer s.target fun p => { cfg := p.cfg, serve := p.serve })

def execPeerRelease (q : Nat) (e : Sub) (s : State) : Host.Outcome State Fault Refusal :=
  run (.peerRelease q e) (serveRow 0x0613 hPeerRelease q e) s

/-! ## Stiles (R378, R379, R394, R407, R445, R451) -/

/-- The stile that a STILE_CONFIGURE and its block ask for. -/
def stileOf (s : Sub) (b : List Byte) : StileCfg :=
  { base := s.field 0x10 8, length := s.field 0x18 4, offset := s.field 0x1C 4, canRead := bitOf (s.field 0x20 1) 0
    canWrite := bitOf (s.field 0x20 1) 1, lifetimeMs := s.field 0x24 4
    peers := (List.range (b.length / 2)).map fun i => fieldAt b (2 * i) 2 }

/-- The ranges of a stile: 4 KiB aligned, outside control space, inside the stile space and apart from every other stile. -/
def Dev.stileRangeOk (d : Dev) (i : Nat) (c : StileCfg) : Bool :=
  decide (c.base % 4096 = 0 ∧ c.length % 4096 = 0 ∧ c.offset % 4096 = 0 ∧ 0x10000000 ≤ c.base ∧
    c.offset + c.length ≤ 0x80000000) &&
  d.flock.stiles.all fun x => x.1 == i || x.2.fn == .unconfigured ||
    (x.2.cfg.map fun y => !rangesMeet (c.offset, c.length) (y.offset, y.length)).getD true

def hStileConfigure : Handler := fun _ _ s d =>
  let i := s.target
  if 3 < s.field 0x20 1 ∨ !s.zero 0x21 3 ∨ !s.zero 0x28 8 ∨ !d.stileRangeOk i (stileOf s []) then refuse stBadArg d
  else if !(d.stile i).fn.canConfigure then refuse stBadState d
  else d.withBlock s fun b d =>
    let c := stileOf s b
    if b.length % 2 ≠ 0 ∨ 1024 < b.length ∨ c.peers.any (fun n => 511 < n) then refuse stBadArg d
    else ok (d.modStile i fun _ => { fn := .stopped, cfg := some c })

def execStileConfigure (q : Nat) (e : Sub) (s : State) : Host.Outcome State Fault Refusal :=
  run (.stileConfigure q e) (serveRow 0x0620 hStileConfigure q e) s

def hStileStart : Handler := fun e _ s d =>
  if !s.zero 0x10 48 then refuse stBadArg d
  else if !(d.stile s.target).fn.canStart then refuse stBadState d
  else if d.flock.dev.isNone then refuse stBadArg d
  else ok (d.modStile s.target fun x => { x with fn := .running, startedAt := e.raw })

def execStileStart (q : Nat) (e : Sub) (s : State) : Host.Outcome State Fault Refusal :=
  run (.stileStart q e) (serveRow 0x0621 hStileStart q e) s

def hStileStop : Handler := fun e _ s d =>
  let i := s.target
  if !s.stopForm then refuse stBadArg d
  else match (d.stile i).fn.stopPath (s.field 0x10 1) (d.stopOf 0x622 i 0).isSome with
    | .refused st => refuse st d
    | .already => ok d
    | .fromFault => ok (d.modStile i fun x => { x with fn := .stopped })
    | .drain =>
      if d.stileBusy i then (.long none [], d.modStile i fun x => { x with fn := .stopping })
      else ok (d.modStile i fun x => { x with fn := .stopped })
    | .discard => ok (d.closeStile e i .stopped)
    | .escalate =>
      ok ((d.closeStile e i .stopped).finishAll e (fun o => o.opcode == 0x622 && o.e.target == i) { status := stAborted })

def execStileStop (q : Nat) (e : Sub) (s : State) : Host.Outcome State Fault Refusal :=
  run (.stileStop q e) (serveRow 0x0622 hStileStop q e) s

def hStileRelease : Handler := fun _ _ s d =>
  let r := (d.stile s.target).fn.release
  if !s.zero 0x10 48 then refuse stBadArg d
  else if r.1 ≠ stOk then refuse r.1 d
  else ok (d.modStile s.target fun _ => {})

def execStileRelease (q : Nat) (e : Sub) (s : State) : Host.Outcome State Fault Refusal :=
  run (.stileRelease q e) (serveRow 0x0623 hStileRelease q e) s

/-- A stile's lifetime has passed: it stops as under DRAIN, and 1 ms later what remains is closed (R451). -/
def execStileLifetime (i : Nat) (s : State) : Host.Outcome State Fault Refusal :=
  run (.stileLifetime i) (fun e d =>
    let x := d.stile i
    match x.cfg with
    | none => d
    | some c =>
      let end_ := x.startedAt + 1000000 * c.lifetimeMs
      if c.lifetimeMs = 0 then d
      else if x.fn = .running ∧ end_ ≤ e.raw then
        ((d.modStile i fun y => { y with fn := .stopping }).noteState e 4 .stopping i 0).settleStiles e
      else if x.fn = .stopping ∧ (d.stopOf 0x622 i 0).isNone ∧ end_ + 1000000 ≤ e.raw then
        (d.closeStile e i .stopped).noteState e 4 .stopped i 0
      else d) s

/-! ## Flock events (R458 to R460, R462) -/

/-- Twice the synchronisation bound of R424, the least time before the instant at which an ORDER or a CANCEL counts.
DEDUCED: log entry 62. -/
def eventMargin : Int := 400

/-- An order or a cancel that comes too late raises the event-late fault, and the device does not act (R460).
DEDUCED: log entry 62. -/
def Dev.eventLate (d : Dev) (e : Env) (v : NdEvent) : Bool := (v.instant : Int) < d.domTime v.domain e.raw + eventMargin

/-- The device takes an order for its own. DEDUCED: log entry 62. -/
def Dev.orderEvent (d : Dev) (e : Env) (v : NdEvent) : Dev :=
  if d.eventLate e v then d.raise 0x2C5 0x2A v.kind v.eventId
  else { d with flock := { d.flock with event := some v } }

/-- Device 0 holds an event whose instant has not passed. -/
def Dev.rootPending (d : Dev) (e : Env) : Bool :=
  (d.flock.rootEvent.map fun v => decide (d.domTime v.domain e.raw ≤ v.instant)).getD false

/-- Device 0 gives an event the next event_id, sends the ORDER down and takes it itself. -/
def Dev.rootOrder (d : Dev) (e : Env) (v : NdEvent) : NdEvent × Dev :=
  let v := { v with eventId := d.flock.nextEvent }
  let d := { d with flock := { d.flock with nextEvent := (d.flock.nextEvent + 1) % 2 ^ 32, rootEvent := some v } }
  (v, (d.sendTo e d.treeChildren 0xC (v.body 1) []).orderEvent e v)

/-- FLOCK_EVENT: refused with too short a lead; device 0 orders it at once, another device asks device 0 for it. -/
def hFlockEvent : Handler := fun e _ s d =>
  let v : NdEvent := { kind := s.field 0x10 1, domain := s.field 0x11 1, origin := d.flock.dev.getD 0, eventId := 0
                       tag := s.tag, instant := s.field 0x18 8 }
  if 1 < v.kind ∨ 1 < v.domain ∨ !s.zero 0x12 6 ∨ !s.zero 0x20 32 then refuse stBadArg d
  else if d.flock.dev.isNone then refuse stBadState d
  else if (v.instant : Int) < d.domTime v.domain e.raw + 31000 then refuse stBadArg d
  else if d.flock.event.isSome || d.mbox.outst.any (·.opcode == 0x601) || d.rootPending e then refuse stBusy d
  else match d.treeParent with
    | none => (.done { r1 := v.instant }, (d.rootOrder e v).2)
    | some p => (.long none [], d.sendTo e [p] 0xC (v.body 0) [])

def execFlockEvent (q : Nat) (e : Sub) (s : State) : Host.Outcome State Fault Refusal :=
  run (.flockEvent q e) (serveRow 0x0601 hFlockEvent q e) s

end Sys2Proof.Machine
end

