-- ==== Sys2Proof/Machine/Ndourn.lean ====
section
/-! DEFINITION. Ndourn frames that arrive (R438 to R443, R446, R449, R453, R454, R456 to R460), the timers of a link (R443) and
of the guard at a stile (R450), and what a device does at a flock event's instant (R459). -/

namespace Sys2Proof

/-- A header whose length check also covers the fields of the payload (R439, R440). -/
def NdHdr.and (h : NdHdr) (ok : Bool) : NdHdr := { h with lengthOk := h.lengthOk && ok }

end Sys2Proof

namespace Sys2Proof.Machine

open Sys2Proof

/-- A frame reaches the engine, and its timers run, while the device is in IDLE and the PLLs of the Ethernet run (R37, R557). -/
def whenIdle (f : Env → Dev → Dev) (e : Env) (d : Dev) : Dev := if d.clocked then f e d else d

/-- Hands a frame that passed its checks to its effect, with the link it came on. -/
def onLink (r : Option Nat × Dev) (f : Nat → Dev → Dev) : Dev :=
  match r with
  | (some k, d) => f k d
  | (none, d) => d

/-! ## Connection (R442, R443) -/

/-- A connecting link enters RUNNING: its start completes, and both sequence numbers start at 0. -/
def Dev.linkUp (d : Dev) (e : Env) (k session : Nat) : Dev :=
  (d.modPeer k fun p => { p with
    fn := .running, connecting := false, session := session, txSeq := 0, rxNext := 0, unacked := [], retries := 0
    lastRx := e.raw, lastTx := e.raw, lastDupAck := none, closeAt := none }).finishAll e
      (fun o => o.opcode == 0x611 && o.e.target == k) {}

/-- CONNECT: a connecting responder answers ACCEPT; a RUNNING responder that sees a new session faults. -/
def Dev.connectIn (d : Dev) (e : Env) (h : NdHdr) (k : Nat) : Dev :=
  let p := d.peer k
  if d.initiates k then d
  else if p.connecting then
    let d := d.linkUp e k h.session
    d.putFrame e k 2 0 [] []
  else if p.fn = .running then
    if h.session = p.session then d.modPeer k fun p => { p with lastRx := e.raw } else d.faultLink e k 2
  else d

def execConnect (h : NdHdr) (s : State) : Host.Outcome State Fault Refusal :=
  run (.connect h) (whenIdle fun e d => onLink (d.ndAdmit e h) fun k d => d.connectIn e h k) s

def execAccept (h : NdHdr) (s : State) : Host.Outcome State Fault Refusal :=
  run (.accept h) (whenIdle fun e d => onLink (d.ndReceive e h) fun k d =>
    if (d.peer k).connecting && d.initiates k then d.linkUp e k h.session else d) s

/-- CLOSE is acknowledged; the rules give the receiver nothing else to do. DEDUCED: log entry 64. -/
def execClose (h : NdHdr) (s : State) : Host.Outcome State Fault Refusal :=
  run (.close h) (whenIdle fun e d => (d.ndSequenced e h 0).2) s

def execAck (h : NdHdr) (s : State) : Host.Outcome State Fault Refusal :=
  run (.ack h) (whenIdle fun e d => (d.ndReceive e h).2) s

def execKeepalive (h : NdHdr) (s : State) : Host.Outcome State Fault Refusal :=
  run (.keepalive h) (whenIdle fun e d => (d.ndReceive e h).2) s

/-! ## Stile access (R446, R448, R449) -/

/-- The bytes of data that a WRITE or an OK answer carries. DEDUCED: log entry 65. -/
def accessData (a : NdAccess) : Nat := if a.count = 0 then 8 else 64 * a.count

def execNdournWrite (h : NdHdr) (a : NdAccess) (s : State) : Host.Outcome State Fault Refusal :=
  run (.ndournWrite h a) (whenIdle fun e d =>
    onLink (d.ndSequenced e (h.and (a.formOk && a.data.length == accessData a)) (32 + a.data.length)) fun k d =>
      d.serveRequest e k { write := true, access := a }) s

def execReadReq (h : NdHdr) (a : NdAccess) (s : State) : Host.Outcome State Fault Refusal :=
  run (.readReq h a) (whenIdle fun e d =>
    onLink (d.ndSequenced e (h.and (a.formOk && a.data.isEmpty && a.poison == 0)) 32) fun k d =>
      d.serveRequest e k { write := false, access := a }) s

/-- A READ_RESP: the data with their poison bits, or a denial, which is delivered poisoned with the fault at the issuing
block (R446). An answer shorter than its request leaves the data open and poisoned. DEDUCED: log entry 65. -/
def Dev.readAnswered (d : Dev) (e : Env) (k : Nat) (a : NdAccess) (status : Nat) : Dev :=
  match d.takeReq k a.reqId false with
  | (none, d) => d
  | (some r, d) =>
    let d := if status = 0 then d else d.stileFault (d.reqSrc r) r.addr status
    let d :=
      if status = 0 ∧ r.size ≤ a.data.length then d.giveRead e r a.data fun i => bitOf a.poison i
      else
        let x := d.freeBytes r.size
        x.2.giveRead e r x.1 fun _ => true
    d.drainLink e k

def execReadResp (h : NdHdr) (a : NdAccess) (status : Nat) (s : State) : Host.Outcome State Fault Refusal :=
  run (.readResp h a status) (whenIdle fun e d =>
    onLink (d.ndSequenced e (h.and (a.offset == 0 && status ≤ 5 && a.count ≤ 128 &&
      a.data.length == (if status = 0 then accessData a else 0)))
      (32 + a.data.length)) fun k d => d.readAnswered e k a status) s

/-- A DONE: the write has landed, or was denied and dropped. -/
def Dev.writeAnswered (d : Dev) (e : Env) (k id status : Nat) : Dev :=
  match d.takeReq k id true with
  | (none, d) => d
  | (some r, d) =>
    let d := if status = 0 then d else d.stileFault (d.reqSrc r) r.addr status
    let d := match r.thread with
      | some t => d.fenceCheck t
      | none => d
    d.drainLink e k

def execDone (h : NdHdr) (reqId status : Nat) (s : State) : Host.Outcome State Fault Refusal :=
  run (.done h reqId status) (whenIdle fun e d =>
    onLink (d.ndSequenced e (h.and (status ≤ 5)) 8) fun k d => d.writeAnswered e k reqId status) s

/-! ## Messages (R453, R454) -/

def execMessage (h : NdHdr) (m : NdMessage) (s : State) : Host.Outcome State Fault Refusal :=
  run (.message h m) (whenIdle fun e d =>
    onLink (d.ndSequenced e (h.and (m.ident < 65536 && m.entry.length == 16)) 28) fun k d =>
      d.serveRequest e k { message := some m }) s

/-! ## Flock hurdles (R456, R457) -/

/-- The hurdle that declares a number is broken. -/
def Dev.flockBroken (d : Dev) (num : Nat) : Bool :=
  ((d.flockHurdle num).bind fun i => (tget d.hurdles i).bind (·.broken)).isSome

/-- A child's ARRIVE: held while no instance declares the number; of another phase it breaks the hurdle.
DEDUCED: log entry 63. -/
def Dev.arriveIn (d : Dev) (e : Env) (src num phase : Nat) : Dev :=
  let x := d.flockState num
  if !d.treeChildren.contains src then d
  else match d.flockHurdle num with
    | none => d.setFlockState num { x with held := x.held ++ [(src, phase)] }
    | some ident =>
      if d.flockBroken num then d
      else if phase ≠ x.phase then (d.flockBreak e num causeTimeout none).objFault (d.workSrc (ident / 256)) 3 ident
      else (d.setFlockState num { x with children := if x.children.contains src then x.children else x.children ++ [src] }).flockCheck e num

def execHurdleArriveFrame (h : NdHdr) (num phase : Nat) (s : State) : Host.Outcome State Fault Refusal :=
  run (.hurdleArriveFrame h num phase) (whenIdle fun e d =>
    onLink (d.ndSequenced e (h.and (num < 16 && phase < 256)) 4) fun _ d => d.arriveIn e h.srcDev num phase) s

def execHurdleReleaseFrame (h : NdHdr) (num phase : Nat) (s : State) : Host.Outcome State Fault Refusal :=
  run (.hurdleReleaseFrame h num phase) (whenIdle fun e d =>
    onLink (d.ndSequenced e (h.and (num < 16 && phase < 256)) 4) fun _ d =>
      if d.flockBroken num then d else d.flockRelease e num) s

def execHurdleBreakFrame (h : NdHdr) (num phase cause : Nat) (s : State) : Host.Outcome State Fault Refusal :=
  run (.hurdleBreakFrame h num phase cause) (whenIdle fun e d =>
    onLink (d.ndSequenced e (h.and (num < 16 && phase < 256 && (cause == 1 || cause == 2))) 4) fun _ d =>
      d.flockBreak e num cause (some h.srcDev)) s

/-! ## Flock events (R458 to R460) -/

/-- The fields of an EVENT are in range. -/
def eventOk (v : NdEvent) : Bool := v.kind ≤ 1 && v.domain ≤ 1 && v.origin ≤ 511

/-- A REQUEST: relayed up; device 0 refuses it while another event is pending, and orders it otherwise. -/
def Dev.requestIn (d : Dev) (e : Env) (v : NdEvent) : Dev :=
  match d.treeParent with
  | some p => d.sendTo e [p] 0xC (v.body 0) []
  | none => if d.rootPending e then d.sendTo e d.treeChildren 0xC (v.body 3) [] else (d.rootOrder e v).2

def execEventRequest (h : NdHdr) (v : NdEvent) (s : State) : Host.Outcome State Fault Refusal :=
  run (.eventRequest h v) (whenIdle fun e d =>
    onLink (d.ndSequenced e (h.and (eventOk v)) 24) fun _ d => d.requestIn e v) s

/-- The origin's FLOCK_EVENT ends with a reply. -/
def Dev.endEvent (d : Dev) (e : Env) (v : NdEvent) (r : Reply) : Dev :=
  if d.flock.dev = some v.origin then d.finishAll e (fun o => o.opcode == 0x601 && o.e.tag == v.tag) r else d

/-- An ORDER goes on down the tree, and completes the FLOCK_EVENT of its origin. -/
def Dev.orderIn (d : Dev) (e : Env) (v : NdEvent) : Dev :=
  ((d.sendTo e d.treeChildren 0xC (v.body 1) []).orderEvent e v).endEvent e v { r1 := v.instant }

def execEventOrder (h : NdHdr) (v : NdEvent) (s : State) : Host.Outcome State Fault Refusal :=
  run (.eventOrder h v) (whenIdle fun e d =>
    onLink (d.ndSequenced e (h.and (eventOk v)) 24) fun _ d => d.orderIn e v) s

/-- The device drops the event that its origin cancels; a late cancel also raises the event-late fault (R460).
DEDUCED: log entry 62. -/
def Dev.cancelEvent (d : Dev) (e : Env) (v : NdEvent) : Dev :=
  let mine := (d.flock.event.map fun x => x.origin == v.origin && x.tag == v.tag).getD false
  let d := if d.eventLate e v then d.raise 0x2C5 0x2A v.kind v.eventId else d
  if mine then { d with flock := { d.flock with event := none } } else d

/-- A CANCEL travels up to device 0, which sends it down to every device. -/
def Dev.cancelIn (d : Dev) (e : Env) (up : Bool) (v : NdEvent) : Dev :=
  match d.treeParent with
  | some p => if up then d.sendTo e [p] 0xC (v.body 2) [] else (d.sendTo e d.treeChildren 0xC (v.body 2) []).cancelEvent e v
  | none =>
    match d.flock.rootEvent with
    | some x =>
      if x.origin = v.origin ∧ x.tag = v.tag then (d.sendTo e d.treeChildren 0xC (x.body 2) []).cancelEvent e x else d
    | none => d

def execEventCancel (h : NdHdr) (v : NdEvent) (s : State) : Host.Outcome State Fault Refusal :=
  run (.eventCancel h v) (whenIdle fun e d =>
    onLink (d.ndSequenced e (h.and (eventOk v)) 24) fun _ d => d.cancelIn e (d.treeParent != some h.srcDev) v) s

def execEventRefuse (h : NdHdr) (v : NdEvent) (s : State) : Host.Outcome State Fault Refusal :=
  run (.eventRefuse h v) (whenIdle fun e d =>
    onLink (d.ndSequenced e (h.and (eventOk v)) 24) fun _ d =>
      (d.sendTo e d.treeChildren 0xC (v.body 3) []).endEvent e v { status := stBusy }) s

/-- The entry that the flock event unit writes into a queue (R459). -/
def eventEntry (e : Env) (v : NdEvent) : List Byte := leBytes 8 e.raw ++ leBytes 4 v.eventId ++ leBytes 1 v.kind ++ [0, 0, 0]

/-- Kind reset: every RUNNING gate and instance is closed as under DISCARD and started again; monitors stop and start with
the next notice (R323). A gate that finds no decoder core stays STOPPED. -/
def Dev.eventReset (d : Dev) (e : Env) : Dev :=
  let gs := tkeys d.race.gates fun x => x.fn == .running
  let is := tkeys d.insts fun x => x.fn == .running
  let fs := gs.filterMap fun g => Settings.fset (d.gate g).settings
  let d := gs.foldl (fun d g => d.discardGate e g) d
  let d := is.foldl (fun d k => d.discardInst e k) d
  let d := fs.foldl (fun d f => d.modFset f fun s => { s with running := false }) d
  let d := is.foldl (fun d k => d.startInst k) d
  gs.foldl (fun d g =>
    match d.startCore g with
    | some c => d.startGate e g c
    | none => d.noteState e 0 .stopped g 0) d

/-- The instant has come: the action, then one entry into every queue that lists the flock event unit. -/
def Dev.eventAction (d : Dev) (e : Env) (v : NdEvent) : Dev :=
  let d := { d with flock := { d.flock with event := none } }
  let d := if v.kind = 1 then d.eventReset e else d
  (tkeys d.queues fun q => q.prods.any fun p => p.who == .flockEvent).foldl
    (fun d i => d.launchFlight (.entry i .flockEvent (eventEntry e v) true 0x2C5)) d

def execFlockEventAction (s : State) : Host.Outcome State Fault Refusal :=
  run .flockEventAction (whenIdle fun e d =>
    match d.flock.event with
    | some v => if (v.instant : Int) ≤ d.domTime v.domain e.raw then d.eventAction e v else d
    | none => d) s

/-! ## Timers (R443, R450) -/

/-- Every 10 ms while the initiator connects. -/
def execConnectResend (k : Nat) (s : State) : Host.Outcome State Fault Refusal :=
  run (.connectResend k) (whenIdle fun e d =>
    if (d.peer k).connecting ∧ d.initiates k ∧ (d.peer k).lastTx + 10000000 ≤ e.raw then d.putFrame e k 1 0 [] [] else d) s

/-- 50 µs after the oldest unacknowledged frame was sent; the eighth expiry in a row loses the link. -/
def Dev.retransmit (d : Dev) (e : Env) (k : Nat) : Dev :=
  let n := (d.peer k).retries + 1
  let d := d.modPeer k fun p => { p with retries := n }
  if 8 ≤ n then d.faultLink e k 0 else d.pumpPeer e k 0

def execRetransmitTimeout (k : Nat) (s : State) : Host.Outcome State Fault Refusal :=
  run (.retransmitTimeout k) (whenIdle fun e d =>
    match (d.peer k).unacked with
    | x :: _ => if (d.peer k).fn.active && decide (x.sentAt + 50000 ≤ e.raw) then d.retransmit e k else d
    | [] => d) s

def execKeepaliveTimer (k : Nat) (s : State) : Host.Outcome State Fault Refusal :=
  run (.keepaliveTimer k) (whenIdle fun e d =>
    if (d.peer k).fn.active && decide ((d.peer k).lastTx + 1000000 ≤ e.raw) then d.putFrame e k 5 0 [] [] else d) s

def execLinkSilence (k : Nat) (s : State) : Host.Outcome State Fault Refusal :=
  run (.linkSilence k) (whenIdle fun e d =>
    if (d.peer k).fn.active && decide ((d.peer k).lastRx + 10000000 ≤ e.raw) then d.faultLink e k 1 else d) s

/-- 1 ms after CLOSE is sent the link is STOPPED and its stop completes. -/
def execCloseTimer (k : Nat) (s : State) : Host.Outcome State Fault Refusal :=
  run (.closeTimer k) (whenIdle fun e d =>
    match (d.peer k).closeAt with
    | some t => if t ≤ e.raw then (d.stopLink e k).finishAll e (fun o => o.opcode == 0x612 && o.e.target == k) {} else d
    | none => d) s

/-- The target tries a peer's first request again. -/
def execStileGuardRetry (k : Nat) (s : State) : Host.Outcome State Fault Refusal :=
  run (.stileGuardRetry k) (whenIdle fun e d => Dev.servePeer ((d.peer k).serve.length) e k d) s

/-- The slot's timeout has passed since the first refusal of a peer's first request: status 5, and the next goes on. -/
def Dev.guardExpired (d : Dev) (e : Env) (k : Nat) : Dev :=
  match (d.peer k).serve with
  | [] => d
  | x :: rest =>
    let a := (d.serveStatus ((((d.peer k).cfg).map (·.dev)).getD 0) x).2
    match x.refusedAt, d.serveRefused x a with
    | some since, some (_, sl) =>
      if since + sl.timeoutNs ≤ e.raw then
        let d := (d.modPeer k fun p => { p with serve := rest }).answerServe e k x 5 [] 0
        Dev.servePeer rest.length e k d
      else d
    | _, _ => d

def execStileGuardTimeout (k : Nat) (s : State) : Host.Outcome State Fault Refusal :=
  run (.stileGuardTimeout k) (whenIdle fun e d => d.guardExpired e k) s

end Sys2Proof.Machine
end

