-- ==== Sys2Proof/Machine/Agree.lean ====
section
/-! DEFINITION. The deadline monitor's judgement (R323, R324), and the agreement unit (R408, R487 to R493). -/

namespace Sys2Proof.Machine

open Sys2Proof

/-! ## Deadlines (R320, R323) -/

/-- The nanosecond of the deadline is over: a done write that arrives in it is on time (R324), so the judgement acts once
the raw counter is past it. DESIGN CHOICE: log entry 33. -/
def execDeadlineJudge (f : Nat) (s : State) : Host.Outcome State Fault Refusal :=
  run (.deadlineJudge f) (fun e d =>
    if (d.fset f).running && decide ((d.fset f).rawDeadline < e.raw) then d.judge f else d) s

/-! ## Rules (R488) -/

/-- One 64-byte record of the block. -/
def ruleOf (b : List Byte) : AgreeRule :=
  { fset := fieldAt b 0 1, equal := fieldAt b 1 1 == 1, format := fieldAt b 2 1, count := fieldAt b 4 4, main := fieldAt b 8 8
    collie := fieldAt b 0x10 4, maxBad := fieldAt b 0x14 4, tolAbs := fieldAt b 0x18 4, tolRel := fieldAt b 0x1C 4
    offset := fieldAt b 0x20 4, verdict := fieldAt b 0x28 8 }

/-- Payload bytes of a rule's buffers. -/
def AgreeRule.bytes (r : AgreeRule) : Nat := r.count * fmtBytes r.format

/-- A finite tolerance that is not negative. -/
def toleranceOk (w : Nat) : Bool := f32Finite w && decide (0 ≤ (f32 w).num)

/-- The ranges of one record, with D of its frame set. -/
def ruleOk (d : Dev) (b : List Byte) : Bool :=
  let r := ruleOf b
  let off := ((d.fset r.fset).cfg.map (·.offset)).getD 0
  let inside (base size : Nat) : Bool := base ≤ r.main && r.main + 0x40 + r.bytes ≤ base + size
  decide (r.fset < 16 ∧ fieldAt b 1 1 ≤ 1 ∧ 1 ≤ r.count ∧ r.count ≤ 1048576 ∧ r.main % 64 = 0 ∧ r.collie % 64 = 0 ∧
    r.collie + 0x40 + r.bytes ≤ 0x1000000 ∧ 1000000 ≤ r.offset ∧ r.offset + 1000000 ≤ off ∧ r.verdict % 64 = 0 ∧
    commonBase ≤ r.verdict ∧ r.verdict < commonBase + 0xC000000) &&
  [0x01, 0x02, 0x12, 0x14].contains r.format && toleranceOk r.tolAbs && toleranceOk r.tolRel &&
  zeroAt b 3 1 && zeroAt b 0x24 4 && zeroAt b 0x30 16 &&
  (inside commonBase 0xC000000 || (List.range 48).any fun n => inside (foldBase n) 0x800000)

/-- All rules of one frame set give the same offset and verdict address. -/
def rulesAgree (l : List AgreeRule) : Bool :=
  l.all fun r => l.all fun y => y.fset != r.fset || (y.offset == r.offset && y.verdict == r.verdict)

/-- DEDUCED: log entry 68. -/
def hAgreeConfigure : Handler := fun _ _ s d =>
  let k := s.field 0x10 1
  let n := s.field 0x11 1
  if k = 0 ∨ n < k ∨ 64 < n ∨ !s.zero 0x12 30 then refuse stBadArg d
  else if d.race.gates.any fun x => x.2.fn.active && Settings.collieFeed x.2.settings then refuse stBadState d
  else d.withBlock s fun b d =>
    let recs := (List.range (b.length / 64)).map fun i => (b.drop (64 * i)).take 64
    if b.length % 64 ≠ 0 ∨ 1024 < b.length ∨ !recs.all (ruleOk d) ∨ !rulesAgree (recs.map ruleOf) then refuse stBadArg d
    else ok { d with safe := { d.safe with rules := recs.map ruleOf, k := k, n := n, history := [], runs := [] } }

def execAgreeConfigure (q : Nat) (e : Sub) (s : State) : Host.Outcome State Fault Refusal :=
  run (.agreeConfigure q e) (serveRow 0x0701 hAgreeConfigure q e) s

/-! ## A run (R489) -/

/-- The rules of a frame set with their numbers, ascending. -/
def Dev.rulesOf (d : Dev) (f : Nat) : List (Nat × AgreeRule) :=
  (d.safe.rules.zipIdx.filter fun x => x.1.fset == f).map fun x => (x.2, x.1)

/-- Whether an element is out of tolerance; where the main value is an infinity the exact comparison has no value, and the
outcome is open (DESIGN CHOICE, log entry 3). DEDUCED: log entry 68. -/
def outOf (r : AgreeRule) (free m c : Nat) : Bool :=
  if r.equal then m != c
  else match decodeVal r.format m, decodeVal r.format c with
    | .nan, _ => true
    | _, .nan => true
    | .inf _, _ => Config.freeBool free
    | .fin _ _, .inf _ => true
    | .fin x _, .fin y _ => decide ((f32 r.tolAbs).num + (f32 r.tolRel).num * |x| < |x - y|)

/-- Elements out of tolerance. -/
def badCount (r : AgreeRule) (free : Nat) (m c : List Byte) : Nat :=
  let w := fmtBytes r.format
  ((List.range r.count).filter fun i => outOf r (free + i) (fieldAt m (w * i) w) (fieldAt c (w * i) w)).length

/-- A buffer's tally fits the instance: counter, both CRCs, length, and neither POISONED nor ABANDONED. -/
def bufferOk (r : AgreeRule) (counter : Nat) (t p : List Byte) : Bool :=
  fieldAt t 4 4 == counter && tallyOk t && fieldAt t 0x10 4 == r.bytes && fieldAt t 0x14 4 == crc32c p &&
    !bitOf (fieldAt t 2 2) flPoisoned && !bitOf (fieldAt t 2 2) flAbandoned

/-- One rule: whether it disagrees, and its elements out of tolerance; its reads of fold memory wake it and hold the fold (R144, R162). A
line that reaches the unit poisoned makes the rule
disagree. DEDUCED: log entry 68. -/
def Dev.runRule (d : Dev) (e : Env) (counter : Nat) (r : AgreeRule) : Bool × Nat × Dev :=
  let n := 0x40 + r.bytes
  let a := collieBase + r.collie
  let x := match d.reach r.main with
    | .served => (d.touch e r.main).readLines 0x341 true r.main n
    | k => (true, d.missed 0x341 0xFF k r.main)
  let y := x.2.readLines 0x341 false a n
  let d := y.2
  let m := d.bytes r.main n
  let c := d.bytes a n
  let bad := badCount r d.free (m.drop 0x40) (c.drop 0x40)
  (x.1 || y.1 || !bufferOk r counter (m.take 32) (m.drop 0x40) || !bufferOk r counter (c.take 32) (c.drop 0x40) ||
    decide (r.maxBad < bad), bad, { d with free := d.free + r.count })

/-- The latest instance whose t_i + A has come. -/
def Dev.agreeInstance (d : Dev) (e : Env) (f : Nat) : Option Int :=
  match d.rulesOf f, (d.fset f).cfg with
  | (_, r) :: _, some c =>
    let i := (d.domTime c.dom e.raw - c.epoch - r.offset).fdiv c.period
    if 0 ≤ i then some i else none
  | _, _ => none

/-- The unit compares the instance under every rule of the set. -/
def Dev.agreeRun (d : Dev) (e : Env) (f : Nat) (i : Int) : Dev :=
  let counter := patternOf i 32
  let rs := d.rulesOf f
  let r := rs.foldl (fun (acc : List Nat × Nat × Dev) x =>
    let y := acc.2.2.runRule e counter x.2
    (if y.1 then acc.1 ++ [x.1] else acc.1, acc.2.1 + y.2.1, y.2.2)) (([] : List Nat), 0, d)
  let run : AgreeRun := { counter := counter, compared := maskOf (rs.map (·.1)), disagreed := maskOf r.1, rules := r.1.length, bad := r.2.1 % 2 ^ 32 }
  { r.2.2 with safe := { r.2.2.safe with
    runs := tset r.2.2.safe.runs f run, lastRun := tset r.2.2.safe.lastRun f i } }

/-- DEDUCED: log entry 68. -/
def execAgreementRun (f : Nat) (s : State) : Host.Outcome State Fault Refusal :=
  run (.agreementRun f) (fun e d =>
    match d.agreeInstance e f with
    | some i =>
      if d.clocked ∧ tget d.safe.lastRun f ≠ some i ∧ (tget d.safe.runs f).isNone then d.agreeRun e f i else d
    | none => d) s

/-! ## The verdict (R490, R493) -/

/-- The verdict word with its CRC. -/
def verdictBytes (r : AgreeRun) : List Byte :=
  let b := leBytes 4 r.counter ++ leBytes 2 r.compared ++ leBytes 2 r.disagreed ++ leBytes 4 r.bad
  b ++ leBytes 4 (crc32c b)

/-- The record of the last n outcomes takes one more; the escalation fault comes when the count of disagreements rises from
k − 1 to k. -/
def Dev.recordOutcome (d : Dev) (f counter : Nat) (bad : Bool) : Dev :=
  let old := tgetD d.safe.history f []
  let now := (bad :: old).take d.safe.n
  let k := d.safe.k
  let d := { d with safe := { d.safe with history := tset d.safe.history f now } }
  if (old.filter id).length + 1 = k ∧ (now.filter id).length = k then d.raise 0x342 0x33 k counter else d

/-- The verdict is written, and a disagreement raises its fault. -/
def Dev.verdict (d : Dev) (f : Nat) (r : AgreeRun) : Dev :=
  let d := { d with safe := { d.safe with runs := terase d.safe.runs f } }
  let d := match d.rulesOf f with
    | (_, x) :: _ => d.write x.verdict (verdictBytes r) false
    | [] => d
  let d := if r.rules = 0 then d else d.raise 0x341 0x32 r.rules r.counter
  d.recordOutcome f r.counter (r.rules != 0)

def execVerdictWrite (f : Nat) (s : State) : Host.Outcome State Fault Refusal :=
  runClocked (.verdictWrite f) (fun _ d =>
    match tget d.safe.runs f with
    | some r => d.verdict f r
    | none => d) s

/-- Once per second the unit runs a pair that is known to disagree. -/
def execAgreeSelfCheck (reported : Bool) (s : State) : Host.Outcome State Fault Refusal :=
  run (.agreeSelfCheck reported) (fun _ d =>
    if d.clocked ∧ !reported then d.raise 0x343 0x34 0 0 else d) s

end Sys2Proof.Machine
end

