-- ==== Sys2Proof/Machine/Upkeep.lean ====
section
/-! DEFINITION. Upkeep of the memories: scrubbing, write-back and poison bits (R164 to R166, R191), and the checks of the
GDDR6 inputs (R184). -/

namespace Sys2Proof.Machine

open Sys2Proof

/-! ## Scrubbing (R191) -/

/-- Lines that a scrubber visits in one pass: a fold or slice of 8 MiB, the Collie's 16 MiB, an interface's data lines. -/
def scrubLines (unit : Nat) : Nat := if unit < 72 then 131072 else if unit = 72 then 262144 else 15 * 4194304

/-- The address of a scrubber's line: the fold's own order, the slice of R176, the interface of R181. -/
def scrubAddr (unit i : Nat) : Nat :=
  if unit < 48 then foldBase unit + 64 * i
  else if unit < 72 then commonBase + (unit - 48) / 8 * 2 ^ 26 + 64 * (8 * i + unit % 8)
  else if unit = 72 then collieBase + 64 * i
  else gddrBase + 64 * ((i / 15 * 12 + (unit - 73)) * 15 + i % 15)

/-- The scrubber that visits a line. -/
def scrubUnitOf (line : Nat) : Option Nat :=
  match zoneOf (64 * line) with
  | .foldMem n _ => some n
  | .common off => some (48 + sliceOf off)
  | .collie _ => some 72
  | .gddr off => some (73 + gddrIface off)
  | _ => none

/-- The memory of a scrubber can be read: a fold's memory is not in retention. -/
def Dev.scrubs (d : Dev) (unit : Nat) : Bool :=
  d.clocked && (48 ≤ unit || (d.fold unit).memAwake || !(d.fold unit).gated)

/-- A scrubber reads its next line; a new pass begins a new window for the corrections of its lines (R164). -/
def Dev.scrubNext (d : Dev) (unit : Nat) : Dev :=
  let i := tgetD d.mem.scrubPos unit 0
  let d := if i = 0 then d.modMem fun m => { m with
      corrected := m.corrected.filter fun x => scrubUnitOf x.1 != some unit
      imageFixed := m.imageFixed.filter fun x => scrubUnitOf (imageAt x.1 / 64) != some unit } else d
  let a := scrubAddr unit i
  let r := d.readLine (d.memSource a) false (a / 64)
  r.2.modMem fun m => { m with scrubPos := tset m.scrubPos unit (if i + 1 = scrubLines unit then 0 else i + 1) }

def execScrub (unit : Nat) (s : State) : Host.Outcome State Fault Refusal :=
  run (.scrub unit) (fun _ d => if d.scrubs unit then d.scrubNext unit else d) s

/-- A corrected line goes back to its memory. -/
def execCorrectionWriteback (line : Nat) (s : State) : Host.Outcome State Fault Refusal :=
  run (.correctionWriteback line) (fun _ d =>
    if d.mem.writeback.contains line then d.modMem fun m => { m with
      writeback := m.writeback.filter (· != line)
      err := match tget m.err line with
        | some (.single _) => terase m.err line
        | _ => m.err }
    else d) s

/-- The poison bit of a line that was found bad is stored, with the line as read. -/
def execPoisonBitStore (line : Nat) (s : State) : Host.Outcome State Fault Refusal :=
  run (.poisonBitStore line) (fun _ d =>
    if d.mem.poisonStore.contains line then
      (d.modMem fun m => { m with poisonStore := m.poisonStore.filter (· != line) }).setPoison line true
    else d) s

/-! ## GDDR6 inputs (R184) -/

/-- The band of a reading: up to 85 °C, up to 95 °C, above. -/
def tempBand (r : Int) : Nat := if r ≤ 85 then 0 else if r ≤ 95 then 1 else 2

/-- A reading of a device's temperature: discarded out of range; a new band takes effect at its second reading in a row, and
the band above 95 °C raises a fault. DEDUCED: log entry 69. -/
def Dev.gddrTemp (d : Dev) (i : Nat) (reading : Option Int) : Dev :=
  match reading with
  | none => d.raise (0x1D0 + i) 0x1C 2 0
  | some r =>
    if r < -40 ∨ 125 < r then d.raise (0x1D0 + i) 0x1C 1 (patternOf r 40)
    else
      let b := tempBand r
      if tgetD d.gddr.band i 0 = b then { d with gddr := { d.gddr with candidate := terase d.gddr.candidate i } }
      else if tget d.gddr.candidate i = some (b + 1) then
        let d := { d with gddr := { d.gddr with band := tset d.gddr.band i b, candidate := terase d.gddr.candidate i } }
        if b = 2 then d.raise (0x1D0 + i) 0x1C 0 (patternOf r 40) else d
      else { d with gddr := { d.gddr with candidate := tset d.gddr.candidate i (b + 1) } }

def execGddr6TemperatureRead (i : Nat) (reading : Option Int) (s : State) : Host.Outcome State Fault Refusal :=
  run (.gddr6TemperatureRead i reading) (fun _ d =>
    if d.clocked ∧ !tgetD d.gddr.failed i false then d.gddrTemp i reading else d) s

/-- No data 20 µs after a read: the line is delivered poisoned with a fault. A thread's read ends here, its bytes open; a read of
another block finds the line poisoned when its own row reads it. DEDUCED: log entry 69. -/
def execGddr6ReadTimeout (i addr : Nat) (t : Option Nat) (s : State) : Host.Outcome State Fault Refusal :=
  runClocked (.gddr6ReadTimeout i addr t) (fun e d =>
    match t.map d.waitOf with
    | some (some { what := .loadData a size rd, since := since }) =>
      match zoneOf a with
      | .gddr off =>
        if gddrIface off = i ∧ a / 64 = addr / 64 ∧ since + 20000 ≤ e.raw then
          let x := (d.raise (0x1D0 + i) 3 7 a).freeBytes size
          (x.2.loadResult (t.getD 0) rd x.1 true).wake (t.getD 0) []
        else d
      | _ => d
    | some _ => d
    | none =>
      match zoneOf addr with
      | .gddr off =>
        if gddrIface off = i then
          (d.raise (0x1D0 + i) 3 7 addr).modMem fun m => { m with
            late := if m.late.contains (addr / 64) then m.late else m.late ++ [addr / 64] }
        else d
      | _ => d) s

end Sys2Proof.Machine
end

