-- ==== Sys2Proof/Machine/PowerEvents.lean ====
section
/-! DEFINITION. Start-up, wakes, resets, hold-up and supply rails as events (R353, R355, R411 to R413, R542, R557 to R587), and
what firmware does when it becomes ready (R355, R541, R543). -/

namespace Sys2Proof.Machine

open Sys2Proof

/-! ## Resets by pin (R575 to R579) -/

def execPorstN (s : State) : Host.Outcome State Fault Refusal :=
  let d := s.dev.coldReset
  .next { s with dev := { d with pow := { d.pow with porstLow := true } }.pins, clk := {}, fuse := s.fuseNow }

/-- PORST_N release samples BOOT_SEL and begins a cold start. -/
def execPorstNRelease (b : StartUp) (s : State) : Host.Outcome State Fault Refusal :=
  if s.dev.pow.porstLow then
    .next (coldStarted s { s.dev with pow := { s.dev.pow with porstLow := false, bootSel := b.bootSel } } b)
  else run (.porstNRelease b) (fun _ d => d) s

/-- WARM_RST_N low: a warm reset; before the first IDLE a cold one; nothing runs in OFF and HIBERNATE (R578). -/
def execWarmRstN (s : State) : Host.Outcome State Fault Refusal :=
  let d := { s.dev with pow := { s.dev.pow with warmLow := true } }
  if d.pow.state = .off ∨ d.pow.state = .hibernate then .next { s with dev := d.pins }
  else if !d.pow.firstIdle then .next { s with dev := d.coldReset.pins, clk := {}, fuse := s.fuseNow }
  else .next { s with dev := d.warmReset, fuse := s.fuseNow }

/-- A device in OFF that nothing holds there. -/
def PowerUnit.mayStart (p : PowerUnit) : Bool := p.state == .off && !p.porstLow && !p.tempShut && !p.retryDue

/-- WARM_RST_N release: ROM runs again, or the start that its fall had cut off begins afresh. -/
def execWarmRstNRelease (b : StartUp) (s : State) : Host.Outcome State Fault Refusal :=
  let d := { s.dev with pow := { s.dev.pow with warmLow := false } }
  if !s.dev.pow.warmLow then run (.warmRstNRelease b) (fun _ d => d) s
  else if d.pow.mayStart then .next (coldStarted s d b)
  else if d.pow.state = .standby ∧ d.pow.phase = .inReset then
    .next { s with dev := d.warmStart s.fuse { b with bootSel := d.pow.bootSel }, fuse := s.fuse.mended }
  else .next { s with dev := d.pins }

/-- REFCLK has not come: ROM stops, and the counter does not run (R587). DEDUCED: log entry 75. -/
def execRefclkTimeout (s : State) : Host.Outcome State Fault Refusal :=
  let d := s.dev
  if (d.pow.phase = .rom ∨ d.pow.phase = .awaitPush) ∧ !d.mbox.ready then
    .next { s with dev := (d.romStop.raise 0x3B9 0x37 0x80 0), clk := { s.clk with running := false } }
  else run .refclkTimeout (fun _ d => d) s

/-! ## Wakes (R562, R564) -/

/-- WAKE_N wakes from STANDBY and HIBERNATE; in a hold-up sequence the wake waits. -/
def execWakeN (s : State) : Host.Outcome State Fault Refusal :=
  if s.dev.pow.state = .hibernate then
    if s.dev.pow.holdup then run .wakeN (fun _ d => { d with pow := { d.pow with wakeWaiting := true } }) s
    else .next (selfStarted s s.dev)
  else run .wakeN (fun e d => d.wakeStandby e) s

/-! ## The raw counter (R412, R413) -/

/-- The value at which the counter resumes after STANDBY: the saved value and the whole AONCLK periods counted since. -/
def Clock.resumed (c : Clock) : Nat := c.saved + c.asleepNs * 32768 / 1000000000 * 1000000000 / 32768

/-- The time PLL locks again: after a loss of its lock or of REFCLK the counter goes on from its last value; on a way out of STANDBY it
resumes, and the host pen answers 200 µs after the wake event (R353, R563). Asleep the PLL is off. -/
def execCounterResume (s : State) : Host.Outcome State Fault Refusal :=
  let p := s.dev.pow
  if s.clk.running then run .counterResume (fun _ d => d) s
  else if p.sleeping then run .counterResume (fun _ d => d) s
  else if p.refclkLost ∨ p.timePllLost then
    .next { s with clk := { s.clk with running := true }, dev := { s.dev with pow := { p with refclkLost := false, timePllLost := false } } }
  else if p.state = .standby then
    let r := s.clk.resumed
    .next { s with
      clk := { s.clk with raw := r, running := true }
      dev := { s.dev with pow := { p with penAt := some (r + (200000 - (s.clk.asleepNs - p.wakeAsleep))) } } }
  else run .counterResume (fun _ d => d) s

/-- REFCLK is lost: the PLLs and the counter stop, and every RUNNING domain enters FAULTED (R37, R413).
DEDUCED: log entry 75. -/
def execRefclkLoss (s : State) : Host.Outcome State Fault Refusal :=
  if s.clk.running ∨ (s.dev.pow.timePllLost ∧ !s.dev.pow.refclkLost) then
    let e := s.env
    let d := (if s.clk.running then s.dev.raise 0x300 0x23 0 e.raw else s.dev).raise 0x3B9 0x37 0x80 0
    let d := { d with
      pow := { d.pow with refclkLost := true }
      safe := { d.safe with clockBad := tset d.safe.clockBad 0 true } }
    let m := (faultMsg 0x300 0x23 0 e.raw).toNat
    .next { s with dev := [0, 1].foldl (fun d k => d.faultDomain e k m) d, clk := { s.clk with running := false } }
  else run .refclkLoss (fun _ d => d) s

/-! ## Firmware becomes ready (R355, R541, R543) -/

/-- In LC_PRODUCTION, firmware with a higher security version raises its floor. -/
def Fuses.raiseFw (f : Fuses) (svn : Nat) : Fuses :=
  if lifecycleOf f = lcProduction ∧ thermometer f.fwFloor < svn then { f with fwFloor := f.fwFloor ||| thermometerOf svn } else f

/-- The ring area is cleared, the admin queue comes up, HPC_READY[0] is set; the images that ROM refused and a torn fuse are
reported; bring-up begins with VDD_FOLD. -/
def Dev.firmwareUp (d : Dev) (e : Env) : Dev :=
  let d := d.blank (commonBase + 0x10000) (0x2000000 - 0x10000)
  let d := { d with
    mbox := { d.mbox with
      ready := true, queues := [(0, {})], outst := [], marked := [], boot := { d.mbox.boot with stage := 3 } }
    safe := { d.safe with lastHash := e.raw }
    pow := { d.pow with phase := .bringUp, pwrFold := true } }
  let d := d.sec.refused.foldl (fun d v => d.raise 0x3C0 0x3C 0 v) d
  let d := if d.sec.fuseAlarm then d.raise 0x3C2 0x3C 2 0 else d
  { d with sec := { d.sec with refused := [], fuseAlarm := false } }

def execFirmwareReady (s : State) : Host.Outcome State Fault Refusal :=
  let d := s.dev
  if d.pow.phase = .rom ∧ !d.pow.romStopped ∧ d.mbox.boot.stage = 2 then
    .next { s with dev := d.firmwareUp s.env, fuse := s.fuse.raiseFw d.sec.fwSvn }
  else run .firmwareReady (fun _ d => d) s

/-! ## IDLE reached (R145, R565, R583 to R586) -/

/-- All slices of the physical folds in use passed now. -/
def Dev.slicesPassed (d : Dev) (e : Env) (l : List Nat) : Dev :=
  l.foldl (fun d p => d.modPhys p fun x => { x with
    lastPass := [(0, e.raw), (1, e.raw), (2, e.raw), (3, e.raw)], lapsed := [], lastSpareTest := e.raw, countedTo := e.raw
    sliceCycles := (x.sliceCycles + 75000) % 2 ^ 64 }) d

/-- The slice cycles of folds that fail a start-up test, which count as well (R320). -/
def Dev.slicesFailed (d : Dev) (l : List Nat) : Dev :=
  l.foldl (fun d p => d.modPhys p fun x => { x with sliceCycles := (x.sliceCycles + 75000) % 2 ^ 64 }) d

/-- A fold that failed the start-up test is retired, with the fault of a self-test mismatch; which slice is open (R477, R584).
DEDUCED: log entry 74. -/
def Dev.retireAtStart (d : Dev) (l : List Nat) : Dev :=
  l.foldl (fun d p =>
    if (d.physFold p).retired then d
    else (((d.raise (0x100 + p) 0x0C (Config.freeNat d.free % 4) 0).spend).modPhys p fun x => { x with retired := true, fenced := true })) d

/-- The physical folds that are not retired. -/
def Dev.goodFolds (d : Dev) : List Nat := (List.range 52).filter fun p => !(d.physFold p).retired

/-- At a cold start logical folds map onto the lowest-numbered physical folds that passed (R145). -/
def Dev.buildMap (d : Dev) : Dev := { d with foldMap := ((d.goodFolds.take 48).zipIdx).map fun x => (x.2, x.1) }

/-- Each logical fold that stays unmapped raises the spare-exhausted fault (R148, R510). -/
def Dev.sayUnmapped (d : Dev) : Dev :=
  ((List.range 48).filter fun n => d.physOf n = 0xFF).foldl (fun d n => d.raise 0x005 0x0A 1 n) d

/-- At a HIBERNATE exit or a warm start the map is kept; the logical number of a failing fold passes to the lowest-numbered
spare (R586). DEDUCED: log entry 74. -/
def Dev.mendMap (d : Dev) : Dev :=
  (List.range 48).foldl (fun d n =>
    if d.physOf n != 0xFF && (d.physFold (d.physOf n)).retired then
      match d.spares with
      | p :: _ => { d with foldMap := tset d.foldMap n p }
      | [] => { d with foldMap := terase d.foldMap n }
    else d) d

/-- A failed GDDR6 interface, with the fault at its source; what the test found is open (DESIGN CHOICE, log entry 3).
DEDUCED: log entry 69. -/
def Dev.failIface (d : Dev) (i : Nat) : Dev :=
  ({ d with gddr := { d.gddr with failed := tset d.gddr.failed i true } }.raise (0x1D0 + i) 3 (Config.freeNat d.free % 8) 0).spend

/-- The result of the start-up test: item 1 fails only with fewer than 48 folds good (R584). -/
def startFails (b : StartUp) (good : Nat) : List Nat :=
  (b.failedItems.filter fun i => i < 8 && i != 1) ++ (if good < 48 then [1] else [])

/-- What waited for IDLE: held messages and notifications, interrupts, a debug response (R385, R553, R560). DESIGN CHOICE: log entry 72. -/
def Dev.idleBegins (d : Dev) (e : Env) : Dev :=
  let l := d.col.asleep
  let d := { d with col := { d.col with asleep := [] } }
  let d := l.foldl (fun d x => d.reportMessage e x.1 x.2.1 x.2.2) d
  let notes := d.mbox.heldNotes
  let d := { d with mbox := { d.mbox with heldNotes := [] } }
  let d := notes.foldl (fun d x => d.notify e x.kind x.r0 x.r1 x.r2 x.urgent) d
  let d := match d.sec.respWaiting with
    | some b => ({ d with sec := { d.sec with respWaiting := none } }.openSession e b).2.2
    | none => d
  (d.mbox.queues.map (·.1)).foldl (fun d q => d.evalIrq e q) d

/-- The end of a start: test result, fold map, GDDR6, slice ages, and from a cold start or HIBERNATE the POWER
notification (R558). DEDUCED: log entry 74. -/
def Dev.startDone (d : Dev) (e : Env) : Dev :=
  let b := d.pow.startUp.getD default
  let warm := d.pow.firstIdle
  let failed := b.failedFolds.filter fun p => p < 52 && !(d.physFold p).retired
  let d := (d.slicesFailed failed.dedup).retireAtStart (b.failedFolds.filter (· < 52))
  let fails := startFails b d.goodFolds.length
  let d := (if warm || d.pow.fromHibernate then d.mendMap else d.buildMap).sayUnmapped
  let d := (b.failedInterfaces.filter (· < 12)).foldl (fun d i => d.failIface i) d
  let d := if d.pow.zeroGddr then d.zeroRange gddrBase gddrSize else d
  let d := d.slicesPassed e d.goodFolds
  let d := { d with
    gddr := { d.gddr with selfRefresh := false }
    mbox := { d.mbox with boot := { d.mbox.boot with
      stage := 5, testDone := true, testPass := fails.isEmpty, testFail := maskOf fails } }
    pow := { d.pow with
      state := .idle, phase := .settled, firstIdle := true, fromHibernate := false, zeroGddr := false, startUp := none } }
  let d := if warm then d else d.notify e 5 3 0 e.raw false
  (d.idleBegins e).pins

/-- Lines of the Common whose error the pass of R191 finds. -/
def Dev.scrubCommon (d : Dev) : Dev :=
  let mine (line : Nat) : Bool := match zoneOf (64 * line) with
    | .common _ => true
    | _ => false
  let d := d.modMem fun m => { m with corrected := m.corrected.filter fun x => !mine x.1 }
  (((d.mem.err.map (·.1) ++ d.mem.check.map (·.1)).dedup).filter mine).foldl (fun d l => (d.readLine (d.memSource (64 * l)) false l).2) d

/-- A trigger after STANDBY: it waits for its domain's first lock where the domain restarts, else it goes on at its next edge
(R427, R428). -/
def Dev.trigWakes (d : Dev) (e : Env) (n : Nat) : Dev :=
  let t := d.trig n
  match t.cfg with
  | none => d
  | some c =>
    let d := d.modTrig n fun t => { t with level := c.ball false }
    if !t.fn.active then d
    else if (d.dom c.dom).fn = .running ∧ c.periodic then d.modTrig n fun t => { t with waitLock := true }
    else d.trigStep e n (d.domTime c.dom e.raw)

/-- The end of a wake from STANDBY (R565). -/
def Dev.wakeDone (d : Dev) (e : Env) : Dev :=
  let d := d.scrubCommon
  let d := (List.range 48).foldl (fun d n => if d.physOf n = 0xFF then d else d.reloadFold n) d
  let d := d.reloadCollie.resetObjects fun _ => true
  let d := d.slicesPassed e ((List.range 48).map fun n => d.physOf n)
  let d := { d with gddr := { d.gddr with selfRefresh := false }, pow := { d.pow with state := .idle, phase := .settled } }
  let d := [0, 1].foldl (fun d k => if (d.dom k).fn = .running then d.startDomain e k else d) d
  let d := (d.tu.trigs.map (·.1)).foldl (fun d n => d.trigWakes e n) d
  ((d.notify e 5 3 0 e.raw false).idleBegins e).pins

/-- The wake or start-up sequence ends. -/
def execIdleReached (s : State) : Host.Outcome State Fault Refusal :=
  run .idleReached (fun e d =>
    if d.pow.phase = .bringUp ∧ d.mbox.ready then d.startDone e
    else if d.pow.phase = .waking ∧ s.clk.running then d.wakeDone e
    else d) s

/-! ## Hold-up (R564, R573, R574) -/

/-- The gates stop under DISCARD, each with a STATE notification; a stop that one was draining for ends ABORTED. -/
def Dev.holdupGates (d : Dev) (e : Env) : Dev :=
  (tkeys d.race.gates fun x => x.fn.active).foldl (fun d g =>
    ((d.discardGate e g).finishAll e (fun o => o.opcode == 0x303 && o.e.target == g) { status := stAborted }).noteState
      e 0 .stopped g 0) d

/-- SUPPLY_WARN_N has fallen: in STANDBY only the pin and the fault follow; a fall in a sequence restarts its count. -/
def Dev.holdUp (d : Dev) (e : Env) : Dev :=
  if d.pow.holdup then { d with pow := { d.pow with supplyLow := true } }
  else
    let d := { d with pow := { d.pow with supplyLow := true, holdup := true } }
    if d.pow.state = .off ∨ d.pow.state = .hibernate then d.pins
    else
      let d := if d.pow.state = .idle then d.holdupGates e else d
      (d.raise 0x3B8 0x39 0 0).pins

/-- A transition that is being burnt stops with the bit begun (R534). -/
def execHoldupStart (s : State) : Host.Outcome State Fault Refusal :=
  let d := s.dev.holdUp s.env
  .next { s with dev := { d with sec := { d.sec with burning := none } }, fuse := s.fuseNow }

/-- The sequence ends, and a wake that waited begins. -/
def execHoldupEnd (s : State) : Host.Outcome State Fault Refusal :=
  let d := ({ s.dev with pow := { s.dev.pow with supplyLow := false, holdup := false } }).pins
  if d.pow.wakeWaiting then
    if d.pow.state = .hibernate then .next (selfStarted s d)
    else .next { s with dev := if d.pow.sleeping then d.beginWake s.env else d }
  else .next { s with dev := d }

/-! ## Supply rails (R494, R570 to R572) -/

/-- The enable of a rail's group is high. -/
def Dev.railOn (d : Dev) (r : Nat) : Bool :=
  if railGroup r = 0 then true else if railGroup r = 2 then d.pow.pwrFold else d.pow.pwrMain

/-- A rail has entered its window: its monitor is armed, and with VDD_FOLD in a start bring-up goes on (R583).
DEDUCED: log entry 74. -/
def Dev.railIn (d : Dev) (rail : Nat) : Dev :=
  if d.railOn rail then
    let d := { d with safe := { d.safe with rails := tset d.safe.rails rail { inWindow := true, armed := true } } }
    if rail = 4 ∧ d.pow.phase = .bringUp ∧ d.mbox.boot.stage = 3 then
      { d with mbox := { d.mbox with boot := { d.mbox.boot with stage := 4 } } }
    else d
  else d

/-- A fold's supply is back in its monitor's window (R495, R516). -/
def Dev.foldRailIn (d : Dev) (p : Nat) : Dev :=
  { d with safe := { d.safe with foldRailBad := terase d.safe.foldRailBad p } }

/-- Units 0 to 8 are the rails, 9 to 60 the folds' power-domain monitors. The row is the last of `Instr`, whose tag Lean's compiler cannot
build: its unit is checked here. -/
def execRailEntersWindow (rail : Nat) (s : State) : Host.Outcome State Fault Refusal :=
  if 61 ≤ rail then .fault (.noSuchUnit rail)
  else .next { s with dev := if rail < 9 then s.dev.railIn rail else s.dev.foldRailIn (rail - 9) }

/-- The engine domain of a physical fold is on, so its monitor is armed (R572). -/
def Dev.foldPowered (d : Dev) (p : Nat) : Bool :=
  d.pow.state == .idle && !(d.physFold p).retired && (match d.logicalOf p with
    | some n => !(d.fold n).gated
    | none => false)

/-- A fold's power-domain monitor trips: the fault at its source. One within 1 µs of a group 2 trip is discarded (R494, R495, R572). -/
def Dev.foldRailTrip (d : Dev) (p detail : Nat) : Dev :=
  let group2 := d.col.halts.any (fun x => x.1 == .foldEngines) || d.col.waiting.any fun m => msgSource m == 0x3B6
  if !d.foldPowered p || group2 then d
  else { d with safe := { d.safe with foldRailBad := tset d.safe.foldRailBad p true } }.raise (0x380 + p) 0x35 detail p

/-- A rail's trip: the fault, whose HALT takes the group's reset; with no collector powered the cold reset follows at once. -/
def railTripped (s : State) (rail detail : Nat) : State :=
  let d := { s.dev with safe := { s.dev.safe with
    rails := tmod s.dev.safe.rails rail {} fun x => { x with inWindow := false } } }
  if d.pow.state = .off ∨ d.pow.state = .hibernate then
    if d.pow.tempShut then { s with dev := d }
    else
      let d := d.coldReset
      { s with dev := { d with pow := { d.pow with retryDue := !d.pow.porstLow } }.pins, clk := {}, fuse := s.fuseNow }
  else { s with dev := d.raise (0x3B4 + railGroup rail) 0x35 detail rail }

/-- A comparator of a rail's monitor, or of a fold's (units 9 to 60), has tripped. DESIGN CHOICE: log entry 71. -/
def execRailTrip (rail : Nat) (overVoltage : Bool) (s : State) : Host.Outcome State Fault Refusal :=
  if rail < 9 ∧ (tgetD s.dev.safe.rails rail {}).armed ∧ s.dev.railOn rail then
    .next (railTripped s rail (if overVoltage then 1 else 0))
  else run (.railTrip rail overVoltage) (fun _ d =>
    if 9 ≤ rail then d.foldRailTrip (rail - 9) (if overVoltage then 1 else 0) else d) s

/-- A rail that has not entered its window in time counts as tripped on its under-voltage comparator. -/
def execRailRampTimeout (rail : Nat) (s : State) : Host.Outcome State Fault Refusal :=
  if rail < 9 ∧ !(tgetD s.dev.safe.rails rail {}).inWindow ∧ s.dev.railOn rail ∧ s.dev.pow.state ≠ .off then
    .next (railTripped s rail 0)
  else run (.railRampTimeout rail) (fun _ d => d) s

/-- 100 ms after a group 0 or 1 trip the always-on domain starts again. -/
def execRailRetry (s : State) : Host.Outcome State Fault Refusal :=
  if s.dev.pow.retryDue && !s.dev.pow.porstLow then
    .next (selfStarted s { s.dev with pow := { s.dev.pow with retryDue := false } })
  else run .railRetry (fun _ d => d) s

end Sys2Proof.Machine
end

