-- ==== Sys2Proof/Machine/Monitors.lean ====
section
/-! DEFINITION. The Shepherd pair's checkpoints and PULSE (R480 to R484, R499, R501), and the supply, clock and temperature
monitors (R37, R413, R431, R495 to R497, R569). -/

namespace Sys2Proof.Machine

open Sys2Proof

/-! ## The Shepherd pair (R480) -/

/-- One bit step of the store hash. -/
def storeHashStep (c : BitVec 64) : BitVec 64 :=
  if c.getLsbD 63 then (c <<< 1) ^^^ Config.storeHashPoly else c <<< 1

/-- Address and data of a store fold into a core's hash. DESIGN CHOICE: log entry 100. -/
def ShepCore.stores (c : ShepCore) (addr data : BitVec 64) : ShepCore :=
  let word (h w : BitVec 64) : BitVec 64 := Nat.iterate storeHashStep 64 (h ^^^ w)
  { c with hash := word (word c.hash addr) data }

/-- The word of the shared memory at an address. -/
def ShepPair.word (p : ShepPair) (a : BitVec 64) : Option ShepWord := (p.mem.find? fun x => x.1 == a).map (·.2)

/-- A word of the shared memory takes a value. -/
def ShepPair.put (p : ShepPair) (a : BitVec 64) (w : ShepWord) : ShepPair :=
  { p with mem := (a, w) :: p.mem.filter fun x => x.1 != a }

/-- Bits of a word are upset: two of them wrong, or one more than before. -/
def ShepPair.upset (p : ShepPair) (x : BitVec 64 × Bool) : ShepPair :=
  match p.word x.1 with
  | some w => p.put x.1 { w with bad := if x.2 then 2 else min 2 (w.bad + 1) }
  | none => p

/-- SECDED at the leader's load: one wrong bit is corrected and written back, two are an uncorrectable error (R480, R485). -/
def ShepPair.checked (p : ShepPair) (a : BitVec 64) : ShepPair :=
  match p.word a with
  | some w =>
    if w.bad = 0 then p
    else if w.bad = 1 then { (p.put a { w with bad := 0 }) with found := p.found ++ [(a, false)] }
    else { p with found := p.found ++ [(a, true)] }
  | none => p

/-- The leader's step: its loads and stores reach memory, what it loads goes to the load-value queue, an interrupt is due at the follower
at the same count, and at a checkpoint its copy waits for the follower's. It waits while it is 1,024 instructions ahead, and while a
copy waits. -/
def ShepPair.leads (p : ShepPair) (o : ShepOp) : ShepPair :=
  let next : ShepCore := { p.lead with count := p.lead.count + 1 }
  if p.follow.count + 1024 ≤ p.lead.count ∨ p.copy.isSome then p
  else match o with
    | .load a v => { p.checked a with lead := next, loads := p.loads ++ [((p.word a).map (·.data)).getD v] }
    | .store a v => { p.put a { data := v } with lead := next.stores a v }
    | .interrupt => { p with lead := { p.lead with taken := p.lead.taken + 1 }, irqs := p.irqs ++ [p.lead.count] }
    | .entry a b => { p with lead := next, copy := some { kind := 0, addr := a, bytes := b } }
    | .config a v => { p with lead := next, copy := some { kind := 1, addr := a, bytes := leBytes 8 v.toNat } }
    | .other => { p with lead := next }

/-- The follower's copy of a checkpoint: the leader's is committed, and a difference is noted (R481, R482). -/
def ShepPair.compares (p : ShepPair) (c : ShepCopy) : ShepPair :=
  { p with copy := none, differs := if p.copy = some c then p.differs else some (p.differs.getD c.kind) }

/-- The follower's step, never ahead of the leader: interrupts due at its count come first, a load takes the head of the
load-value queue, its stores go into its own hash alone, and at a checkpoint its copy meets the leader's. -/
def ShepPair.follows (p : ShepPair) (o : ShepOp) : ShepPair :=
  let due := p.irqs.filter fun c => c ≤ p.follow.count
  let core : ShepCore := { p.follow with taken := p.follow.taken + due.length }
  let p := { p with follow := core, irqs := p.irqs.filter fun c => p.follow.count < c }
  let next : ShepCore := { core with count := core.count + 1 }
  if p.lead.count ≤ core.count then p
  else match o with
    | .load _ _ => { p with follow := next, loads := p.loads.drop 1 }
    | .store a v => { p with follow := next.stores a v }
    | .interrupt => p
    | .entry a b => { p with follow := next }.compares { kind := 0, addr := a, bytes := b }
    | .config a v => { p with follow := next }.compares { kind := 1, addr := a, bytes := leBytes 8 v.toNat }
    | .other => { p with follow := next }

/-- The pair runs a list of steps in their order. DESIGN CHOICE: log entry 100. -/
def ShepPair.run (p : ShepPair) (l : List ShepStep) : ShepPair :=
  l.foldl (fun p x => if x.follower then p.follows x.op else p.leads x.op) p

/-- The two cores stand at the same instruction count. -/
def ShepPair.level (p : ShepPair) : Bool := p.lead.count == p.follow.count

/-! ## Lock-step and PULSE -/

/-- The comparison of the pair breaks: the sticky bit, SAFE_N[1] and PULSE follow at once (R482, R483). -/
def Dev.breakLockstep (d : Dev) (detail checkpoint : Nat) : Dev :=
  ({ d with safe := { d.safe with lockstepBroken := true } }.raise 0x000 0x30 detail checkpoint).pins

/-- Firmware runs, so the pair reaches checkpoints. -/
def Dev.pairRuns (d : Dev) : Bool := d.mbox.ready && !d.pow.sleeping

/-- The Shepherd memory's faults that the pair's loads have found (R485, R510). -/
def Dev.pairFaults (d : Dev) (l : List (BitVec 64 × Bool)) : Dev :=
  l.foldl (fun d x => if x.2 then d.raise 0x001 0x31 1 x.1.toNat else d.raise 0x002 0x31 0 x.1.toNat) d

/-- Copies of an entry or a configuration write that differed break the comparison (R481, R482). -/
def Dev.pairDiffers (d : Dev) (k : Option Nat) : Dev :=
  match k with
  | some k => if d.safe.lockstepBroken then d else d.breakLockstep 0 k
  | none => d

/-- The 1 ms checkpoint, with the steps of the pair since the last and both register states: it waits for the follower's copy,
and compares register state and store hash. Where it passes after the start-up test passed, the pins are released (R481, R501). -/
def execStateHashCheckpoint (r : PairReport) (s : State) : Host.Outcome State Fault Refusal :=
  run (.stateHashCheckpoint r) (fun e d =>
    if !d.pairRuns then d
    else
    let p := (r.upsets.foldl ShepPair.upset d.safe.pair).run r.steps
    let d := { d with safe := { d.safe with pair := { p with found := [], differs := none } } }
    let d := (d.pairFaults p.found).pairDiffers p.differs
    if d.safe.lockstepBroken || !p.level then d
    else if r.lead = r.follow ∧ p.lead.hash = p.follow.hash then
      { d with safe := { d.safe with
        lastHash := e.raw, hashTimeout := false, released := d.safe.released || d.mbox.boot.testPass } }.pins
    else d.breakLockstep 0 2) s

def execFollowerTimeout (checkpoint : Nat) (s : State) : Host.Outcome State Fault Refusal :=
  run (.followerTimeout checkpoint) (fun _ d =>
    if !d.pairRuns || d.safe.lockstepBroken then d else d.breakLockstep 1 checkpoint) s

def execPulseCheckpointTimeout (s : State) : Host.Outcome State Fault Refusal :=
  run .pulseCheckpointTimeout (fun e d =>
    if d.safe.lastHash + 2500000 ≤ e.raw then { d with safe := { d.safe with hashTimeout := true } }.pins else d) s

/-- An edge of the 1 kHz square wave, unless PULSE is held low. -/
def execPulseEdge (s : State) : Host.Outcome State Fault Refusal :=
  run .pulseEdge (fun _ d => { d with safe := { d.safe with pulse := !d.safe.pulse } }.pins) s

/-! ## Monitor self-check (R495) -/

/-- Units 0 to 8 are the rails, 9 to 60 the folds' power domains. -/
def execMonitorSelfCheck (unit : Nat) (underTrips overTrips : Bool) (s : State) : Host.Outcome State Fault Refusal :=
  run (.monitorSelfCheck unit underTrips overTrips) (fun _ d =>
    let i := if unit < 9 then unit else unit - 9
    if d.pow.state ≠ .idle then d
    else
      let d := if underTrips then d else d.raise 0x3BF 0x36 0 i
      if overTrips then d else d.raise 0x3BF 0x36 1 i) s

/-! ## Clocks (R37, R413, R431, R496) -/

/-- A clock's limit in ppm: 2 % for a PLL, 3 % for the oscillator and AONCLK, 1,000 ppm for the raw counter's own check. -/
def clockLimit (clk : Nat) : Nat := if clk < 6 then 20000 else if clk < 8 then 30000 else 1000

/-- The clock runs now (R567). -/
def Dev.clockOn (d : Dev) (clk : Nat) : Bool :=
  match d.pow.state with
  | .off | .hibernate => false
  | .standby => if d.pow.sleeping then clk = 6 || clk = 7 else clk ≠ 2 && clk ≠ 3 && clk ≠ 4
  | .idle =>
    if clk = 2 then d.insts.any fun x => (x.2.image.map (·.collie)).getD false
    else if clk = 4 then d.flock.ports.any fun x => x.2.cfg.isSome
    else true

/-- The source of a clock's fault (R506). -/
def clockSource (clk : Nat) : Nat := if clk < 5 then 0x3B9 else 0x3B5 + clk

/-- A monitor's reading of a clock: outside its limit a fault is raised, inside its fault's condition ends. The time-counter
PLL is clock 8; where it loses its lock, or strays by more than 2 %, the counter alone stops (R413, R496). DEDUCED: log entry 75. -/
def execClockMonitorTrip (clk : Nat) (ppm : Int) (lost : Bool) (s : State) : Host.Outcome State Fault Refusal :=
  if clk = 8 ∧ (lost ∨ 20000 < ppm.natAbs) ∧ s.clk.running then
    let e := s.env
    let d := s.dev.raise 0x300 0x23 0 e.raw
    let d := { d with pow := { d.pow with timePllLost := true } }
    let m := (faultMsg 0x300 0x23 0 e.raw).toNat
    .next { s with dev := [0, 1].foldl (fun d k => d.faultDomain e k m) d, clk := { s.clk with running := false } }
  else run (.clockMonitorTrip clk ppm lost) (fun e d =>
    if !d.clockOn clk then d
    else
      let bad := lost || decide (clockLimit clk < ppm.natAbs)
      let d := { d with safe := { d.safe with
        clockBad := if bad then tset d.safe.clockBad clk true else terase d.safe.clockBad clk } }
      if !bad then d
      else if clk = 8 then (if lost || decide (20000 < ppm.natAbs) then d else d.raise 0x300 0x23 1 e.raw)
      else d.raise (clockSource clk) 0x37 (clk + if lost then 128 else 0) (patternOf ppm 40)) s

/-- The oscillator is trimmed against AONCLK once a second; while AONCLK is absent the trim holds (R569). -/
def execOscillatorTrim (s : State) : Host.Outcome State Fault Refusal :=
  run .oscillatorTrim (fun e d =>
    if d.pow.state = .off ∨ tgetD d.safe.clockBad 7 false then d else { d with pow := { d.pow with lastTrim := e.raw } }) s

/-! ## Temperature (R497) -/

/-- The middle of three readings. -/
def middle (a b c : Int) : Int := max (min a b) (min (max a b) c)

/-- The sensors that differ by more than 20 °C from the median of their neighbours. DESIGN CHOICE: log entry 36. -/
def strayingSensors (l : List Int) : List Nat :=
  (List.range l.length).filter fun i =>
    let n := Config.sensorNeighbours i
    20 < (l.getD i 0 - middle (l.getD (n.1 % l.length) 0) (l.getD (n.2.1 % l.length) 0) (l.getD (n.2.2 % l.length) 0)).natAbs

/-- The hottest sensor that is not excluded, with its reading; all excluded, the hottest of all.
DESIGN CHOICE: log entry 36. -/
def hottest (l : List Int) (excluded : List Nat) : Nat × Int :=
  let all := (l.zipIdx).map fun x => (x.2, x.1)
  let use := all.filter fun x => !excluded.contains x.1
  match (if use.isEmpty then all else use) with
  | [] => (0, 0)
  | x :: t => t.foldl (fun m y => if m.2 < y.2 then y else m) x

/-- The argument of a TEMPERATURE fault. -/
def tempArg (sensor : Nat) (r : Int) : Nat := sensor % 256 * 2 ^ 32 + patternOf r 16

/-- Thresholds in °C: low, warning, limit, shutdown, by the fused grade. -/
def tempLimits (f : Fuses) : Int × Int × Int × Int :=
  if f.gradeCode = 0 then (-45, 118, 125, 135) else (-5, 98, 105, 115)

/-- One count of consecutive readings past a threshold; the fault comes with the last that its filter asks for. -/
def Dev.countTemp (d : Dev) (k src : Nat) (past : Bool) (arg : Nat) : Dev :=
  let n := if past then min 5 (tgetD d.safe.tempCount k 0 + 1) else 0
  let d := { d with safe := { d.safe with tempCount := tset d.safe.tempCount k n } }
  if n = 4 then d.raise src 0x38 k arg else d

/-- Sensors newly excluded, and the thresholds below the shutdown. -/
def Dev.judgeTemp (d : Dev) (e : Env) (l : List Int) : Dev :=
  let ex := strayingSensors l
  let was := d.safe.excluded
  let d := (ex.filter fun i => !was.contains i).foldl (fun d i => d.raise 0x3BE 0x38 3 (tempArg i (l.getD i 0))) d
  let d := { d with safe := { d.safe with excluded := ex } }
  let h := hottest l ex
  let t := tempLimits e.fuse
  let a := tempArg h.1 h.2
  let d := d.countTemp 0 0x3BE (h.2 < t.1) a
  let d := d.countTemp 1 0x3BE (t.2.1 < h.2) a
  let d := d.countTemp 2 0x3BD (t.2.2.1 < h.2) a
  let n := if t.2.2.2 < h.2 then tgetD d.safe.tempCount 3 0 + 1 else 0
  { d with safe := { d.safe with tempCount := tset d.safe.tempCount 3 n } }

/-- The shutdown: every other domain off, pins low until PORST_N. -/
def Dev.tempShutdown (d : Dev) : Dev :=
  let d := d.coldReset
  { d with pow := { d.pow with tempShut := true } }.pins

/-- Every 100 µs the 24 sensors are read; the second reading in a row above the shutdown threshold switches the device off.
DESIGN CHOICE: log entry 36. -/
def execTemperatureSample (readings : List Int) (s : State) : Host.Outcome State Fault Refusal :=
  if readings.length = 24 ∧ (s.dev.pow.state = .idle ∨ s.dev.pow.state = .standby) then
    let d := s.dev.judgeTemp s.env readings
    if 2 ≤ tgetD d.safe.tempCount 3 0 then .next { s with dev := d.tempShutdown, clk := {}, fuse := s.fuseNow } else .next { s with dev := d }
  else run (.temperatureSample readings) (fun _ d => d) s

end Sys2Proof.Machine
end

