-- ==== Sys2Proof/Machine/Close.lean ====
section
/-! DEFINITION. How outstanding commands end: closing one as under DISCARD (R374, R377, R379, R399, R410), ABORT, DELETE_QUEUE
and the reset of the admin queue (R370, R371, R377), timeouts (R374), and the end of the work of LONG commands. -/

namespace Sys2Proof.Machine

open Sys2Proof

/-! ## Closing work as under DISCARD -/

/-- A stop that is closed: a draining function abandons its work and is STOPPED, a FAULTED one is STOPPED (R378, R379). -/
def Dev.closeStop (d : Dev) (e : Env) (opcode n : Nat) : Dev :=
  if opcode = 0x203 then (if (d.inst n).fn = .faulted then d.restInst e n else if (d.inst n).fn = .stopping then d.discardInst e n else d)
  else if opcode = 0x303 then
    (if (d.gate n).fn = .faulted then d.gateStopped e n else if (d.gate n).fn = .stopping then d.discardGate e n else d)
  else if opcode = 0x512 then (if (d.trig n).fn = .stopping ∨ (d.trig n).fn = .faulted then d.trigStopped n else d)
  else if opcode = 0x612 then
    (if (d.peer n).fn = .stopping then d.stopLink e n
     else if (d.peer n).fn = .faulted then d.modPeer n fun p => { p with fn := .stopped } else d)
  else if (d.stile n).fn = .stopping then d.closeStile e n .stopped
  else if (d.stile n).fn = .faulted then d.modStile n fun x => { x with fn := .stopped } else d

/-- The invocation of an instance is abandoned; the instance stays RUNNING. -/
def Dev.closeInvoke (d : Dev) (e : Env) (k : Nat) : Dev :=
  ((d.closeInst e k false).abandonOutputs k).modInst k fun x => { x with invoc := none }

/-- An unread feed is closed: before its read it leaves nothing; while the gate reads it, its sample has begun and is closed with
ABANDONED (R403). Whether the read of an active gate's oldest feed was under way is a free choice. DESIGN CHOICE: log entry 107. -/
def Dev.closeFeed (d : Dev) (e : Env) (g : Nat) (o : Outst) : Dev :=
  let mine (f : Feed) : Bool := !f.refused && f.q == o.q && f.tag == o.e.tag
  match (d.gate g).feeds.find? mine with
  | none => d
  | some f =>
    let reading := (d.gate g).fn.active && (((d.gate g).feeds.head?).map mine).getD false && Config.freeBool d.free
    let d := d.spend.modGate g fun x => { x with feeds := x.feeds.filter fun f => !mine f }
    let d := if reading then
        let d := (d.boundary e g).handover g f.counter
        let b := d.beginSample g f.counter f.capture f.domB f.inst f.drop
        match b.1.2 with
        | some k => b.2.dropWith e g b.1.1 k
        | none => b.2.modGate g fun x => { x with pipe := x.pipe ++ [{ b.1.1 with abandoned := true }] }
      else d
    let d := Dev.flushRefused (d.gate g).feeds.length e g (d.freeCore g f.counter)
    d.settleGate e g

/-- What closing an outstanding command undoes (R374, R377, R399, R410, R458); a load, a stage, a port's bring-up, a spare test
and a report leave nothing behind. DELETE_QUEUE is not among these: its deletion runs to its end. -/
def Dev.closeWork (d : Dev) (e : Env) (o : Outst) : Dev :=
  let n := o.e.target
  if o.opcode = 0x204 then d.closeInvoke e n
  else if (stopFn o.opcode).isSome then d.closeStop e o.opcode n
  else if o.opcode = 0x305 then d.closeFeed e n o
  else if o.opcode = 0x400 then
    let w := if o.aux.getD 2 0 = 0 then terase d.host.windows n else tset d.host.windows n (o.aux.getD 1 0, o.aux.getD 2 0)
    { d with host := { d.host with windows := w } }
  else if o.opcode = 0x402 then
    d.modGate n fun x => x.setTable (o.e.field 0x10 1) { x.table (o.e.field 0x10 1) with pending := false }
  else if o.opcode = 0x404 then
    (o.aux.drop 1).foldl (fun d m => d.modLut m (o.aux.headD 0) fun t => { t with pending := false }) d
  else if o.opcode = 0x601 then
    let v : NdEvent := { kind := o.e.field 0x10 1, domain := o.e.field 0x11 1, origin := d.flock.dev.getD 0, eventId := 0
                         tag := o.e.tag, instant := o.e.field 0x18 8 }
    match d.treeParent with
    | some p => d.sendTo e [p] 0xC (v.body 2) []
    | none => d
  else if o.opcode = 0x611 then d.modPeer n fun p => { p with connecting := false, session := 0 }
  else d

/-- The folds that a TABLE_SWITCH has switched: those that it named and that no longer wait (R404). -/
def Outst.foldsSwitched (o : Outst) : Nat := o.e.field 0x10 8 - maskOf (o.aux.drop 1)

/-- Closes a command's work and posts its completion; an aborted stop marks the result tallies that its image declares, and with the
INVOKE of a draining instance closed its STOP may be done (R377, R379). -/
def Dev.closeOne (d : Dev) (e : Env) (st : Nat) (o : Outst) : Dev :=
  let k := o.e.target
  let d := if o.opcode = 0x203 ∧ st = stAborted ∧ (d.inst k).invoc.isNone then d.abandonOutputs k else d
  let d := (d.closeWork e o).finish e o { status := st, r1 := if o.opcode = 0x404 then o.foldsSwitched else 0 }
  if o.opcode = 0x204 then d.settleInst e k else d

/-- A lifecycle transition whose fuses are being burnt runs to its end (R410). -/
def Dev.burns (d : Dev) (o : Outst) : Bool := o.opcode == 0x901 && d.mbox.frozen

/-- A queue ceases to exist: its outstanding commands are closed, and an ABORT that waits for a marked entry of it completes
(R371, R377). -/
def Dev.deleteQueue (d : Dev) (e : Env) (q : Nat) : Dev :=
  let d := (d.mbox.outst.filter fun o => o.q == q && !d.burns o).foldl (fun d o => d.closeOne e stAborted o) d
  let marks := d.mbox.marked.filter fun m => m.1 == q
  let d := { d with mbox := { d.mbox with
    queues := terase d.mbox.queues q, marked := d.mbox.marked.filter fun m => m.1 != q } }
  d.finishAll e (fun o => o.opcode == 3 && marks.contains (o.e.field 0x10 2, o.e.field 0x14 4)) {}

/-- Closes an outstanding command with a status. -/
def Dev.closeCmd (d : Dev) (e : Env) (st : Nat) (o : Outst) : Dev :=
  if d.burns o then d
  else if o.opcode = 2 then (d.deleteQueue e (o.e.field 0x10 2)).finish e o { status := st } else d.closeOne e st o

/-- DEDUCED: log entry 70. -/
def execCommandTimeout (q tag : Nat) (s : State) : Host.Outcome State Fault Refusal :=
  run (.commandTimeout q tag) (fun e d =>
    match d.outstBy q tag with
    | some o => if o.deadline ≤ e.raw then d.closeCmd e stTimeout o else d
    | none => d) s

/-! ## ABORT and DELETE_QUEUE (R371, R377) -/

/-- Opcode of the exposed entry of a queue with a tag. DESIGN CHOICE: log entry 44. -/
def Dev.exposed (d : Dev) (q tag : Nat) : Option Nat :=
  match d.queue q with
  | none => none
  | some m =>
    let at_ (i : Nat) : Nat := commonBase + m.sqBase + 64 * ((m.sqHead + i) % m.sqEntries)
    ((List.range ((m.sqTail + m.sqEntries - m.sqHead) % m.sqEntries)).find? fun i =>
      leNat (d.raw (at_ i + 4) 4) == tag).map fun i => leNat (d.raw (at_ i) 2)

/-- An ABORT that names an ABORT, itself included, is refused (R377). DESIGN CHOICE: log entry 44. -/
def hAbort : Handler := fun e q s d =>
  let tq := s.field 0x10 2
  let tag := s.field 0x14 4
  if q ≠ 0 ∨ 31 < tq ∨ !s.zero 0x12 2 ∨ !s.zero 0x18 40 ∨ (d.queue tq).isNone then refuse stBadArg d
  else match d.outstBy tq tag with
    | some o => if o.opcode = 3 then refuse stBadArg d else if d.burns o then refuse stAlready d else ok (d.closeCmd e stAborted o)
    | none =>
      match d.exposed tq tag with
      | some 3 => refuse stBadArg d
      | some _ => (.long none [], { d with mbox := { d.mbox with marked := (tq, tag) :: d.mbox.marked.filter (· != (tq, tag)) } })
      | none => refuse (if tq = q ∧ tag = s.tag then stBadArg else stAlready) d

def execAbort (q : Nat) (e : Sub) (s : State) : Host.Outcome State Fault Refusal :=
  run (.abort q e) (serveRow 0x0003 hAbort q e) s

/-- A gate that names the queue as its notice target (R115). -/
def Dev.noticeTarget (d : Dev) (q : Nat) : Bool :=
  d.race.gates.any fun x => x.2.fn != .unconfigured && Settings.noticeQueue x.2.settings == q

/-- The deletion is done when its work is complete. -/
def hDeleteQueue : Handler := fun _ q s d =>
  let n := s.field 0x10 2
  if q ≠ 0 ∨ n = 0 ∨ 31 < n ∨ !s.zero 0x12 46 then refuse stBadArg d
  else match d.queue n with
    | none => refuse stBadState d
    | some m =>
      if (!m.error && d.mbox.outst.any fun o => o.q == n) || d.noticeTarget n then refuse stBadState d else (.long none [], d)

def execDeleteQueue (q : Nat) (e : Sub) (s : State) : Host.Outcome State Fault Refusal :=
  run (.deleteQueue q e) (serveRow 0x0002 hDeleteQueue q e) s

/-! ## The admin queue's reset (R370) -/

/-- The admin queue as its reset leaves it. -/
def MQueue.restarted (m : MQueue) : MQueue :=
  { m with sqTail := 0, sqHead := 0, cqHead := 0, cqTail := 0, phase := true, error := false, unread := [], irq := false }

/-- Outstanding commands of queue 0 are closed with no completions; its completion ring, indices, phase and ERROR begin
afresh. DESIGN CHOICE: log entry 44. -/
def Dev.adminReset (d : Dev) (e : Env) : Dev :=
  match d.queue 0 with
  | none => d
  | some m =>
    let d := d.modQueue 0 fun m => { m with error := true }
    let d := (d.mbox.outst.filter fun o => o.q == 0).foldl (fun d o => d.closeCmd e stAborted o) d
    let d := (d.blank (commonBase + m.cqBase) (32 * m.cqEntries)).modQueue 0 (·.restarted)
    { d with mbox := { d.mbox with marked := d.mbox.marked.filter fun x => x.1 != 0 } }

/-! ## The end of a LONG command's work (R374) -/

/-- The spares of a SPARE_TEST with its outcome, which no command gives (DESIGN CHOICE, log entry 3): mask of those that passed, bit i
for the i-th of the free spares in DEVICE_INFO's order (R408).
DESIGN CHOICE: log entry 45. -/
def Dev.testSpares (d : Dev) (e : Env) (l : List Nat) : Nat × Dev :=
  l.zipIdx.foldl (fun (acc : Nat × Dev) x =>
    let pass := Config.freeBool acc.2.free
    (acc.1 + (if pass then 2 ^ x.2 else 0), acc.2.spend.spareTested e x.1 pass)) (0, d)

/-- The work of a LONG command that nothing else ends is complete: its effect, and its completion. -/
def Dev.workDone (d : Dev) (e : Env) (o : Outst) : Dev :=
  let n := o.e.target
  if o.opcode = 0x002 then (d.deleteQueue e (o.e.field 0x10 2)).finish e o {}
  else if o.opcode = 0x200 then
    match o.image with
    | some im => (d.loadImage e n im).finish e o { r0 := o.aux.headD 0 }
    | none => d
  else if o.opcode = 0x203 ∨ o.opcode = 0x204 then
    if ((d.inst n).image.map fun im => im.threads.isEmpty).getD false then
      let d := d.settleInst e n
      if o.opcode = 0x203 ∧ (d.inst n).fn = .stopping ∧ (d.inst n).invoc.isNone then
        (d.modInst n fun x => { x with fn := .stopped }).finish e o {}
      else d
    else d
  else if o.opcode = 0x205 then
    let b : List Byte := o.aux.map fun x => BitVec.ofNat 8 x
    (d.setInactive { container := b, valid := true }).finish e o { r0 := ctVersion b }
  else if o.opcode = 0x400 then d.settleWindows e
  else if o.opcode = 0x404 then d.switchIdle e (o.aux.drop 1)
  else if o.opcode = 0x602 then
    (d.modMac n fun m => { m with cfg := some (o.aux.getD 0 0, o.aux.getD 1 0) }).finish e o {}
  else if o.opcode = 0x702 then
    let r := d.testSpares e o.aux
    r.2.finish e o { r0 := r.1 }
  else if o.opcode = 0x900 then
    (d.reply o.e (d.attestReply e ((padTo 48 o.e.args).take 32) o.aux)).finish e o {}
  else d

/-! ## A lifecycle transition (R534) -/

/-- Firmware takes no further entry, and burns the first fuse; where a function has been configured since, it refuses (R410). -/
def Dev.burnStart (d : Dev) (e : Env) (o : Outst) : Dev :=
  if !d.allUnconfigured then d.finish e o { status := stBadState }
  else { d with mbox := { d.mbox with frozen := true }, sec := { d.sec with burning := some (e.raw, o.aux) } }

/-- Whether the fuses read back as burnt is open, and so is which of them do not (DESIGN CHOICE, log entry 3). -/
def Dev.readsBack (d : Dev) : Bool := Config.freeBool d.free
def Dev.burntBits (d : Dev) (l : List FuseBit) : List FuseBit :=
  if d.readsBack then l else (l.zipIdx.filter fun x => Config.freeBool (freeAt d (x.2 + 1))).map (·.1)

/-- The fuses are burnt: the completion, with INTEGRITY after a failed read-back, the fault, and the reset that is due. -/
def Dev.burnEnds (d : Dev) (e : Env) (o : Outst) : Dev :=
  let d := (d.spend.finish e o { status := if d.readsBack then stOk else stIntegrity }).raise 0x3C2 0x3C 2 0
  { d with sec := { d.sec with lifecycleDue := true, burning := none } }

/-- The steps of a LIFECYCLE_SET: the first completion of work begins the burning, one after the last bit's 20 µs ends it; a burning
that a hold-up has stopped goes no further. DESIGN CHOICE: log entry 76. -/
def State.transition (s : State) (o : Outst) : State :=
  match s.dev.sec.burning with
  | some (t, l) =>
    let bits := (Burn.unpack l).bits s.fuse
    if s.clk.raw < t + 20000 * bits.length then s
    else { s with dev := s.dev.burnEnds s.env o, fuse := s.fuse.burnBits (s.dev.burntBits bits) }
  | none => if s.dev.mbox.frozen then s else { s with dev := s.dev.burnStart s.env o }

/-- The floor that the load of a program image raises (R541). -/
def Fuses.afterWork (f : Fuses) (o : Outst) : Fuses :=
  if o.opcode = 0x200 then
    match o.image with
    | some im =>
      if im.raiseFloor && lifecycleOf f = lcProduction && thermometer f.progFloor < im.svn then
        { f with progFloor := f.progFloor ||| thermometerOf im.svn }
      else f
    | none => f
  else f

def execCommandWorkComplete (q tag : Nat) (s : State) : Host.Outcome State Fault Refusal :=
  match s.dev.outstBy q tag with
  | some o =>
    if q < 32 ∧ o.opcode = 0x901 then .next (s.transition o)
    else if q < 32 then .next { s with dev := s.dev.workDone s.env o, fuse := s.fuse.afterWork o }
    else .fault (.noSuchUnit q)
  | none => run (.commandWorkComplete q tag) (fun _ d => d) s

end Sys2Proof.Machine
end

