-- ==== Sys2Proof/Machine/HostPort.lean ====
section
/-! DEFINITION. The host port: bank commands and bursts (R336 to R344), posted writes and their landing (R345 to R347, R361,
R364, R369), mode registers (R350), low power (R356), reset and input checks (R353, R357). -/

namespace Sys2Proof.Machine

open Sys2Proof

/-! ## Addresses and pages (R336, R338) -/

/-- The host offset of a byte of a page (R336). -/
def hostOffset (ch bank row page : Nat) : Nat :=
  row * 0x20000 + bank * 0x2000 + page / 256 * 0x400 + ch * 0x100 + page % 256

/-- Key of a page buffer. -/
def pageKey (ch bank : Nat) : Nat := ch * 16 + bank

/-- Rows below 512 are the host pen. -/
def penRow (row : Nat) : Bool := row < 512

/-- The offsets of a burst's bytes: it wraps inside its own aligned block. DEDUCED: log entry 46. -/
def burstOffsets (ch bank row page len : Nat) : List Nat :=
  (List.range len).map fun i => hostOffset ch bank row (page / len * len + (page % len + i) % len)

def Dev.page (d : Dev) (ch bank : Nat) : Option Page := tget d.host.pages (pageKey ch bank)

def Dev.setPage (d : Dev) (ch bank : Nat) (p : Page) : Dev :=
  { d with host := { d.host with pages := tset d.host.pages (pageKey ch bank) p } }

/-- Closed page buffers hold nothing: writes have been passed through (R338). -/
def Dev.dropBuffered (d : Dev) (p : Nat → Bool) : Dev :=
  d.modMem fun m => { m with buffered := m.buffered.filter fun c => !p (c.1 - commonBase) }

/-- Closes every page buffer of a channel. -/
def Dev.closePages (d : Dev) (ch : Nat) : Dev :=
  ({ d with host := { d.host with pages := d.host.pages.filter fun x => x.1 / 16 != ch } }).dropBuffered fun off => off / 256 % 4 == ch

/-- Low-power state of a channel: 0 active, 1 power-down, 2 self-refresh, 3 deep-sleep. -/
def Dev.lowOf (d : Dev) (ch : Nat) : Nat := tgetD d.host.low ch 0

def Dev.setLow (d : Dev) (ch k : Nat) : Dev :=
  { d with host := { d.host with low := if k = 0 then terase d.host.low ch else tset d.host.low ch k } }

/-! ## Mode registers (R333 to R335, R350) -/

/-- Registers that the host can write. -/
def mrWritable (n : Nat) : Bool := [1, 2, 3, 10, 11, 12, 13, 14, 15, 16, 17, 18, 20, 22, 23, 28, 31, 32, 33, 34].contains n

/-- A register's value after reset; unlisted registers read 0x00. DESIGN CHOICE: log entry 8. -/
def mrReset (n : Nat) : Byte :=
  if n = 5 then 0xC7 else if n = 6 then 0x01 else if n = 7 then 0 else if n = 8 then 0x18 else if n = 23 then 0
  else if n = 0 ∨ n = 4 ∨ n = 27 ∨ mrWritable n then Config.standardReset n else 0

/-- A field of a register that R350 gives as 0 or off at reset: the reset value reads so, any other by the standard's code. -/
def mrField (f : Byte → Bool) (n : Nat) (v : Byte) : Bool := v != mrReset n && f v

/-- Key of a mode register of a channel at a set point; a register that the standard keeps once for both has one key.
DESIGN CHOICE: log entry 8. -/
def mrKey (ch n : Nat) (fsp1 : Bool) : Nat := 256 * ch + n + (if n ≠ 16 && Config.perSetPoint n && fsp1 then 1024 else 0)

/-- MR16 of a channel (FSP0 at reset). -/
def Dev.mr16 (d : Dev) (ch : Nat) : Byte := tgetD d.host.mr (256 * ch + 16) (mrReset 16)

/-- A mode register as FSP-WR accesses it. -/
def Dev.mrValue (d : Dev) (ch n : Nat) : Byte :=
  tgetD d.host.mr (mrKey ch n (mrField Config.fspWrite 16 (d.mr16 ch))) (mrReset n)

/-- A mode register as it operates, at FSP-OP. -/
def Dev.mrInForce (d : Dev) (ch n : Nat) : Byte :=
  tgetD d.host.mr (mrKey ch n (mrField Config.fspOperate 16 (d.mr16 ch))) (mrReset n)

/-- Bank-group mode (MR3; 16-bank mode at reset), data mask disabled (MR13), write and read Link ECC (MR22), in force. -/
def Dev.bankGroups (d : Dev) (ch : Nat) : Bool := mrField Config.bankGroups 3 (d.mrInForce ch 3)
def Dev.maskOff (d : Dev) (ch : Nat) : Bool := mrField Config.maskDisabled 13 (d.mrInForce ch 13)
def Dev.writeEccOn (d : Dev) (ch : Nat) : Bool := mrField Config.writeEcc 22 (d.mrInForce ch 22)
def Dev.readEccOn (d : Dev) (ch : Nat) : Bool := mrField Config.readEcc 22 (d.mrInForce ch 22)

/-- A value selects a mode that the port does not support; the PASR masks of MR23 are stored whatever they are (R334, R335). -/
def mrRefused (n : Nat) (v : Byte) : Bool := n ≠ 23 && mrField (Config.unsupportedMode n) n v

/-- A mode-register write that exits the channel's training step ends it (R355). DESIGN CHOICE: log entry 8. -/
def Dev.leaveTraining (d : Dev) (ch n : Nat) (v : Byte) : Dev :=
  match tget d.host.training ch with
  | some k => if Config.exitsTraining k n v then { d with host := { d.host with training := terase d.host.training ch } } else d
  | none => d

/-- An unsupported mode leaves the register as it was. -/
def Dev.mrWrite (d : Dev) (ch n : Nat) (v : Byte) : Dev :=
  if !mrWritable n then d
  else if mrRefused n v then d.raise 0x280 0x19 n v.toNat
  else ({ d with host := { d.host with mr := tset d.host.mr (mrKey ch n (mrField Config.fspWrite 16 (d.mr16 ch))) v } }).leaveTraining ch n v

/-- The bank that bank group and bank name (R336). -/
def Dev.bankOf (d : Dev) (ch : Nat) (b : BankAddr) : Nat := if d.bankGroups ch then 4 * (b.bg % 4) + b.ba % 4 else b.ba % 16

/-! ## Faults of the port (R344, R357, R361) -/

/-- A HOST fault (R510). -/
def Dev.hostFault (d : Dev) (detail arg : Nat) : Dev := d.raise 0x280 0x18 detail arg

/-- A HOST fault that is only counted within 1 ms of the last one of its kind and window. DEDUCED: log entry 80. -/
def Dev.hostFaultOnce (d : Dev) (e : Env) (detail win arg : Nat) : Dev :=
  let k := 128 * detail + win
  let soon : Bool := match tget d.host.faultAt k with
    | some t => decide (e.raw < t + 1000000)
    | none => false
  if soon then { d with host := { d.host with suppressed := d.host.suppressed + 1 } }
  else { d with host := { d.host with faultAt := tset d.host.faultAt k e.raw } }.hostFault detail arg

/-! ## When the port takes commands (R353, R356, R357, R563) -/

/-- The port is powered and out of reset, and from a start 2 ms have passed. -/
def Dev.portOn (d : Dev) (e : Env) : Bool :=
  !d.host.resetLow && (match d.pow.state with
    | .idle => true
    | .standby => d.pow.sleeping || d.pow.phase == .waking || d.penAnswers e
    | _ => false)

/-- A command at the pins of a channel: ignored while the port is off or CK is out of range, illegal in deep-sleep; any
command ends power-down or self-refresh. DESIGN CHOICE: log entry 47. -/
def Dev.portCmd (d : Dev) (e : Env) (ch arg : Nat) (f : Dev → Dev) : Dev :=
  if !d.portOn e || tgetD d.host.ckBad ch false then d
  else if d.lowOf ch = 3 then d.hostFault 4 arg
  else f (d.setLow ch 0)

/-- Host writes reach the host pen's words. -/
def Dev.penOpen (d : Dev) (e : Env) : Bool := d.penAnswers e && !d.host.resetLow

/-! ## ACTIVATE, fetch, PRECHARGE (R338, R339, R562) -/

/-- DEDUCED: log entry 82. -/
def execActivate (ch : Nat) (b : BankAddr) (row : Nat) (s : State) : Host.Outcome State Fault Refusal :=
  run (.activate ch b row) (fun e d => d.portCmd e ch (hostOffset ch (d.bankOf ch b) row 0) fun d =>
    let bank := d.bankOf ch b
    if (d.page ch bank).isSome then d.hostFault 4 (hostOffset ch bank row 0)
    else (d.setPage ch bank { row := row, fetched := false }).wakeStandby e) s

/-- The 32 lines of a host-pen page are read from the Common. -/
def Dev.fetchPage (d : Dev) (ch bank row : Nat) : Dev :=
  let d := (List.range 32).foldl (fun d i =>
    (d.readLine 0x280 false ((commonBase + hostOffset ch bank row (64 * i)) / 64)).2) d
  d.setPage ch bank { row := row, fetched := true }

def execPageFetchComplete (ch bank : Nat) (s : State) : Host.Outcome State Fault Refusal :=
  run (.pageFetchComplete ch bank) (fun e d =>
    match d.page ch bank with
    | some p => if penRow p.row && !p.fetched && d.penAnswers e then d.fetchPage ch bank p.row else d
    | none => d) s

def execPrecharge (ch : Nat) (b : BankAddr) (s : State) : Host.Outcome State Fault Refusal :=
  run (.precharge ch b) (fun e d => d.portCmd e ch (hostOffset ch (d.bankOf ch b) 0 0) fun d =>
    ({ d with host := { d.host with pages := terase d.host.pages (pageKey ch (d.bankOf ch b)) } }).dropBuffered fun off =>
      off / 256 % 4 == ch && off / 0x2000 % 16 == d.bankOf ch b) s

/-! ## READ (R339, R340, R344, R357, R563) -/

/-- The byte of a burst of posted writes at an address. -/
def cellAt (l : List Host.Cell) (a : Nat) : Option Byte := (l.find? fun c => c.1 == a).map (·.2)

/-- A byte of an open host-pen page: what the Common holds, with the bytes of host writes that are merged into the buffer and
still on their way, unless a device write has come over them since. The status block, the doorbells and the reserved range read as firmware keeps them.
DEDUCED: log entry 46. -/
def Dev.pageByte (d : Dev) (off : Nat) : Byte :=
  if off < 0x10000 then d.penByte off
  else (cellAt d.mem.buffered (commonBase + off)).getD (d.penByte off)

/-- Drives bytes on a channel's DQ, with read Link ECC where it is on (R344, R349). -/
def Dev.drive (d : Dev) (ch : Nat) (l : List Byte) : Dev :=
  { d with host := { d.host with dq := l, dqEcc := if d.readEccOn ch then some (Config.linkEcc l) else none } }

/-- A burst carries 32 or 64 bytes (R336). -/
def burstOk (n : Nat) : Bool := n = 32 || n = 64

/-- DEDUCED: log entry 46. -/
def Dev.hostRead (d : Dev) (e : Env) (ch bank page len : Nat) (wckOk : Bool) : Dev :=
  let zeros : List Byte := List.replicate len 0
  if !d.penAnswers e then d.drive ch zeros
  else match d.page ch bank with
    | none => d.hostFault 4 (hostOffset ch bank 0 page)
    | some p =>
      let off := hostOffset ch bank p.row page
      if !burstOk len then d.hostFault 4 off
      else if !wckOk then (d.drive ch zeros).hostFault 7 off
      else if !penRow p.row then (d.drive ch zeros).hostFaultOnce e 1 (off / 0x4000000) off
      else if !p.fetched then (d.drive ch zeros).hostFault 0 off
      else d.drive ch ((burstOffsets ch bank p.row page len).map d.pageByte)

def execHostRead (ch : Nat) (b : BankAddr) (page len : Nat) (wckOk : Bool) (s : State) : Host.Outcome State Fault Refusal :=
  run (.hostRead ch b page len wckOk) (fun e d => d.portCmd e ch (hostOffset ch (d.bankOf ch b) 0 page) fun d =>
    d.hostRead e ch (d.bankOf ch b) page len wckOk) s

/-! ## WRITE (R342 to R346, R349) -/

/-- Bytes of a channel's window buffer in use. -/
def HostPort.winHeld (h : HostPort) (ch : Nat) : Nat :=
  ((h.winWrites.filter (·.ch == ch)).map (·.cells.length)).sum

/-- A write to the host pen is posted, and merged into the open page buffer (R339, R340). -/
def Dev.postPen (d : Dev) (e : Env) (ch : Nat) (cells : List Host.Cell) (p : Bool) : Dev :=
  let x : PenWrite := { ch := ch, cells := cells, poison := p, posted := e.raw, no := d.host.nextWrite, heeded := d.mbox.ready }
  ({ d with host := { d.host with nextWrite := d.host.nextWrite + 1, penWrites := d.host.penWrites ++ [x] } }).modMem fun m => { m with
    buffered := (m.buffered.filter fun (y : Host.Cell) => !cells.any fun (c : Host.Cell) => commonBase + c.1 == y.1) ++
      cells.map fun (c : Host.Cell) => (commonBase + c.1, c.2) }

/-- A write to a window is posted under the mapping in force. -/
def Dev.postWin (d : Dev) (e : Env) (ch win : Nat) (cells : List Host.Cell) (p : Bool) : Dev :=
  { d with host := { d.host with
      nextWrite := d.host.nextWrite + 1
      winWrites := d.host.winWrites ++ [{
        ch := ch, cells := cells, poison := p, posted := e.raw, win := win, no := d.host.nextWrite }] } }

/-- The bytes of a burst that the mask lets through, with their offsets. -/
def burstCells (offs : List Nat) (data : List Byte) (mask : List Bool) : List Host.Cell :=
  (((offs.zip data).zipIdx).filter fun x => !(mask.getD x.2 false)).map (·.1)

/-- A write at a window row. -/
def Dev.windowWrite (d : Dev) (e : Env) (ch off : Nat) (cells : List Host.Cell) (p : Bool) : Dev :=
  let w := off / 0x4000000
  match tget d.host.windows w with
  | none => d.hostFaultOnce e 2 w off
  | some (base, len) =>
    if len ≤ off % 0x4000000 then d.hostFaultOnce e 2 w off
    else if 0x100000 < d.host.winHeld ch + cells.length then d.hostFault 3 off
    else d.postWin e ch w (cells.map fun c => (base + c.1 % 0x4000000, c.2)) p

/-- `data` is what the check of the burst leaves; the mask counts unless MR13 turns it off. DEDUCED: log entry 46. -/
def Dev.hostWrite (d : Dev) (e : Env) (ch bank page : Nat) (data : List Byte) (mask : List Bool) (ecc : LinkEcc) (wckOk : Bool) :
    Dev :=
  if !d.penAnswers e then d
  else match d.page ch bank with
    | none => d.hostFault 4 (hostOffset ch bank 0 page)
    | some p =>
      let off := hostOffset ch bank p.row page
      if !burstOk data.length then d.hostFault 4 off
      else if !wckOk then d.hostFault 7 off
      else
        let bad := d.writeEccOn ch && ecc == .double
        let m := if d.maskOff ch then [] else mask
        let d := if bad then d.raise 0x280 3 4 off else d
        let cells := burstCells (burstOffsets ch bank p.row page data.length) data m
        if penRow p.row then d.postPen e ch cells bad else d.windowWrite e ch off cells bad

def execHostWrite (ch : Nat) (b : BankAddr) (page : Nat) (data : List Byte) (mask : List Bool) (ecc : LinkEcc) (wckOk : Bool)
    (s : State) : Host.Outcome State Fault Refusal :=
  run (.hostWrite ch b page data mask ecc wckOk) (fun e d => d.portCmd e ch (hostOffset ch (d.bankOf ch b) 0 page) fun d =>
    d.hostWrite e ch (d.bankOf ch b) page data mask ecc wckOk) s

/-! ## Landing in memory (R140, R161, R166, R182, R345, R349) -/

/-- The line of a write. -/
def PenWrite.line (w : PenWrite) : Nat := (w.cells.headD (0, 0)).1 / 64

/-- A write's bytes in one line at `base`: a whole line is replaced, a part merged after the check of the old line; a GDDR6 transfer that
fails poisons it (R183). -/
def Dev.landCells (d : Dev) (base : Nat) (w : PenWrite) : Dev :=
  if w.cells = [] then d
  else
    let line := base / 64 + w.line
    let r := if w.cells.length = 64 then (false, d) else d.readLine (d.memSource (64 * line)) false line
    let x := r.2.transfer line
    let old := x.2.mem.buffered
    let d := w.cells.foldl (fun d c => d.poke (base + c.1) [c.2]) (x.2.freshLine line (w.poison || r.1 || x.1))
    let ahead (a : Nat) : Bool := d.host.penWrites.any fun x => (cellAt x.cells (a - commonBase)).isSome
    d.modMem fun m => { m with buffered := old.filter fun c => !(w.cells.any fun x => base + x.1 == c.1) || ahead c.1 }

/-- The word at an offset with the bytes that a write touches; none where it touches none. -/
def wordWith (cells : List Host.Cell) (off old : Nat) : Option Nat :=
  if [0, 1, 2, 3].any fun i => (cellAt cells (off + i)).isSome then
    some (leNat ([0, 1, 2, 3].map fun i => (cellAt cells (off + i)).getD (BitVec.ofNat 8 (old / 256 ^ i))))
  else none

/-! ## Doorbells (R347, R364, R369, R382) -/

/-- A queue enters ERROR. -/
def Dev.queueError (d : Dev) (q v : Nat) : Dev := (d.modQueue q fun m => { m with error := true }).raise 0x003 0x1A q v

/-- A write to a doorbell of a queue that does not exist. DESIGN CHOICE: log entry 39. -/
def Dev.noQueue (d : Dev) (q v : Nat) : Dev := if v = 0 then d else d.raise 0x003 0x1A q v

/-- A new value of HPC_SQ_TAIL. DESIGN CHOICE: log entry 39. -/
def Dev.sqTailWrite (d : Dev) (q v : Nat) : Dev :=
  match d.queue q with
  | none => d.noQueue q v
  | some m =>
    if m.error || v = m.sqTail then d
    else if 2 ^ 16 ≤ v ∨ m.sqEntries ≤ v ∨ m.sqEntries ≤ m.used + (v + m.sqEntries - m.sqTail) % m.sqEntries then d.queueError q v
    else d.modQueue q fun m => { m with sqTail := v }

/-- A new value of HPC_CQ_HEAD frees slots; the interrupt is evaluated and an owed LOST posted. In ERROR a head inside the posted
entries still frees them, and any other has no effect (R369, R382). DESIGN CHOICE: log entry 39. -/
def Dev.cqHeadWrite (d : Dev) (e : Env) (q v : Nat) : Dev :=
  match d.queue q with
  | none => d.noQueue q v
  | some m =>
    let n := (v + m.cqEntries - m.cqHead) % m.cqEntries
    if 2 ^ 16 ≤ v ∨ m.cqEntries ≤ v ∨ m.unread.length < n then (if m.error then d else d.queueError q v)
    else
      let d := d.modQueue q fun m => { m with cqHead := v, unread := m.unread.drop n }
      if d.serving then (d.evalIrq e q).postLost e q else d

/-- A write to a doorbell line: queue and word by its offset. Firmware acts on none that came before it was ready (R355).
DESIGN CHOICE: log entry 39. -/
def Dev.doorbell (d : Dev) (e : Env) (w : PenWrite) : Dev :=
  let off := 64 * w.line
  let q := (off - 0x1000) / 0x80
  match wordWith w.cells off (d.doorbellWord off) with
  | none => d
  | some v => if !(d.mbox.ready && w.heeded) then d else if off % 0x80 = 0 then d.sqTailWrite q v else d.cqHeadWrite e q v

/-! ## Control words (R323, R361, R363, R386, R542) -/

/-- A write to HPC_HOST_ALIVE; 0xB007 offers ROM a pushed container. -/
def Dev.aliveWrite (d : Dev) (f : Fuses) (v : Nat) : Dev :=
  let d := { d with mbox := { d.mbox with hostAlive := BitVec.ofNat 32 v } }
  if v = 0xB007 then d.pushBoot f else d

/-- A write of HPC_HOST_CTRL: bit 0 resets the admin queue once READY is set. -/
def Dev.ctrlWrite (d : Dev) (e : Env) (v : Nat) : Dev := if bitOf v 0 && d.mbox.ready then d.adminReset e else d

/-- A write to the status block: everything but the control words and HPC_FSET_DONE is dropped. A control word from before firmware was
ready moves ROM alone (R355, R542). -/
def Dev.statusLand (d : Dev) (e : Env) (cells : List Host.Cell) (heeded : Bool) : Dev :=
  let d := match wordWith cells 0x0C4 d.mbox.hostAlive.toNat with
    | some v => d.aliveWrite e.fuse v
    | none => d
  let d := match wordWith cells 0x0C0 0 with
    | some v => if heeded then d.ctrlWrite e v else d
    | none => d
  (List.range 16).foldl (fun d f =>
    match wordWith cells (0x800 + 64 * f + 0x28) (d.fset f).doneValue with
    | some v => d.fsetDone e f .hostPort v
    | none => d) d

/-! ## The order of landing (R347) -/

/-- A burst whose Link ECC found two bad bits leaves its line's poison bit set wherever it lands (R349). -/
def Dev.markBurst (d : Dev) (w : PenWrite) : Dev := if w.poison then d.freshLine (commonBase / 64 + w.line) true else d

/-- A posted host-pen write takes effect, by the place it names. -/
def Dev.landPen (d : Dev) (e : Env) (w : PenWrite) : Dev :=
  let off := 64 * w.line
  let d := if off < 0x2000 then d.markBurst w else d
  if off < 0x1000 then d.statusLand e w.cells w.heeded
  else if off < 0x2000 then d.doorbell e w
  else if off < 0x10000 then d.hostFaultOnce e 8 0 ((w.cells.headD (0, 0)).1)
  else d.landCells commonBase w

/-- A posted window write reaches GDDR6; a failed interface drops it. -/
def Dev.landWin (d : Dev) (w : PenWrite) : Dev := if d.gddrFailed (64 * w.line) then d else d.landCells 0 w

/-- The writes that a doorbell waits for: accepted at least 20 ns before it. -/
def PenWrite.before (w x : PenWrite) : Bool := decide (x.posted + 20 ≤ w.posted)

/-- Takes the writes that meet a test out of a list. -/
def takeWrites (l : List PenWrite) (p : PenWrite → Bool) : List PenWrite × List PenWrite :=
  (l.filter p, l.filter fun w => !p w)

/-- Every write that a doorbell waits for lands: the windows', then the host pen's in their order. -/
def Dev.landBefore (d : Dev) (e : Env) (w : PenWrite) : Dev :=
  let a := takeWrites d.host.winWrites w.before
  let b := takeWrites d.host.penWrites w.before
  let d := { d with host := { d.host with winWrites := a.2, penWrites := b.2 } }
  b.1.foldl (fun d x => d.landPen e x) (a.1.foldl (fun d x => d.landWin x) d)

/-- A doorbell is held back while GDDR6 in self-refresh holds back a window write that it waits for, and from STANDBY until IDLE
(R183, R347, R385). -/
def Dev.heldBack (d : Dev) (w : PenWrite) : Bool :=
  (d.gddr.selfRefresh && d.host.winWrites.any w.before) || (d.mbox.ready && !d.serving)

/-- A host-pen write lands; a doorbell word after the writes before it. -/
def Dev.landNow (d : Dev) (e : Env) (w : PenWrite) : Dev :=
  if 0x1000 ≤ 64 * w.line ∧ 64 * w.line < 0x2000 then ((d.landBefore e w).landPen e w).settleWindows e else d.landPen e w

/-- Write `i` of a list lands only after every earlier write to its line. -/
def nextOnLine (l : List PenWrite) (i : Nat) : Option PenWrite :=
  match l[i]? with
  | some w => if (l.take i).any fun x => x.line == w.line then none else some w
  | none => none

def execHostPenWriteLand (i : Nat) (s : State) : Host.Outcome State Fault Refusal :=
  run (.hostPenWriteLand i) (fun e d =>
    if !d.penAnswers e then d
    else match nextOnLine d.host.penWrites i with
    | some w =>
      if 0x1000 ≤ 64 * w.line ∧ 64 * w.line < 0x2000 ∧ d.heldBack w then d
      else { d with host := { d.host with penWrites := d.host.penWrites.eraseIdx i } }.landNow e w
    | none => d) s

/-- A write of a channel's window buffer lands, when GDDR6 serves writes (R183). -/
def execWindowWriteLand (ch : Nat) (x : WindowLand) (s : State) : Host.Outcome State Fault Refusal :=
  run (.windowWriteLand ch x) (fun e d =>
    match (d.host.winWrites.filter (·.ch == ch))[x.place]? with
    | some w =>
      let l := d.host.winWrites.takeWhile (·.no != w.no)
      if d.gddr.selfRefresh || l.any (fun y => y.line == w.line) then d
      else ({ d with host := { d.host with winWrites := d.host.winWrites.filter (·.no != w.no) } }.meetEdc (64 * w.line) x.edc |>.landWin w).settleWindows e
    | none => d) s

/-! ## Writes of single words, as rows of their own -/

/-- A 4-byte host write to the host pen at an offset of it. -/
def wordWrite (e : Env) (off v no : Nat) : PenWrite :=
  { ch := off / 256 % 4, cells := (leBytes 4 v).zipIdx.map (fun x => (off + x.2, x.1)), poison := false, posted := e.raw, no := no, heeded := true }

/-- A posted host-pen write lands now, if it has not landed yet. -/
def Dev.landOne (d : Dev) (e : Env) (w : PenWrite) : Dev :=
  if d.host.penWrites.any (·.no == w.no) then
    { d with host := { d.host with penWrites := d.host.penWrites.filter (·.no != w.no) } }.landNow e w
  else d

/-- The earlier posted writes to a line of the host pen land, each in its turn (R347). -/
def Dev.landMine (d : Dev) (e : Env) (line : Nat) : Dev :=
  (d.host.penWrites.filter fun x => x.line == line).foldl (fun d x => d.landOne e x) d

/-- A doorbell word: posted where something holds it back, else it acts at once, after earlier writes to its own line. -/
def Dev.doorbellWrite (d : Dev) (e : Env) (off v : Nat) : Dev :=
  let w := { wordWrite e off v d.host.nextWrite with heeded := d.mbox.ready }
  if !d.penOpen e then d
  else if d.heldBack w then
    { d with host := { d.host with nextWrite := d.host.nextWrite + 1, penWrites := d.host.penWrites ++ [w] } }
  else (d.landMine e w.line).landNow e w

def execHpcSqTail (q : Nat) (v : Word32) (s : State) : Host.Outcome State Fault Refusal :=
  run (.hpcSqTail q v) (fun e d => d.doorbellWrite e (0x1000 + 0x80 * q) v.toNat) s

def execHpcCqHead (q : Nat) (v : Word32) (s : State) : Host.Outcome State Fault Refusal :=
  run (.hpcCqHead q v) (fun e d => d.doorbellWrite e (0x1040 + 0x80 * q) v.toNat) s

def execAdminReset (v : Word32) (s : State) : Host.Outcome State Fault Refusal :=
  run (.adminReset v) (fun e d => if d.penOpen e then (d.landMine e (0x0C0 / 64)).ctrlWrite e v.toNat else d) s

def execHpcHostAlive (v : Word32) (s : State) : Host.Outcome State Fault Refusal :=
  run (.hpcHostAlive v) (fun e d => if d.penOpen e then (d.landMine e (0x0C4 / 64)).aliveWrite e.fuse v.toNat else d) s

/-- A thread's word, or a host write after those before it, to HPC_FSET_DONE. -/
def execHpcFsetDone (f : Nat) (w : Writer) (v : Word32) (s : State) : Host.Outcome State Fault Refusal :=
  run (.hpcFsetDone f w v) (fun e d =>
    (match w with
     | .hostPort => d.landMine e ((0x800 + 64 * f) / 64)
     | .thread _ => d).fsetDone e f w v.toNat) s

/-- A host write to the status block or the reserved range. -/
def execStatusBlockWrite (offset : Nat) (data : List Byte) (s : State) : Host.Outcome State Fault Refusal :=
  run (.statusBlockWrite offset data) (fun e d =>
    if !d.penOpen e || data.isEmpty then d
    else if offset < 0x1000 then
      (d.landMine e (offset / 64)).statusLand e (data.zipIdx.map fun x => (offset + x.2, x.1)) d.mbox.ready
    else if 0x2000 ≤ offset ∧ offset < 0x10000 then (d.landMine e (offset / 64)).hostFaultOnce e 8 0 offset
    else d) s

/-! ## Commands on mode registers, and training (R334, R354, R355) -/

def execModeRegisterWrite (ch mr : Nat) (v : Byte) (s : State) : Host.Outcome State Fault Refusal :=
  run (.modeRegisterWrite ch mr v) (fun e d => d.portCmd e ch (256 * ch) fun d => d.mrWrite ch mr v) s

def execModeRegisterRead (ch mr : Nat) (s : State) : Host.Outcome State Fault Refusal :=
  run (.modeRegisterRead ch mr) (fun e d => d.portCmd e ch (256 * ch) fun d =>
    { d with host := { d.host with mrData := d.mrValue ch mr } }) s

/-- Refresh commands are accepted with no internal action. -/
def execRefresh (ch : Nat) (s : State) : Host.Outcome State Fault Refusal :=
  run (.refresh ch) (fun e d => d.portCmd e ch (256 * ch) id) s

/-- The data of a training step: read DQ calibration drives the patterns of MR31 to MR34, WFF fills the channel's FIFO and RFF
drives its oldest burst. DESIGN CHOICE: log entry 8. -/
def Dev.trainData (d : Dev) (ch : Nat) (k : TrainStep) : Dev :=
  match k.kind with
  | .readDq => d.drive ch (Config.dqPattern ([31, 32, 33, 34].map fun n => d.mrInForce ch n))
  | .wff => { d with host := { d.host with fifo := tset d.host.fifo ch (tgetD d.host.fifo ch [] ++ [k.data]) } }
  | .rff =>
    let l := tgetD d.host.fifo ch []
    ({ d with host := { d.host with fifo := tset d.host.fifo ch (l.drop 1) } }).drive ch (l.headD [])
  | _ => d

def execTrainingStep (ch : Nat) (k : TrainStep) (s : State) : Host.Outcome State Fault Refusal :=
  run (.trainingStep ch k) (fun e d => d.portCmd e ch (256 * ch) fun d =>
    ({ d with host := { d.host with training := tset d.host.training ch k.kind } }).trainData ch k) s

/-! ## Low power (R356) -/

def execPowerDownEntry (ch : Nat) (selfRefresh : Bool) (s : State) : Host.Outcome State Fault Refusal :=
  run (.powerDownEntry ch selfRefresh) (fun e d => d.portCmd e ch (256 * ch) fun d =>
    (d.closePages ch).setLow ch (if selfRefresh then 2 else 1)) s

/-- Firmware moves the device to STANDBY on a host-sleep event where the host has enabled it and R397 accepts. -/
def Dev.hostSleepEvent (d : Dev) : Dev :=
  if [0, 1, 2, 3].all (fun c => d.lowOf c == 3) && d.mbox.hostSleep && d.mbox.ready && d.pow.state == .idle &&
      d.powerRefusal.isNone then d.enterStandby
  else d

/-- DESIGN CHOICE: log entry 47. -/
def execDeepSleepEntry (ch : Nat) (s : State) : Host.Outcome State Fault Refusal :=
  runPower (.deepSleepEntry ch) (fun e d => d.portCmd e ch (256 * ch) fun d =>
    ((d.closePages ch).setLow ch 3).hostSleepEvent) s

/-- DESIGN CHOICE: log entry 47. DEDUCED: log entry 82. -/
def execDeepSleepExit (ch : Nat) (s : State) : Host.Outcome State Fault Refusal :=
  run (.deepSleepExit ch) (fun e d =>
    if d.portOn e && d.lowOf ch = 3 then (d.setLow ch 0).wakeStandby e else d) s

/-! ## Reset and input checks (R353, R357) -/

/-- The port's reset: the port alone; window mappings and accepted writes stay (R353). -/
def Dev.portReset (d : Dev) (low : Bool) : Dev :=
  { d with host := { d.host with
      mr := [], training := [], fifo := [], pages := [], low := [], ckBad := [], resetLow := low } }.dropBuffered fun _ => true

/-- HP_RESET_N: a pulse shorter than 80 ns is ignored (R357). DESIGN CHOICE: log entry 47. -/
def execHpResetN (p : ResetPin) (s : State) : Host.Outcome State Fault Refusal :=
  run (.hpResetN p) (fun _ d =>
    match p with
    | .low => d.portReset true
    | .high => { d with host := { d.host with resetLow := false } }
    | .pulse ns => if ns < 80 then d else d.portReset false) s

/-- CK of a channel as measured, 0 while it is absent: in a low-power state an absent CK is no reading. DESIGN CHOICE: log entry 47. -/
def ckInRange (kHz : Nat) : Bool := 190000 ≤ kHz && kHz ≤ 1120000

def execCkCheck (ch kHz : Nat) (s : State) : Host.Outcome State Fault Refusal :=
  run (.ckCheck ch kHz) (fun e d =>
    if !d.portOn e || (kHz = 0 && d.lowOf ch ≠ 0) then d
    else if ckInRange kHz then { d with host := { d.host with ckBad := terase d.host.ckBad ch } }
    else if tgetD d.host.ckBad ch false then d
    else { d with host := { d.host with ckBad := tset d.host.ckBad ch true } }.hostFault 5 (256 * ch)) s

def execCkTimeout (ch : Nat) (s : State) : Host.Outcome State Fault Refusal :=
  run (.ckTimeout ch) (fun e d =>
    if !d.portOn e || d.lowOf ch ≠ 0 then d else (d.closePages ch).hostFault 6 (256 * ch)) s

end Sys2Proof.Machine
end

