-- ==== Sys2Proof/Machine/Take.lean ====
section
/-! DEFINITION. How firmware takes a submission entry: which queue is next, when an entry may be taken, and the command that its
opcode names (R366, R369, R371, R373, R374). -/

namespace Sys2Proof.Machine

open Sys2Proof

/-! ## The commands by opcode (R371, R392 to R410) -/

/-- Queue and device commands (R371, R395, R396). -/
def queueHandlers : List (Nat × Handler) := [
  (0x0001, hCreateQueue), (0x0002, hDeleteQueue), (0x0003, hAbort),
  (0x0004, hDeviceInfo), (0x0005, hIrqDest), (0x0006, hFuncState)]

/-- Program images and firmware. -/
def programHandlers : List (Nat × Handler) := [
  (0x0200, hLoad), (0x0201, hUnload), (0x0202, hStart),
  (0x0203, hStop), (0x0204, hInvoke), (0x0205, hFirmwareStage)]

/-- The Race. -/
def raceHandlers : List (Nat × Handler) := [
  (0x0300, hGateConfigure), (0x0301, hGateSet), (0x0302, hGateStart),
  (0x0303, hGateStop), (0x0304, hGateRelease), (0x0305, hGateFeed),
  (0x0306, hGateMap), (0x0307, hPortConfigure), (0x0308, hFsetConfigure),
  (0x0309, hFsetHold)]

/-- Windows and tables. -/
def tableHandlers : List (Nat × Handler) := [
  (0x0400, hWindowMap), (0x0401, hGateTableLoad), (0x0402, hGateTableSwitch),
  (0x0403, hTableLoad), (0x0404, hTableSwitch)]

/-- Time. -/
def timeHandlers : List (Nat × Handler) := [
  (0x0500, hDomainConfigure), (0x0501, hDomainStart), (0x0502, hDomainStop),
  (0x0503, hDomainRelease), (0x0504, hTimeSelect), (0x0505, hPortDelay),
  (0x0506, hTimeRead), (0x0510, hTrigConfigure), (0x0511, hTrigStart),
  (0x0512, hTrigStop), (0x0513, hTrigRelease)]

/-- The flock. -/
def flockHandlers : List (Nat × Handler) := [
  (0x0600, hFlockIdentity), (0x0601, hFlockEvent), (0x0602, hEthPort),
  (0x0610, hPeerConfigure), (0x0611, hPeerStart), (0x0612, hPeerStop),
  (0x0613, hPeerRelease), (0x0620, hStileConfigure), (0x0621, hStileStart),
  (0x0622, hStileStop), (0x0623, hStileRelease)]

/-- Power and safety. -/
def safetyHandlers : List (Nat × Handler) := [
  (0x0100, hPower), (0x0700, hSelftestPlan), (0x0701, hAgreeConfigure),
  (0x0702, hSpareTest)]

/-- Fault collection. -/
def faultHandlers : List (Nat × Handler) := [
  (0x0800, hSeveritySet), (0x0801, hSeverityRead), (0x0802, hStickyRead),
  (0x0803, hStickyClear), (0x0804, hLogConfigure), (0x0805, hFaultInject)]

/-- Security. -/
def securityHandlers : List (Nat × Handler) := [
  (0x0900, hAttest), (0x0901, hLifecycleSet), (0x0902, hDebugChallenge),
  (0x0903, hDebugUnlock), (0x0904, hDebugLock)]

/-- The handler of an opcode. -/
def handlerOf (o : Nat) : Option Handler :=
  tget (queueHandlers ++ programHandlers ++ raceHandlers ++ tableHandlers ++ timeHandlers ++ flockHandlers ++ safetyHandlers ++
    faultHandlers ++ securityHandlers) o

/-! ## Taking (R373) -/

/-- Firmware may take the next entry of a queue: one is exposed, the queue is neither in ERROR nor being deleted, and its
completion ring has a free slot for every outstanding command and one more. -/
def Dev.takeable (d : Dev) (q : Nat) : Bool := d.canTake q && 0 < ((d.queue q).map (·.used)).getD 0

/-- The queue whose entry is next, with the entries then taken from it in this turn: at most 8 from one queue in a turn, and a
turn begins with queue 0. DEDUCED: log entry 41. -/
def Dev.nextQueue (d : Dev) : Option (Nat × Nat) :=
  let t := d.mbox.turn
  if d.mbox.taken < 8 ∧ d.takeable t then some (t, d.mbox.taken + 1)
  else
    let l := (List.range 32).filter fun q => d.takeable q
    match l.find? fun q => t < q with
    | some q => some (q, 1)
    | none => l.head?.map fun q => (q, 1)

/-- The fields of a submission entry (R366). DEDUCED: log entry 41. -/
def entryOf (b : List Byte) : Nat × Sub :=
  (fieldAt b 0 2, {
    flags := fieldAt b 2 2, tag := fieldAt b 4 4, target := fieldAt b 8 4, timeoutUs := fieldAt b 12 4, args := b.drop 16 })

/-- Firmware takes the next entry of a queue: HEAD passes it, and it is served; a poisoned one completes with INTEGRITY.
DEDUCED: log entry 41. -/
def Dev.takeSubmission (d : Dev) (e : Env) (q : Nat) : Dev :=
  match d.queue q with
  | none => d
  | some m =>
    let a := commonBase + m.sqBase + 64 * m.sqHead
    let x := entryOf (d.raw a 64)
    let r := d.readLines 0x003 false a 64
    let d := r.2.modQueue q fun m => { m with sqHead := (m.sqHead + 1) % m.sqEntries }
    if r.1 && !d.mbox.marked.contains (q, x.2.tag) then d.complete e q x.1 x.2 { status := stIntegrity }
    else d.serve e q x.1 x.2 ((handlerOf x.1).getD fun _ _ _ d => refuse stNotSupported d)

def execSubmissionTake (s : State) : Host.Outcome State Fault Refusal :=
  runPower .submissionTake (fun e d =>
    if !d.serving || d.mbox.frozen then d
    else match d.nextQueue with
      | some (q, n) => { d with mbox := { d.mbox with turn := q, taken := n } }.takeSubmission e q
      | none => d) s

end Sys2Proof.Machine
end

