-- ==== Sys2Proof/Machine/Dispatch.lean ====
section
/-! DEFINITION. The meaning of each command: one arm per row of the operation and event table, in its order. -/

namespace Sys2Proof.Machine

open Sys2Proof

def exec (i : Instr) (s : State) : Host.Outcome State Fault Refusal :=
  match i with
  | .createQueue q e => Sys2Proof.Machine.execCreateQueue q e s
  | .deleteQueue q e => Sys2Proof.Machine.execDeleteQueue q e s
  | .abort q e => Sys2Proof.Machine.execAbort q e s
  | .deviceInfo q e => Sys2Proof.Machine.execDeviceInfo q e s
  | .irqDest q e => Sys2Proof.Machine.execIrqDest q e s
  | .funcState q e => Sys2Proof.Machine.execFuncState q e s
  | .power q e => Sys2Proof.Machine.execPower q e s
  | .load q e => Sys2Proof.Machine.execLoad q e s
  | .unload q e => Sys2Proof.Machine.execUnload q e s
  | .start q e => Sys2Proof.Machine.execStart q e s
  | .stop q e => Sys2Proof.Machine.execStop q e s
  | .invoke q e => Sys2Proof.Machine.execInvoke q e s
  | .firmwareStage q e => Sys2Proof.Machine.execFirmwareStage q e s
  | .gateConfigure q e => Sys2Proof.Machine.execGateConfigure q e s
  | .gateSet q e => Sys2Proof.Machine.execGateSet q e s
  | .gateStart q e => Sys2Proof.Machine.execGateStart q e s
  | .gateStop q e => Sys2Proof.Machine.execGateStop q e s
  | .gateRelease q e => Sys2Proof.Machine.execGateRelease q e s
  | .gateFeed q e => Sys2Proof.Machine.execGateFeed q e s
  | .gateMap q e => Sys2Proof.Machine.execGateMap q e s
  | .portConfigure q e => Sys2Proof.Machine.execPortConfigure q e s
  | .fsetConfigure q e => Sys2Proof.Machine.execFsetConfigure q e s
  | .fsetHold q e => Sys2Proof.Machine.execFsetHold q e s
  | .windowMap q e => Sys2Proof.Machine.execWindowMap q e s
  | .gateTableLoad q e => Sys2Proof.Machine.execGateTableLoad q e s
  | .gateTableSwitch q e => Sys2Proof.Machine.execGateTableSwitch q e s
  | .tableLoad q e => Sys2Proof.Machine.execTableLoad q e s
  | .tableSwitch q e => Sys2Proof.Machine.execTableSwitch q e s
  | .domainConfigure q e => Sys2Proof.Machine.execDomainConfigure q e s
  | .domainStart q e => Sys2Proof.Machine.execDomainStart q e s
  | .domainStop q e => Sys2Proof.Machine.execDomainStop q e s
  | .domainRelease q e => Sys2Proof.Machine.execDomainRelease q e s
  | .timeSelect q e => Sys2Proof.Machine.execTimeSelect q e s
  | .portDelay q e => Sys2Proof.Machine.execPortDelay q e s
  | .timeRead q e => Sys2Proof.Machine.execTimeRead q e s
  | .trigConfigure q e => Sys2Proof.Machine.execTrigConfigure q e s
  | .trigStart q e => Sys2Proof.Machine.execTrigStart q e s
  | .trigStop q e => Sys2Proof.Machine.execTrigStop q e s
  | .trigRelease q e => Sys2Proof.Machine.execTrigRelease q e s
  | .flockIdentity q e => Sys2Proof.Machine.execFlockIdentity q e s
  | .flockEvent q e => Sys2Proof.Machine.execFlockEvent q e s
  | .ethPort q e => Sys2Proof.Machine.execEthPort q e s
  | .peerConfigure q e => Sys2Proof.Machine.execPeerConfigure q e s
  | .peerStart q e => Sys2Proof.Machine.execPeerStart q e s
  | .peerStop q e => Sys2Proof.Machine.execPeerStop q e s
  | .peerRelease q e => Sys2Proof.Machine.execPeerRelease q e s
  | .stileConfigure q e => Sys2Proof.Machine.execStileConfigure q e s
  | .stileStart q e => Sys2Proof.Machine.execStileStart q e s
  | .stileStop q e => Sys2Proof.Machine.execStileStop q e s
  | .stileRelease q e => Sys2Proof.Machine.execStileRelease q e s
  | .selftestPlan q e => Sys2Proof.Machine.execSelftestPlan q e s
  | .agreeConfigure q e => Sys2Proof.Machine.execAgreeConfigure q e s
  | .spareTest q e => Sys2Proof.Machine.execSpareTest q e s
  | .severitySet q e => Sys2Proof.Machine.execSeveritySet q e s
  | .severityRead q e => Sys2Proof.Machine.execSeverityRead q e s
  | .stickyRead q e => Sys2Proof.Machine.execStickyRead q e s
  | .stickyClear q e => Sys2Proof.Machine.execStickyClear q e s
  | .logConfigure q e => Sys2Proof.Machine.execLogConfigure q e s
  | .faultInject q e => Sys2Proof.Machine.execFaultInject q e s
  | .attest q e => Sys2Proof.Machine.execAttest q e s
  | .lifecycleSet q e => Sys2Proof.Machine.execLifecycleSet q e s
  | .lifecycleReset => Sys2Proof.Machine.execLifecycleReset s
  | .debugChallenge q e => Sys2Proof.Machine.execDebugChallenge q e s
  | .debugUnlock q e => Sys2Proof.Machine.execDebugUnlock q e s
  | .debugAccessGrant => Sys2Proof.Machine.execDebugAccessGrant s
  | .debugLock q e => Sys2Proof.Machine.execDebugLock q e s
  | .debugSessionExpiry => Sys2Proof.Machine.execDebugSessionExpiry s
  | .commandTimeout q tag => Sys2Proof.Machine.execCommandTimeout q tag s
  | .hpcSqTail q v => Sys2Proof.Machine.execHpcSqTail q v s
  | .hpcCqHead q v => Sys2Proof.Machine.execHpcCqHead q v s
  | .adminReset v => Sys2Proof.Machine.execAdminReset v s
  | .hpcHostAlive v => Sys2Proof.Machine.execHpcHostAlive v s
  | .hpcFsetDone f w v => Sys2Proof.Machine.execHpcFsetDone f w v s
  | .statusBlockWrite offset data => Sys2Proof.Machine.execStatusBlockWrite offset data s
  | .submissionTake => Sys2Proof.Machine.execSubmissionTake s
  | .coalesceTimeout q => Sys2Proof.Machine.execCoalesceTimeout q s
  | .irqMessageResend q => Sys2Proof.Machine.execIrqMessageResend q s
  | .hpcHeartbeat => Sys2Proof.Machine.execHpcHeartbeat s
  | .hostSilentCheck => Sys2Proof.Machine.execHostSilentCheck s
  | .firmwareReady => Sys2Proof.Machine.execFirmwareReady s
  | .activate ch b row => Sys2Proof.Machine.execActivate ch b row s
  | .pageFetchComplete ch bank => Sys2Proof.Machine.execPageFetchComplete ch bank s
  | .precharge ch b => Sys2Proof.Machine.execPrecharge ch b s
  | .hostRead ch b page len wckOk => Sys2Proof.Machine.execHostRead ch b page len wckOk s
  | .hostWrite ch b page data mask ecc wckOk => Sys2Proof.Machine.execHostWrite ch b page data mask ecc wckOk s
  | .hostPenWriteLand n => Sys2Proof.Machine.execHostPenWriteLand n s
  | .windowWriteLand ch x => Sys2Proof.Machine.execWindowWriteLand ch x s
  | .modeRegisterWrite ch mr v => Sys2Proof.Machine.execModeRegisterWrite ch mr v s
  | .modeRegisterRead ch mr => Sys2Proof.Machine.execModeRegisterRead ch mr s
  | .refresh ch => Sys2Proof.Machine.execRefresh ch s
  | .trainingStep ch k => Sys2Proof.Machine.execTrainingStep ch k s
  | .powerDownEntry ch selfRefresh => Sys2Proof.Machine.execPowerDownEntry ch selfRefresh s
  | .deepSleepEntry ch => Sys2Proof.Machine.execDeepSleepEntry ch s
  | .deepSleepExit ch => Sys2Proof.Machine.execDeepSleepExit ch s
  | .hpResetN p => Sys2Proof.Machine.execHpResetN p s
  | .ckCheck ch kHz => Sys2Proof.Machine.execCkCheck ch kHz s
  | .ckTimeout ch => Sys2Proof.Machine.execCkTimeout ch s
  | .alu t op rd ra rb rc => Sys2Proof.Machine.execAlu t op rd ra rb rc s
  | .mul t rd ra rb => Sys2Proof.Machine.execMul t rd ra rb s
  | .branch t c ra rb target => Sys2Proof.Machine.execBranch t c ra rb target s
  | .threadLoad t size rd ra x => Sys2Proof.Machine.execThreadLoad t size rd ra x s
  | .threadStore t size ra off rs => Sys2Proof.Machine.execThreadStore t size ra off rs s
  | .threadAtomic t op size rd ra rb rc => Sys2Proof.Machine.execThreadAtomic t op size rd ra rb rc s
  | .fence t => Sys2Proof.Machine.execFence t s
  | .issue t engine rd ra => Sys2Proof.Machine.execIssue t engine rd ra s
  | .group t members => Sys2Proof.Machine.execGroup t members s
  | .waitEngine t => Sys2Proof.Machine.execWaitEngine t s
  | .waitQueue t => Sys2Proof.Machine.execWaitQueue t s
  | .waitCredit t => Sys2Proof.Machine.execWaitCredit t s
  | .waitSlotFull t => Sys2Proof.Machine.execWaitSlotFull t s
  | .waitSlotEmpty t => Sys2Proof.Machine.execWaitSlotEmpty t s
  | .waitHurdle t => Sys2Proof.Machine.execWaitHurdle t s
  | .waitTime t => Sys2Proof.Machine.execWaitTime t s
  | .waitQstat t => Sys2Proof.Machine.execWaitQstat t s
  | .postQueue t => Sys2Proof.Machine.execPostQueue t s
  | .postQueueEnd t => Sys2Proof.Machine.execPostQueueEnd t s
  | .postMarkFull t => Sys2Proof.Machine.execPostMarkFull t s
  | .postMarkEmpty t => Sys2Proof.Machine.execPostMarkEmpty t s
  | .postArrive t => Sys2Proof.Machine.execPostArrive t s
  | .time t rd dom => Sys2Proof.Machine.execTime t rd dom s
  | .endThread t => Sys2Proof.Machine.execEndThread t s
  | .illegalInstruction t => Sys2Proof.Machine.execIllegalInstruction t s
  | .waitDeadline t => Sys2Proof.Machine.execWaitDeadline t s
  | .waitTimeout t => Sys2Proof.Machine.execWaitTimeout t s
  | .timeWaitExpiry t => Sys2Proof.Machine.execTimeWaitExpiry t s
  | .narrowStoreMerge n => Sys2Proof.Machine.execNarrowStoreMerge n s
  | .queueEntryArrival n => Sys2Proof.Machine.execQueueEntryArrival n s
  | .raceReleaseEntry n => Sys2Proof.Machine.execRaceReleaseEntry n s
  | .slotMarkArrival n => Sys2Proof.Machine.execSlotMarkArrival n s
  | .slotReaderTimeout ident reader => Sys2Proof.Machine.execSlotReaderTimeout ident reader s
  | .slotWriterTimeout ident writer => Sys2Proof.Machine.execSlotWriterTimeout ident writer s
  | .hurdleArrival n => Sys2Proof.Machine.execHurdleArrival n s
  | .hurdleReleaseArrival n => Sys2Proof.Machine.execHurdleReleaseArrival n s
  | .hurdleTimeout ident => Sys2Proof.Machine.execHurdleTimeout ident s
  | .jobStart n eng => Sys2Proof.Machine.execJobStart n eng s
  | .groupStart n => Sys2Proof.Machine.execGroupStart n s
  | .jobComplete n x => Sys2Proof.Machine.execJobComplete n x s
  | .droverStart n d => Sys2Proof.Machine.execDroverStart n d s
  | .droverComplete n x => Sys2Proof.Machine.execDroverComplete n x s
  | .droverGuardRetry n d => Sys2Proof.Machine.execDroverGuardRetry n d s
  | .sliceStart p sl => Sys2Proof.Machine.execSliceStart p sl s
  | .sliceEnd p signature => Sys2Proof.Machine.execSliceEnd p signature s
  | .coverageLapse p sl => Sys2Proof.Machine.execCoverageLapse p sl s
  | .sliceWake n => Sys2Proof.Machine.execSliceWake n s
  | .sparePeriodicTest passed => Sys2Proof.Machine.execSparePeriodicTest passed s
  | .foldGate n => Sys2Proof.Machine.execFoldGate n s
  | .foldWake n => Sys2Proof.Machine.execFoldWake n s
  | .foldMemoryRetention n => Sys2Proof.Machine.execFoldMemoryRetention n s
  | .foldRetirement p => Sys2Proof.Machine.execFoldRetirement p s
  | .scrub unit => Sys2Proof.Machine.execScrub unit s
  | .correctionWriteback line => Sys2Proof.Machine.execCorrectionWriteback line s
  | .poisonBitStore line => Sys2Proof.Machine.execPoisonBitStore line s
  | .gddr6TemperatureRead n reading => Sys2Proof.Machine.execGddr6TemperatureRead n reading s
  | .gddr6ReadTimeout n addr t => Sys2Proof.Machine.execGddr6ReadTimeout n addr t s
  | .csiFrameStart port vc ecc frameNumber => Sys2Proof.Machine.execCsiFrameStart port vc ecc frameNumber s
  | .csiFrameEnd port vc ecc frameNumber => Sys2Proof.Machine.execCsiFrameEnd port vc ecc frameNumber s
  | .csiLongPacket port vc ecc dt wc crcOk fifoFull data => Sys2Proof.Machine.execCsiLongPacket port vc ecc dt wc crcOk fifoFull data s
  | .csiLineMarker port h => Sys2Proof.Machine.execCsiLineMarker port h s
  | .lineTimeout g => Sys2Proof.Machine.execLineTimeout g s
  | .frameTimeMax g => Sys2Proof.Machine.execFrameTimeMax g s
  | .silenceTimeout g => Sys2Proof.Machine.execSilenceTimeout g s
  | .secondFaultReport => Sys2Proof.Machine.execSecondFaultReport s
  | .ethSensorFrame f => Sys2Proof.Machine.execEthSensorFrame f s
  | .periodSampleClose g => Sys2Proof.Machine.execPeriodSampleClose g s
  | .feedRead g => Sys2Proof.Machine.execFeedRead g s
  | .decodeSlot g used => Sys2Proof.Machine.execDecodeSlot g used s
  | .decodeBudgetExhausted g unitsDone => Sys2Proof.Machine.execDecodeBudgetExhausted g unitsDone s
  | .readinessNotice g => Sys2Proof.Machine.execReadinessNotice g s
  | .deadlineJudge f => Sys2Proof.Machine.execDeadlineJudge f s
  | .agreementRun f => Sys2Proof.Machine.execAgreementRun f s
  | .verdictWrite f => Sys2Proof.Machine.execVerdictWrite f s
  | .agreeSelfCheck reported => Sys2Proof.Machine.execAgreeSelfCheck reported s
  | .sync m => Sys2Proof.Machine.execSync m s
  | .followUp m => Sys2Proof.Machine.execFollowUp m s
  | .delayResp m => Sys2Proof.Machine.execDelayResp m s
  | .pdelayResp m => Sys2Proof.Machine.execPdelayResp m s
  | .announce m => Sys2Proof.Machine.execAnnounce m s
  | .masterLoss d => Sys2Proof.Machine.execMasterLoss d s
  | .crossCheck => Sys2Proof.Machine.execCrossCheck s
  | .bridgeForward f => Sys2Proof.Machine.execBridgeForward f s
  | .triggerLeadingEdge n => Sys2Proof.Machine.execTriggerLeadingEdge n s
  | .triggerTrailingEdge n => Sys2Proof.Machine.execTriggerTrailingEdge n s
  | .refclkLoss => Sys2Proof.Machine.execRefclkLoss s
  | .counterResume => Sys2Proof.Machine.execCounterResume s
  | .connect h => Sys2Proof.Machine.execConnect h s
  | .accept h => Sys2Proof.Machine.execAccept h s
  | .close h => Sys2Proof.Machine.execClose h s
  | .ack h => Sys2Proof.Machine.execAck h s
  | .keepalive h => Sys2Proof.Machine.execKeepalive h s
  | .ndournWrite h a => Sys2Proof.Machine.execNdournWrite h a s
  | .readReq h a => Sys2Proof.Machine.execReadReq h a s
  | .readResp h a status => Sys2Proof.Machine.execReadResp h a status s
  | .done h reqId status => Sys2Proof.Machine.execDone h reqId status s
  | .message h m => Sys2Proof.Machine.execMessage h m s
  | .hurdleArriveFrame h num phase => Sys2Proof.Machine.execHurdleArriveFrame h num phase s
  | .hurdleReleaseFrame h num phase => Sys2Proof.Machine.execHurdleReleaseFrame h num phase s
  | .hurdleBreakFrame h num phase cause => Sys2Proof.Machine.execHurdleBreakFrame h num phase cause s
  | .eventRequest h e => Sys2Proof.Machine.execEventRequest h e s
  | .eventOrder h e => Sys2Proof.Machine.execEventOrder h e s
  | .eventCancel h e => Sys2Proof.Machine.execEventCancel h e s
  | .eventRefuse h e => Sys2Proof.Machine.execEventRefuse h e s
  | .flockEventAction => Sys2Proof.Machine.execFlockEventAction s
  | .connectResend k => Sys2Proof.Machine.execConnectResend k s
  | .retransmitTimeout k => Sys2Proof.Machine.execRetransmitTimeout k s
  | .keepaliveTimer k => Sys2Proof.Machine.execKeepaliveTimer k s
  | .linkSilence k => Sys2Proof.Machine.execLinkSilence k s
  | .closeTimer k => Sys2Proof.Machine.execCloseTimer k s
  | .stileGuardRetry k => Sys2Proof.Machine.execStileGuardRetry k s
  | .stileGuardTimeout k => Sys2Proof.Machine.execStileGuardTimeout k s
  | .stileLifetime n => Sys2Proof.Machine.execStileLifetime n s
  | .faultCollect x => Sys2Proof.Machine.execFaultCollect x s
  | .domainReset => Sys2Proof.Machine.execDomainReset s
  | .stateHashCheckpoint r => Sys2Proof.Machine.execStateHashCheckpoint r s
  | .followerTimeout checkpoint => Sys2Proof.Machine.execFollowerTimeout checkpoint s
  | .pulseCheckpointTimeout => Sys2Proof.Machine.execPulseCheckpointTimeout s
  | .monitorSelfCheck unit underTrips overTrips => Sys2Proof.Machine.execMonitorSelfCheck unit underTrips overTrips s
  | .railTrip rail overVoltage => Sys2Proof.Machine.execRailTrip rail overVoltage s
  | .railRampTimeout rail => Sys2Proof.Machine.execRailRampTimeout rail s
  | .railRetry => Sys2Proof.Machine.execRailRetry s
  | .clockMonitorTrip clk ppm lost => Sys2Proof.Machine.execClockMonitorTrip clk ppm lost s
  | .temperatureSample readings => Sys2Proof.Machine.execTemperatureSample readings s
  | .oscillatorTrim => Sys2Proof.Machine.execOscillatorTrim s
  | .holdupStart => Sys2Proof.Machine.execHoldupStart s
  | .holdupEnd => Sys2Proof.Machine.execHoldupEnd s
  | .wakeN => Sys2Proof.Machine.execWakeN s
  | .idleReached => Sys2Proof.Machine.execIdleReached s
  | .porstN => Sys2Proof.Machine.execPorstN s
  | .porstNRelease b => Sys2Proof.Machine.execPorstNRelease b s
  | .warmRstN => Sys2Proof.Machine.execWarmRstN s
  | .warmRstNRelease b => Sys2Proof.Machine.execWarmRstNRelease b s
  | .refclkTimeout => Sys2Proof.Machine.execRefclkTimeout s
  | .authChal => Sys2Proof.Machine.execAuthChal s
  | .authResp container => Sys2Proof.Machine.execAuthResp container s
  | .dap write addr data => Sys2Proof.Machine.execDap write addr data s
  | .extest values => Sys2Proof.Machine.execExtest values s
  | .idcode => Sys2Proof.Machine.execIdcode s
  | .samplePreload values => Sys2Proof.Machine.execSamplePreload values s
  | .highz => Sys2Proof.Machine.execHighz s
  | .clamp => Sys2Proof.Machine.execClamp s
  | .bypass code => Sys2Proof.Machine.execBypass code s
  | .loadDataReturn t => Sys2Proof.Machine.execLoadDataReturn t s
  | .commandWorkComplete q tag => Sys2Proof.Machine.execCommandWorkComplete q tag s
  | .pulseEdge => Sys2Proof.Machine.execPulseEdge s
  | .learningTableAgeing => Sys2Proof.Machine.execLearningTableAgeing s
  | .railEntersWindow rail => Sys2Proof.Machine.execRailEntersWindow rail s

end Sys2Proof.Machine
end

