-- ==== Sys2Proof/Machine/Idle.lean ====
section
/-! DEFINITION. What a step does when no command waits (DESIGN CHOICE, log entry 1). -/

namespace Sys2Proof.Machine

/-- One nanosecond passes: the raw counter advances while it runs (R411), and time in STANDBY is counted (R412).
DESIGN CHOICE: log entry 1. -/
def idle (s : State) : State :=
  if s.clk.running then { s with clk := { s.clk with raw := (s.clk.raw + 1) % 2 ^ 64 } }
  else if s.dev.pow.state = .standby then { s with clk := { s.clk with asleepNs := s.clk.asleepNs + 1 } }
  else s

end Sys2Proof.Machine
end

