-- ==== Sys2Proof/Safety.lean ====
section
/-! DEFINITION. The terms in which claims about the block are stated: a command that firmware serves, the state that an answer
leaves, fuses that only gain bits, and the canonical form of memory. -/

namespace Sys2Proof.Machine

open Sys2Proof

/-- A state with another device: queue, clock and fuses stay. -/
def State.put (s : State) (d : Dev) : State := { s with dev := d }

/-! ## Frames -/

/-- The parts of the device. -/
inductive Part where
  | mem
  | gddr
  | folds
  | phys
  | foldMap
  | threads
  | posted
  | insts
  | queues
  | slots
  | hurdles
  | flights
  | host
  | mbox
  | race
  | fsets
  | tu
  | flock
  | col
  | safe
  | sec
  | pow
  | free
deriving DecidableEq, Repr

/-- Two devices agree in a part. -/
def Part.same (p : Part) (a b : Dev) : Prop :=
  match p with
  | .mem => a.mem = b.mem
  | .gddr => a.gddr = b.gddr
  | .folds => a.folds = b.folds
  | .phys => a.phys = b.phys
  | .foldMap => a.foldMap = b.foldMap
  | .threads => a.threads = b.threads
  | .posted => a.posted = b.posted
  | .insts => a.insts = b.insts
  | .queues => a.queues = b.queues
  | .slots => a.slots = b.slots
  | .hurdles => a.hurdles = b.hurdles
  | .flights => a.flights = b.flights
  | .host => a.host = b.host
  | .mbox => a.mbox = b.mbox
  | .race => a.race = b.race
  | .fsets => a.fsets = b.fsets
  | .tu => a.tu = b.tu
  | .flock => a.flock = b.flock
  | .col => a.col = b.col
  | .safe => a.safe = b.safe
  | .sec => a.sec = b.sec
  | .pow => a.pow = b.pow
  | .free => a.free = b.free

/-- Nothing but the listed parts of the device differs: the queue, the clock and the fuses stay. -/
def State.touches (s u : State) (l : List Part) : Prop :=
  u.pending = s.pending ∧ u.clk = s.clk ∧ u.fuse = s.fuse ∧ ∀ p : Part, p ∉ l → p.same s.dev u.dev

/-- What raising a fault may touch: the collector and the pins. -/
def faultParts : List Part := [.col, .safe]

/-- What posting on a completion ring may touch: the ring in memory, the queue, an interrupt message, and what a fault touches. -/
def postParts : List Part := [.mem, .mbox, .flock, .col, .safe]

/-- What closing, decoding or posting a sample of a gate may touch: its gate, the memory it is written to, its notice, the
frame-set monitor and what completes with it. -/
def raceParts : List Part := [.mem, .folds, .phys, .flights, .mbox, .race, .fsets, .flock, .col, .safe, .free]

/-- What a sequenced frame's work, or the end of a link, may touch beside the links: threads and drovers whose requests end,
messages that leave, the memory of served accesses, and what completes. -/
def linkParts : List Part :=
  [.mem, .folds, .phys, .threads, .hurdles, .flights, .mbox, .fsets, .flock, .col, .safe, .free]

/-! ## Mailbox commands -/

/-- Firmware takes an entry of queue `q` with an opcode and hands it to the opcode's handler: the device serves, it may take from the
queue, no ABORT has marked the entry, its tag is free, the start has come far enough, its common fields are in range and its
reserved ones zero (R15, R366, R369, R373, R377, R391, R585). -/
def Dev.admits (d : Dev) (q op : Nat) (e : Sub) : Bool :=
  d.serving && !d.mbox.frozen && d.canTake q && !d.mbox.marked.contains (q, e.tag) && (d.outstBy q e.tag).isNone &&
    (d.pow.state == .idle || servedEarly op) && e.formOk && e.reservedOk op && e.target < targetLimit op

/-- The state once firmware has taken the entry of queue `q`: HPC_SQ_HEAD has passed it (R373). -/
def State.taken (s : State) (q : Nat) : State := { s with dev := s.dev.passed q }

/-- The state in which a command of queue `q` has left device `d` and has been completed with reply `r`. -/
def State.answered (s : State) (d : Dev) (q op : Nat) (e : Sub) (r : Reply) : State :=
  { s with dev := d.complete s.env q op e r }

/-- The raw time at which an outstanding command times out (R374). -/
def State.deadlineOf (s : State) (op : Nat) (e : Sub) : Nat :=
  s.clk.raw + 1000 * (if e.timeoutUs = 0 then (longDefault op).getD 0 else e.timeoutUs)

/-- The state in which a LONG command of queue `q` has left device `d` and is outstanding. -/
def State.opened (s : State) (d : Dev) (q op : Nat) (e : Sub) (img : Option Image) (aux : List Nat) : State :=
  { s with dev := d.open { q := q, opcode := op, e := e, deadline := s.deadlineOf op e, image := img, aux := aux } }

/-- The entry's block holds bytes `b` that firmware has read and found good, with nothing to report (R388). -/
def Dev.blockIs (d : Dev) (e : Sub) (b : List Byte) : Prop := e.zero 0x30 4 = true ∧ d.block e = (stOk, b, d)

/-! ## Thread instructions -/

/-- The thread unit issues thread `t` now, and the word it fetches is `w`, of a class (R130, R131). -/
def Dev.issues (d : Dev) (t cls w : Nat) : Prop := d.mayIssue t = true ∧ d.fetch t = (.word w, d) ∧ classOf w = cls

/-- Nothing but thread `t`, the issue pointers of its fold and the number of the next free value differs. -/
def threadFrame (s u : State) (t : Nat) : Prop :=
  u = s.put { s.dev with threads := u.dev.threads, folds := u.dev.folds, free := u.dev.free } ∧
    (∀ k, k ≠ t → u.dev.thread k = s.dev.thread k) ∧ ∀ n, n ≠ foldOfThread t → u.dev.fold n = s.dev.fold n

/-- Beside thread `t` and its fold's issue pointers only the listed parts may differ. -/
def threadActs (s u : State) (t : Nat) (l : List Part) : Prop :=
  s.touches u ([.threads, .folds] ++ l) ∧ (∀ k, k ≠ t → u.dev.thread k = s.dev.thread k) ∧
    ∀ n, n ≠ foldOfThread t → u.dev.fold n = s.dev.fold n

/-- Thread `t` has received a value in a register (none in s0), keeps every other register and goes on at the next word. -/
def wrote (s u : State) (t rd : Nat) (v : Word) : Prop :=
  (u.dev.thread t).reg rd = (if rd = 0 then 0 else v) ∧ (∀ r, r ≠ rd → (u.dev.thread t).reg r = (s.dev.thread t).reg r) ∧
    (u.dev.thread t).pc = (s.dev.thread t).pc + 8 ∧ (u.dev.thread t).st = (s.dev.thread t).st

/-- Thread `t` waits, its pc past the instruction. -/
def waits (s u : State) (t : Nat) (w : WaitFor) : Prop :=
  (u.dev.thread t).st = .waiting ∧ (u.dev.thread t).wait = some { what := w, since := s.clk.raw } ∧
    (u.dev.thread t).pc = (s.dev.thread t).pc + 8

/-- The thread issues a WAIT word of a kind that its registers make legal. -/
def Dev.waitsOn (d : Dev) (t kind w : Nat) : Prop := d.issues t 0x0A w ∧ fKind w = kind ∧ d.waitIllegal t w = false

/-- The thread issues a POST word of a kind that its registers make legal. -/
def Dev.postsOn (d : Dev) (t kind w : Nat) : Prop := d.issues t 0x0B w ∧ fKind w = kind ∧ d.postIllegal t w = false

/-! ## Engines -/

/-- The descriptor of 128 bytes, or of 64 for a drover, at the address in register `ra`: it lies in the own fold's memory and
passes the checks of engine `k` (R132). -/
def Dev.descriptorAt (d : Dev) (t k ra : Nat) : Bool :=
  (d.reg t ra).toNat % 64 = 0 && inFold (foldOfThread t) (d.reg t ra).toNat (descLen (foldOfThread t) k) &&
    descOk (foldOfThread t) k (d.raw (d.reg t ra).toNat (descLen (foldOfThread t) k))

/-- The issue number that an engine gives next (R133). -/
def Dev.nextIssue (d : Dev) (n k : Nat) : Nat := ((d.engine n k).issued + 1) % 2 ^ 32

/-- The queue entry that ISSUE makes of that descriptor. -/
def Dev.jobAt (d : Dev) (t k ra : Nat) (mates : List Nat) : Job :=
  { issue := d.nextIssue (foldOfThread t) k, thread := t, mates := mates
    desc := d.raw (d.reg t ra).toNat (descLen (foldOfThread t) k) }

/-! ## The Race -/

/-- The capture time of a sample of gate `g` that begins at a raw time (R72). -/
def Dev.captureNow (d : Dev) (g raw : Nat) : Int :=
  d.domTime (d.gateDomain (d.gate g).settings) raw + Settings.captureOffset (d.gate g).settings

/-! ## Faults -/

/-- No message of a source waits to be collected (R504). -/
def Dev.silent (d : Dev) (src : Nat) : Bool := d.col.waiting.all fun m => msgSource m != src

/-! ## Ndourn -/

/-- A frame of the session of context `k` reaches the engine and passes every check of R440. -/
def Dev.heard (d : Dev) (h : NdHdr) (k : Nat) : Bool :=
  d.clocked && d.claims h && h.crcOk && h.version == 1 && h.lengthOk && d.flock.dev == some h.dstDev &&
    d.peerOf h.srcDev == some k && h.session == (d.peer k).session

/-- It is the next in sequence on a RUNNING link, and the receive buffer has room for any frame (R443). -/
def Dev.inOrder (d : Dev) (h : NdHdr) (k : Nat) : Bool :=
  d.heard h k && (d.peer k).fn == .running && h.seq == (d.peer k).rxNext % 2 ^ 32 &&
    decide (d.rxUsed + frameBytes 8224 ≤ 0x400000)

/-! ## Fuses (R534, R535) -/

/-- Every fuse that was set is set. -/
def bitsKept {n : Nat} (a b : BitVec n) : Bool := a &&& b == a

/-- A fuse array that differs from another only by fuses burnt since: identity fuses as they were. -/
def Fuses.kept (a b : Fuses) : Bool :=
  bitsKept a.lifecycle b.lifecycle && bitsKept a.fwFloor b.fwFloor && bitsKept a.progFloor b.progFloor &&
    bitsKept a.slotValid b.slotValid && bitsKept a.slotRevoked b.slotRevoked && bitsKept a.bootCfg b.bootCfg &&
    bitsKept a.o0 b.o0 && bitsKept a.o1 b.o1 &&
    a.grade == b.grade && a.h0 == b.h0 && a.h1 == b.h1 && a.uds == b.uds && a.serial == b.serial

/-! ## Memory -/

/-- Every stored line is as it was written: no error, no poison, no stored check that differs, no lost stretch, and no GDDR6
transfer that fails or comes late. -/
def Mem.sound (m : Mem) : Bool :=
  m.poison.isEmpty && m.err.isEmpty && m.check.isEmpty && m.lost.isEmpty && m.edc.isEmpty && m.late.isEmpty && m.stuck.isEmpty

/-- The device's memory is in canonical form. -/
def Dev.memOk (d : Dev) : Bool := Memory.wf d.mem.bytes

end Sys2Proof.Machine
end

