-- ==== Sys2Proof/Certificates/Slice0/Obligations.lean ====
section
/-! DEFINITION. The statements for the provers. -/

open Sys2Proof Sys2Proof.Machine

/-! ## Mailbox commands: what each does when firmware serves it -/

/-- R371, R377, R395: CREATE_QUEUE makes the queue, its completion ring zero; DELETE_QUEUE becomes outstanding; ABORT closes
an outstanding target, or marks an exposed one and waits. R395, R396: DEVICE_INFO writes its block to the reply range,
IRQ_DEST sets the destination of interrupt messages, FUNC_STATE reports the state of the function that it names. R397,
R412, R560: a POWER request for STANDBY with nothing active or outstanding posts its completion, then the device is in
STANDBY: the counter stopped with its value saved, GDDR6 in self-refresh, the fold supply off. A request for settings
alone stays in IDLE. -/
def Obligations.admin_commands_complete : Prop :=
  (∀ (s₀ s : State) (e : Sub), s = s₀.taken 0 →
     (s₀.dev.admits 0 0x0001 e = true → 1 ≤ e.field 0x10 2 → e.field 0x10 2 ≤ 31 → e.field 0x16 2 < 4 → 1 ≤ e.field 0x20 1 →
       e.zero 0x21 1 = true → e.field 0x22 2 ≤ 10000 → e.field 0x24 4 < 16 → e.zero 0x28 24 = true →
       ((queueOf e).ethIrq = true → s.dev.mbox.irqDest.isSome = true) → s.dev.queue (e.field 0x10 2) = none →
       s.dev.queueOk (queueOf e) = true →
       exec (.createQueue 0 e) s₀ = .next (s.answered
         { (s.dev.blank (commonBase + e.field 0x1C 4) (32 * e.field 0x14 2)) with
           mbox := { s.dev.mbox with queues := tset s.dev.mbox.queues (e.field 0x10 2) (queueOf e) } } 0 0x0001 e {})) ∧
     (s₀.dev.admits 0 0x0002 e = true → 1 ≤ e.field 0x10 2 → e.field 0x10 2 ≤ 31 → e.zero 0x12 46 = true →
       (∃ m, s.dev.queue (e.field 0x10 2) = some m ∧
         (m.error = true ∨ (s.dev.mbox.outst.all fun o => o.q != e.field 0x10 2) = true)) →
       s.dev.noticeTarget (e.field 0x10 2) = false →
       exec (.deleteQueue 0 e) s₀ = .next (s.opened s.dev 0 0x0002 e none [])) ∧
     (∀ o : Outst, s₀.dev.admits 0 0x0003 e = true → e.field 0x10 2 ≤ 31 → e.zero 0x12 2 = true → e.zero 0x18 40 = true →
       (s.dev.queue (e.field 0x10 2)).isSome = true → s.dev.outstBy (e.field 0x10 2) (e.field 0x14 4) = some o →
       o.opcode ≠ 0x0003 →
       exec (.abort 0 e) s₀ = .next (s.answered (s.dev.closeCmd s.env stAborted o) 0 0x0003 e {})) ∧
     (∀ op : Nat, s₀.dev.admits 0 0x0003 e = true → e.field 0x10 2 ≤ 31 → e.zero 0x12 2 = true → e.zero 0x18 40 = true →
       (s.dev.queue (e.field 0x10 2)).isSome = true → s.dev.outstBy (e.field 0x10 2) (e.field 0x14 4) = none →
       s.dev.exposed (e.field 0x10 2) (e.field 0x14 4) = some op → op ≠ 0x0003 →
       ∃ t, exec (.abort 0 e) s₀ = .next t ∧ s.touches t [.mbox] ∧ t.dev.mbox.queues = s.dev.mbox.queues ∧
         t.dev.mbox.marked.contains (e.field 0x10 2, e.field 0x14 4) = true ∧ (t.dev.outstBy 0 e.tag).isSome = true)) ∧
  (∀ (s₀ s : State) (q : Nat) (e : Sub), s = s₀.taken q → q < 32 →
     (s₀.dev.admits q 0x0004 e = true → e.zero 0x10 32 = true → e.replyOk 96 = true →
       exec (.deviceInfo q e) s₀ = .next (s.answered (s.dev.reply e (s.dev.infoBlock s.env)) q 0x0004 e {})) ∧
     (s₀.dev.admits q 0x0005 e = true → e.field 0x10 1 ≤ 3 → 100 ≤ e.field 0x14 4 → e.field 0x14 4 ≤ 100000 →
       e.zero 0x1E 2 = true → e.zero 0x30 16 = true → ipOk (e.field 0x11 1) (((padTo 48 e.args).drop 16).take 16) = true →
       (s.dev.mbox.queues.all fun x => !x.2.ethIrq) = true →
       exec (.irqDest q e) s₀ = .next (s.answered { s.dev with mbox := { s.dev.mbox with irqDest := some {
         port := e.field 0x10 1, ipVersion := e.field 0x11 1, udpPort := e.field 0x12 2, resendUs := e.field 0x14 4
         mac := ((padTo 48 e.args).drop 8).take 6, ip := ((padTo 48 e.args).drop 16).take 16 } } } q 0x0005 e {})) ∧
     (∀ f : FnState, s₀.dev.admits q 0x0006 e = true → e.zero 0x11 1 = true → e.zero 0x14 44 = true →
       s.dev.funcState (e.field 0x10 1) (e.field 0x12 2) = some f →
       exec (.funcState q e) s₀ = .next (s.answered s.dev q 0x0006 e { r0 := fnCode f }))) ∧
  (∀ (s₀ s : State) (q : Nat) (e : Sub), s = s₀.taken q → q < 32 → s₀.dev.admits q 0x0100 e = true → s.dev.pow.state = .idle →
     e.field 0x11 1 ≤ 2 → e.zero 0x12 2 = true → e.zero 0x18 40 = true →
     (e.field 0x14 4 = 0 ∨ e.field 0x14 4 = 0xFFFFFFFF ∨ (10 ≤ e.field 0x14 4 ∧ e.field 0x14 4 ≤ 10000)) →
     (e.field 0x10 1 = 2 → s.dev.powerRefusal = none →
       ∃ t, exec (.power q e) s₀ = .next t ∧ t.dev.pow = { s.dev.pow with state := .standby, phase := .settled, pwrFold := false, penAt := none, refclkLost := false, timePllLost := false } ∧
         t.clk = { s.clk with running := false, saved := s.clk.raw, asleepNs := 0 } ∧ t.fuse = s.fuse ∧
         t.dev.gddr = { s.dev.gddr with selfRefresh := true } ∧
         ∀ p, p ∉ [Part.gddr, .folds, .host, .tu, .pow] ++ postParts → p.same s.dev t.dev) ∧
     (e.field 0x10 1 = 0 →
       ∃ t, exec (.power q e) s₀ = .next t ∧ s.touches t postParts ∧
         (e.field 0x11 1 ≠ 0 → t.dev.mbox.hostSleep = decide (e.field 0x11 1 = 1)) ∧
         (e.field 0x14 4 ≠ 0 →
           t.dev.mbox.hostTimeoutMs = if e.field 0x14 4 = 0xFFFFFFFF then none else some (e.field 0x14 4))))

/-! ## Program instances -/

/-- R128, R133, R152, R153, R291, R315, R378, R379, R392: UNLOAD of a STOPPED instance takes its objects and contexts away;
START of a STOPPED instance resets its objects and runs it; INVOKE of a RUNNING one opens an invocation and releases every
thread with the block's address in s1 and 2 in s2; STOP under DISCARD closes it and a stop of a FAULTED one rests it.
R398, R399, R538, R541, R542: LOAD and FIRMWARE_STAGE of a good source answer as the checks of the container say. An image
that passes them, and that the rules on its declarations admit, makes LOAD outstanding with the instance's old objects
gone; firmware that passes makes FIRMWARE_STAGE outstanding with the inactive boot slot invalid. A container that fails
completes with the status of its first failing check, and the instance stays as it was. -/
def Obligations.program_commands_complete : Prop :=
  (∀ (s₀ s : State) (q : Nat) (e : Sub), s = s₀.taken q → q < 32 →
     (s₀.dev.admits q 0x0201 e = true → e.zero 0x10 48 = true → s.dev.loadOpen e.target = false → (s.dev.inst e.target).fn = .stopped →
       s.dev.noticeHeld e.target = false →
       exec (.unload q e) s₀ = .next (s.answered (s.dev.clearInst e.target) q 0x0201 e {})) ∧
     (s₀.dev.admits q 0x0202 e = true → e.zero 0x10 48 = true → s.dev.loadOpen e.target = false → (s.dev.inst e.target).fn = .stopped →
       s.dev.unmappedUse e.target = false →
       exec (.start q e) s₀ = .next (s.answered (s.dev.startInst e.target) q 0x0202 e {})) ∧
     (s₀.dev.admits q 0x0204 e = true → e.zero 0x14 44 = true → s.dev.loadOpen e.target = false → e.field 0x10 4 % 64 = 0 → 0x2000000 ≤ e.field 0x10 4 →
       e.field 0x10 4 + 64 ≤ 0x4000000 → (s.dev.inst e.target).fn = .running →
       ((s.dev.inst e.target).image.map (·.invokeMode)) = some true → (s.dev.inst e.target).invoc = none →
       exec (.invoke q e) s₀ = .next (s.opened
         (((((s.dev.resetInst e.target).scramble e.target).modInst e.target fun x => { x with
           invoc := some (q, e.tag), invocAt := s.clk.raw, invocCount := (x.invocCount + 1) % 2 ^ 32 }).wakeFolds e.target).release
             e.target (commonBase + e.field 0x10 4) 2) q 0x0204 e none [])) ∧
     (s₀.dev.admits q 0x0203 e = true → e.zero 0x11 47 = true → s.dev.loadOpen e.target = false → e.field 0x10 1 = 1 → (s.dev.inst e.target).fn = .running →
       exec (.stop q e) s₀ = .next (s.answered (s.dev.discardInst s.env e.target) q 0x0203 e {})) ∧
     (s₀.dev.admits q 0x0203 e = true → e.zero 0x11 47 = true → s.dev.loadOpen e.target = false → e.field 0x10 1 < 2 → (s.dev.inst e.target).fn = .faulted →
       exec (.stop q e) s₀ = .next (s.answered (s.dev.restInst s.env e.target) q 0x0203 e {})) ∧
     (s₀.dev.admits q 0x0203 e = true → e.zero 0x11 47 = true → s.dev.loadOpen e.target = false → e.field 0x10 1 = 0 → (s.dev.inst e.target).fn = .running →
       s.dev.instDone e.target = false →
       exec (.stop q e) s₀ = .next (s.opened (s.dev.modInst e.target fun x => { x with fn := .stopping }) q 0x0203 e none []))) ∧
  (∀ (s₀ s : State) (q : Nat) (e : Sub) (b : List Byte), s = s₀.taken q → q < 32 → e.zero 0x1C 36 = true →
     sourceOk (e.field 0x10 8) (e.field 0x18 4) = true → s.dev.source (e.field 0x10 8) (e.field 0x18 4) = (b, false, s.dev) →
     (s₀.dev.admits q 0x0200 e = true → (s.dev.inst e.target).fn.canConfigure = true →
       s.dev.loadOpen e.target = false →
       ∃ t, exec (.load q e) s₀ = .next t ∧
         (checkImage s.fuse 1 (e.field 0x18 4) b = stOk → (s.dev.clearInst e.target).imageOk e.target (imageOf b) = true →
           (s.dev.clearInst e.target).loadSchedulable e.target (imageOf b) = true →
           ((imageOf b).folds.all fun n => 48 ≤ n || s.dev.physOf n != 0xFF) = true →
           t = s.opened (s.dev.clearInst e.target) q 0x0200 e (some (imageOf b))
             [(Config.imageSections (ctBody b)).threads.length]) ∧
         (checkImage s.fuse 1 (e.field 0x18 4) b ≠ stOk →
           t = s.answered (s.dev.refusedImage b) q 0x0200 e { status := checkImage s.fuse 1 (e.field 0x18 4) b } ∧
             t.dev.insts = s.dev.insts)) ∧
     (s₀.dev.admits q 0x0205 e = true → e.field 0x18 4 ≤ 0x2000000 →
       (s.dev.mbox.outst.all fun o => o.opcode != 0x0205) = true →
       ∃ t, exec (.firmwareStage q e) s₀ = .next t ∧
         (checkImage s.fuse 0 (e.field 0x18 4) b = stOk →
           t = s.opened (s.dev.setInactive { container := [], valid := false }) q 0x0205 e none (b.map (·.toNat))) ∧
         (checkImage s.fuse 0 (e.field 0x18 4) b ≠ stOk →
           t = s.answered (s.dev.refusedImage b) q 0x0205 e { status := checkImage s.fuse 0 (e.field 0x18 4) b } ∧
             t.dev.sec = s.dev.sec)))

/-! ## Gates, ports and frame sets -/

/-- R48, R49, R81, R378, R379, R392, R394, R401, R402: what each gate command does to a gate whose state admits it. A
configure replaces every setting and takes the tables back to their defaults; a set changes one record, at once on a
STOPPED gate and at the next sample on a RUNNING one; a start runs the gate with its decoder core; a stop under DISCARD
closes its work; a release forgets everything but the landing slots that consumers hold. R61, R63, R403: GATE_FEED takes a
sample of an acceptable length and later capture time and is outstanding until the sample is posted. R105, R107, R404,
R405: a gate table loads into the bank that is not in force, and a switch waits for the next sample of a RUNNING gate. -/
def Obligations.gate_commands_complete : Prop :=
  (∀ (s₀ s : State) (q : Nat) (e : Sub), s = s₀.taken q → q < 32 →
     (∀ b l, s₀.dev.admits q 0x0300 e = true → e.zero 0x10 32 = true → (s.dev.gate e.target).fn.canConfigure = true →
       s.dev.blockIs e b → parseSettings b.length b = some l → s.dev.settingsOk e.target l = true →
       exec (.gateConfigure q e) s₀ = .next (s.answered (s.dev.modGate e.target fun x => { x with
         fn := .stopped, settings := l, liveNext := [], coef := {}, tone := {}, remap := {}, lastSlot := none })
           q 0x0300 e {})) ∧
     (∀ now v : _, s₀.dev.admits q 0x0301 e = true → settingLen (e.field 0x10 2) = some (e.field 0x12 2) →
       e.zero (0x14 + e.field 0x12 2) (0x2C - e.field 0x12 2) = true → settingLive (e.field 0x10 2) = true →
       (s.dev.gate e.target).fn = .running →
       now = (s.dev.gate e.target).liveNext.foldl (fun l r => Settings.put l r.1 r.2) (s.dev.gate e.target).settings →
       v = ((padTo 48 e.args).drop 4).take (e.field 0x12 2) →
       s.dev.settingsOk e.target (Settings.put now (e.field 0x10 2) v) = true →
       exec (.gateSet q e) s₀ = .next (s.answered (s.dev.modGate e.target fun x => { x with
         liveNext := x.liveNext ++ [(e.field 0x10 2, v)] }) q 0x0301 e {})) ∧
     (∀ now v : _, s₀.dev.admits q 0x0301 e = true → settingLen (e.field 0x10 2) = some (e.field 0x12 2) →
       e.zero (0x14 + e.field 0x12 2) (0x2C - e.field 0x12 2) = true → (s.dev.gate e.target).fn = .stopped →
       now = (s.dev.gate e.target).liveNext.foldl (fun l r => Settings.put l r.1 r.2) (s.dev.gate e.target).settings →
       v = ((padTo 48 e.args).drop 4).take (e.field 0x12 2) →
       s.dev.settingsOk e.target (Settings.put now (e.field 0x10 2) v) = true →
       exec (.gateSet q e) s₀ = .next (s.answered (s.dev.modGate e.target fun x => { x with
         settings := Settings.put now (e.field 0x10 2) v, liveNext := []
         remap := if e.field 0x10 2 = 0x26 ∨ e.field 0x10 2 = 0x04 ∨ e.field 0x10 2 = 0x05 then {} else x.remap })
           q 0x0301 e {})) ∧
     (∀ c, s₀.dev.admits q 0x0302 e = true → e.zero 0x10 48 = true → (s.dev.gate e.target).fn = .stopped →
       s.dev.gateStartOk e.target = true → s.dev.startCore e.target = some c →
       ∃ t, exec (.gateStart q e) s₀ = .next t ∧ t = s.answered (s.dev.startGate s.env e.target c) q 0x0302 e {} ∧
         (t.dev.gate e.target).fn = .running ∧ (t.dev.gate e.target).core = c ∧ (t.dev.gate e.target).nextCounter = 0 ∧
         (t.dev.gate e.target).settings = (s.dev.gate e.target).settings) ∧
     (s₀.dev.admits q 0x0303 e = true → e.zero 0x11 47 = true → e.field 0x10 1 = 1 → (s.dev.gate e.target).fn = .running →
       exec (.gateStop q e) s₀ = .next (s.answered (s.dev.discardGate s.env e.target) q 0x0303 e {})) ∧
     (∀ d : Dev, s₀.dev.admits q 0x0303 e = true → e.zero 0x11 47 = true → e.field 0x10 1 = 0 → (s.dev.gate e.target).fn = .running →
       d = Dev.flushRefused (((s.dev.modGate e.target fun x => { x with fn := .stopping }).cancelShift s.env
           e.target).gate e.target).feeds.length s.env e.target
           ((s.dev.modGate e.target fun x => { x with fn := .stopping }).cancelShift s.env e.target) →
         (d.gate e.target).fn = .stopping → (d.gate e.target).frame.isSome = true →
         exec (.gateStop q e) s₀ = .next (s.opened d q 0x0303 e none [])) ∧
     (s₀.dev.admits q 0x0304 e = true → e.zero 0x10 48 = true → (s.dev.gate e.target).fn = .stopped →
       exec (.gateRelease q e) s₀ = .next (s.answered (s.dev.modGate e.target fun x => { held := x.held }) q 0x0304 e {}))) ∧
  (∀ (s₀ s : State) (q : Nat) (e : Sub), s = s₀.taken q → q < 32 →
     (s₀.dev.admits q 0x0305 e = true → e.field 0x28 2 < 4 → e.zero 0x2A 22 = true → (s.dev.gate e.target).fn = .running →
       Settings.kind (s.dev.gate e.target).settings = 2 →
       ((s.dev.gate e.target).feeds.filter fun f => !f.refused).length < 4 →
       s.dev.feedSource (e.field 0x10 8) (e.field 0x20 4) = true → Settings.decoder (s.dev.gate e.target).settings = 0 →
       feedLengthOk (s.dev.gate e.target).settings false (e.field 0x20 4) = true →
       (∀ c, (s.dev.gate e.target).lastCapture = some c → c < e.field 0x18 8) →
       ∃ t, exec (.gateFeed q e) s₀ = .next t ∧ (t.dev.gate e.target).lastCapture = some (e.field 0x18 8) ∧
         (t.dev.outstBy q e.tag).map (·.opcode) = some 0x0305 ∧ s.touches t [.race, .mbox] ∧
         t.dev.mbox.queues = s.dev.mbox.queues ∧ ∀ g, g ≠ e.target → t.dev.gate g = s.dev.gate g) ∧
     (∀ b, s₀.dev.admits q 0x0401 e = true → e.field 0x10 1 ≤ 2 → e.field 0x11 1 ≤ 1 → e.zero 0x12 30 = true →
       (s.dev.gate e.target).fn ≠ .unconfigured →
       ((s.dev.gate e.target).table (e.field 0x10 1)).active ≠ e.field 0x11 1 →
       ((s.dev.gate e.target).table (e.field 0x10 1)).pending = false → s.dev.blockIs e b →
       tableOk (s.dev.gate e.target).settings e.target (e.field 0x10 1) b = true →
       exec (.gateTableLoad q e) s₀ = .next (s.answered (s.dev.modGate e.target fun x =>
         x.setTable (e.field 0x10 1) ((x.table (e.field 0x10 1)).load (e.field 0x11 1) b)) q 0x0401 e {})) ∧
     (s₀.dev.admits q 0x0402 e = true → e.field 0x10 1 ≤ 2 → e.zero 0x11 47 = true → (s.dev.gate e.target).fn = .running →
       ((s.dev.gate e.target).table (e.field 0x10 1)).pending = false →
       ((s.dev.gate e.target).table (e.field 0x10 1)).fresh = true →
       exec (.gateTableSwitch q e) s₀ = .next (s.opened (s.dev.modGate e.target fun x =>
         x.setTable (e.field 0x10 1) { x.table (e.field 0x10 1) with pending := true }) q 0x0402 e none [])))

/-- R45, R46, R51, R69, R320, R321, R400: GATE_MAP gives a port and channel to the gate and takes it from any other;
PORT_CONFIGURE, FSET_CONFIGURE and FSET_HOLD record what their fields say. R259, R262, R263, R342, R343, R404: WINDOW_MAP
changes the mapping when it is taken and completes at once where no earlier write to the window is on its way; TABLE_LOAD
fills the shadow bank of every fold named; TABLE_SWITCH reports the folds. -/
def Obligations.port_and_window_commands_complete : Prop :=
  (∀ (s₀ s : State) (q : Nat) (e : Sub), s = s₀.taken q → q < 32 →
     (s₀.dev.admits q 0x0306 e = true → e.zero 0x12 46 = true → e.field 0x10 1 ≤ 11 → e.field 0x11 1 ≤ 3 →
       (s.dev.gate e.target).fn.active = false →
       (∀ g, s.dev.gateOf (e.field 0x10 1) (e.field 0x11 1) = some g → (s.dev.gate g).fn.active = false) →
       ∃ t, exec (.gateMap q e) s₀ = .next t ∧ t.dev.gateOf (e.field 0x10 1) (e.field 0x11 1) = some e.target ∧
         s.touches t (.race :: postParts) ∧ t.dev.race.gates = s.dev.race.gates ∧ t.dev.race.ports = s.dev.race.ports) ∧
     (s₀.dev.admits q 0x0307 e = true → e.field 0x10 1 ≤ 1 → e.zero 0x12 2 = true → e.zero 0x1A 38 = true →
       portCfgOk { cphy := e.field 0x10 1 = 1, lanes := e.field 0x11 1, rate := e.field 0x14 4, order := e.field 0x18 1,
                   polarity := e.field 0x19 1 } = true →
       (s.dev.gatesOfPort e.target).all (fun g => (s.dev.gate g).fn.canConfigure) = true →
       exec (.portConfigure q e) s₀ = .next (s.answered (s.dev.modPort e.target fun p => { p with cfg := some {
         cphy := e.field 0x10 1 = 1, lanes := e.field 0x11 1, rate := e.field 0x14 4, order := e.field 0x18 1,
         polarity := e.field 0x19 1 } }) q 0x0307 e {})) ∧
     (s₀.dev.admits q 0x0308 e = true → e.zero 0x15 3 = true → e.zero 0x28 24 = true → 10000000 ≤ e.field 0x10 4 →
       e.field 0x10 4 ≤ 100000000 → e.field 0x14 1 ≤ 1 → 1000000 ≤ e.field 0x18 4 → e.field 0x18 4 ≤ 3 * e.field 0x10 4 →
       e.field 0x1C 4 ≤ 1000000 → (s.dev.members e.target).all (fun g => (s.dev.gate g).fn == .stopped) = true →
       exec (.fsetConfigure q e) s₀ = .next (s.answered (s.dev.modFset e.target fun x => { x with cfg := some {
         period := e.field 0x10 4, dom := e.field 0x14 1, offset := e.field 0x18 4, hold := e.field 0x1C 4
         epoch := e.field 0x20 8 } }) q 0x0308 e {})) ∧
     (s₀.dev.admits q 0x0309 e = true → e.zero 0x14 44 = true → e.field 0x10 4 ≤ 1000000 →
       (s.dev.fset e.target).cfg.isSome = true →
       exec (.fsetHold q e) s₀ = .next (s.answered (s.dev.modFset e.target fun x => { x with
         cfg := x.cfg.map fun c => { c with hold := e.field 0x10 4 } }) q 0x0309 e {}))) ∧
  (∀ (s₀ s : State) (q : Nat) (e : Sub), s = s₀.taken q → q < 32 →
     (s₀.dev.admits q 0x0400 e = true → e.target ≠ 0 → e.zero 0x1C 36 = true →
       windowOk (e.field 0x10 8) (e.field 0x18 4) = true → e.field 0x18 4 ≠ 0 →
       s.dev.windowOwes e.target s.dev.host.nextWrite = false →
       exec (.windowMap q e) s₀ = .next (s.answered { s.dev with host := { s.dev.host with
         windows := tset s.dev.host.windows e.target (e.field 0x10 8, e.field 0x18 4) } } q 0x0400 e {})) ∧
     (∀ b, s₀.dev.admits q 0x0403 e = true → e.field 0x10 8 < 2 ^ 49 → e.field 0x18 1 ≤ 3 → e.field 0x19 1 ≤ 1 →
       e.zero 0x1A 2 = true → e.zero 0x24 12 = true → lutRangeOk (e.field 0x1C 4) (e.field 0x20 4) = true →
       (maskFolds (e.field 0x10 8)).all (fun n => !(n < 48 && s.dev.physOf n == 0xFF) &&
         (s.dev.lut n (e.field 0x18 1)).active != some (e.field 0x19 1) && !(s.dev.lut n (e.field 0x18 1)).pending) = true →
       s.dev.blockIs e b → b.length = 4096 →
       exec (.tableLoad q e) s₀ = .next (s.answered ((maskFolds (e.field 0x10 8)).foldl (fun d n =>
         d.modLut n (e.field 0x18 1) fun t => {
           t.setBank (e.field 0x19 1) (some { lo := e.field 0x1C 4, hi := e.field 0x20 4, entries := words32 1024 b }) with
             loadedBank := some (e.field 0x19 1) }) s.dev) q 0x0403 e {})) ∧
     (∀ (d : Dev) (wait : List Nat), s₀.dev.admits q 0x0404 e = true → e.field 0x10 8 < 2 ^ 49 → e.field 0x18 1 ≤ 3 → e.zero 0x19 39 = true →
       (maskFolds (e.field 0x10 8)).all (fun n => (s.dev.lut n (e.field 0x18 1)).loadedBank.isSome &&
         !(s.dev.lut n (e.field 0x18 1)).pending) = true →
       d = ((maskFolds (e.field 0x10 8)).foldl (fun d n => d.modLut n (e.field 0x18 1) fun t => { t with pending := true })
         s.dev).switchIdle s.env (maskFolds (e.field 0x10 8)) →
       wait = (maskFolds (e.field 0x10 8)).filter (fun n => (d.lut n (e.field 0x18 1)).pending) →
       exec (.tableSwitch q e) s₀ = .next
         (if wait = [] then s.answered d q 0x0404 e { r1 := e.field 0x10 8 }
         else s.opened d q 0x0404 e none (e.field 0x18 1 :: wait))))

/-! ## Time, the flock, safety, faults and security -/

/-- R378, R379, R392, R406, R413, R417, R421, R423: the commands on time domains. A start while the counter is stopped leaves
the domain FAULTED (log entry 35). A release leaves the parameter sets: domain time runs on. TIME_READ reports the
function and sync states, the raw counter and domain time. R378, R379, R394, R406, R426: the trigger commands. A start of
a trigger whose first edge lies ahead waits for it; a stop under DRAIN lets the pulse in progress finish. -/
def Obligations.time_commands_complete : Prop :=
  (∀ (s₀ s : State) (q : Nat) (e : Sub), s = s₀.taken q → q < 32 →
     (s₀.dev.admits q 0x0500 e = true → e.field 0x10 1 ≤ 1 → e.field 0x11 1 ≤ 127 → e.field 0x12 1 ≤ 15 → e.field 0x13 1 ≤ 7 →
       vlanOk (e.field 0x14 2) = true → e.zero 0x16 42 = true → (s.dev.dom e.target).fn.canConfigure = true →
       exec (.domainConfigure q e) s₀ = .next (s.answered (s.dev.modDom e.target fun x => { x with
         fn := .stopped
         cfg := some { protocol := e.field 0x10 1, number := e.field 0x11 1, portMask := e.field 0x12 1
                       priority := e.field 0x13 1, vlan := e.field 0x14 2 } }) q 0x0500 e {})) ∧
     (s₀.dev.admits q 0x0501 e = true → e.zero 0x10 48 = true → (s.dev.dom e.target).fn = .stopped →
       s.dev.domainReady e.target = true → s.dev.pow.refclkLost = false → s.dev.pow.timePllLost = false →
       exec (.domainStart q e) s₀ = .next (s.answered (s.dev.startDomain s.env e.target) q 0x0501 e {})) ∧
     (s₀.dev.admits q 0x0501 e = true → e.zero 0x10 48 = true → (s.dev.dom e.target).fn = .stopped →
       s.dev.domainReady e.target = true → (s.dev.pow.refclkLost = true ∨ s.dev.pow.timePllLost = true) →
       exec (.domainStart q e) s₀ = .next (s.answered ((s.dev.startDomain s.env e.target).faultDomain s.env e.target
         (faultMsg 0x300 0x23 0 s.clk.raw).toNat) q 0x0501 e {})) ∧
     (s₀.dev.admits q 0x0502 e = true → e.zero 0x11 47 = true → e.field 0x10 1 < 2 →
       ((s.dev.dom e.target).fn = .running ∨ (s.dev.dom e.target).fn = .faulted) →
       exec (.domainStop q e) s₀ = .next (s.answered (s.dev.domFree s.env e.target .stopped) q 0x0502 e {})) ∧
     (s₀.dev.admits q 0x0503 e = true → e.zero 0x10 48 = true → (s.dev.dom e.target).fn = .stopped →
       ∃ t, exec (.domainRelease q e) s₀ = .next t ∧ ∀ r, t.dev.domTime e.target r = s.dev.domTime e.target r ∧
         t = s.answered (s.dev.modDom e.target fun x => { x with fn := .unconfigured, cfg := none }) q 0x0503 e {}) ∧
     (s₀.dev.admits q 0x0504 e = true → e.zero 0x10 48 = true →
       exec (.timeSelect q e) s₀ = .next (s.answered { s.dev with tu := { s.dev.tu with preferred := e.target } } q 0x0504 e {})) ∧
     (s₀.dev.admits q 0x0505 e = true → e.zero 0x11 3 = true → e.zero 0x18 40 = true → e.field 0x14 4 ≤ 10000 →
       (e.field 0x10 1 = 0 → exec (.portDelay q e) s₀ = .next (s.answered { s.dev with tu := { s.dev.tu with
         delayIn := tset s.dev.tu.delayIn e.target (e.field 0x14 4) } } q 0x0505 e {})) ∧
       (e.field 0x10 1 = 1 → exec (.portDelay q e) s₀ = .next (s.answered { s.dev with tu := { s.dev.tu with
         delayOut := tset s.dev.tu.delayOut e.target (e.field 0x14 4) } } q 0x0505 e {}))) ∧
     (s₀.dev.admits q 0x0506 e = true → e.zero 0x10 48 = true →
       exec (.timeRead q e) s₀ = .next (s.answered s.dev q 0x0506 e {
         r0 := s.dev.domState e.target, r1 := s.clk.raw, r2 := patternOf (s.dev.domTime e.target s.clk.raw) 64 }))) ∧
  (∀ (s₀ s : State) (q : Nat) (e : Sub), s = s₀.taken q → q < 32 →
     (s₀.dev.admits q 0x0510 e = true → e.field 0x11 1 ≤ 1 → e.field 0x12 1 ≤ 1 → e.zero 0x13 1 = true → e.zero 0x28 24 = true →
       trigCfgOk e.target { dom := e.field 0x10 1, periodic := e.field 0x11 1 = 1, activeLow := e.field 0x12 1 = 1,
                            width := e.field 0x14 4, start := e.field 0x18 8, period := e.field 0x20 8 } = true →
       (s.dev.trig e.target).fn.canConfigure = true →
       exec (.trigConfigure q e) s₀ = .next (s.answered ((s.dev.modTrig e.target fun t => { t with cfg := some {
         dom := e.field 0x10 1, periodic := e.field 0x11 1 = 1, activeLow := e.field 0x12 1 = 1, width := e.field 0x14 4
         start := e.field 0x18 8, period := e.field 0x20 8 } }).trigStopped e.target) q 0x0510 e {})) ∧
     (∀ c : TrigCfg, s₀.dev.admits q 0x0511 e = true → e.zero 0x10 48 = true → (s.dev.trig e.target).fn = .stopped →
       (s.dev.trig e.target).cfg = some c → s.dev.domTime c.dom s.clk.raw ≤ c.start →
       exec (.trigStart q e) s₀ = .next (s.answered (s.dev.modTrig e.target fun t => { t with
         fn := .running, edge := 0, inPulse := false, waitLock := false, resume := none }) q 0x0511 e {})) ∧
     (s₀.dev.admits q 0x0512 e = true → e.zero 0x11 47 = true → e.field 0x10 1 = 1 → (s.dev.trig e.target).fn = .running →
       exec (.trigStop q e) s₀ = .next (s.answered (s.dev.trigStopped e.target) q 0x0512 e {})) ∧
     (s₀.dev.admits q 0x0512 e = true → e.zero 0x11 47 = true → e.field 0x10 1 = 0 → (s.dev.trig e.target).fn = .running →
       (s.dev.trig e.target).inPulse = true →
       exec (.trigStop q e) s₀ = .next (s.opened (s.dev.modTrig e.target fun t => { t with fn := .stopping })
         q 0x0512 e none [])) ∧
     (s₀.dev.admits q 0x0513 e = true → e.zero 0x10 48 = true → (s.dev.trig e.target).fn = .stopped →
       exec (.trigRelease q e) s₀ = .next (s.answered (s.dev.modTrig e.target fun _ => {}) q 0x0513 e {})))

/-- R379, R394, R407, R433, R434, R441, R442, R458: identity, MAC port and peer commands, and a flock event given at device 0.
A PEER_START of an initiator opens a session from the raw counter and sends its first CONNECT. R379, R394, R407, R445,
R451: the stile commands, and a stile whose lifetime has passed leaves RUNNING. -/
def Obligations.flock_commands_complete : Prop :=
  (∀ (s₀ s : State) (q : Nat) (e : Sub), s = s₀.taken q → q < 32 →
     (s₀.dev.admits q 0x0600 e = true → (e.field 0x10 2 ≤ 511 ∨ e.field 0x10 2 = 0xFFFF) →
       (e.field 0x12 2 = 0 ∨ 0x600 ≤ e.field 0x12 2) → e.field 0x14 1 ≤ 15 → e.zero 0x15 43 = true →
       (s.dev.flock.peers.all fun x => x.2.fn == .unconfigured) = true →
       (s.dev.flock.stiles.all fun x => x.2.fn == .unconfigured) = true →
       exec (.flockIdentity q e) s₀ = .next (s.answered { s.dev with flock := { s.dev.flock with
         dev := if e.field 0x10 2 = 0xFFFF then none else some (e.field 0x10 2)
         etherType := if e.field 0x12 2 = 0 then 0x88B5 else e.field 0x12 2
         portMask := e.field 0x14 1 } } q 0x0600 e {})) ∧
     (s₀.dev.admits q 0x0601 e = true → e.field 0x10 1 ≤ 1 → e.field 0x11 1 ≤ 1 → e.zero 0x12 6 = true → e.zero 0x20 32 = true →
       s.dev.flock.dev = some 0 → s.dev.treeParent = none →
       s.dev.domTime (e.field 0x11 1) s.clk.raw + 31000 ≤ e.field 0x18 8 →
       s.dev.flock.event = none → (s.dev.mbox.outst.all fun o => o.opcode != 0x0601) = true →
       s.dev.rootPending s.env = false →
       exec (.flockEvent q e) s₀ = .next (s.answered (s.dev.rootOrder s.env {
         kind := e.field 0x10 1, domain := e.field 0x11 1, origin := 0, eventId := 0, tag := e.tag
         instant := e.field 0x18 8 }).2 q 0x0601 e { r1 := e.field 0x18 8 })) ∧
     (s₀.dev.admits q 0x0602 e = true → e.field 0x10 1 ≤ 3 → e.field 0x11 1 ≤ 3 → (e.field 0x10 1 < 2 → e.field 0x11 1 = 0) →
       e.zero 0x12 46 = true → s.dev.portUsed e.target = false →
       (s.dev.mbox.outst.all fun o => !(o.opcode == 0x0602 && o.e.target == e.target)) = true →
       exec (.ethPort q e) s₀ = .next (s.opened s.dev q 0x0602 e none [e.field 0x10 1, e.field 0x11 1])) ∧
     (s₀.dev.admits q 0x0610 e = true → e.field 0x10 2 ≤ 511 → e.field 0x12 1 ≤ 3 → e.field 0x13 1 ≤ 7 →
       vlanOk (e.field 0x14 2) = true → e.zero 0x16 2 = true → e.zero 0x1E 34 = true →
       (s.dev.peer e.target).fn.canConfigure = true → (s.dev.peer e.target).connecting = false →
       (s.dev.flock.peers.all fun x => x.1 == e.target || x.2.fn == .unconfigured ||
         (x.2.cfg.map (·.dev)) != some (e.field 0x10 2)) = true →
       exec (.peerConfigure q e) s₀ = .next (s.answered (s.dev.modPeer e.target fun p => { p with
         fn := .stopped
         cfg := some { dev := e.field 0x10 2, port := e.field 0x12 1, priority := e.field 0x13 1, vlan := e.field 0x14 2
                       mac := ((padTo 48 e.args).drop 8).take 6 } }) q 0x0610 e {})) ∧
     (s₀.dev.admits q 0x0611 e = true → e.zero 0x10 48 = true → (s.dev.peer e.target).fn = .stopped →
       s.dev.flock.dev.isSome = true → (s.dev.peer e.target).connecting = false → s.dev.initiates e.target = true →
       exec (.peerStart q e) s₀ = .next (s.opened ((s.dev.modPeer e.target fun p => { p with
         connecting := true, session := sessionOf s.clk.raw, lastRx := s.clk.raw, lastTx := s.clk.raw }).putFrame
           s.env e.target 1 0 [] []) q 0x0611 e none [])) ∧
     (s₀.dev.admits q 0x0612 e = true → e.zero 0x11 47 = true → e.field 0x10 1 = 1 → (s.dev.peer e.target).fn = .running →
       exec (.peerStop q e) s₀ = .next (s.answered (s.dev.stopLink s.env e.target) q 0x0612 e {})) ∧
     (s₀.dev.admits q 0x0613 e = true → e.zero 0x10 48 = true → (s.dev.peer e.target).fn = .stopped →
       (s.dev.peer e.target).connecting = false →
       exec (.peerRelease q e) s₀ = .next (s.answered (s.dev.modPeer e.target fun p => { cfg := p.cfg, serve := p.serve })
         q 0x0613 e {}))) ∧
  (∀ (s₀ s : State) (q : Nat) (e : Sub), s = s₀.taken q → q < 32 →
     (∀ b, s₀.dev.admits q 0x0620 e = true → e.field 0x20 1 ≤ 3 → e.zero 0x21 3 = true → e.zero 0x28 8 = true →
       s.dev.stileRangeOk e.target (stileOf e []) = true → (s.dev.stile e.target).fn.canConfigure = true →
       s.dev.blockIs e b → b.length % 2 = 0 → b.length ≤ 1024 → ((stileOf e b).peers.all fun n => n ≤ 511) = true →
       exec (.stileConfigure q e) s₀ = .next (s.answered (s.dev.modStile e.target fun _ => {
         fn := .stopped, cfg := some (stileOf e b) }) q 0x0620 e {})) ∧
     (s₀.dev.admits q 0x0621 e = true → e.zero 0x10 48 = true → (s.dev.stile e.target).fn = .stopped →
       s.dev.flock.dev.isSome = true →
       exec (.stileStart q e) s₀ = .next (s.answered (s.dev.modStile e.target fun x => { x with
         fn := .running, startedAt := s.clk.raw }) q 0x0621 e {})) ∧
     (s₀.dev.admits q 0x0622 e = true → e.zero 0x11 47 = true → e.field 0x10 1 = 0 → (s.dev.stile e.target).fn = .running →
       s.dev.stileBusy e.target = false →
       exec (.stileStop q e) s₀ = .next (s.answered (s.dev.modStile e.target fun x => { x with fn := .stopped })
         q 0x0622 e {})) ∧
     (s₀.dev.admits q 0x0623 e = true → e.zero 0x10 48 = true → (s.dev.stile e.target).fn = .stopped →
       exec (.stileRelease q e) s₀ = .next (s.answered (s.dev.modStile e.target fun _ => {}) q 0x0623 e {})) ∧
     (∀ (i : Nat) (c : StileCfg), i < 64 → (s₀.dev.stile i).cfg = some c → c.lifetimeMs ≠ 0 → (s₀.dev.stile i).fn = .running →
       (s₀.dev.stile i).startedAt + 1000000 * c.lifetimeMs ≤ s₀.clk.raw →
       exec (.stileLifetime i) s₀ = .next (s₀.put (((s₀.dev.modStile i fun y => { y with fn := .stopping }).noteState s₀.env 4
         .stopping i 0).settleStiles s₀.env))))

/-- R408, R476, R489: SELFTEST_PLAN replies with 8 bytes for each logical fold, AGREE_CONFIGURE replaces the agreement rules
and forgets the judged runs, SPARE_TEST becomes outstanding over the present spares. R409, R511, R516, R518: severities
are set above their fixed minimum and read with it, sticky bits are read and cleared where their condition does not
persist, the log ring begins empty, and an injected message is collected in LC_DEVELOP. -/
def Obligations.safety_commands_complete : Prop :=
  (∀ (s₀ s : State) (q : Nat) (e : Sub), s = s₀.taken q → q < 32 →
     (s₀.dev.admits q 0x0700 e = true → e.zero 0x10 32 = true → e.replyOk 384 = true →
       exec (.selftestPlan q e) s₀ = .next (s.answered
         (s.dev.reply e ((List.range 48).flatMap fun n => s.dev.planBytes s.env n)) q 0x0700 e {})) ∧
     (∀ b recs, s₀.dev.admits q 0x0701 e = true → 1 ≤ e.field 0x10 1 → e.field 0x10 1 ≤ e.field 0x11 1 → e.field 0x11 1 ≤ 64 →
       e.zero 0x12 30 = true →
       (s.dev.race.gates.all fun x => !(x.2.fn.active && Settings.collieFeed x.2.settings)) = true →
       s.dev.blockIs e b → b.length % 64 = 0 → b.length ≤ 1024 →
       recs = ((List.range (b.length / 64)).map fun i => (b.drop (64 * i)).take 64) →
       recs.all (ruleOk s.dev) = true → rulesAgree (recs.map ruleOf) = true →
       exec (.agreeConfigure q e) s₀ = .next (s.answered { s.dev with safe := { s.dev.safe with
         rules := recs.map ruleOf, k := e.field 0x10 1, n := e.field 0x11 1, history := [], runs := [] } } q 0x0701 e {})) ∧
     (s₀.dev.admits q 0x0702 e = true → e.zero 0x10 48 = true → (∀ n, n < 48 → (s.dev.fold n).replacing = false) →
       exec (.spareTest q e) s₀ = .next (s.opened s.dev q 0x0702 e none s.dev.spares))) ∧
  (∀ (s₀ s : State) (q : Nat) (e : Sub), s = s₀.taken q → q < 32 →
     (s₀.dev.admits q 0x0800 e = true → (sourceRow (e.field 0x10 2)).isSome = true → e.field 0x10 2 ≤ 1023 → e.field 0x12 1 ≤ 3 →
       e.zero 0x13 45 = true → minimumOf s.env (e.field 0x10 2) ≤ e.field 0x12 1 →
       (e.field 0x10 2 = 0 → lifecycleOf s.fuse = lcDevelop) →
       exec (.severitySet q e) s₀ = .next (s.answered { s.dev with col := { s.dev.col with
         severity := tset s.dev.col.severity (e.field 0x10 2) (e.field 0x12 1) } } q 0x0800 e {})) ∧
     (s₀.dev.admits q 0x0801 e = true → e.zero 0x10 32 = true → e.replyOk 1024 = true →
       exec (.severityRead q e) s₀ = .next (s.answered
         (s.dev.reply e ((List.range 1024).map fun i => s.dev.severityByte s.env i)) q 0x0801 e {})) ∧
     (s₀.dev.admits q 0x0802 e = true → e.zero 0x10 32 = true → e.replyOk 128 = true →
       exec (.stickyRead q e) s₀ = .next (s.answered (s.dev.reply e (stickyBytes s.dev.col.held)) q 0x0802 e {})) ∧
     (∀ (b : List Byte) (named keep : Nat × Nat → Bool), s₀.dev.admits q 0x0803 e = true → e.zero 0x10 32 = true →
       s.dev.blockIs e b → b.length = 128 → named = (fun x => bitOf (fieldAt b (x.1 / 8) 1) (x.1 % 8)) →
       keep = (fun x => !named x || s.dev.persists s.env x.1) →
       exec (.stickyClear q e) s₀ = .next (s.answered
         { s.dev with col := { s.dev.col with held := s.dev.col.held.filter keep } }.pins q 0x0803 e {
           r0 := ((s.dev.col.held.filter keep).filter named).length })) ∧
     (s₀.dev.admits q 0x0804 e = true → e.field 0x10 8 % 64 = 0 → commonBase ≤ e.field 0x10 8 →
       e.field 0x10 8 + e.field 0x18 4 ≤ commonBase + 0xC000000 → e.field 0x18 4 % 4096 = 0 → 4096 ≤ e.field 0x18 4 →
       e.field 0x18 4 ≤ 2 ^ 20 → e.zero 0x1C 36 = true →
       exec (.logConfigure q e) s₀ = .next (s.answered ({ s.dev with col := { s.dev.col with
         log := some { base := e.field 0x10 8, capacity := (e.field 0x18 4 - 64) / 32 } } }.logHeader
           { base := e.field 0x10 8, capacity := (e.field 0x18 4 - 64) / 32 }) q 0x0804 e {})) ∧
     (s₀.dev.admits q 0x0805 e = true → e.zero 0x18 40 = true → lifecycleOf s.fuse = lcDevelop →
       exec (.faultInject q e) s₀ = .next (s.answered (s.dev.collect s.env (BitVec.ofNat 64 (e.field 0x10 8)))
         q 0x0805 e {})))

/-- R410, R532 to R534, R546, R550, R551: ATTEST is outstanding over the instances now loaded; a transition that passes its
checks is outstanding with what it burns; a challenge is fresh and stored; a response is judged once; a lock ends the
session. R534, R551, R552: the effects that follow a lifecycle change and a debug session. -/
def Obligations.security_commands_act : Prop :=
  (∀ (s₀ s : State) (q : Nat) (e : Sub), s = s₀.taken q → q < 32 →
     (s₀.dev.admits q 0x0900 e = true → e.replyOk 8192 = true →
       exec (.attest q e) s₀ = .next (s.opened s.dev q 0x0900 e none s.dev.loadedInsts)) ∧
     (∀ (b : List Byte) (signer : Option (Nat → Bool)) (st : Nat), s₀.dev.admits q 0x0901 e = true → e.field 0x10 1 ≤ 4 →
       e.zero 0x11 31 = true → s.dev.allUnconfigured = true → s.dev.blockIs e b →
       transitionSigner (lifecycleOf s.fuse) (e.field 0x10 1) = some signer →
       st = checkContainer s.fuse 2 (signer.getD fun _ => false) signer.isNone (lifecycleOf s.fuse = lcBlank) b.length b →
       ∃ t, exec (.lifecycleSet q e) s₀ = .next t ∧
         (∀ x, st = stOk → authBurn s.fuse b (e.field 0x10 1) = some x →
           t = s.opened s.dev q 0x0901 e none x.pack) ∧
         (st ≠ stOk → t = s.answered (s.dev.refusedImage b) q 0x0901 e { status := st }) ∧
         (st = stOk → authBurn s.fuse b (e.field 0x10 1) = none →
           t = s.answered s.dev q 0x0901 e { status := stBadArg })) ∧
     (s₀.dev.admits q 0x0902 e = true → e.zero 0x10 48 = true → s.dev.sec.session = none →
       ∃ t c, exec (.debugChallenge q e) s₀ = .next t ∧ t.dev.sec = { s.dev.sec with challenge := some (c, s.clk.raw) } ∧ c.length = 16 ∧
         t.dev.free = s.dev.free + 2 ∧ s.touches t ([.sec, .free] ++ postParts)) ∧
     (∀ b, s₀.dev.admits q 0x0903 e = true → e.zero 0x10 32 = true → s.dev.blockIs e b →
       exec (.debugUnlock q e) s₀ = .next (s.answered (s.dev.openSession s.env b).2.2 q 0x0903 e {
         status := (s.dev.openSession s.env b).1, r0 := (s.dev.openSession s.env b).2.1 }) ∧
       (s.dev.openSession s.env b).2.2.sec.challenge = none) ∧
     (s₀.dev.admits q 0x0904 e = true → e.zero 0x10 48 = true →
       exec (.debugLock q e) s₀ = .next (s.answered { s.dev with sec := { s.dev.sec with session := none, granted := false } }
         q 0x0904 e {}))) ∧
  (∀ (s : State),
     (s.dev.sec.lifecycleDue = true → exec .lifecycleReset s = .next (selfStarted s s.dev.coldReset)) ∧
     (s.dev.sec.lifecycleDue = false → exec .lifecycleReset s = .next s) ∧
     (s.dev.sec.session.isSome = true →
       exec .debugAccessGrant s = .next (s.put ({ s.dev with sec := { s.dev.sec with granted := true } }))) ∧
     (∀ x, s.dev.sec.session = some x → x.until_ ≤ s.clk.raw →
       exec .debugSessionExpiry s = .next (s.put ({ s.dev with sec := { s.dev.sec with
         session := none, granted := false } }))) ∧
     (∀ x, s.dev.sec.session = some x → s.clk.raw < x.until_ → exec .debugSessionExpiry s = .next s))

/-! ## The mailbox's own events -/

/-- R374, R377, R398, R399: an outstanding command whose time has come is closed and completes with TIMEOUT; the end of a
LOAD's work writes the image and runs no thread; the end of a DELETE_QUEUE's work takes the queue away. R410, R534: a
LIFECYCLE_SET's work freezes the mailbox and burns its fuses at 20 µs each; read back well they are all burnt, and the
reset is due; from the first fuse on no timeout ends it. -/
def Obligations.outstanding_commands_finish : Prop :=
  ∀ (s : State) (q tag : Nat) (o : Outst), q < 32 → s.dev.outstBy q tag = some o →
    (o.deadline ≤ s.clk.raw →
      exec (.commandTimeout q tag) s = .next (s.put (s.dev.closeCmd s.env stTimeout o))) ∧
    (s.clk.raw < o.deadline → exec (.commandTimeout q tag) s = .next s) ∧
    (∀ im, o.opcode = 0x0200 → o.image = some im →
      ∃ t, exec (.commandWorkComplete q tag) s = .next t ∧
        t = { s with dev := (s.dev.loadImage s.env o.e.target im).finish s.env o { r0 := o.aux.headD 0 }, fuse := s.fuse.afterWork o } ∧
        t.dev.outstBy q tag = none) ∧
    (o.opcode = 0x0002 →
      ∃ t, exec (.commandWorkComplete q tag) s = .next t ∧
        t = s.put ((s.dev.deleteQueue s.env (o.e.field 0x10 2)).finish s.env o {})) ∧
    (o.opcode = 0x0901 → s.dev.sec.burning = none → s.dev.mbox.frozen = false → s.dev.allUnconfigured = true →
      exec (.commandWorkComplete q tag) s = .next (s.put { s.dev with
        mbox := { s.dev.mbox with frozen := true }, sec := { s.dev.sec with burning := some (s.clk.raw, o.aux) } })) ∧
    (∀ t₀ l, o.opcode = 0x0901 → s.dev.sec.burning = some (t₀, l) →
      t₀ + 20000 * ((Burn.unpack l).bits s.fuse).length ≤ s.clk.raw →
      ∃ t, exec (.commandWorkComplete q tag) s = .next t ∧ t.clk = s.clk ∧
        (s.dev.readsBack = true → t.fuse = s.fuse.burn (Burn.unpack l)) ∧
        t.fuse = s.fuse.burnBits (s.dev.burntBits ((Burn.unpack l).bits s.fuse)) ∧
        t.dev.sec = { s.dev.sec with lifecycleDue := true, burning := none } ∧
        ∀ p, p ∉ [.sec, .free] ++ postParts → p.same s.dev t.dev) ∧
    (o.opcode = 0x0901 → s.dev.mbox.frozen = true →
      exec (.commandTimeout q tag) s = .next s)

/-- R364, R369: a tail that its queue can take becomes the queue's tail, when no earlier write is on its way. A tail past the
ring's size puts the queue into ERROR with a QUEUE_PROTOCOL fault. R382: a head inside the posted entries frees them.
R386: the liveness word takes what the host writes. R361, R363: HPC_HOST_CTRL without bit 0 changes nothing. R361, R363,
R370, R386: the control words of the status block. A write of the liveness word is kept; a 1 in ADMIN_RESET resets the
admin queue once READY is set, and a 0 changes nothing; every other write to the status block is dropped; a write to the
reserved range is dropped with a HOST fault of detail 8. R323, R324: a host write of a done word is refused with a fault,
and a thread's in-step write sets the instance's done bit, once every deadline that lies before it has been judged. -/
def Obligations.doorbells_and_control_words_act : Prop :=
  (∀ (s : State) (q : Nat) (v : Word32) (m : MQueue), q < 32 → s.dev.penOpen s.env = true → s.dev.mbox.ready = true → s.dev.serving = true →
     s.dev.host.winWrites = [] → s.dev.host.penWrites = [] → s.dev.queue q = some m → m.error = false →
     (v.toNat < m.sqEntries → m.sqEntries ≤ 4096 → v.toNat ≠ m.sqTail → m.sqTail < m.sqEntries →
       m.used + (v.toNat + m.sqEntries - m.sqTail) % m.sqEntries < m.sqEntries →
       (∀ o ∈ s.dev.mbox.outst, o.opcode ≠ 0x0400) →
       exec (.hpcSqTail q v) s = .next (s.put (s.dev.modQueue q fun m => { m with sqTail := v.toNat }))) ∧
     (m.sqEntries ≤ v.toNat → v.toNat ≠ m.sqTail → m.sqTail < 65536 → (∀ o ∈ s.dev.mbox.outst, o.opcode ≠ 0x0400) →
       exec (.hpcSqTail q v) s = .next { s with dev :=
         (s.dev.modQueue q fun m => { m with error := true }).raise 0x003 0x1A q v.toNat }) ∧
     (v.toNat < m.cqEntries → m.cqEntries ≤ 8192 → m.cqHead < m.cqEntries →
       (v.toNat + m.cqEntries - m.cqHead) % m.cqEntries ≤ m.unread.length → (∀ o ∈ s.dev.mbox.outst, o.opcode ≠ 0x0400) →
       exec (.hpcCqHead q v) s = .next (s.put (((s.dev.modQueue q fun m => { m with
         cqHead := v.toNat, unread := m.unread.drop ((v.toNat + m.cqEntries - m.cqHead) % m.cqEntries) }).evalIrq
           s.env q).postLost s.env q)))) ∧
  (∀ (s : State), s.dev.penOpen s.env = true → s.dev.host.penWrites = [] →
     (∀ v : Word32, v ≠ 0xB007 → exec (.hpcHostAlive v) s = .next { s with dev :=
       { s.dev with mbox := { s.dev.mbox with hostAlive := v } } }) ∧
     (∀ v : Word32, v.getLsbD 0 = true → s.dev.mbox.ready = true →
       exec (.adminReset v) s = .next (s.put (s.dev.adminReset s.env))) ∧
     (∀ v : Word32, v.getLsbD 0 = false → exec (.adminReset v) s = .next s) ∧
     (∀ (off : Nat) (b : Byte), off < 0x1000 → off / 4 ≠ 0x0C0 / 4 → off / 4 ≠ 0x0C4 / 4 → off < 0x800 →
       exec (.statusBlockWrite off [b]) s = .next s) ∧
     (∀ (off : Nat) (b : Byte), 0x2000 ≤ off → off < 0x10000 → tget s.dev.host.faultAt (128 * 8) = none →
       exec (.statusBlockWrite off [b]) s = .next (s.put ({ s.dev with host := { s.dev.host with
         faultAt := tset s.dev.host.faultAt (128 * 8) s.clk.raw } }.raise 0x280 0x18 8 off))) ∧
     (∀ (f : Nat) (v : Word32), f < 16 →
       exec (.hpcFsetDone f .hostPort v) s =
         .next (s.put ((s.dev.judgeTo f s.clk.raw s.clk.raw).raise 0x304 0x25 f v.toNat))) ∧
     (∀ (f t : Nat) (v : Word32) (x : FSet), f < 16 → x = (s.dev.judgeTo f s.clk.raw s.clk.raw).fset f → x.running = true →
       (v.toNat + 2 ^ 32 - x.current) % 2 ^ 32 < 4 →
       ∃ u, exec (.hpcFsetDone f (.thread t) v) s = .next u ∧ s.touches u (.fsets :: faultParts) ∧
         (s.clk.raw ≤ (s.dev.fset f).rawDeadline → s.touches u [.fsets] ∧ x = s.dev.fset f) ∧
         (∀ k, k ≠ f → u.dev.fset k = s.dev.fset k) ∧ (u.dev.fset f).doneBits.contains v.toNat = true ∧
         (u.dev.fset f).doneValue = v.toNat ∧ (u.dev.fset f).doneTime = s.clk.raw))

/-- R373: firmware takes the entry of the queue whose turn it is: HEAD passes it, and it is served by its opcode. An entry
with a poisoned line completes with INTEGRITY and acts on nothing. R355, R362, R382, R383, R386: firmware's own acts while
it serves: the heartbeat, the end of a coalescing time, an interrupt message sent again, the host's silence, and READY
after the image's start. -/
def Obligations.firmware_acts : Prop :=
  (∀ (s : State) (q n : Nat) (m : MQueue), s.dev.serving = true → s.dev.mbox.frozen = false →
     s.dev.nextQueue = some (q, n) → s.dev.queue q = some m →
     ∃ t, exec .submissionTake s = .next t ∧
       t.dev = { s.dev with mbox := { s.dev.mbox with turn := q, taken := n } }.takeSubmission s.env q ∧
       (∀ r, r = { s.dev with mbox := { s.dev.mbox with turn := q, taken := n } }.readLines 0x003 false
           (commonBase + m.sqBase + 64 * m.sqHead) 64 → r.1 = true → s.dev.mbox.marked = [] →
         t.dev = ((r.2.modQueue q fun m => { m with sqHead := (m.sqHead + 1) % m.sqEntries }).complete s.env q
           (entryOf (s.dev.raw (commonBase + m.sqBase + 64 * m.sqHead) 64)).1
           (entryOf (s.dev.raw (commonBase + m.sqBase + 64 * m.sqHead) 64)).2 { status := stIntegrity }))) ∧
  (∀ (s : State),
     (s.dev.serving = true →
       exec .hpcHeartbeat s = .next (s.put ({ s.dev with mbox := { s.dev.mbox with heartbeat := s.clk.raw } }))) ∧
     (∀ q, q < 32 → s.dev.serving = true →
       exec (.coalesceTimeout q) s = .next (s.put (s.dev.evalIrq s.env q))) ∧
     (∀ q m, q < 32 → s.dev.serving = true → s.dev.queue q = some m → m.irq = true → m.ethIrq = true →
       s.dev.resendDue s.env m = true →
       exec (.irqMessageResend q) s = .next (s.put (s.dev.sendIrq s.env q))) ∧
     (∀ ms, s.dev.serving = true → s.dev.mbox.hostTimeoutMs = some ms → s.dev.mbox.hostAlive = s.dev.mbox.aliveSeen →
       s.dev.mbox.silentRaised = false → s.dev.mbox.aliveAt + 1000000 * ms ≤ s.clk.raw →
       exec .hostSilentCheck s = .next { s with dev :=
         { s.dev with mbox := { s.dev.mbox with silentRaised := true } }.raise 0x004 0x1B 0 ms }) ∧
     (s.dev.pow.phase = .rom → s.dev.pow.romStopped = false → s.dev.mbox.boot.stage = 2 →
       ∃ t, exec .firmwareReady s = .next t ∧ t.dev.mbox.ready = true ∧ t.dev.mbox.queues = [(0, {})] ∧
         t.dev.mbox.outst = [] ∧ t.dev.mbox.boot.stage = 3 ∧ t.dev.pow.phase = .bringUp ∧
         t.fuse = s.fuse.raiseFw s.dev.sec.fwSvn ∧ t.clk = s.clk ∧
         ∀ p, p ∉ [Part.mem, .mbox, .col, .safe, .sec, .pow] → p.same s.dev t.dev))

/-! ## The host port -/

/-- R336, R338, R339: an ACTIVATE opens the page buffer of the bank that bank group and bank name, its lines not yet fetched;
the fetch reads the page's lines and makes the page readable; a PRECHARGE closes it. R562: an ACTIVATE in STANDBY begins a
wake. R353, R356, R357: low-power entry closes the channel's pages; a channel's exit from deep-sleep wakes a device in
STANDBY; HP_RESET_N low, or a pulse of 80 ns or more, clears the port's registers, training and pages and leaves mappings
and accepted writes, and a shorter pulse does nothing; a CK outside 190 MHz to 1,120 MHz raises a fault once and shuts the
channel's commands out until it is back in range. -/
def Obligations.port_commands_act : Prop :=
  (∀ (s : State) (ch bank row : Nat) (b : BankAddr), ch < 4 → b.bg < 4 → b.ba < 16 → bank = s.dev.bankOf ch b → row < 65536 →
     s.dev.portOn s.env = true → tgetD s.dev.host.ckBad ch false = false → s.dev.lowOf ch = 0 →
     (s.dev.page ch bank = none →
       ∃ t, exec (.activate ch b row) s = .next t ∧ t.dev.page ch bank = some { row := row, fetched := false } ∧
         s.touches t [.host, .pow] ∧ t.dev.host.penWrites = s.dev.host.penWrites ∧ t.dev.host.mr = s.dev.host.mr ∧
         (s.dev.pow.sleeping = true → s.dev.pow.holdup = false → t.dev.pow.phase = .waking ∧ t.dev.pow.pwrFold = true)) ∧
     (∀ p, s.dev.page ch bank = some p →
       ∃ t, exec (.activate ch b row) s = .next t ∧ t.dev.host.pages = s.dev.host.pages ∧ s.touches t (.host :: faultParts) ∧
         t.dev.col = (s.dev.raise 0x280 0x18 4 (hostOffset ch bank row 0)).col) ∧
     (∃ t, exec (.precharge ch b) s = .next t ∧ terase s.dev.host.pages (pageKey ch bank) = t.dev.host.pages ∧
       s.touches t [.mem, .host] ∧ t.dev.mem.bytes = s.dev.mem.bytes ∧ t.dev.host.mr = s.dev.host.mr ∧
       t.dev.host.penWrites = s.dev.host.penWrites) ∧
     (b.ba < 4 → bank = if s.dev.bankGroups ch then 4 * b.bg + b.ba else b.ba) ∧ (s.dev.bankGroups ch = false → bank = b.ba) ∧
     (s.dev.page ch bank = some { row := row, fetched := false } → row < 512 → s.dev.penAnswers s.env = true →
       ∃ t, exec (.pageFetchComplete ch bank) s = .next t ∧ t.dev.page ch bank = some { row := row, fetched := true } ∧
         t.dev.mem.bytes = s.dev.mem.bytes ∧ s.touches t ([.mem, .phys, .host] ++ faultParts) ∧
         ∀ k, k ≠ pageKey ch bank → tget t.dev.host.pages k = tget s.dev.host.pages k)) ∧
  (∀ (s : State) (ch : Nat), ch < 4 → s.dev.portOn s.env = true → tgetD s.dev.host.ckBad ch false = false →
     (s.dev.lowOf ch = 0 → ∀ r, ∃ t, exec (.powerDownEntry ch r) s = .next t ∧
       t.dev.host.pages = s.dev.host.pages.filter (fun x => x.1 / 16 != ch) ∧ t.dev.lowOf ch = (if r then 2 else 1) ∧
       s.touches t [.mem, .host] ∧ t.dev.mem.bytes = s.dev.mem.bytes ∧ t.dev.host.mr = s.dev.host.mr ∧
       ∀ c, c ≠ ch → t.dev.lowOf c = s.dev.lowOf c) ∧
     (s.dev.lowOf ch = 0 → s.dev.mbox.hostSleep = false →
       ∃ t, exec (.deepSleepEntry ch) s = .next t ∧ t.dev.lowOf ch = 3 ∧ s.touches t [.mem, .host] ∧
         t.dev.mem.bytes = s.dev.mem.bytes ∧ t.dev.host.mr = s.dev.host.mr ∧ ∀ c, c ≠ ch → t.dev.lowOf c = s.dev.lowOf c) ∧
     (s.dev.lowOf ch = 0 → s.dev.mbox.hostSleep = true → s.dev.mbox.ready = true → s.dev.pow.state = .idle →
       s.dev.powerRefusal = none → (∀ c, c < 4 → c ≠ ch → s.dev.lowOf c = 3) →
       ∃ t, exec (.deepSleepEntry ch) s = .next t ∧ t.dev.pow.state = .standby ∧
         t.clk = { s.clk with running := false, saved := s.clk.raw, asleepNs := 0 } ∧ t.fuse = s.fuse ∧
         ∀ p, p ∉ [Part.mem, .gddr, .folds, .host, .mbox, .tu, .safe, .pow] → p.same s.dev t.dev) ∧
     (s.dev.lowOf ch = 3 → s.dev.pow.sleeping = true → s.dev.pow.holdup = false →
       ∃ t, exec (.deepSleepExit ch) s = .next t ∧ t.dev.host.low = terase s.dev.host.low ch ∧
         t.dev.pow.phase = .waking ∧ s.touches t [.host, .pow]) ∧
     (∀ ns, ns < 80 → exec (.hpResetN (.pulse ns)) s = .next s) ∧
     (∀ r, r = ResetPin.low ∨ (∃ ns, 80 ≤ ns ∧ r = .pulse ns) →
       ∃ t, exec (.hpResetN r) s = .next t ∧ t.dev.host.mr = [] ∧ (t.dev.host.resetLow = true ↔ r = .low) ∧ t.dev.host.training = [] ∧ t.dev.host.pages = [] ∧
       t.dev.host.windows = s.dev.host.windows ∧ t.dev.host.winWrites = s.dev.host.winWrites ∧
       t.dev.host.penWrites = s.dev.host.penWrites ∧ s.touches t [.mem, .host] ∧ t.dev.mem.bytes = s.dev.mem.bytes) ∧
     (∀ kHz, (kHz < 190000 ∨ 1120000 < kHz) → (s.dev.lowOf ch = 0 ∨ kHz ≠ 0) →
       ∃ t, exec (.ckCheck ch kHz) s = .next t ∧ tgetD t.dev.host.ckBad ch false = true ∧
         s.touches t (.host :: faultParts) ∧ t.dev.host.pages = s.dev.host.pages ∧ t.dev.col = (s.dev.raise 0x280 0x18 5 (256 * ch)).col) ∧
     (s.dev.lowOf ch = 0 → ∃ t, exec (.ckTimeout ch) s = .next t ∧
       t.dev.host.pages = s.dev.host.pages.filter (fun x => x.1 / 16 != ch) ∧
       s.touches t ([.mem, .host] ++ faultParts) ∧ t.dev.host.mr = s.dev.host.mr ∧ t.dev.col = (s.dev.raise 0x280 0x18 6 (256 * ch)).col))

/-- R336, R339, R340, R344, R349: a READ of a fetched host-pen page drives the bytes of the burst from the addressed column
on, as they stand in the Common where no host write is merged into the buffer, with read Link ECC where MR22 has it on;
one before the fetch drives zeros and raises a fetch-timing fault; one of a window row drives zeros. R347: no READ changes
memory. R336, R342, R344, R346, R349: an accepted WRITE is posted, and memory does not change until it lands. In the host
pen it is posted with its masked bytes left out, all bytes where MR13 turns the mask off; in a mapped window it is posted
at the region's addresses; in an unmapped window or past the region's length it is dropped. A double-bit Link ECC error
poisons the posted bytes where MR22 has write Link ECC on. R345, R346, R347: a posted write to the ring or buffer area,
first on its line, lands in the Common; a window write with no earlier one to its line lands in GDDR6 outside
self-refresh. Each byte of the write reads as written, and no other byte changes. -/
def Obligations.host_transfers_act : Prop :=
  (∀ (s : State) (ch bank page len : Nat) (b : BankAddr) (p : Page) (d : Dev), ch < 4 → b.bg < 4 → b.ba < 16 →
     bank = s.dev.bankOf ch b → page < 2048 → (len = 32 ∨ len = 64) →
     s.dev.portOn s.env = true → tgetD s.dev.host.ckBad ch false = false → s.dev.lowOf ch = 0 → s.dev.penAnswers s.env = true →
     s.dev.page ch bank = some p → d = s.dev.setLow ch 0 →
     (p.row < 512 → p.fetched = true →
       exec (.hostRead ch b page len true) s = .next (s.put { d with host := { d.host with
         dq := (burstOffsets ch bank p.row page len).map d.pageByte
         dqEcc := if s.dev.readEccOn ch then some (Config.linkEcc ((burstOffsets ch bank p.row page len).map d.pageByte)) else none } })) ∧
     (p.row < 512 → p.fetched = true → page % len = 0 → s.dev.mem.buffered = [] → 0x10000 ≤ hostOffset ch bank p.row page →
       ∃ t, exec (.hostRead ch b page len true) s = .next t ∧ s.touches t [.host] ∧
         t.dev.host.dq = (List.range len).map fun i => mget s.dev.mem.bytes (commonBase + (hostOffset ch bank p.row page + i))) ∧
     (p.row < 512 → p.fetched = false →
       ∃ t, exec (.hostRead ch b page len true) s = .next t ∧ s.touches t (.host :: faultParts) ∧
         t.dev.host.dq = List.replicate len 0 ∧ t.dev.col = (s.dev.raise 0x280 0x18 0 (hostOffset ch bank p.row page)).col) ∧
     (512 ≤ p.row →
       ∃ t, exec (.hostRead ch b page len true) s = .next t ∧ s.touches t (.host :: faultParts) ∧
         t.dev.host.dq = List.replicate len 0)) ∧
  (∀ (s : State) (ch bank page : Nat) (b : BankAddr) (data : List Byte) (mask : List Bool) (ecc : LinkEcc) (p : Page)
       (cells : List Host.Cell) (bad : Bool) (d : Dev),
     ch < 4 → b.bg < 4 → b.ba < 16 → bank = s.dev.bankOf ch b → page < 2048 → (data.length = 32 ∨ data.length = 64) →
     s.dev.portOn s.env = true → tgetD s.dev.host.ckBad ch false = false → s.dev.lowOf ch = 0 → s.dev.penAnswers s.env = true →
     s.dev.page ch bank = some p →
     cells = burstCells (burstOffsets ch bank p.row page data.length) data (if s.dev.maskOff ch then [] else mask) →
     bad = (s.dev.writeEccOn ch && ecc == .double) →
     d = (if bad then (s.dev.setLow ch 0).raise 0x280 3 4 (hostOffset ch bank p.row page) else s.dev.setLow ch 0) →
     (p.row < 512 → exec (.hostWrite ch b page data mask ecc true) s = .next (s.put (d.postPen s.env ch cells bad))) ∧
     (∀ base length, 512 ≤ p.row →
       tget s.dev.host.windows (hostOffset ch bank p.row page / 0x4000000) = some (base, length) →
       hostOffset ch bank p.row page % 0x4000000 < length → s.dev.host.winHeld ch + cells.length ≤ 0x100000 →
       exec (.hostWrite ch b page data mask ecc true) s = .next (s.put (d.postWin s.env ch
         (hostOffset ch bank p.row page / 0x4000000) (cells.map fun c => (base + c.1 % 0x4000000, c.2)) bad))) ∧
     ∃ t, exec (.hostWrite ch b page data mask ecc true) s = .next t ∧ s.touches t ([.mem, .host] ++ faultParts) ∧
       t.dev.mem.bytes = s.dev.mem.bytes ∧ t.dev.host.pages = s.dev.host.pages ∧ t.dev.host.mr = s.dev.host.mr ∧
       (p.row < 512 → t.dev.host.penWrites = s.dev.host.penWrites ++ [{
         ch := ch, cells := cells, poison := bad, posted := s.clk.raw, no := s.dev.host.nextWrite, heeded := s.dev.mbox.ready }] ∧
           t.dev.host.winWrites = s.dev.host.winWrites) ∧
       (512 ≤ p.row → tget s.dev.host.windows (hostOffset ch bank p.row page / 0x4000000) = none →
         t.dev.host.winWrites = s.dev.host.winWrites ∧ t.dev.host.penWrites = s.dev.host.penWrites)) ∧
  (∀ (s : State) (w : PenWrite), (w.cells.map (·.1)).Nodup →
     (∀ i, s.dev.host.penWrites[i]? = some w → ((s.dev.host.penWrites.take i).all fun x => x.line != w.line) = true →
       0x400 ≤ w.line → s.dev.penAnswers s.env = true →
       ∃ t, exec (.hostPenWriteLand i) s = .next t ∧ t.dev.host.penWrites = s.dev.host.penWrites.eraseIdx i ∧
         s.touches t ([.mem, .host] ++ faultParts) ∧
         (∀ a, (∀ c ∈ w.cells, commonBase + c.1 ≠ a) → mget t.dev.mem.bytes a = mget s.dev.mem.bytes a) ∧
         (∀ c, c ∈ w.cells → mget t.dev.mem.bytes (commonBase + c.1) = c.2)) ∧
     (∀ ch i edc, ch < 4 → (s.dev.host.winWrites.filter (·.ch == ch))[i]? = some w →
       ((s.dev.host.winWrites.takeWhile (·.no != w.no)).all fun x => x.line != w.line) = true →
       s.dev.gddr.selfRefresh = false → (∀ o ∈ s.dev.mbox.outst, o.opcode ≠ 0x0400) →
       s.dev.gddrFailed (64 * w.line) = false →
       ∃ t, exec (.windowWriteLand ch ⟨i, edc⟩) s = .next t ∧
         t.dev.host.winWrites = s.dev.host.winWrites.filter (fun x => x.no != w.no) ∧
         s.touches t ([.mem, .host] ++ faultParts) ∧
         (∀ a, (∀ c ∈ w.cells, c.1 ≠ a) → mget t.dev.mem.bytes a = mget s.dev.mem.bytes a) ∧
         (∀ c, c ∈ w.cells → mget t.dev.mem.bytes c.1 = c.2)))

/-- R333 to R335, R350, R355: a mode-register write of a supported value is kept and read back until the next write; RO and
unlisted registers keep their reset values; an unsupported mode leaves the register and raises a MODE fault, and a mask of
MR23 is stored whatever it is; a write that exits the channel's training step (log entry 8: the model's Config says which)
ends it, and no other does. At reset the port is in 16-bank mode, with data masks and no Link ECC. R334: refresh changes
nothing. -/
def Obligations.mode_registers_act : Prop :=
  ∀ (s : State) (ch mr : Nat) (v : Byte) (key : Nat), ch < 4 → mr < 256 → s.dev.portOn s.env = true →
    tgetD s.dev.host.ckBad ch false = false → s.dev.lowOf ch = 0 →
    key = mrKey ch mr (mrField Config.fspWrite 16 (s.dev.mr16 ch)) →
    (∃ t, exec (.modeRegisterRead ch mr) s = .next t ∧ t.dev.host.mrData = s.dev.mrValue ch mr ∧ s.touches t [.host] ∧
      t.dev.host.mr = s.dev.host.mr ∧ t.dev.host.pages = s.dev.host.pages ∧
      (mr = 5 → tget s.dev.host.mr key = none → t.dev.host.mrData = 0xC7)) ∧
    (mrWritable mr = true →
      ∃ t, exec (.modeRegisterWrite ch mr v) s = .next t ∧ s.touches t (.host :: faultParts) ∧
        t.dev.host.pages = s.dev.host.pages ∧
        ((mr = 23 ∨ mrRefused mr v = false) → t.dev.mrValue ch mr = v ∧ s.touches t [.host] ∧
          (∀ k, k ≠ key → tget t.dev.host.mr k = tget s.dev.host.mr k) ∧
          (∀ k, tget s.dev.host.training ch = some k →
            t.dev.host.training = if Config.exitsTraining k mr v then terase s.dev.host.training ch else s.dev.host.training) ∧
          (tget s.dev.host.training ch = none → t.dev.host.training = s.dev.host.training)) ∧
        (mr ≠ 23 → mrRefused mr v = true → t.dev.host.mr = s.dev.host.mr ∧ t.dev.host.training = s.dev.host.training ∧
          t.dev.col = (s.dev.raise 0x280 0x19 mr v.toNat).col)) ∧
    (mrWritable mr = false → ∃ t, exec (.modeRegisterWrite ch mr v) s = .next t ∧ t.dev.host.mr = s.dev.host.mr ∧
      t.dev.host.training = s.dev.host.training ∧ s.touches t [.host]) ∧
    (∀ k data, ∃ t, exec (.trainingStep ch ⟨k, data⟩) s = .next t ∧ tget t.dev.host.training ch = some k ∧ s.touches t [.host] ∧
      t.dev.host.mr = s.dev.host.mr ∧ t.dev.host.pages = s.dev.host.pages ∧
      (k = .wff → tgetD t.dev.host.fifo ch [] = tgetD s.dev.host.fifo ch [] ++ [data]) ∧
      (k = .rff → t.dev.host.dq = (tgetD s.dev.host.fifo ch []).headD [])) ∧
    (s.dev.host.mr = [] → s.dev.bankGroups ch = false ∧ s.dev.maskOff ch = false ∧ s.dev.writeEccOn ch = false ∧
      s.dev.readEccOn ch = false) ∧
    exec (.refresh ch) s = .next (s.put (s.dev.setLow ch 0))

/-! ## Thread instructions -/

/-- R128, R131, R414: ALU, MUL and TIME write one register and go on, BRANCH goes to its target when its condition holds; a
write of s0 is discarded. Nothing but the thread and its fold's issue pointers changes. A shift by 64 or more, which the
manual leaves open, has the model's free value (log entry 3). -/
def Obligations.thread_arithmetic : Prop :=
  ∀ (s : State) (t w : Nat), t < 3088 →
    (∀ op rd ra rb rc, rd < 32 → s.dev.issues t 0x01 w →
      ∃ u, exec (.alu t op rd ra rb rc) s = .next u ∧ threadFrame s u t ∧
        wrote s u t rd (aluResult s.dev op (s.dev.reg t ra) (s.dev.reg t rb) (s.dev.reg t rc))) ∧
    (∀ rd ra rb, rd < 32 → s.dev.issues t 0x02 w →
      ∃ u, exec (.mul t rd ra rb) s = .next u ∧ threadFrame s u t ∧ wrote s u t rd (s.dev.reg t ra * s.dev.reg t rb)) ∧
    (∀ rd k, rd < 32 → k ≤ 2 → s.dev.issues t 0x0C w →
      ∃ u, exec (.time t rd k) s = .next u ∧ threadFrame s u t ∧
        wrote s u t rd (BitVec.ofInt 64 (s.dev.counter k s.clk.raw))) ∧
    (∀ c ra rb target, s.dev.issues t 0x03 w →
      ∃ u, exec (.branch t c ra rb target) s = .next u ∧ threadFrame s u t ∧
        (u.dev.thread t).regs = (s.dev.thread t).regs ∧
        (u.dev.thread t).pc = if branchTaken c (s.dev.reg t ra) (s.dev.reg t rb) then BitVec.ofNat 32 target
          else (s.dev.thread t).pc + 8)

/-- R131, R136, R139, R185: a LOAD of the own fold's memory receives its bytes, and one of another memory waits until they
return; a STORE is posted and changes no byte before it reaches its memory; an ATOMIC is posted and its thread waits for
the old value; FENCE goes on once nothing of the thread is on its way. R136, R140, R185: a posted store inside one line of
fold memory changes its own bytes and no other; loaded data that returns goes to its register and the thread is READY. -/
def Obligations.thread_memory_access : Prop :=
  (∀ (s : State) (t w size rd ra : Nat) (off : Int) (a : Nat), t < 3088 → rd < 32 → a = s.dev.addrOf t ra off → a % size = 0 →
     s.dev.slots = [] → s.dev.reachOf (foldOfThread t) a = .served →
     (∀ edc, size = 1 ∨ size = 2 ∨ size = 4 ∨ size = 8 → s.dev.issues t 0x04 w → isOwn (foldOfThread t) a = true →
       s.dev.posted = [] → s.dev.mem.sound = true →
       ∃ u, exec (.threadLoad t size rd ra ⟨off, edc⟩) s = .next u ∧ threadFrame s u t ∧
         wrote s u t rd (BitVec.ofNat 64 (leNat (s.dev.raw a size)))) ∧
     (∀ edc, size = 1 ∨ size = 2 ∨ size = 4 ∨ size = 8 → s.dev.issues t 0x04 w → isOwn (foldOfThread t) a = false →
       ∃ u, exec (.threadLoad t size rd ra ⟨off, edc⟩) s = .next u ∧ threadActs s u t [.mem] ∧
         u.dev.mem = (s.dev.meetEdc a edc).mem ∧ (u.dev.thread t).regs = (s.dev.thread t).regs ∧
         waits s u t (.loadData a size rd)) ∧
     (∀ rs, size = 1 ∨ size = 2 ∨ size = 4 ∨ size = 8 → s.dev.issues t 0x05 w →
       ∃ u, exec (.threadStore t size ra off rs) s = .next u ∧ threadActs s u t [.posted] ∧
         u.dev.posted = s.dev.posted ++ [{ thread := t, addr := a, data := leBytes size (s.dev.reg t rs).toNat,
                                           poisoned := (s.dev.thread t).poisonMark }] ∧
         (u.dev.thread t).regs = (s.dev.thread t).regs ∧ (u.dev.thread t).pc = (s.dev.thread t).pc + 8) ∧
     (∀ op rb rc, size = 4 ∨ size = 8 → off = 0 → s.dev.issues t 0x06 w →
       ∃ u, exec (.threadAtomic t op size rd ra rb rc) s = .next u ∧ threadActs s u t [.posted] ∧
         (u.dev.thread t).regs = (s.dev.thread t).regs ∧
         u.dev.posted = s.dev.posted ++ [{ thread := t, addr := a, data := leBytes size (s.dev.reg t rb).toNat,
                                           poisoned := (s.dev.thread t).poisonMark,
                                           atomic := some (op, rd, (s.dev.reg t rc).toNat) }] ∧
         waits s u t (.atomicData rd)) ∧
     (s.dev.issues t 0x07 w → s.dev.storesDone t = true →
       ∃ u, exec (.fence t) s = .next u ∧ threadFrame s u t ∧ (u.dev.thread t).regs = (s.dev.thread t).regs ∧
         (u.dev.thread t).pc = (s.dev.thread t).pc + 8 ∧ (u.dev.thread t).st = (s.dev.thread t).st) ∧
     (s.dev.issues t 0x07 w → s.dev.storesDone t = false →
       ∃ u, exec (.fence t) s = .next u ∧ threadFrame s u t ∧ waits s u t .fence)) ∧
  (∀ (s : State),
     (∀ i p, s.dev.clocked = true → s.dev.posted[i]? = some p → p.atomic = none →
       (s.dev.posted.take i).all (fun x => x.thread != p.thread || x.addr / 64 != p.addr / 64) = true →
       s.dev.refusesPosted p = false → s.dev.reach p.addr = .served → (∃ n o, zoneOf p.addr = .foldMem n o) →
       p.data ≠ [] → p.addr % 64 + p.data.length ≤ 64 →
       ∃ u, exec (.narrowStoreMerge i) s = .next u ∧ u.dev.posted = s.dev.posted.eraseIdx i ∧
         s.touches u ([.mem, .posted, .folds, .phys, .threads, .flights] ++ faultParts) ∧
         (∀ k, k ≠ p.thread → u.dev.thread k = s.dev.thread k) ∧
         (∀ k, k < p.data.length → mget u.dev.mem.bytes (p.addr + k) = p.data.getD k 0) ∧
         (∀ a, (a < p.addr ∨ p.addr + p.data.length ≤ a) → mget u.dev.mem.bytes a = mget s.dev.mem.bytes a)) ∧
     (∀ t a size rd, s.dev.clocked = true → t < 3088 → rd < 32 → (s.dev.thread t).st = .waiting →
       ((s.dev.thread t).wait.map (·.what)) = some (.loadData a size rd) → s.dev.flock.reqs = [] → s.dev.posted = [] →
       s.dev.reach a = .served → (∃ o, zoneOf a = .common o ∧ 0x2004 ≤ o) → s.dev.slots = [] →
       s.dev.mem.sound = true →
       ∃ u, exec (.loadDataReturn t) s = .next u ∧ threadFrame s u t ∧ (u.dev.thread t).st = .ready ∧
         (u.dev.thread t).reg rd = (if rd = 0 then 0 else BitVec.ofNat 64 (leNat (s.dev.raw a size))) ∧
         ∀ r, r ≠ rd → (u.dev.thread t).reg r = (s.dev.thread t).reg r))

/-- R133, R292, R294, R295, R305, R307, R311, R314: each WAIT returns its status at once when its condition holds, or when its
deadline has passed, its slot is abandoned or its hurdle broken; else its thread waits. -/
def Obligations.thread_waits : Prop :=
  (∀ (s : State) (t w rd id v : Nat), t < 3088 → rd = fA w → id = identOf (s.dev.reg t (fB w)) → v = (s.dev.reg t (fC w)).toNat →
     (s.dev.waitsOn t 0 w → reached (s.dev.engine (foldOfThread t) id).completed v = true →
       ∃ u, exec (.waitEngine t) s = .next u ∧ threadFrame s u t ∧ wrote s u t rd 0) ∧
     (s.dev.waitsOn t 0 w → reached (s.dev.engine (foldOfThread t) id).completed v = false →
       ∃ u, exec (.waitEngine t) s = .next u ∧ threadFrame s u t ∧ waits s u t (.engine id v)) ∧
     (∀ q, s.dev.waitsOn t 1 w → tget s.dev.queues id = some q → takePos q = none → v = 0 →
       ∃ u, exec (.waitQueue t) s = .next u ∧ threadActs s u t [.queues] ∧ waits s u t (.queue id rd v) ∧
         (∀ j, j ≠ id → tget u.dev.queues j = tget s.dev.queues j) ∧ tget u.dev.queues id = some { q with waiters := q.waiters ++ [t] }) ∧
     (∀ q, s.dev.waitsOn t 1 w → tget s.dev.queues id = some q → (takePos q).isSome = true → q.waiters = [] →
       ∃ u, exec (.waitQueue t) s = .next u ∧
         u = s.put (((s.dev.issued s.env t).advance t).takeEntry id t rd)) ∧
     (∀ q i p, s.dev.waitsOn t 2 w → tget s.dev.queues id = some q → prodIndex q (.thread t) = some i → q.prods[i]? = some p →
       p.used < p.credits →
       ∃ u, exec (.waitCredit t) s = .next u ∧ threadFrame s u t ∧ wrote s u t rd 0) ∧
     (∀ q i p, s.dev.waitsOn t 2 w → tget s.dev.queues id = some q → prodIndex q (.thread t) = some i → q.prods[i]? = some p →
       p.credits ≤ p.used → v = 0 →
       ∃ u, exec (.waitCredit t) s = .next u ∧ threadFrame s u t ∧ waits s u t (.credit id rd v)) ∧
     (s.dev.waitsOn t 6 w → (v : Int) ≤ s.dev.counter id s.clk.raw →
       ∃ u, exec (.waitTime t) s = .next u ∧ threadFrame s u t ∧ wrote s u t rd 0) ∧
     (s.dev.waitsOn t 6 w → s.dev.counter id s.clk.raw < (v : Int) →
       ∃ u, exec (.waitTime t) s = .next u ∧ threadFrame s u t ∧ waits s u t (.time id v rd)) ∧
     (∀ q, s.dev.waitsOn t 7 w → tget s.dev.queues id = some q →
       ∃ u, exec (.waitQstat t) s = .next u ∧ threadActs s u t [.queues] ∧ (∀ j, j ≠ id → tget u.dev.queues j = tget s.dev.queues j) ∧
         tget u.dev.queues id = some { q with overrun := false } ∧
         wrote s u t rd (BitVec.ofNat 64 (q.entries.length % 65536 + if q.overrun then 65536 else 0)))) ∧
  (∀ (s : State) (t w rd id v : Nat), t < 3088 → rd = fA w → id = identOf (s.dev.reg t (fB w)) → v = (s.dev.reg t (fC w)).toNat →
     (s.dev.waitsOn t 3 w → s.dev.slotState id = some .full →
       ∃ u, exec (.waitSlotFull t) s = .next u ∧ threadFrame s u t ∧ wrote s u t rd 0) ∧
     (s.dev.waitsOn t 3 w → s.dev.slotState id = some .abandoned →
       ∃ u, exec (.waitSlotFull t) s = .next u ∧ threadFrame s u t ∧ wrote s u t rd 1) ∧
     (s.dev.waitsOn t 3 w → s.dev.slotState id = some .empty → v ≠ 0 → v ≤ s.clk.raw →
       ∃ u, exec (.waitSlotFull t) s = .next u ∧ threadFrame s u t ∧ wrote s u t rd 3) ∧
     (s.dev.waitsOn t 3 w → s.dev.slotState id = some .empty → v = 0 →
       ∃ u, exec (.waitSlotFull t) s = .next u ∧ threadFrame s u t ∧ waits s u t (.slotFull id rd v)) ∧
     (s.dev.waitsOn t 4 w → s.dev.slotState id = some .empty →
       ∃ u, exec (.waitSlotEmpty t) s = .next u ∧ threadFrame s u t ∧ wrote s u t rd 0) ∧
     (s.dev.waitsOn t 4 w → s.dev.slotState id = some .full → v = 0 →
       ∃ u, exec (.waitSlotEmpty t) s = .next u ∧ threadFrame s u t ∧ waits s u t (.slotEmpty id rd v)) ∧
     (∀ h, s.dev.waitsOn t 5 w → tget s.dev.hurdles id = some h → h.broken = none →
       ∃ u, exec (.waitHurdle t) s = .next u ∧ threadActs s u t [.flights] ∧ waits s u t (.hurdle id rd) ∧
         u.dev.flights = s.dev.flights ++ [.arrive id (some t) (s.dev.threadSrc t)]) ∧
     (∀ h, s.dev.waitsOn t 5 w → tget s.dev.hurdles id = some h → h.broken = some causeAbandoned →
       ∃ u, exec (.waitHurdle t) s = .next u ∧ threadFrame s u t ∧ wrote s u t rd 1))

/-- R131, R138, R151, R289, R293, R302, R308: a POST hands its object over and goes on; MARK_FULL waits for the thread's
stores; END halts the thread; a word of no class faults it with code 1. -/
def Obligations.thread_posts_and_end : Prop :=
  ∀ (s : State) (t w : Nat), t < 3088 →
    (s.dev.postsOn t 0 w → (s.dev.reg t (fA w)).toNat < 2 ^ 31 → identOf (s.dev.reg t (fA w)) / 256 ≠ 0x3F →
      ∃ u, exec (.postQueue t) s = .next u ∧ threadActs s u t [.flights] ∧
        (u.dev.thread t).regs = (s.dev.thread t).regs ∧ (u.dev.thread t).pc = (s.dev.thread t).pc + 8 ∧
        u.dev.flights = s.dev.flights ++ [.entry (identOf (s.dev.reg t (fA w))) (.thread t)
          (leBytes 8 (s.dev.reg t (fB w)).toNat ++ leBytes 8 (s.dev.reg t (fC w)).toNat) false (s.dev.threadSrc t)]) ∧
    (s.dev.postsOn t 1 w → (s.dev.reg t (fA w)).toNat < 2 ^ 31 → identOf (s.dev.reg t (fA w)) / 256 ≠ 0x3F →
      ∃ u, exec (.postQueueEnd t) s = .next u ∧ threadActs s u t [.flights] ∧
        (u.dev.thread t).regs = (s.dev.thread t).regs ∧ (u.dev.thread t).pc = (s.dev.thread t).pc + 8 ∧
        u.dev.flights = s.dev.flights ++ [.entry (identOf (s.dev.reg t (fA w))) (.thread t)
          (leBytes 8 (s.dev.reg t (fB w)).toNat ++ leBytes 8 (s.dev.reg t (fC w)).toNat) true (s.dev.threadSrc t)]) ∧
    (s.dev.postsOn t 2 w → s.dev.storesDone t = true →
      ∃ u, exec (.postMarkFull t) s = .next u ∧ threadActs s u t [.flights] ∧
        (u.dev.thread t).regs = (s.dev.thread t).regs ∧ (u.dev.thread t).pc = (s.dev.thread t).pc + 8 ∧
        u.dev.flights = s.dev.flights ++ [.mark (identOf (s.dev.reg t (fA w))) true (s.dev.threadSrc t)]) ∧
    (s.dev.postsOn t 2 w → s.dev.storesDone t = false →
      ∃ u, exec (.postMarkFull t) s = .next u ∧ threadFrame s u t ∧
        waits s u t (.markFull (identOf (s.dev.reg t (fA w))))) ∧
    (s.dev.postsOn t 3 w →
      ∃ u, exec (.postMarkEmpty t) s = .next u ∧ threadActs s u t [.flights] ∧
        (u.dev.thread t).regs = (s.dev.thread t).regs ∧ (u.dev.thread t).pc = (s.dev.thread t).pc + 8 ∧
        u.dev.flights = s.dev.flights ++ [.mark (identOf (s.dev.reg t (fA w))) false (s.dev.threadSrc t)]) ∧
    (s.dev.postsOn t 4 w →
      ∃ u, exec (.postArrive t) s = .next u ∧ threadActs s u t [.flights] ∧
        (u.dev.thread t).regs = (s.dev.thread t).regs ∧ (u.dev.thread t).pc = (s.dev.thread t).pc + 8 ∧
        u.dev.flights = s.dev.flights ++ [.arrive (identOf (s.dev.reg t (fA w))) none (s.dev.threadSrc t)]) ∧
    (s.dev.issues t 0x0D w → s.dev.ownerOf t = none →
      ∃ u, exec (.endThread t) s = .next u ∧ (u.dev.thread t).st = .halted ∧ threadActs s u t [] ∧
        (u.dev.thread t).regs = (s.dev.thread t).regs) ∧
    (s.dev.mayIssue t = true → s.dev.fetch t = (.word w, s.dev) → (classOf w = 0 ∨ 0x0D < classOf w) → s.dev.ownerOf t = none →
      ∃ u, exec (.illegalInstruction t) s = .next u ∧ (u.dev.thread t).st = .faulted ∧ (u.dev.thread t).faultCode = 1 ∧
        threadActs s u t (.queues :: faultParts) ∧ (u.dev.thread t).regs = (s.dev.thread t).regs)

/-- R294, R295, R307, R311, R313, R314: a waiting thread goes on with its status at its deadline, at its object's timeout with
a STARVATION fault, or when its counter reaches the time; R306: where a guard still holds back a store of it, it waits
there. -/
def Obligations.waits_end : Prop :=
  ∀ (s : State) (t : Nat) (x : Wait), t < 3088 → (s.dev.thread t).st = .waiting → (s.dev.thread t).wait = some x →
    (∀ id rd dl, x.what = .slotFull id rd dl → 0 < rd → rd < 32 → 0 < dl → dl ≤ s.clk.raw →
      ∃ u, exec (.waitDeadline t) s = .next u ∧ (u.dev.thread t).st = (if s.dev.parkedStore t then .waiting else .ready) ∧ (u.dev.thread t).reg rd = 3 ∧
        s.touches u [.threads, .queues] ∧ (∀ k, k ≠ t → u.dev.thread k = s.dev.thread k) ∧
        ∀ r, r ≠ rd → (u.dev.thread t).reg r = (s.dev.thread t).reg r) ∧
    (∀ id rd dl q n, x.what = .credit id rd dl → 0 < rd → rd < 32 → tget s.dev.queues id = some q → q.timeoutNs = some n →
      x.since + n ≤ s.clk.raw →
      ∃ u, exec (.waitTimeout t) s = .next u ∧ (u.dev.thread t).st = (if s.dev.parkedStore t then .waiting else .ready) ∧ (u.dev.thread t).reg rd = 2 ∧
        s.touches u (.threads :: faultParts) ∧ (∀ k, k ≠ t → u.dev.thread k = s.dev.thread k) ∧
        u.dev.col = (s.dev.raise (s.dev.threadSrc t) 0x09 1 (id % 65536)).col) ∧
    (∀ k v rd, x.what = .time k v rd → (v : Int) ≤ s.dev.counter k s.clk.raw →
      ∃ u, exec (.timeWaitExpiry t) s = .next u ∧ threadFrame s u t ∧ (u.dev.thread t).st = (if s.dev.parkedStore t then .waiting else .ready) ∧
        (u.dev.thread t).reg rd = 0) ∧
    (∀ k v rd, x.what = .time k v rd → s.dev.counter k s.clk.raw < (v : Int) → exec (.timeWaitExpiry t) s = .next s)

/-! ## Hand-offs and engines -/

/-- R132, R133, R134, R137: ISSUE and GROUP copy their descriptors into the engine queues, return each engine's next issue
number in its register, and go on; a group's descriptors carry the engines of the group. -/
def Obligations.descriptors_are_queued : Prop :=
  ∀ (s : State) (t w : Nat), t < 3088 → s.dev.posted = [] → s.dev.mem.sound = true →
    (∀ k rd ra, k < engineCount (foldOfThread t) → rd < 32 → s.dev.issues t 0x08 w → s.dev.descriptorAt t k ra = true →
      s.dev.engineFull (foldOfThread t) k = false →
      ∃ u, exec (.issue t k rd ra) s = .next u ∧ threadFrame s u t ∧
        wrote s u t rd (BitVec.ofNat 64 (s.dev.nextIssue (foldOfThread t) k)) ∧
        (u.dev.engine (foldOfThread t) k).queue = (s.dev.engine (foldOfThread t) k).queue ++ [s.dev.jobAt t k ra []] ∧
        (u.dev.engine (foldOfThread t) k).issued = s.dev.nextIssue (foldOfThread t) k ∧
        ∀ m, m ≠ k → u.dev.engine (foldOfThread t) m = s.dev.engine (foldOfThread t) m) ∧
    (∀ k rd ra, k < engineCount (foldOfThread t) → rd < 32 → s.dev.issues t 0x08 w → s.dev.descriptorAt t k ra = true →
      s.dev.engineFull (foldOfThread t) k = true →
      ∃ u, exec (.issue t k rd ra) s = .next u ∧ threadFrame s u t ∧ (u.dev.thread t).st = .waiting ∧
        (u.dev.thread t).wait = some { what := .fullQueue [k], since := s.clk.raw } ∧
        (u.dev.thread t).pc = (s.dev.thread t).pc) ∧
    (∀ l : List (Nat × Nat × Nat), l.length = 2 ∨ l.length = 3 → (l.map (·.1)).Nodup → (l.map (·.2.1)).Nodup →
      s.dev.issues t 0x09 w →
      (∀ x ∈ l, x.1 < sequenced (foldOfThread t) ∧ x.2.1 < 32 ∧ x.2.2 < 32 ∧ s.dev.descriptorAt t x.1 x.2.2 = true ∧
        s.dev.engineFull (foldOfThread t) x.1 = false) →
      ∃ u, exec (.group t l) s = .next u ∧ threadFrame s u t ∧ (u.dev.thread t).pc = (s.dev.thread t).pc + 8 ∧
        (u.dev.thread t).st = (s.dev.thread t).st ∧
        ∀ x ∈ l, (u.dev.engine (foldOfThread t) x.1).queue =
            (s.dev.engine (foldOfThread t) x.1).queue ++ [s.dev.jobAt t x.1 x.2.2 (l.map (·.1))] ∧
          (x.2.1 ≠ 0 → (u.dev.thread t).reg x.2.1 = BitVec.ofNat 64 (s.dev.nextIssue (foldOfThread t) x.1)))

/-- R123, R290, R299, R303: an entry that reaches its queue with a free credit is kept and uses the credit; one without is
ignored, the overrun bit set and an OBJECT fault raised; a release word takes its slot from the gate's held ones. -/
def Obligations.entries_arrive : Prop :=
  ∀ (s : State) (i id : Nat) (who : Prod) (data : List Byte) (atEnd : Bool) (src : Nat) (q : FQueue) (k : Nat) (p : ProdSlot),
    s.dev.clocked = true →
    (s.dev.flights[i]? = some (.entry id who data atEnd src) → (s.dev.flights.take i).any (sameEntry id who) = false → tget s.dev.queues id = some q → prodIndex q who = some k →
      q.prods[k]? = some p → p.used < p.credits → q.waiters = [] →
      ∃ u, exec (.queueEntryArrival i) s = .next u ∧ u.dev.flights = s.dev.flights.eraseIdx i ∧ s.touches u [.flights, .queues] ∧
        tget u.dev.queues id = some { setUsed q k (· + 1) with
          entries := q.entries ++ [{ data := padTo 16 (data.take 16), atEnd := atEnd, prod := k
                                     parity := parityOf (padTo 16 (data.take 16)) }] } ∧
        ∀ j, j ≠ id → tget u.dev.queues j = tget s.dev.queues j) ∧
    (s.dev.flights[i]? = some (.entry id who data atEnd src) → (s.dev.flights.take i).any (sameEntry id who) = false → tget s.dev.queues id = some q → prodIndex q who = some k →
      q.prods[k]? = some p → p.credits ≤ p.used →
      ∃ u, exec (.queueEntryArrival i) s = .next u ∧ u.dev.flights = s.dev.flights.eraseIdx i ∧
        tget u.dev.queues id = some { q with overrun := true } ∧
        s.touches u ([.flights, .queues] ++ faultParts) ∧ (∀ j, j ≠ id → tget u.dev.queues j = tget s.dev.queues j) ∧
        u.dev.col = (s.dev.raise (s.dev.workSrc (id / 256)) 8 1 (id % 65536)).col) ∧
    (∀ g, s.dev.flights[i]? = some (.release g data src) → fieldAt data 0 8 ≠ 0 →
      (s.dev.gate g).held.contains (fieldAt data 0 8) = true →
      ∃ u, exec (.raceReleaseEntry i) s = .next u ∧ u.dev.flights = s.dev.flights.eraseIdx i ∧ s.touches u [.flights, .race] ∧
        u.dev.gate g = { s.dev.gate g with held := (s.dev.gate g).held.filter (· != fieldAt data 0 8) } ∧
        ∀ j, j ≠ g → u.dev.gate j = s.dev.gate j)

/-- R304, R306, R307, R308, R290: marks move a slot between EMPTY and FULL, a mark that finds the wrong state raises an OBJECT
fault; a slot's timeout ends a thread's wait with status 2 and a STARVATION fault, taints a FULL slot, and lets a drover
pass. R311, R313, R314: an arrival is counted; the last one of a phase starts the next phase and sends the release to the
folds of the waiting members, whose threads go on with status 0 when it reaches them; a phase that lasts past the timeout
breaks the hurdle and its members return status 2. -/
def Obligations.slots_and_hurdles_change : Prop :=
  (∀ (s : State) (i id src : Nat) (x : Slot), s.dev.clocked = true → id < 65536 → tget s.dev.slots id = some x →
     (s.dev.flights[i]? = some (.mark id true src) → x.st = .empty →
       ∃ u, exec (.slotMarkArrival i) s = .next u ∧ u.dev.flights = s.dev.flights.eraseIdx i ∧
         tget u.dev.slots id = some { x with st := .full, late := false } ∧ s.touches u [.flights, .slots, .threads] ∧ ∀ j, j ≠ id → tget u.dev.slots j = tget s.dev.slots j) ∧
     (s.dev.flights[i]? = some (.mark id false src) → x.st ≠ .empty →
       ∃ u, exec (.slotMarkArrival i) s = .next u ∧ u.dev.flights = s.dev.flights.eraseIdx i ∧
         tget u.dev.slots id = some { x with st := .empty, taint := false, late := false } ∧
         s.touches u [.flights, .slots, .threads] ∧ ∀ j, j ≠ id → tget u.dev.slots j = tget s.dev.slots j) ∧
     (∀ full, s.dev.flights[i]? = some (.mark id full src) → full = (x.st != .empty) →
       ∃ u, exec (.slotMarkArrival i) s = .next u ∧ s.touches u (.flights :: faultParts) ∧
         u.dev.col = (s.dev.raise src 8 2 (id % 65536)).col) ∧
     (∀ k t y rd dl, k < 3184 → waiterThread k = some t → 0 < rd → rd < 32 → s.dev.waitOf t = some y →
       y.what = .slotFull id rd dl → x.st = .empty → y.since + x.timeoutNs ≤ s.clk.raw →
       ∃ u, exec (.slotReaderTimeout id k) s = .next u ∧ (u.dev.thread t).st = (if s.dev.parkedStore t then .waiting else .ready) ∧ (u.dev.thread t).reg rd = 2 ∧
         tget u.dev.slots id = some { x with late := true } ∧ (∀ j, j ≠ id → tget u.dev.slots j = tget s.dev.slots j) ∧
         s.touches u ([.threads, .slots] ++ faultParts) ∧ (∀ k, k ≠ t → u.dev.thread k = s.dev.thread k) ∧
         u.dev.col = (s.dev.raise (s.dev.threadSrc t) 9 2 (id % 65536)).col) ∧
     (∀ k t y rd dl, k < 3184 → waiterThread k = some t → 0 < rd → rd < 32 → s.dev.waitOf t = some y →
       y.what = .slotEmpty id rd dl → x.st = .full → y.since + x.timeoutNs ≤ s.clk.raw → s.dev.posted = [] →
       ∃ u, exec (.slotWriterTimeout id k) s = .next u ∧ (u.dev.thread t).st = .ready ∧ (u.dev.thread t).reg rd = 2 ∧
         tget u.dev.slots id = some { x with taint := true } ∧ (∀ j, j ≠ id → tget u.dev.slots j = tget s.dev.slots j) ∧
         s.touches u ([.threads, .slots] ++ faultParts) ∧ (∀ k, k ≠ t → u.dev.thread k = s.dev.thread k) ∧
         u.dev.col = (s.dev.raise (s.dev.threadSrc t) 9 3 (id % 65536)).col) ∧
     (∀ n r j since, n < 48 → r < 2 → (s.dev.engine n (3 + r)).running = some j → (s.dev.engine n (3 + r)).refusedAt = some since →
       (s.dev.droverRefused n r j.desc).contains id = true → x.st = .empty → since + x.timeoutNs ≤ s.clk.raw →
       ∃ u, exec (.slotReaderTimeout id (3072 + 2 * n + r)) s = .next u ∧
         (u.dev.engine n (3 + r)).passed = (s.dev.engine n (3 + r)).passed ++ [id] ∧ s.touches u (.folds :: faultParts) ∧
         (∀ m, m ≠ n → u.dev.fold m = s.dev.fold m) ∧
         u.dev.col = (s.dev.raise (s.dev.workSrc n) 9 2 (id % 65536)).col)) ∧
  (∀ (s : State) (i id src : Nat) (h : Hurdle), s.dev.clocked = true → id < 65536 → tget s.dev.hurdles id = some h → h.broken = none →
     (∀ w, s.dev.flights[i]? = some (.arrive id w src) → h.count + 1 < h.members →
       ∃ u, exec (.hurdleArrival i) s = .next u ∧ u.dev.flights = s.dev.flights.eraseIdx i ∧
         s.touches u [.flights, .hurdles] ∧ (∀ j, j ≠ id → tget u.dev.hurdles j = tget s.dev.hurdles j) ∧
         tget u.dev.hurdles id = some { h with
           count := h.count + 1, waiters := h.waiters ++ w.toList,
           firstArrival := if h.count = 0 then s.clk.raw else h.firstArrival }) ∧
     (∀ t, s.dev.flights[i]? = some (.arrive id (some t) src) → h.count + 1 = h.members → h.flock = none → h.waiters = [] →
       ∃ u, exec (.hurdleArrival i) s = .next u ∧
         u.dev.flights = s.dev.flights.eraseIdx i ++ [.freed id (foldOfThread t) [t]] ∧
         s.touches u [.flights, .hurdles] ∧ (∀ j, j ≠ id → tget u.dev.hurdles j = tget s.dev.hurdles j) ∧
         tget u.dev.hurdles id = some { h with
           count := 0, waiters := [], phase := (h.phase + 1) % 256,
           firstArrival := if h.count = 0 then s.clk.raw else h.firstArrival }) ∧
     (∀ n ts, s.dev.flights[i]? = some (.freed id n ts) →
       ∃ u, exec (.hurdleReleaseArrival i) s = .next u ∧ u.dev.flights = s.dev.flights.eraseIdx i ∧
         s.touches u [.flights, .threads] ∧ (∀ k, k ∉ ts → u.dev.thread k = s.dev.thread k) ∧
         ∀ t ∈ ts, ∀ rd, rd < 32 → s.dev.whatOf t = some (.hurdle id rd) →
           (u.dev.thread t).st = (if s.dev.parkedStore t then .waiting else .ready) ∧ (u.dev.thread t).reg rd = 0) ∧
     (h.flock = none → 0 < h.count → h.firstArrival + h.timeoutNs ≤ s.clk.raw →
       ∃ u, exec (.hurdleTimeout id) s = .next u ∧
         tget u.dev.hurdles id = some { h with broken := some causeTimeout, waiters := [], count := 0 } ∧
         s.touches u ([.hurdles, .threads] ++ faultParts) ∧ (∀ k, k ∉ h.waiters → u.dev.thread k = s.dev.thread k) ∧
         ∀ t ∈ h.waiters, ∀ j rd, 0 < rd → rd < 32 → s.dev.whatOf t = some (.hurdle j rd) →
           (u.dev.thread t).st = (if s.dev.parkedStore t then .waiting else .ready) ∧ (u.dev.thread t).reg rd = 2))

/-- R125, R133, R134, R220: an engine that is free takes the head of its queue, a group's engines take theirs together; a job
that ends advances its engine's completion count by one and leaves memory as its operation writes it, with what its mates
write for it. -/
def Obligations.jobs_start_and_complete : Prop :=
  ∀ (s : State) (n k : Nat), n ≤ 48 → k < sequenced n →
    (∀ j rest, (s.dev.engine n k).queue = j :: rest → s.dev.canStart n k = true → j.mates = [] →
      ∃ u j', exec (.jobStart n k) s = .next u ∧ (u.dev.engine n k).queue = rest ∧ (u.dev.engine n k).running = some j' ∧
        j'.desc = j.desc ∧ j'.issue = j.issue ∧ j'.thread = j.thread ∧ u.dev.mem.bytes = s.dev.mem.bytes ∧
        s.touches u ([.mem, .folds, .phys, .threads] ++ faultParts) ∧ (∀ m, m ≠ n → u.dev.fold m = s.dev.fold m) ∧
        (u.dev.engine n k).completed = (s.dev.engine n k).completed) ∧
    (∀ l, s.dev.readyGroup n = some l → l.Nodup →
      ∃ u, exec (.groupStart n) s = .next u ∧ u.dev.mem.bytes = s.dev.mem.bytes ∧
        s.touches u ([.mem, .folds, .phys, .threads] ++ faultParts) ∧ (∀ m, m ≠ n → u.dev.fold m = s.dev.fold m) ∧
        ∀ m ∈ l, (u.dev.engine n m).queue = (s.dev.engine n m).queue.drop 1 ∧
          ((u.dev.engine n m).running.map fun j => (j.issue, j.thread, j.desc)) =
            ((s.dev.engine n m).queue.head?.map fun j => (j.issue, j.thread, j.desc))) ∧
    (∀ j conflicts, (s.dev.engine n k).running = some j → s.dev.foldAwake n = true → s.dev.ownerOf j.thread = none →
      s.dev.mbox.outst = [] →
      ∃ u, exec (.jobComplete n ⟨k, conflicts⟩) s = .next u ∧ (u.dev.engine n k).running = none ∧
        (u.dev.engine n k).completed = ((s.dev.engine n k).completed + 1) % 2 ^ 32 ∧
        (u.dev.engine n k).queue = (s.dev.engine n k).queue ∧
        s.touches u ([.mem, .folds, .phys, .threads, .free] ++ faultParts) ∧ (∀ m, m ≠ n → u.dev.fold m = s.dev.fold m) ∧
        ∃ d : Dev, d = (if n = collieFold then s.dev else s.dev.hold (s.dev.physOf n) conflicts) ∧
          u.dev.mem.bytes = (d.jobResult n k j).mem.bytes ∧ u.dev.mem.poison = (d.jobResult n k j).mem.poison)

/-- R186, R187, R305, R306: a drover takes a descriptor; a guard that refuses it makes it wait, and it goes on once the guard
admits it; its local transfer writes what it moves, its count advances and, with flag 0, its completion word leaves for
the queue. -/
def Obligations.drovers_move : Prop :=
  ∀ (s : State) (n r : Nat) (j : Job), n < 48 → r < 2 → s.dev.foldAwake n = true →
    s.dev.peerFrom j.desc = false → s.dev.peerTo j.desc = false →
    (∀ rest, (s.dev.engine n (3 + r)).queue = j :: rest → (s.dev.engine n (3 + r)).running = none →
      (s.dev.engine n (3 + r)).passed = [] →
      ∃ u, exec (.droverStart n r) s = .next u ∧ (u.dev.engine n (3 + r)).queue = rest ∧
        (u.dev.engine n (3 + r)).running = some j ∧ s.touches u [.folds, .threads] ∧
        (u.dev.engine n (3 + r)).refusedAt = if s.dev.droverHeld n r j.desc = [] then none else some s.clk.raw) ∧
    ((s.dev.engine n (3 + r)).running = some j → (s.dev.engine n (3 + r)).refusedAt = none → s.dev.droverOpen n r = false →
      s.dev.droverHeld n r j.desc = [] → s.dev.ownerOf j.thread = none → ∀ parity,
      ∃ u, exec (.droverComplete n ⟨r, parity⟩) s = .next u ∧ (u.dev.engine n (3 + r)).running = none ∧
        (u.dev.engine n (3 + r)).completed = ((s.dev.engine n (3 + r)).completed + 1) % 2 ^ 32 ∧
        (∃ d : Dev, d = (s.dev.droverData s.env n r j.desc).2.droverWrite s.env n r parity (s.dev.droverData s.env n r j.desc).1 ∧
          u.dev.mem.bytes = d.mem.bytes ∧ u.dev.mem.poison = d.mem.poison ∧ u.dev.mem.check = d.mem.check) ∧
        s.touches u ([.mem, .folds, .phys, .threads, .flights, .fsets, .free] ++ faultParts) ∧
        (dvPost j.desc = true → .entry (dvQueue j.desc) (.drover n r)
            (leBytes 4 (((s.dev.engine n (3 + r)).completed + 1) % 2 ^ 32) ++ leBytes 4 (256 * n + r) ++ leBytes 8 0) true
            (s.dev.workSrc n) ∈ u.dev.flights)) ∧
    (∀ since, (s.dev.engine n (3 + r)).running = some j → (s.dev.engine n (3 + r)).refusedAt = some since →
      s.dev.droverHeld n r j.desc = [] →
      ∃ u, exec (.droverGuardRetry n r) s = .next u ∧ (u.dev.engine n (3 + r)).refusedAt = none ∧
        (u.dev.engine n (3 + r)).running = some j ∧ s.touches u [.folds] ∧ ∀ m, m ≠ n → u.dev.fold m = s.dev.fold m) ∧
    (∀ since, (s.dev.engine n (3 + r)).running = some j → (s.dev.engine n (3 + r)).refusedAt = some since →
      s.dev.droverHeld n r j.desc ≠ [] →
      ∃ u, exec (.droverGuardRetry n r) s = .next u ∧ (u.dev.engine n (3 + r)).refusedAt = some since ∧
        (u.dev.engine n (3 + r)).running = some j ∧ s.touches u [.folds] ∧ ∀ m, m ≠ n → u.dev.fold m = s.dev.fold m)

/-! ## Folds and memory upkeep -/

/-- R127, R469, R470, R471, R473, R474: a due slice starts in an idle fold's gap and ends the loaded state of both arrays; its
end with the signature held for the die records the pass, one with any other raises a SELFTEST fault; a lapse of coverage
raises its fault once. -/
def Obligations.self_test_slices : Prop :=
  ∀ (s : State) (p n sl : Nat), p < 52 → sl < 4 → s.dev.logicalOf p = some n →
    (s.dev.sliceRoom p n = true → s.dev.dueSlice s.env p n = some sl → s.dev.inGap s.env n = true →
      ∃ u, exec (.sliceStart p sl) s = .next u ∧ (u.dev.physFold p).slice = some sl ∧
        (u.dev.array n 0).loaded = none ∧ (u.dev.array n 1).loaded = none ∧ s.touches u [.folds, .phys] ∧
        ∀ m, m ≠ n → u.dev.fold m = s.dev.fold m) ∧
    ((s.dev.physFold p).slice = some sl → s.dev.clocked = true →
      ∃ u, exec (.sliceEnd p (Config.sliceSignature sl)) s = .next u ∧ (u.dev.physFold p).slice = none ∧
        tget (u.dev.physFold p).lastPass sl = some s.clk.raw ∧
        (u.dev.physFold p).sliceCycles = ((s.dev.physFold p).sliceCycles + 18750) % 2 ^ 64 ∧ s.touches u [.folds, .phys] ∧
        ∀ m, m ≠ n → u.dev.fold m = s.dev.fold m) ∧
    (∀ w, (s.dev.physFold p).slice = some sl → s.dev.clocked = true → w ≠ Config.sliceSignature sl →
      s.dev.silent (0x100 + p) = true →
      ∃ u, exec (.sliceEnd p w) s = .next u ∧ (u.dev.physFold p).slice = none ∧
        tget (u.dev.physFold p).signatures sl = some w ∧ (u.dev.physFold p).lastPass = (s.dev.physFold p).lastPass ∧
        u.dev.col = (s.dev.raise (0x100 + p) 0x0C sl (tgetD (s.dev.physFold p).lastPass sl 0 / 1024)).col ∧
        s.touches u ([.folds, .phys] ++ faultParts)) ∧
    ((s.dev.physFold p).retired = false → s.dev.coverage n < (s.dev.physFold p).age s.clk.raw sl →
      tgetD (s.dev.physFold p).lapsed sl false = false →
      ∃ u, exec (.coverageLapse p sl) s = .next u ∧ tget (u.dev.physFold p).lapsed sl = some true ∧ s.touches u (.phys :: faultParts) ∧
        u.dev.col = (s.dev.raise (0x140 + p) 0x0D sl ((s.dev.physFold p).age s.clk.raw sl / 1000)).col)

/-- R142, R143, R144, R475, R566: a fold that has been quiet for the gate delay is gated; a thread that became READY, a start
or an old slice wakes it with its trough rows invalid, at most 8 folds in 250 ns, else the fold is held back; and fold
memory woken from elsewhere returns to retention. -/
def Obligations.folds_gate_and_wake : Prop :=
  ∀ (s : State) (n : Nat), n < 48 →
    (s.dev.foldAwake n = true → s.dev.foldQuiet n = true → (s.dev.physFold (s.dev.physOf n)).slice = none →
      (s.dev.fold n).idleSince + s.dev.gateDelay n ≤ s.clk.raw →
      ∃ u, exec (.foldGate n) s = .next u ∧ u.dev.fold n = { s.dev.fold n with gated := true, arrays := [] } ∧
        u = s.put { s.dev with folds := u.dev.folds } ∧ ∀ m, m ≠ n → u.dev.fold m = s.dev.fold m) ∧
    (s.dev.asleepFold n = true → (s.dev.pick n).isSome = true ∨ (s.dev.fold n).wakeDue = true → s.dev.mayWake s.env n = true →
      ∃ u, exec (.foldWake n) s = .next u ∧
        u.dev.fold n = { s.dev.fold n with
          gated := false, memAwake := false, arrays := [], idleSince := s.clk.raw, wakeDue := false, heldBack := false } ∧
        u = s.put { s.dev with folds := u.dev.folds, pow := u.dev.pow } ∧
        u.dev.pow = { s.dev.pow with foldWakes := s.dev.justWoken s.env ++ [s.clk.raw] } ∧
        ∀ m, m ≠ n → u.dev.fold m = s.dev.fold m) ∧
    (s.dev.asleepFold n = true → (s.dev.pick n).isSome = true ∨ (s.dev.fold n).wakeDue = true → 8 ≤ (s.dev.justWoken s.env).length →
      ∃ u, exec (.foldWake n) s = .next u ∧ u.dev.fold n = { s.dev.fold n with heldBack := true } ∧
        u = s.put { s.dev with folds := u.dev.folds } ∧ ∀ m, m ≠ n → u.dev.fold m = s.dev.fold m) ∧
    (∀ sl, sl < 4 → s.dev.asleepFold n = true →
      3 * s.dev.coverage n ≤ 4 * (s.dev.physFold (s.dev.physOf n)).age s.clk.raw sl → s.dev.mayWake s.env n = true →
      ∃ u, exec (.sliceWake n) s = .next u ∧
        u.dev.fold n = { s.dev.fold n with
          gated := false, memAwake := false, arrays := [], idleSince := s.clk.raw, wakeDue := false, heldBack := false } ∧
        u = s.put { s.dev with folds := u.dev.folds, pow := u.dev.pow } ∧
        u.dev.pow = { s.dev.pow with foldWakes := s.dev.justWoken s.env ++ [s.clk.raw] }) ∧
    ((s.dev.fold n).gated = true → (s.dev.fold n).memAwake = true →
      (s.dev.fold n).memIdleSince + s.dev.gateDelay n ≤ s.clk.raw →
      ∃ u, exec (.foldMemoryRetention n) s = .next u ∧ u.dev.fold n = { s.dev.fold n with memAwake := false } ∧
        u = s.put { s.dev with folds := u.dev.folds } ∧ ∀ m, m ≠ n → u.dev.fold m = s.dev.fold m)

/-- R146, R148, R476: a fenced fold's logical number passes to the lowest-numbered spare, or to none where no spare is left;
the four slices run on the spare meanwhile, and one that mismatches, which the manual leaves to the die (the model's
choice: log entry 3), renews no pass and raises a SELFTEST fault; the test of a free spare that passes renews its four
passes. -/
def Obligations.spares_take_over : Prop :=
  ∀ (s : State) (p n : Nat), p < 52 →
    (∀ sp rest, s.dev.logicalOf p = some n → (s.dev.fold n).replacing = true → (s.dev.physFold p).retired = true →
      s.dev.mbox.outst = [] → s.dev.spares = sp :: rest →
      ∃ u, exec (.foldRetirement p) s = .next u ∧ u.dev.physOf n = sp ∧ (u.dev.fold n).replacing = false ∧
        u.clk = s.clk ∧ u.fuse = s.fuse ∧ (∀ m, m ≠ n → u.dev.physOf m = s.dev.physOf m) ∧
        ((u.dev.physFold sp).lastPass = [(0, s.clk.raw), (1, s.clk.raw), (2, s.clk.raw), (3, s.clk.raw)] ∨
          ∃ sl, sl < 4 ∧ (u.dev.physFold sp).lastPass =
              tset [(0, s.clk.raw), (1, s.clk.raw), (2, s.clk.raw), (3, s.clk.raw)] sl (tgetD (s.dev.physFold sp).lastPass sl 0) ∧
            u.dev.silent (0x100 + sp) = false)) ∧
    (s.dev.logicalOf p = some n → (s.dev.fold n).replacing = true → (s.dev.physFold p).retired = true →
      s.dev.mbox.outst = [] → s.dev.spares = [] →
      ∃ u, exec (.foldRetirement p) s = .next u ∧ u.dev.physOf n = 0xFF ∧ (u.dev.fold n).replacing = false ∧
        u.clk = s.clk ∧ u.fuse = s.fuse ∧ ∀ m, m ≠ n → u.dev.physOf m = s.dev.physOf m) ∧
    (∀ l : List Nat, s.dev.pow.state = .idle → p ∈ s.dev.spares →
      (s.dev.physFold p).lastSpareTest + 3600000000000 ≤ s.clk.raw → l.contains p = true →
      ∃ u, exec (.sparePeriodicTest l) s = .next u ∧ (u.dev.physFold p).lastSpareTest = s.clk.raw ∧
        (u.dev.physFold p).lastPass = [(0, s.clk.raw), (1, s.clk.raw), (2, s.clk.raw), (3, s.clk.raw)] ∧
        s.touches u ([.folds, .phys, .free] ++ faultParts))

/-- R164, R165, R184, R191: scrubbing reads the next line and changes no byte; a corrected line is written back and a bad one
marked poisoned; a temperature band takes effect at its second reading; a GDDR6 read without data returns poisoned. -/
def Obligations.memory_upkeep : Prop :=
  ∀ (s : State),
    (∀ k, k < 85 → s.dev.scrubs k = true →
      ∃ u, exec (.scrub k) s = .next u ∧ u.dev.mem.bytes = s.dev.mem.bytes ∧ s.touches u ([.mem, .phys] ++ faultParts) ∧
        tget u.dev.mem.scrubPos k = some (if tgetD s.dev.mem.scrubPos k 0 + 1 = scrubLines k then 0
          else tgetD s.dev.mem.scrubPos k 0 + 1)) ∧
    (∀ line b, s.dev.mem.writeback.contains line = true → tget s.dev.mem.err line = some (.single b) →
      ∃ u, exec (.correctionWriteback line) s = .next u ∧ tget u.dev.mem.err line = none ∧
        u.dev.mem.writeback.contains line = false ∧ u.dev.mem.bytes = s.dev.mem.bytes ∧ s.touches u [.mem] ∧
        ∀ l, l ≠ line → tget u.dev.mem.err l = tget s.dev.mem.err l) ∧
    (∀ line, s.dev.mem.poisonStore.contains line = true →
      ∃ u, exec (.poisonBitStore line) s = .next u ∧ u.dev.isPoisoned line = true ∧
        u.dev.mem.poisonStore.contains line = false ∧ u.dev.mem.bytes = s.dev.mem.bytes ∧ s.touches u [.mem] ∧
        ∀ l, l ≠ line → u.dev.isPoisoned l = s.dev.isPoisoned l) ∧
    (∀ i r, i < 12 → s.dev.clocked = true → tgetD s.dev.gddr.failed i false = false → -40 ≤ r → r ≤ 125 →
      tgetD s.dev.gddr.band i 0 ≠ tempBand r →
      ∃ u, exec (.gddr6TemperatureRead i (some r)) s = .next u ∧ s.touches u (.gddr :: faultParts) ∧
        (tget s.dev.gddr.candidate i = some (tempBand r + 1) → tgetD u.dev.gddr.band i 0 = tempBand r ∧
          (tempBand r = 2 → u.dev.col = (s.dev.raise (0x1D0 + i) 0x1C 0 (patternOf r 40)).col)) ∧
        (tget s.dev.gddr.candidate i ≠ some (tempBand r + 1) → u.dev.gddr.band = s.dev.gddr.band ∧
          tget u.dev.gddr.candidate i = some (tempBand r + 1) ∧ u.dev.col = s.dev.col)) ∧
    (∀ i addr off, i < 12 → s.dev.clocked = true → zoneOf addr = .gddr off → gddrIface off = i →
      ∃ u, exec (.gddr6ReadTimeout i addr none) s = .next u ∧ u.dev.mem.late.contains (addr / 64) = true ∧
        u.dev.mem.bytes = s.dev.mem.bytes ∧ s.touches u (.mem :: faultParts) ∧
        u.dev.col = (s.dev.raise (0x1D0 + i) 3 7 addr).col) ∧
    (∀ i addr t a size rd off since, i < 12 → t < 3088 → s.dev.clocked = true →
      s.dev.waitOf t = some { what := .loadData a size rd, since := since } → zoneOf a = .gddr off → gddrIface off = i →
      a / 64 = addr / 64 → since + 20000 ≤ s.clk.raw →
      ∃ u, exec (.gddr6ReadTimeout i addr (some t)) s = .next u ∧ (u.dev.thread t).st = (if s.dev.parkedStore t then .waiting else .ready) ∧
        (u.dev.thread t).poisonMark = true ∧ s.touches u ([.threads, .free] ++ faultParts) ∧
        (∀ k, k ≠ t → u.dev.thread k = s.dev.thread k) ∧
        u.dev.col = (s.dev.raise (0x1D0 + i) 3 7 a).col ∧
        ∀ r, r ≠ rd → (u.dev.thread t).reg r = (s.dev.thread t).reg r)

/-! ## The Race -/

/-- R47, R52, R53, R55, R65, R70, R71, R605: a Frame Start at a RUNNING gate opens a sample with the next counter, or that of
its frame-set instance, in a free landing slot; a good line joins it, a damaged one joins it as damage; Frame End closes
it into the gate's pipeline with its undamaged lines and its damage; a line marker of a mapped channel only counts a
corrected header; a packet of an unmapped channel is counted; an uncorrectable header is counted at its port and noted at
the port's gates. -/
def Obligations.camera_frames : Prop :=
  ∀ (s : State) (p vc g : Nat) (ecc : HeaderEcc), s.dev.clocked = true → p < 12 → vc < 32 → ecc ≠ .uncorrectable →
    (∀ num st k, s.dev.gateOf p vc = some g → (s.dev.gate g).fn = .running → st = (s.dev.gate g).settings → Settings.kind st = 0 →
      (s.dev.gate g).frame = none → (s.dev.gate g).liveNext = [] → (s.dev.gate g).pickSlot = some k →
      (∀ x, (s.dev.gate g).lastFs = some x → x + 1000 * s.dev.minIntervalUs st ≤ s.clk.raw) →
      (s.dev.assign g (s.dev.captureNow g s.clk.raw)).1.2.2 = none →
      ∃ u f, exec (.csiFrameStart p vc ecc num) s = .next u ∧ (u.dev.gate g).frame = some f ∧ f.number = num ∧
        s.touches u (.race :: postParts) ∧ (∀ j, j ≠ g → u.dev.gate j = s.dev.gate j) ∧
        f.startRaw = s.clk.raw ∧ f.lines = [] ∧ f.smp.slot = some k ∧ f.smp.capture = s.dev.captureNow g s.clk.raw ∧
        (Settings.fset st = none → f.smp.counter = (s.dev.gate g).nextCounter ∧
          (u.dev.gate g).nextCounter = ((s.dev.gate g).nextCounter + 1) % 2 ^ 32) ∧
        (∀ n c, Settings.fset st = some n → (s.dev.fset n).cfg = some c → f.smp.counter =
          patternOf ((2 * (s.dev.captureNow g s.clk.raw - c.epoch) + c.period).fdiv (2 * c.period)) 32)) ∧
    (∀ f data wc, s.dev.gateOf p vc = some g → s.dev.takesCsi g = true → (s.dev.gate g).frame = some f →
      (dataTypeBits (Settings.dataType f.smp.st)).isSome = true → wc = Settings.lineBytes f.smp.st → data.length = wc →
      (f.lines ≠ [] ∨ Settings.get f.smp.st 0x13 0 % 256 / 8 = 0) → f.lines.length < Settings.height f.smp.st →
      (∃ u, exec (.csiLongPacket p vc ecc (Settings.dataType f.smp.st) wc true false data) s = .next u ∧
        u = s.put ((s.dev.countHeader p ecc).modGate g fun x => { x with frame := some { f with
          lines := f.lines ++ [some data], lastPacket := some s.clk.raw } })) ∧
      (∃ u, exec (.csiLongPacket p vc ecc (Settings.dataType f.smp.st) wc false false data) s = .next u ∧
        (u.dev.gate g).frame = some { f with
          lines := f.lines ++ [none], lastPacket := some s.clk.raw, got := tset f.got f.lines.length data } ∧
        s.touches u (.race :: faultParts) ∧ (∀ j, j ≠ g → u.dev.gate j = s.dev.gate j) ∧ u.dev.col = (s.dev.raise (0x200 + g) 0x10 3 (lineArg f.smp.counter f.lines.length)).col)) ∧
    (∀ (f : OpenFrame) (num : Nat), s.dev.gateOf p vc = some g → s.dev.takesCsi g = true → (s.dev.gate g).frame = some f →
      s.clk.raw ≤ f.startRaw + Settings.frameTimeMax f.smp.st → (f.number = 0 ∨ num = f.number) → f.surplus = 0 → f.dropped = false →
      f.lines.length = Settings.height f.smp.st → dropDetail f.smp.st (f.sample 0 0).damage 0 = none → f.smp.slot.isSome = true →
      (∀ y ∈ (s.dev.gate g).pipe, y.slot.isSome = true) →
      ∃ (u : State) (x : Sample), exec (.csiFrameEnd p vc ecc num) s = .next u ∧ (u.dev.gate g).frame = none ∧ (u.dev.gate g).failedRun = 0 ∧
        s.touches u raceParts ∧ (∀ j, j ≠ g → u.dev.gate j = s.dev.gate j) ∧
        (u.dev.gate g).pipe = (s.dev.gate g).pipe ++ [x] ∧ x.counter = f.smp.counter ∧ x.capture = f.smp.capture ∧
        x.slot = f.smp.slot ∧ x.damage = (f.sample 0 0).damage ∧ x.concealed = !x.damage.isEmpty ∧
        ∀ (y : Nat) (b : List Byte), f.lines[y]? = some (some b) → x.input[y]? = some b) ∧
    (s.dev.gateOf p vc = some g → s.dev.takesCsi g = true →
      exec (.csiLineMarker p ⟨vc, ecc⟩) s = .next (s.put (s.dev.countHeader p ecc))) ∧
    (∀ num, exec (.csiLineMarker p ⟨vc, .uncorrectable⟩) s = exec (.csiFrameStart p vc .uncorrectable num) s) ∧
    (s.dev.gateOf p vc = none →
      ∃ u, exec (.csiLineMarker p ⟨vc, ecc⟩) s = .next u ∧ (u.dev.port p).discarded = (s.dev.port p).discarded + 1 ∧
        u.dev.race.gates = s.dev.race.gates ∧ s.touches u [.race, .col] ∧ u.dev.col = (s.dev.raiseSecond s.env (0x248 + p) 0x15 0 0 true).col) ∧
    (∀ num, ∃ u, exec (.csiFrameStart p vc .uncorrectable num) s = .next u ∧
      (u.dev.port p).uncorrectable = (s.dev.port p).uncorrectable + 1 ∧ s.touches u (.race :: faultParts) ∧
      (∀ j, u.dev.gate j = if (s.dev.gatesOfPort p).contains j then { s.dev.gate j with headerBad := true } else s.dev.gate j) ∧
      u.dev.col = (s.dev.raise (0x248 + p) 0x10 0 0).col)

/-- R50, R55, R60, R604: a frame that stops short of its lines or lasts too long closes at its timeout; a silent gate has a
failed instance; a PERIOD sample closes at its end; faults counted within a raw second are raised at its end. -/
def Obligations.race_timeouts : Prop :=
  ∀ (s : State) (g : Nat), g < 64 →
    (∀ f t, s.dev.clocked = true → (s.dev.gate g).frame = some f → f.lastPacket = some t → Settings.kind f.smp.st = 0 →
      t + Settings.lineTimeout f.smp.st ≤ s.clk.raw →
      ∃ u, exec (.lineTimeout g) s = .next u ∧ (u.dev.gate g).frame = none ∧
        s.touches u raceParts ∧ ∀ j, j ≠ g → u.dev.gate j = s.dev.gate j) ∧
    (∀ f, s.dev.clocked = true → (s.dev.gate g).frame = some f → Settings.kind f.smp.st = 0 →
      f.startRaw + Settings.frameTimeMax f.smp.st < s.clk.raw →
      ∃ u, exec (.frameTimeMax g) s = .next u ∧ (u.dev.gate g).frame = none ∧
        s.touches u raceParts ∧ ∀ j, j ≠ g → u.dev.gate j = s.dev.gate j) ∧
    (s.dev.clocked = true → (s.dev.gate g).fn = .running → Settings.kind (s.dev.gate g).settings = 0 →
      (s.dev.gate g).silentSince + s.dev.silenceNs (s.dev.gate g).settings ≤ s.clk.raw →
      (s.dev.gate g).failedRun + 1 < Settings.dropLimit (s.dev.gate g).settings →
      ∃ u c, exec (.silenceTimeout g) s = .next u ∧
        s.touches u ([.race, .free] ++ faultParts) ∧ (∀ j, j ≠ g → u.dev.gate j = s.dev.gate j) ∧
        u.dev.gate g = { s.dev.gate g with silentSince := s.clk.raw, failedRun := (s.dev.gate g).failedRun + 1 } ∧
        u.dev.col = (s.dev.raise (0x200 + g) 0x11 6 c).col) ∧
    (∀ f, s.dev.clocked = true → (s.dev.gate g).frame = some f → Settings.kind f.smp.st = 1 → Settings.sampleMode f.smp.st = 2 → f.smp.inst = none →
      f.startRaw + 1000 * s.dev.minIntervalUs f.smp.st + 100000 ≤ s.clk.raw →
      ∃ u, exec (.periodSampleClose g) s = .next u ∧ (u.dev.gate g).frame = none ∧
        s.touches u raceParts ∧ ∀ j, j ≠ g → u.dev.gate j = s.dev.gate j) ∧
    (∀ x, s.dev.col.perSecond = [x] → x.second < s.clk.raw / 1000000000 →
      ∃ u, exec .secondFaultReport s = .next u ∧ u.dev.col.perSecond = [] ∧ s.touches u faultParts ∧
        u.dev.col.waiting = (s.dev.raise x.src x.kind x.detail (if x.counted then x.count else x.arg)).col.waiting ∧
        u.dev.col.held = (s.dev.raise x.src x.kind x.detail (if x.counted then x.count else x.arg)).col.held)

/-- R57, R58, R59, R63, R64, R403, R433, R436: a frame that fails its FCS is only counted, as is a MAC control frame or one of
a length that the MAC does not allow; a packet of a gate's filter that passes its checks fills the next slot of the open
sample; a feed that is read completes its command, and its sample joins the gate's pipeline. -/
def Obligations.packets_and_feeds : Prop :=
  ∀ (s : State) (g : Nat), s.dev.clocked = true →
    (∀ f : SensorFrame, f.port < 4 → f.fcsOk = false →
      ∃ u, exec (.ethSensorFrame f) s = .next u ∧ (u.dev.mac f.port).fcsErrors = (s.dev.mac f.port).fcsErrors + 1 ∧
        s.touches u [.flock] ∧ ∀ p, p ≠ f.port → u.dev.mac p = s.dev.mac p) ∧
    (∀ (f : SensorFrame) fr st, f.port < 4 → f.fcsOk = true → frameRefused (sensorToBridge f) = false →
      s.dev.isPtp (sensorToBridge f) = false → s.dev.filterGates f = [g] → (s.dev.gate g).fn = .running →
      (s.dev.gate g).frame = some fr → st = (s.dev.gate g).settings → fr.smp.st = st →
      (f.ipVersion = 4 → f.ipChecksumOk = true) → f.fragment = false →
      (f.udpChecksumOk = true ∨ (f.ipVersion = 4 ∧ f.udpChecksumZero = true)) →
      Settings.get st 0x17 0 + Settings.windowLen st ≤ f.udpPayload.length → Settings.get st 0x19 0 % 256 / 8 = 0 →
      Settings.sampleMode st = 0 → fr.lines.length + 1 < Settings.get st 0x15 4096 →
      ∃ u, exec (.ethSensorFrame f) s = .next u ∧
        u.dev.gate g = { s.dev.gate g with unslotted := 0, frame := some { fr with lines := fr.lines ++
          [some ((f.udpPayload.drop (Settings.get st 0x17 0)).take (Settings.windowLen st))] } } ∧
        u = s.put { s.dev with race := { s.dev.race with gates := u.dev.race.gates } } ∧
        ∀ j, j ≠ g → u.dev.gate j = s.dev.gate j) ∧
    (∀ (f : SensorFrame), f.port < 4 → f.fcsOk = true → frameRefused (sensorToBridge f) = true →
      ∃ u, exec (.ethSensorFrame f) s = .next u ∧ (u.dev.mac f.port).discarded = (s.dev.mac f.port).discarded + 1 ∧
        s.touches u [.flock] ∧ ∀ p, p ≠ f.port → u.dev.mac p = s.dev.mac p) ∧
    (∀ (f : SensorFrame), f.port < 4 → f.fcsOk = true → frameRefused (sensorToBridge f) = false →
      s.dev.isPtp (sensorToBridge f) = false → s.dev.filterGates f = [g] → (s.dev.gate g).fn = .stopped →
      ∃ u, exec (.ethSensorFrame f) s = .next u ∧
        u.dev.gate g = { s.dev.gate g with discarded := (s.dev.gate g).discarded + 1 } ∧
        s.touches u [.race] ∧ ∀ j, j ≠ g → u.dev.gate j = s.dev.gate j) ∧
    (∀ (f : Feed) (rest : List Feed) (k : Nat), g < 64 → (s.dev.gate g).fn = .running → (s.dev.gate g).feeds = f :: rest → (∀ y ∈ rest, y.refused = false) →
      f.refused = false → f.coded = false → f.drop = none → f.crc = none → (s.dev.gate g).liveNext = [] →
      (s.dev.gate g).pickSlot = some k → (∀ y ∈ (s.dev.gate g).pipe, y.slot.isSome = true) →
      ∃ (u : State) (x : Sample), exec (.feedRead g) s = .next u ∧ (u.dev.gate g).feeds = rest ∧ u.dev.outstBy f.q f.tag = none ∧
        (u.dev.gate g).pipe = (s.dev.gate g).pipe ++ [x] ∧ x.counter = f.counter ∧ x.slot = some k ∧ x.capture = (f.capture : Int) ∧
        s.touches u raceParts ∧ ∀ j, j ≠ g → u.dev.gate j = s.dev.gate j)

/-- R17, R74, R76, R91, R93, R94, R121, R123: a slot of a decoder core that the round allows adds its time to the oldest coded
sample, which leaves the decoder when it is finished or its budget is used up, and passes where no sample waits; a
finished sample is written with its tally, its landing slot is held, and its notice leaves. -/
def Obligations.samples_are_decoded_and_posted : Prop :=
  ∀ (s : State) (g : Nat), s.dev.clocked = true → g < 64 →
    (∀ c x used, (s.dev.gate g).core = some c → s.dev.slotDue s.env c g = true → (s.dev.gate g).pipe.find? (·.coded) = some x →
      used ≤ (s.dev.gate g).slotUs → used = (s.dev.gate g).slotUs ∨ Settings.budgetUs x.st < x.usedUs + used →
      ∃ u, exec (.decodeSlot g used) s = .next u ∧ s.touches u [.race] ∧ (∀ j, j ≠ g → u.dev.gate j = s.dev.gate j) ∧
        u.dev.gate g = { s.dev.gate g with pipe := (replaceCoded (fun _ => [{ x with
          usedUs := min (x.usedUs + used) (Settings.budgetUs x.st), slotsPassed := x.slotsPassed + 1 }])
          (s.dev.gate g).pipe) } ∧
        (tgetD u.dev.race.coreUse c []).getLast? = some (s.clk.raw / 1000000, used) ∧
        tget u.dev.race.slotRuns c = some (s.clk.raw / 1000000, s.dev.coreRan s.env c ++ [g])) ∧
    (∀ c used, (s.dev.gate g).core = some c → s.dev.slotDue s.env c g = true → (s.dev.gate g).pipe.find? (·.coded) = none →
      used ≤ (s.dev.gate g).slotUs →
      ∃ u, exec (.decodeSlot g used) s = .next u ∧ u = s.put (s.dev.slotRun s.env c g) ∧ u.dev.race.gates = s.dev.race.gates) ∧
    (∀ c used, (s.dev.gate g).core = some c → s.dev.slotDue s.env c g = false → exec (.decodeSlot g used) s = .next s) ∧
    (∀ c x used, (s.dev.gate g).core = some c → s.dev.slotDue s.env c g = true → (s.dev.gate g).pipe.find? (·.coded) = some x →
      used < (s.dev.gate g).slotUs → x.usedUs + used ≤ Settings.budgetUs x.st →
      ∃ u, exec (.decodeSlot g used) s = .next u ∧ s.touches u raceParts ∧ (∀ j, j ≠ g → u.dev.gate j = s.dev.gate j) ∧
        (u.dev.gate g).pipe.countP (·.coded) < (s.dev.gate g).pipe.countP (·.coded) ∧
        (tgetD u.dev.race.coreUse c []).getLast? = some (s.clk.raw / 1000000, used)) ∧
    (∀ c x done, (s.dev.gate g).core = some c → (s.dev.gate g).pipe.find? (·.coded) = some x →
      Settings.budgetUs x.st ≤ x.usedUs + (s.dev.gate g).slotUs →
      x.usedUs < Settings.budgetUs x.st → s.dev.slotDue s.env c g = true →
      ∃ u, exec (.decodeBudgetExhausted g done) s = .next u ∧ s.touches u raceParts ∧
        (∀ j, j ≠ g → u.dev.gate j = s.dev.gate j) ∧
        (u.dev.gate g).pipe.countP (·.coded) < (s.dev.gate g).pipe.countP (·.coded)) ∧
    (∀ x rest k a o, (s.dev.gate g).pipe = x :: rest → x.coded = false → x.slot = some k → a = Settings.slotAddr x.st k →
      zoneOf a = .common o → 0x2000 ≤ o → a % 64 = 0 → (s.dev.gate g).fn = .running → Settings.split (s.dev.gate g).settings ≠ 2 →
      Settings.noticeQueue x.st = 0 → (∀ y ∈ rest, y.slot.isSome = true) →
      ∃ u flags, exec (.readinessNotice g) s = .next u ∧ (u.dev.gate g).pipe = rest ∧ (u.dev.gate g).held.contains a = true ∧
        s.touches u raceParts ∧ (∀ j, j ≠ g → u.dev.gate j = s.dev.gate j) ∧
        u.dev.raw a 32 = tallyBytes g flags x.counter (patternOf x.capture 64) (s.dev.payloadOf g x).length
          (crc32c (s.dev.payloadOf g x)) x.producer ∧
        (Settings.noticeIdent x.st ≠ 0xFFFF → .entry (Settings.noticeIdent x.st) (.gate g) (noticeBytes a g flags x.counter) true
          (0x200 + g) ∈ u.dev.flights))

/-! ## Deadlines and agreement -/

/-- R320, R323, R324, R325: once its deadline's nanosecond is over a running monitor judges its instance, LATE unless a done
word came, and goes on to the next one with its deadline rewritten. R489, R490, R493: the unit compares an instance under
every rule of its frame set once; the verdict word is written at its address and a disagreement raises its fault; the pair
of the self-check that goes unreported raises its own. -/
def Obligations.deadlines_and_agreement : Prop :=
  (∀ (s : State) (f : Nat) (c : FsetCfg), f < 16 → (s.dev.fset f).running = true → (s.dev.fset f).rawDeadline < s.clk.raw →
     (s.dev.fset f).cfg = some c →
     ∃ u, exec (.deadlineJudge f) s = .next u ∧ (u.dev.fset f).current = ((s.dev.fset f).current + 1) % 2 ^ 32 ∧
       (u.dev.fset f).serial = (s.dev.fset f).serial + 1 ∧ (u.dev.fset f).running = true ∧
       (u.dev.fset f).rawDeadline = s.dev.rawOfTime c.dom (c.deadline ((s.dev.fset f).serial + 1)) ∧
       ((s.dev.fset f).doneBits.contains (s.dev.fset f).current = true → (u.dev.fset f).late = (s.dev.fset f).late) ∧
       ((s.dev.fset f).doneBits.contains (s.dev.fset f).current = false →
         (u.dev.fset f).late = ((s.dev.fset f).late + 1) % 2 ^ 32 ∧
         (s.dev.silent 0x304 = true → faultMsg 0x304 0x24 f (s.dev.fset f).current ∈ u.dev.col.waiting)) ∧
       s.touches u ([.fsets, .phys] ++ faultParts) ∧ ∀ k, k ≠ f → u.dev.fset k = s.dev.fset k) ∧
  (∀ (s : State) (f : Nat), f < 16 →
     (∀ i, s.dev.clocked = true → s.dev.agreeInstance s.env f = some i → tget s.dev.safe.lastRun f ≠ some i →
       tget s.dev.safe.runs f = none →
       ∃ u r, exec (.agreementRun f) s = .next u ∧ tget u.dev.safe.runs f = some r ∧ r.counter = patternOf i 32 ∧
         r.compared = maskOf ((s.dev.rulesOf f).map (·.1)) ∧ tget u.dev.safe.lastRun f = some i ∧
         u.dev.mem.bytes = s.dev.mem.bytes ∧ s.touches u ([.mem, .folds, .phys, .free] ++ faultParts)) ∧
     (∀ r k x rest, s.dev.clocked = true → tget s.dev.safe.runs f = some r → s.dev.rulesOf f = (k, x) :: rest → x.verdict % 64 = 0 →
       ∃ u, exec (.verdictWrite f) s = .next u ∧ tget u.dev.safe.runs f = none ∧ u.dev.raw x.verdict 16 = verdictBytes r ∧
         s.touches u ([.mem, .phys] ++ faultParts) ∧
         (∀ a, (a < x.verdict ∨ x.verdict + 16 ≤ a) → mget u.dev.mem.bytes a = mget s.dev.mem.bytes a) ∧
         tget u.dev.safe.history f = some (((r.rules != 0) :: tgetD s.dev.safe.history f []).take s.dev.safe.n) ∧
         (r.rules ≠ 0 → s.dev.silent 0x341 = true → s.dev.mem.sound = true →
           faultMsg 0x341 0x32 r.rules r.counter ∈ u.dev.col.waiting)) ∧
     (s.dev.clocked = true →
       exec (.agreeSelfCheck true) s = .next s ∧
       ∃ u, exec (.agreeSelfCheck false) s = .next u ∧ u = s.put (s.dev.raise 0x343 0x34 0 0)))

/-! ## Time -/

/-- R416, R418, R419, R420, R423, R432: a Sync of the master that the domain follows, at an interval of R418, gives an offset:
the first after a start steps the domain's time by it, later ones change only its rate; a two-step Sync waits for its
Follow_Up, which must pair; where no Pdelay_Resp answers, a Delay_Req follows under 1588. An answer that pairs with its
request within 1 s and measures a delay in range is kept; qualified Announces select the master; a message that fails its
checks is dropped and counted. -/
def Obligations.ptp_messages : Prop :=
  ∀ (s : State) (m : PtpMsg) (k : Nat) (now off : Int) (good : Prop), m.port < 4 → s.dev.ptpDomains m = [k] →
    now = s.dev.domTime k s.clk.raw →
    good = ((s.dev.dom k).follows m = true ∧ syncInterval m = true ∧ correctionOk m = true) →
    (good → m.twoStep = true →
      ∃ u, exec (.sync m) s = .next u ∧ (u.dev.dom k).pending = some (m, s.dev.stampIn s.env m.port) ∧
        (u.dev.dom k).lastSync = s.clk.raw ∧ (u.dev.dom k).params = (s.dev.dom k).params ∧
        s.touches u [.tu] ∧ ∀ j, j ≠ k → u.dev.dom j = s.dev.dom j) ∧
    (good → m.twoStep = false → (s.dev.dom k).lastOrigin ≤ m.origin →
      ¬ ((s.dev.dom k).sync = .carried ∧ (s.dev.dom k).forDisagreement = true) →
      off = s.dev.domTime k (s.dev.stampIn s.env m.port) - (m.origin + m.correction + s.dev.pathDelay s.env k m.port) →
      0 ≤ now → 0 ≤ now - off →
      ((s.dev.dom k).stepped = false → (s.dev.dom k).canReplace s.clk.raw = true →
        ∃ u, exec (.sync m) s = .next u ∧ (u.dev.dom k).stepped = true ∧ u.dev.domTime k s.clk.raw = now - off ∧
          (u.dev.dom k).lastOrigin = m.origin ∧ s.touches u ([.tu, .fsets, .free] ++ postParts) ∧
          ((s.dev.dom k).is8021AS = false → s.dev.linkAnswers s.clk.raw m.port = false →
            askDue (s.dev.dom k).delayReq s.clk.raw = true →
            (u.dev.dom k).delayReq.map (fun r => (r.sent, r.answered)) = some (s.dev.stampOut s.env m.port, false)) ∧
          ∀ f, (s.dev.fset f).cfg.map (·.dom) = some k → (u.dev.fset f).running = false) ∧
      ((s.dev.dom k).stepped = true → (s.dev.dom k).sync = .acquiring → off.natAbs < 1000 → (s.dev.dom k).goodSyncs + 1 < 8 →
        ∃ u, exec (.sync m) s = .next u ∧ (u.dev.dom k).goodSyncs = (s.dev.dom k).goodSyncs + 1 ∧
          (u.dev.dom k).sync = .acquiring ∧ u.dev.domTime k s.clk.raw = now ∧ (u.dev.dom k).lastOrigin = m.origin ∧
          s.touches u ([.tu, .fsets, .free, .flock] ++ faultParts))) ∧
    (∀ y stamp, (s.dev.dom k).follows m = true → (s.dev.dom k).pending = some (y, stamp) → y.sequenceId = m.sequenceId →
      y.sourcePort = m.sourcePort → correctionOk m = true → (s.dev.dom k).lastOrigin ≤ m.origin → s.clk.raw ≤ stamp + 1000000000 →
      (s.dev.dom k).stepped = false → (s.dev.dom k).canReplace s.clk.raw = true →
      ¬ ((s.dev.dom k).sync = .carried ∧ (s.dev.dom k).forDisagreement = true) →
      off = s.dev.domTime k stamp - (m.origin + (y.correction + m.correction) + s.dev.pathDelay s.env k y.port) → 0 ≤ now - off →
      ∃ u, exec (.followUp m) s = .next u ∧ (u.dev.dom k).pending = none ∧ u.dev.domTime k s.clk.raw = now - off ∧
        s.touches u ([.tu, .fsets, .free] ++ postParts)) ∧
    (∀ r, (s.dev.dom k).delayReq = some r → answersReq m s.clk.raw r = true → delayIn (s.dev.respDelay k m r) = true →
      exec (.delayResp m) s = .next (s.put (s.dev.modDom k fun x => { x with
        delay := (s.dev.respDelay k m r).toNat, delayReq := some { r with answered := true } }))) ∧
    (∀ r v, tget s.dev.tu.pdelayReq m.port = some r → v = s.dev.peerDelay k (s.dev.stampIn s.env m.port) m r →
      answersReq m s.clk.raw r = true → delayIn v = true →
      ∃ u, exec (.pdelayResp m) s = .next u ∧ tget u.dev.tu.linkDelay m.port = some v.toNat ∧ u.dev.tu.doms = s.dev.tu.doms ∧
        tget u.dev.tu.pdelayReq m.port = some { r with answered := true } ∧ s.touches u [.tu]) ∧
    (m.qualified = true → -3 ≤ m.logInterval → m.logInterval ≤ 4 → (s.dev.dom k).betterMaster m = true →
      ∃ u, exec (.announce m) s = .next u ∧ (u.dev.dom k).lastAnnounce = s.clk.raw ∧ (u.dev.dom k).announceLog = m.logInterval ∧
        (u.dev.dom k).best = some (m.rank, m.sourcePort) ∧
        s.touches u [.tu] ∧ (∀ j, j ≠ k → u.dev.dom j = s.dev.dom j) ∧ (u.dev.dom k).params = (s.dev.dom k).params) ∧
    ((m.qualified = false ∨ (s.dev.dom k).betterMaster m = false) → -3 ≤ m.logInterval → m.logInterval ≤ 4 →
      exec (.announce m) s = .next s) ∧
    (((s.dev.dom k).follows m = false ∨ syncInterval m = false) → exec (.sync m) s = .next s) ∧
    ((s.dev.dom k).follows m = true → syncInterval m = true → correctionOk m = false →
      exec (.sync m) s = .next (s.put (s.dev.raiseSecond s.env (domSource k) 0x27 0 0 true))) ∧
    ((∀ r, (s.dev.dom k).delayReq = some r → (answersReq m s.clk.raw r && delayIn (s.dev.respDelay k m r)) = false) →
      exec (.delayResp m) s = .next (s.put (s.dev.raiseSecond s.env (domSource k) 0x27 1 0 true)))

/-- R412, R413, R419, R421: a lost master takes its domain to CARRIED where the other one is LOCKED, else to HOLDOVER; the
cross-check compares the change of the domains' difference from one second of raw time to the next with 1 µs and carries
the one not preferred past it; REFCLK's loss stops the counter and faults RUNNING domains; the counter goes on from its
last value, and on a way out of STANDBY from its saved value and the time there; asleep it does not. -/
def Obligations.time_is_watched : Prop :=
  ∀ (s : State),
    (∀ k, k < 2 → (s.dev.dom k).fn = .running → ((s.dev.dom k).sync = .acquiring ∨ (s.dev.dom k).sync = .locked) →
      s.dev.clocked = true → (s.dev.dom k).masterGone s.clk.raw = true →
      ∃ u, exec (.masterLoss k) s = .next u ∧ (u.dev.dom k).master = false ∧ (u.dev.dom k).sync =
          (if (s.dev.dom (1 - k)).fn = .running ∧ (s.dev.dom (1 - k)).sync = .locked then .carried else .holdover) ∧
        s.touches u ([.tu, .fsets] ++ faultParts) ∧ (u.dev.dom k).best = none ∧
        ((s.dev.dom (1 - k)).sync ≠ .carried → u.dev.dom (1 - k) = s.dev.dom (1 - k)) ∧
        u.dev.col = (s.dev.raise (domSource k) 0x20 (syncCode (s.dev.dom k).sync) 0).col) ∧
    (∀ tick delta v, s.dev.clocked = true → s.dev.crossable = true → tick = s.clk.raw / 1000000000 * 1000000000 →
      delta = s.dev.domTime 0 tick - s.dev.domTime 1 tick → s.dev.tu.lastDelta = some (tick - 1000000000, v) → 1000000000 ≤ tick →
      ∃ u, exec .crossCheck s = .next u ∧ s.touches u ([.tu, .fsets] ++ faultParts) ∧ u.dev.tu.lastDelta = some (tick, delta) ∧
        ((delta - v).natAbs ≤ 1000 → u.dev.col = s.dev.col ∧ u.dev.tu.doms = s.dev.tu.doms) ∧
        (1000 < (delta - v).natAbs → s.dev.tu.preferred < 2 →
          (u.dev.dom (1 - s.dev.tu.preferred)).sync = .carried ∧
          (u.dev.dom (1 - s.dev.tu.preferred)).forDisagreement = true)) ∧
    (∀ t v, s.dev.clocked = true → s.dev.crossable = true → s.dev.tu.lastDelta = some (t, v) →
      t + 1000000000 < s.clk.raw / 1000000000 * 1000000000 →
      ∃ u, exec .crossCheck s = .next u ∧ s.touches u [.tu] ∧ u.dev.tu.doms = s.dev.tu.doms) ∧
    (s.clk.running = true →
      ∃ u, exec .refclkLoss s = .next u ∧ u.clk = { s.clk with running := false } ∧ u.dev.pow.refclkLost = true ∧ u.fuse = s.fuse ∧
        (∀ p, p ∉ [Part.tu, .fsets, .pow] ++ postParts → p.same s.dev u.dev) ∧ ∀ k, k < 2 → (s.dev.dom k).fn = .running → (u.dev.dom k).fn = .faulted) ∧
    (s.clk.running = false → s.dev.pow.sleeping = false → (s.dev.pow.refclkLost = true ∨ s.dev.pow.timePllLost = true) →
      exec .counterResume s = .next { s with
        clk := { s.clk with running := true }
        dev := { s.dev with pow := { s.dev.pow with refclkLost := false, timePllLost := false } } }) ∧
    (s.dev.pow.sleeping = true → exec .counterResume s = .next s) ∧
    (s.clk.running = false → s.dev.pow.refclkLost = false → s.dev.pow.timePllLost = false → s.dev.pow.state = .standby →
      s.dev.pow.sleeping = false →
      ∃ u, exec .counterResume s = .next u ∧ u.clk = { s.clk with raw := s.clk.resumed, running := true } ∧
        u.fuse = s.fuse ∧ ∀ p, p ≠ Part.pow → p.same s.dev u.dev)

/-- R426, R427, R434, R435, R436: a trigger drives its ball active at its edge's time and inactive at the end of its width; a
frame goes to the port that has learnt its destination, else to every other port, and its source is learnt; where a port's
line is busy it waits in the port's queue, or is dropped where the shared buffer is full; a frame for the device's own
address that no engine claims is counted; entries age out after 300 s. -/
def Obligations.triggers_and_bridge : Prop :=
  ∀ (s : State),
    (∀ n c, n < 17 → (s.dev.trig n).cfg = some c → (s.dev.trig n).fn = .running → (s.dev.trig n).inPulse = false →
      (s.dev.trig n).waitLock = false → s.dev.clocked = true → c.edgeAt (s.dev.trig n).edge ≤ s.dev.domTime c.dom s.clk.raw →
      ∃ u, exec (.triggerLeadingEdge n) s = .next u ∧
        u = s.put (s.dev.modTrig n fun t => { t with inPulse := true, level := c.ball true })) ∧
    (∀ n c, n < 17 → (s.dev.trig n).cfg = some c → (s.dev.trig n).fn = .running → (s.dev.trig n).inPulse = true →
      c.edgeAt (s.dev.trig n).edge + c.width ≤ s.dev.domTime c.dom s.clk.raw →
      ∃ u, exec (.triggerTrailingEdge n) s = .next u ∧ (u.dev.trig n).inPulse = false ∧ (u.dev.trig n).level = c.ball false ∧
        (∀ k, k ≠ n → u.dev.trig k = s.dev.trig k) ∧ u.dev.tu.doms = s.dev.tu.doms ∧
        (c.periodic = true → (u.dev.trig n).fn = .running ∧ (u.dev.trig n).edge = (s.dev.trig n).resume.getD ((s.dev.trig n).edge + 1) ∧
          s.touches u [.tu]) ∧
        (c.periodic = false → (u.dev.trig n).fn = .stopped ∧ s.touches u (.tu :: postParts))) ∧
    (∀ (f : BridgeFrame) v, f.inPort < 5 → s.dev.clocked = true → v = (if f.vlan.getD 0 = 0 then 1 else f.vlan.getD 1) →
      f.ptpEvent = none → f.udp = none → f.fcsOk = true → frameRefused f = false → s.dev.ownMac f.dstMac = false →
      (s.dev.bridgeUsed = 0 → (∀ p, p < 4 → (s.dev.mac p).queue = [] ∧ (s.dev.mac p).busyTo ≤ s.clk.raw) → f.dstMac ≠ f.srcMac →
        s.dev.flock.learn.length < 4096 →
        ∃ u, exec (.bridgeForward f) s = .next u ∧
          u.dev.flock.out = s.dev.flock.out ++ ((s.dev.egress f v).filter (· == 4) ++ (s.dev.egress f v).filter (· != 4)).map
            (fun p => OutFrame.bridged p f (correctionBytes f.correction)) ∧
          (∀ p ∈ s.dev.egress f v, p < 4 → (u.dev.mac p).queue = [] ∧
            (u.dev.mac p).busyTo = s.clk.raw + lineTime (s.dev.mac p).cfg f.length) ∧
          (f.srcMac, v, f.inPort, s.clk.raw) ∈ u.dev.flock.learn ∧
          s.touches u [.flock] ∧ u.dev.flock.peers = s.dev.flock.peers) ∧
      (∀ p, p < 4 → (∀ q, q < 4 → (s.dev.mac q).queue = [] ∨ s.clk.raw < (s.dev.mac q).busyTo) → s.clk.raw < (s.dev.mac p).busyTo →
        f.dstMac ≠ f.srcMac → s.dev.egress f v = [p] →
        ∃ u, exec (.bridgeForward f) s = .next u ∧ u.dev.flock.out = s.dev.flock.out ∧ s.touches u [.flock] ∧
          (s.dev.bridgeUsed + f.length ≤ 0x200000 →
            (u.dev.mac p).queue = (s.dev.mac p).queue ++ [{
              pcp := framePrio f, length := f.length, since := s.clk.raw, frame := f, correction := correctionBytes f.correction }] ∧
            u.dev.flock.bridgeDrops = s.dev.flock.bridgeDrops) ∧
          (0x200000 < s.dev.bridgeUsed + f.length → (u.dev.mac p).queue = (s.dev.mac p).queue ∧
            u.dev.flock.bridgeDrops = s.dev.flock.bridgeDrops + 1))) ∧
    (∀ f : BridgeFrame, f.inPort < 4 → s.dev.clocked = true → f.fcsOk = true → frameRefused f = false → f.ptpEvent = none →
      f.udp = none → s.dev.ownMac f.dstMac = true → f.etherType ≠ s.dev.flock.etherType →
      exec (.bridgeForward f) s = .next (s.put (s.dev.countDiscard f.inPort))) ∧
    (∃ u, exec .learningTableAgeing s = .next u ∧ u = s.put { s.dev with flock := { s.dev.flock with
      learn := s.dev.flock.learn.filter fun x => s.clk.raw < x.2.2.2 + 300000000000 } })

/-! ## Ndourn -/

/-- R440, R442, R443: CONNECT brings up a responder, which answers ACCEPT, and ACCEPT its initiator; a sequenced frame is
taken in order and acknowledged; an acknowledgement releases frames; the timers of a link resend, keep alive, fault and
close it. -/
def Obligations.links_come_up_and_down : Prop :=
  ∀ (s : State) (k : Nat), k < 512 → s.dev.clocked = true →
    (∀ h : NdHdr, s.dev.claims h = true → h.crcOk = true → h.version = 1 → h.lengthOk = true → s.dev.flock.dev = some h.dstDev →
      s.dev.peerOf h.srcDev = some k → s.dev.initiates k = false → (s.dev.peer k).connecting = true →
      ∃ u, exec (.connect h) s = .next u ∧ s.touches u linkParts ∧ (u.dev.peer k).fn = .running ∧ (u.dev.peer k).session = h.session ∧
        (u.dev.peer k).txSeq = 0 ∧ (u.dev.peer k).rxNext = 0 ∧ .ndourn (((s.dev.peer k).cfg.map (·.port)).getD 0) (u.dev.ndFrame k 2 0 [] []) ∈ u.dev.flock.out ∧
        (u.dev.mbox.outst.all fun o => !(o.opcode == 0x611 && o.e.target == k)) = true) ∧
    (∀ h : NdHdr, s.dev.heard h k = true → h.ackValid = false → (s.dev.peer k).connecting = true → s.dev.initiates k = true →
      ∃ u, exec (.accept h) s = .next u ∧ s.touches u linkParts ∧ (u.dev.peer k).fn = .running ∧ (u.dev.peer k).connecting = false ∧
        (u.dev.peer k).session = h.session ∧ (u.dev.peer k).txSeq = 0 ∧ (u.dev.peer k).rxNext = 0) ∧
    (∀ h : NdHdr, s.dev.inOrder h k = true → h.ackValid = false →
      ∃ u, exec (.close h) s = .next u ∧ s.touches u [.flock] ∧ (∀ j, j ≠ k → u.dev.peer j = s.dev.peer j) ∧ (u.dev.peer k).rxNext = (s.dev.peer k).rxNext + 1 ∧ (u.dev.peer k).fn = .running ∧
        u.dev.flock.out = s.dev.flock.out ++
          [.ndourn (((s.dev.peer k).cfg.map (·.port)).getD 0) (u.dev.ndFrame k 4 0 [] [])]) ∧
    (∀ (h : NdHdr) (n base : Nat), s.dev.heard h k = true → h.ackValid = true → (s.dev.peer k).fn = .running →
      base = (((s.dev.peer k).unacked.head?).map (·.seq)).getD (s.dev.peer k).txSeq →
      n = (h.ack + 2 ^ 32 - base % 2 ^ 32) % 2 ^ 32 → n ≤ (s.dev.peer k).unacked.length →
      ∃ u, exec (.ack h) s = .next u ∧ s.touches u [.folds, .phys, .threads, .flights, .flock, .col, .safe] ∧
        (∀ j, j ≠ k → u.dev.peer j = s.dev.peer j) ∧
        (u.dev.peer k).unacked.map (·.seq) = ((s.dev.peer k).unacked.drop n).map (·.seq) ∧
        (u.dev.peer k).peerWindow = h.window ∧ (u.dev.peer k).lastRx = s.clk.raw) ∧
    (∀ h : NdHdr, s.dev.heard h k = true → h.ackValid = false →
      ∃ u, exec (.keepalive h) s = .next u ∧ u = s.put (s.dev.modPeer k fun p => { p with lastRx := s.clk.raw })) ∧
    ((s.dev.peer k).connecting = true → s.dev.initiates k = true → (s.dev.peer k).lastTx + 10000000 ≤ s.clk.raw →
      ∃ u, exec (.connectResend k) s = .next u ∧ s.touches u [.flock] ∧ (∀ j, j ≠ k → u.dev.peer j = s.dev.peer j) ∧ (u.dev.peer k).lastTx = s.clk.raw ∧
        u.dev.flock.out = s.dev.flock.out ++ [.ndourn (((s.dev.peer k).cfg.map (·.port)).getD 0) (s.dev.ndFrame k 1 0 [] [])]) ∧
    (∀ x rest, (s.dev.peer k).unacked = x :: rest → (s.dev.peer k).fn.active = true → x.sentAt + 50000 ≤ s.clk.raw →
      (s.dev.peer k).retries + 1 < 8 → 0 < (s.dev.peer k).peerWindow →
      ∃ u, exec (.retransmitTimeout k) s = .next u ∧ s.touches u [.flock] ∧ (∀ j, j ≠ k → u.dev.peer j = s.dev.peer j) ∧ (u.dev.peer k).retries = (s.dev.peer k).retries + 1 ∧
        (u.dev.peer k).unacked.map (·.seq) = (s.dev.peer k).unacked.map (·.seq) ∧
        .ndourn (((s.dev.peer k).cfg.map (·.port)).getD 0) (s.dev.ndFrame k x.kind x.seq x.body x.data) ∈ u.dev.flock.out) ∧
    ((s.dev.peer k).fn.active = true → (s.dev.peer k).lastTx + 1000000 ≤ s.clk.raw →
      ∃ u, exec (.keepaliveTimer k) s = .next u ∧ s.touches u [.flock] ∧ (∀ j, j ≠ k → u.dev.peer j = s.dev.peer j) ∧ (u.dev.peer k).lastTx = s.clk.raw ∧
        u.dev.flock.out = s.dev.flock.out ++ [.ndourn (((s.dev.peer k).cfg.map (·.port)).getD 0) (s.dev.ndFrame k 5 0 [] [])]) ∧
    ((s.dev.peer k).fn.active = true → (s.dev.peer k).lastRx + 10000000 ≤ s.clk.raw →
      ∃ u, exec (.linkSilence k) s = .next u ∧ s.touches u linkParts ∧ (u.dev.peer k).fn = .faulted ∧ (u.dev.peer k).unacked = [] ∧
        (s.dev.silent 0x2C5 = true →
          faultMsg 0x2C5 0x28 1 ((((s.dev.peer k).cfg).map (·.dev)).getD 0) ∈ u.dev.col.waiting)) ∧
    (∀ t, (s.dev.peer k).closeAt = some t → t ≤ s.clk.raw →
      ∃ u, exec (.closeTimer k) s = .next u ∧ s.touches u linkParts ∧ (u.dev.peer k).fn = .stopped ∧ (u.dev.peer k).unacked = [] ∧
        (u.dev.mbox.outst.all fun o => !(o.opcode == 0x612 && o.e.target == k)) = true)

/-- R446, R448, R449, R450: a WRITE that its stile allows lands and is answered DONE, a READ_REQ is answered with the stored
bytes; a guard's refusal holds a request back until the guard admits it or the slot's timeout answers status 5; an answer
ends the request that waits for it. R450, R451: a request that a guard held back is served at a retry once the guard
admits it, and answered with status 5 when the slot's timeout has passed since its first refusal. -/
def Obligations.stile_requests_and_replies : Prop :=
  (∀ (s : State) (h : NdHdr) (a : NdAccess) (k addr o : Nat), k < 512 → s.dev.inOrder h k = true → h.ackValid = false →
     a.formOk = true → s.dev.slots = [] → (∀ x ∈ s.dev.flock.stiles, x.2.fn ≠ .stopping) →
     ((s.dev.peer k).serve = [] → zoneOf addr = .common o → 0x2004 ≤ o → o + a.size ≤ 0xC000000 →
       (a.data.length = accessData a → s.dev.stileCheck h.srcDev a.offset a.size true = (0, addr) →
         ∃ u y, exec (.ndournWrite h a) s = .next u ∧ u.dev.raw addr a.size = a.data.take a.size ∧
           (∀ b, (b < addr ∨ addr + a.size ≤ b) → mget u.dev.mem.bytes b = mget s.dev.mem.bytes b) ∧
           s.touches u ([.mem, .folds, .phys, .fsets, .flock] ++ faultParts) ∧ y ∈ (u.dev.peer k).unacked ∧ y.kind = 9 ∧ y.body = [a.reqId, 0] ∧ (u.dev.peer k).serve = []) ∧
       (a.data = [] → a.poison = 0 → s.dev.stileCheck h.srcDev a.offset a.size false = (0, addr) → s.dev.mem.sound = true →
         ∃ u y, exec (.readReq h a) s = .next u ∧ s.touches u [.folds, .flock] ∧ y ∈ (u.dev.peer k).unacked ∧ y.kind = 8 ∧
           y.body = [0, a.reqId, a.count, 0, 0] ∧ y.data.take a.size = s.dev.raw addr a.size)) ∧
     (∀ r t x sz rd, s.dev.flock.reqs.find? (fun r => r.peer == k && r.id == a.reqId && r.write == false) = some r →
       r.thread = some t → r.dead = false → s.dev.whatOf t = some (.loadData x sz rd) → r.rd < 32 → r.size ≤ 8 → a.offset = 0 →
       a.data.length = accessData a →
       ∃ u, exec (.readResp h a 0) s = .next u ∧ s.touches u linkParts ∧
         (∀ j, j ≠ t → (u.dev.thread j).regs = (s.dev.thread j).regs) ∧ (u.dev.thread t).st = (if s.dev.parkedStore t then .waiting else .ready) ∧
         (u.dev.thread t).reg r.rd = (if r.rd = 0 then 0 else BitVec.ofNat 64 (leNat (a.data.take r.size))) ∧
         (bitOf a.poison 0 = true → (u.dev.thread t).poisonMark = true) ∧
         (u.dev.flock.reqs.all fun q => !(q.peer == k && q.id == a.reqId && q.write == false)) = true) ∧
     (∀ r st, s.dev.flock.reqs.find? (fun r => r.peer == k && r.id == a.reqId && r.write == true) = some r → st ≤ 5 →
       ∃ u, exec (.done h a.reqId st) s = .next u ∧ u.dev.mem = s.dev.mem ∧ s.touches u linkParts ∧
         (u.dev.flock.reqs.all fun q => !(q.peer == k && q.id == a.reqId && q.write == true)) = true ∧
         u.dev.col = (if st = 0 then s.dev.col else (s.dev.raise (s.dev.reqSrc r) 5 (3 + 16 * st) r.addr).col))) ∧
  (∀ (s : State) (k dev : Nat) (x : NdServe) (rest : List NdServe), k < 512 → s.dev.clocked = true →
     (s.dev.peer k).serve = x :: rest → dev = (((s.dev.peer k).cfg).map (·.dev)).getD 0 → x.mute = false → x.message = none →
     ((s.dev.serveStatus dev x).1 = 0 → s.dev.serveRefused x (s.dev.serveStatus dev x).2 = none → rest = [] →
       ∃ u y, exec (.stileGuardRetry k) s = .next u ∧ s.touches u linkParts ∧ (u.dev.peer k).serve = [] ∧ y ∈ (u.dev.peer k).unacked ∧
         y.kind = (if x.write then 9 else 8) ∧
         (x.write = true → (∀ i ∈ s.dev.flock.stiles, i.2.fn ≠ .stopping) →
           u.dev.mem = ((s.dev.modPeer k fun p => { p with serve := [] }).serveWrite s.env x (s.dev.serveStatus dev x).2).mem)) ∧
     (∀ sl, (s.dev.serveStatus dev x).1 = 0 → s.dev.serveRefused x (s.dev.serveStatus dev x).2 = some sl →
       ∃ u, exec (.stileGuardRetry k) s = .next u ∧
         (u.dev.peer k).serve = { x with refusedAt := some (x.refusedAt.getD s.clk.raw) } :: rest ∧
         s.touches u [.flock] ∧ ∀ j, j ≠ k → u.dev.peer j = s.dev.peer j) ∧
     (∀ since i sl, x.refusedAt = some since → s.dev.serveRefused x (s.dev.serveStatus dev x).2 = some (i, sl) →
       since + sl.timeoutNs ≤ s.clk.raw → rest = [] →
       ∃ u y, exec (.stileGuardTimeout k) s = .next u ∧ s.touches u linkParts ∧ (u.dev.peer k).serve = [] ∧ y ∈ (u.dev.peer k).unacked ∧
         y.body = (if x.write then [x.access.reqId, 5] else [0, x.access.reqId, 0, 5, 0])))

/-- R449, R453, R454, R456, R457: a MESSAGE reaches its queue as from its sender, a broadcast as from the broadcast producer,
after the requests of its sender that wait before it; ARRIVE of a child is noted, RELEASE starts the next phase and BREAK
breaks the hurdle. -/
def Obligations.messages_and_flock_hurdles : Prop :=
  ∀ (s : State) (h : NdHdr) (k : Nat), k < 512 → s.dev.inOrder h k = true → h.ackValid = false →
    (∀ (m : NdMessage) q i p, m.ident < 65536 → m.entry.length = 16 → tget s.dev.queues m.ident = some q → q.waiters = [] →
      prodIndex q (if m.broadcast then .broadcast else .peer h.srcDev) = some i → q.prods[i]? = some p → p.used < p.credits →
      (m.broadcast = true → s.dev.treeParent = some h.srcDev) →
      (s.dev.peer k).serve = [] → (∀ x ∈ s.dev.flock.stiles, x.2.fn ≠ .stopping) →
      ∃ u, exec (.message h m) s = .next u ∧ s.touches u [.queues, .flock] ∧
        (∀ j, j ≠ m.ident → tget u.dev.queues j = tget s.dev.queues j) ∧
        tget u.dev.queues m.ident = some { setUsed q i (· + 1) with
          entries := q.entries ++ [{ data := m.entry, atEnd := m.atEnd, parity := parityOf m.entry, prod := i }] }) ∧
    (∀ (m : NdMessage) x rest sl dev, m.ident < 65536 → m.entry.length = 16 → (s.dev.peer k).serve = x :: rest → x.message = none →
      dev = (((s.dev.peer k).cfg).map (·.dev)).getD 0 →
      (s.dev.serveStatus dev x).1 = 0 → s.dev.serveRefused x (s.dev.serveStatus dev x).2 = some sl →
      ∃ u, exec (.message h m) s = .next u ∧ s.touches u [.flock] ∧ (∀ j, j ≠ k → u.dev.peer j = s.dev.peer j) ∧
        (u.dev.peer k).serve = { x with refusedAt := some (x.refusedAt.getD s.clk.raw) } :: rest ++ [{ message := some m }]) ∧
    (∀ num ident g, num < 16 → s.dev.flockHurdle num = some ident → tget s.dev.hurdles ident = some g → g.broken = none →
      (∀ x, x = s.dev.flockState num → x.phase < 256 → x.own = false → s.dev.treeChildren.contains h.srcDev = true →
        ∃ u, exec (.hurdleArriveFrame h num x.phase) s = .next u ∧
          (u.dev.flockState num).children.contains h.srcDev = true ∧ (u.dev.flockState num).phase = x.phase ∧
          s.touches u [.flock]) ∧
      (∀ ph, ph < 256 →
        ∃ u, exec (.hurdleReleaseFrame h num ph) s = .next u ∧ s.touches u [.hurdles, .flights, .flock] ∧
          (∀ j, j ≠ ident → tget u.dev.hurdles j = tget s.dev.hurdles j) ∧
          tget u.dev.hurdles ident = some { g with count := 0, waiters := [], phase := (g.phase + 1) % 256 } ∧
          (u.dev.flockState num).own = false ∧ (u.dev.flockState num).children = [] ∧
          (u.dev.flockState num).phase = ((s.dev.flockState num).phase + 1) % 256) ∧
      (∀ ph cause, ph < 256 → cause = 1 ∨ cause = 2 →
        ∃ u, exec (.hurdleBreakFrame h num ph cause) s = .next u ∧ s.touches u ([.hurdles, .threads, .flock] ++ faultParts) ∧
          (∀ j, j ≠ ident → tget u.dev.hurdles j = tget s.dev.hurdles j) ∧
          tget u.dev.hurdles ident = some { g with broken := some cause, waiters := [], count := 0 }))

/-- R458, R459, R460: device 0 gives a requested event the next number and orders it; an order in time is the device's own
event and completes its origin's command, a cancel drops it, a refusal ends the command; at the instant every queue that
lists the event unit gets one entry. -/
def Obligations.flock_events_run : Prop :=
  ∀ (s : State) (h : NdHdr) (k : Nat) (v : NdEvent), k < 512 → s.dev.inOrder h k = true → h.ackValid = false → eventOk v = true →
    (s.dev.treeParent = none → s.dev.rootPending s.env = false → s.dev.eventLate s.env v = false →
      ∃ u, exec (.eventRequest h v) s = .next u ∧ s.touches u (.flock :: faultParts) ∧ u.dev.flock.rootEvent = some { v with eventId := s.dev.flock.nextEvent } ∧
        u.dev.flock.event = some { v with eventId := s.dev.flock.nextEvent } ∧
        u.dev.flock.nextEvent = (s.dev.flock.nextEvent + 1) % 2 ^ 32) ∧
    (s.dev.eventLate s.env v = false →
      ∃ u, exec (.eventOrder h v) s = .next u ∧ s.touches u postParts ∧ u.dev.flock.event = some v ∧
        (s.dev.flock.dev = some v.origin →
          (u.dev.mbox.outst.all fun o => !(o.opcode == 0x601 && o.e.tag == v.tag)) = true)) ∧
    (∀ x, s.dev.treeParent = some h.srcDev → s.dev.flock.event = some x → x.origin = v.origin → x.tag = v.tag →
      ∃ u, exec (.eventCancel h v) s = .next u ∧ s.touches u (.flock :: faultParts) ∧ u.dev.flock.event = none) ∧
    (s.dev.flock.dev = some v.origin →
      ∃ u, exec (.eventRefuse h v) s = .next u ∧ s.touches u postParts ∧ u.dev.flock.event = s.dev.flock.event ∧
        (u.dev.mbox.outst.all fun o => !(o.opcode == 0x601 && o.e.tag == v.tag)) = true) ∧
    (s.dev.flock.event = some v → (v.instant : Int) ≤ s.dev.domTime v.domain s.clk.raw →
      ∃ u, exec .flockEventAction s = .next u ∧ u.dev.flock.event = none ∧
        (v.kind = 0 → s.touches u [.flock, .flights] ∧ u.dev.flights = s.dev.flights ++
          (tkeys s.dev.queues fun q => q.prods.any fun p => p.who == .flockEvent).map fun i =>
            .entry i .flockEvent (eventEntry s.env v) true 0x2C5))

/-! ## Faults and monitors -/

/-- R477, R500, R504, R506, R512, R513, R514, R518: collecting a message sets its source's sticky bit at the severity then
set, drives SAFE_N[0] low from SAFE on and calls for the source's reset at HALT; an INFO message goes into the log ring
alone; a self-test mismatch retires and fences its fold. A message that finds the queue full is counted as dropped, and
its severity acts all the same. What a block finds in a parity or residue check is raised at its source, and copies of the
collector that disagree hold PULSE low. -/
def Obligations.faults_are_collected : Prop :=
  ∀ (s : State) (src sev : Nat) (m c : BitVec 64), src < 1024 → s.dev.mem.sound = true →
    s.dev.col.waiting.find? (fun m => msgSource m == src) = some m → c = asCollected s.dev m → sev = s.dev.severityOf (msgSource c) →
    (msgKind c ≠ 4 → msgKind c ≠ 0x0C →
      ∃ u, exec (.faultCollect ⟨[], [src], false, false⟩) s = .next u ∧
        u.dev.col.waiting = s.dev.col.waiting.filter (fun x => msgSource x != src) ∧ s.touches u (.free :: postParts) ∧
        tget u.dev.col.held (msgSource c) = some (max (tgetD s.dev.col.held (msgSource c) 0) (sev + 1)) ∧
        (2 ≤ sev → u.dev.safe.safe0 = true) ∧
        (sev = 3 → ∃ x ∈ u.dev.col.halts, x.1.serves (haltReset (msgSource c)) = true) ∧
        (∀ l, sev = 0 → s.dev.pow.sleeping = false → s.dev.pow.phase ≠ .waking → s.dev.col.log = some l →
          u.dev.raw (l.base + 64 + 32 * l.next) 32 = logEntry c s.clk.raw 0 ∧
          u.dev.col.log = some { l with next := if l.next + 1 = l.capacity then 0 else l.next + 1, written := l.written + 1 })) ∧
    (∀ p, p < 52 → msgSource c = 0x100 + p → msgKind c = 0x0C →
      ∃ u, exec (.faultCollect ⟨[], [src], false, false⟩) s = .next u ∧ (u.dev.physFold p).retired = true ∧
        (u.dev.physFold p).fenced = true ∧
        tget u.dev.col.held (msgSource c) = some (max (tgetD s.dev.col.held (msgSource c) 0) (sev + 1))) ∧
    (∃ u, exec (.faultCollect ⟨[], [src], true, false⟩) s = .next u ∧ u.dev.col.dropped = s.dev.col.dropped + 1 ∧
      u.dev.col.waiting = s.dev.col.waiting.filter (fun x => msgSource x != src) ∧ s.touches u (.free :: postParts) ∧
      tget u.dev.col.held (msgSource c) = some (max (tgetD s.dev.col.held (msgSource c) 0) (sev + 1)) ∧
      (2 ≤ sev → u.dev.safe.safe0 = true)) ∧
    (∀ p dest, p < 52 →
      exec (.faultCollect ⟨[.flitParity p dest], [], false, false⟩) s = .next (s.put (s.dev.raise (0x080 + p) 4 0 dest)) ∧
      exec (.faultCollect ⟨[.residue p], [], false, false⟩) s = .next (s.put (s.dev.raise (0x100 + p) 4 1 0)) ∧
      exec (.faultCollect ⟨[.droverParity p dest], [], false, false⟩) s = .next (s.put (s.dev.raise (0x100 + p) 4 2 dest))) ∧
    ∃ u, exec (.faultCollect ⟨[.copies false], [], false, false⟩) s = .next u ∧ u.dev.safe.stateDisagree = true ∧
      u.dev.safe.pulse = false ∧ s.touches u faultParts ∧
      (s.dev.safe.stateDisagree = false → u.dev.col = (s.dev.raise 0x040 0x3A 1 0).col)

/-- R514, R572, R576, R577: the first reset that a HALT called for takes place: a cold one leaves the device in OFF with no
counter, a warm one keeps memory and the fold map, that of the Race faults its active gates, that of the Ethernet domain
its active time domains. -/
def Obligations.halt_resets : Prop :=
  ∀ (s : State) (m : Nat) (rest : List (HaltReset × Nat)),
    (s.dev.col.halts = (.cold, m) :: rest →
      ∃ u, exec .domainReset s = .next u ∧ u.dev.pow.state = .off ∧ u.dev.pow.retryDue = true ∧ u.clk = {} ∧ u.fuse = s.fuseNow ∧
        u.dev.mem.bytes = [] ∧ u.dev.safe.safe0 = true ∧ u.dev.safe.safe1 = true) ∧
    (s.dev.col.halts = (.warm, m) :: rest →
      ∃ u, exec .domainReset s = .next u ∧ u.dev.pow.state = .standby ∧ u.clk = s.clk ∧ u.fuse = s.fuseNow.mended ∧ u.dev.mem = s.dev.mem ∧
        u.dev.foldMap = s.dev.foldMap ∧ u.dev.threads = [] ∧ u.dev.safe.safe0 = true ∧ u.dev.safe.safe1 = true) ∧
    (s.dev.col.halts = (.race, m) :: rest →
      ∃ u, exec .domainReset s = .next u ∧ s.touches u raceParts ∧ (∀ g, (s.dev.gate g).fn.active = false → u.dev.gate g = s.dev.gate g) ∧
        ∀ g, (s.dev.gate g).fn.active = true → (u.dev.gate g).fn = .faulted) ∧
    (s.dev.col.halts = (.ethernet, m) :: rest →
      ∃ u, exec .domainReset s = .next u ∧ s.touches u ([.tu, .queues] ++ linkParts) ∧
        ∀ k, k < 2 → (s.dev.dom k).fn.active = true → (u.dev.dom k).fn = .faulted)

/-- R480, R481, R482, R483, R485, R499, R501: the leader keeps at most 1,024 instructions ahead of the follower, and the
follower never leads; a checkpoint waits until both stand at one count; one that agrees in registers and store hash is
noted and, after a passed start-up test, releases the pins; one that does not, copies of an entry or a configuration write
that differ, or a follower that is late, breaks the pair for good with SAFE_N[1] low; what its memory's SECDED found is
raised; PULSE toggles unless something holds it low. -/
def Obligations.shepherd_pair : Prop :=
  ∀ (s : State), s.dev.pairRuns = true → s.dev.safe.lockstepBroken = false →
    (∀ (p : ShepPair) (l : List ShepStep), p.follow.count ≤ p.lead.count → p.lead.count ≤ p.follow.count + 1024 →
      (p.run l).follow.count ≤ (p.run l).lead.count ∧ (p.run l).lead.count ≤ (p.run l).follow.count + 1024) ∧
    (∀ (r : PairReport) (p : ShepPair), p = (r.upsets.foldl ShepPair.upset s.dev.safe.pair).run r.steps → p.differs = none →
      (p.level = true → r.lead = r.follow → p.lead.hash = p.follow.hash →
        ∃ u, exec (.stateHashCheckpoint r) s = .next u ∧ u.dev.safe.lastHash = s.clk.raw ∧ u.dev.safe.hashTimeout = false ∧
          u.dev.safe.pair = { p with found := [] } ∧ u.dev.col = (s.dev.pairFaults p.found).col ∧
          u.dev.safe.released = (s.dev.safe.released || s.dev.mbox.boot.testPass) ∧ s.touches u faultParts) ∧
      (p.level = true → r.lead ≠ r.follow ∨ p.lead.hash ≠ p.follow.hash →
        ∃ u, exec (.stateHashCheckpoint r) s = .next u ∧ u.dev.safe.lockstepBroken = true ∧ u.dev.safe.safe1 = true ∧
          u.dev.safe.pulse = false ∧ s.touches u faultParts ∧ u.dev.col = ((s.dev.pairFaults p.found).raise 0x000 0x30 0 2).col) ∧
      (p.level = false → ∃ u, exec (.stateHashCheckpoint r) s = .next u ∧ u.dev.safe.pair = { p with found := [] } ∧
        u.dev.safe.lastHash = s.dev.safe.lastHash ∧ u.dev.safe.lockstepBroken = false ∧
        u.dev.col = (s.dev.pairFaults p.found).col ∧ s.touches u faultParts)) ∧
    (∀ (r : PairReport) (p : ShepPair) (k : Nat), p = (r.upsets.foldl ShepPair.upset s.dev.safe.pair).run r.steps → p.differs = some k →
      ∃ u, exec (.stateHashCheckpoint r) s = .next u ∧ u.dev.safe.lockstepBroken = true ∧ u.dev.safe.safe1 = true ∧
        u.dev.safe.pulse = false ∧ s.touches u faultParts ∧ u.dev.col = ((s.dev.pairFaults p.found).raise 0x000 0x30 0 k).col) ∧
    (∀ c, c < 3 →
      ∃ u, exec (.followerTimeout c) s = .next u ∧ u.dev.safe.lockstepBroken = true ∧ u.dev.safe.safe1 = true ∧
        s.touches u faultParts ∧ u.dev.col = (s.dev.raise 0x000 0x30 1 c).col) ∧
    (s.dev.safe.lastHash + 2500000 ≤ s.clk.raw →
      ∃ u, exec .pulseCheckpointTimeout s = .next u ∧ u.dev.safe.hashTimeout = true ∧ u.dev.safe.pulse = false ∧
        s.touches u [.safe]) ∧
    (∃ u, exec .pulseEdge s = .next u ∧ s.touches u [.safe] ∧ (s.dev.safe.hashTimeout = true → u.dev.safe.pulse = false) ∧
      (u.dev.safe.safe0 = false → u.dev.safe.safe1 = false → s.dev.safe.hashTimeout = false → s.dev.safe.stateDisagree = false →
        u.dev.safe.pulse = !s.dev.safe.pulse))

/-- R413, R494, R495, R496, R497, R569, R570: a self-check of a monitor that does not trip above or below raises its MONITOR
fault; a clock beyond its limit raises a CLOCK fault and one within it ends the condition; a time PLL that loses its lock
or strays by more than 2 % stops the counter and faults the RUNNING domains, and a smaller deviation raises the counter's
fault; readings up to the shutdown limit end its count and the second sample in a row past it switches the device off; the
trim is noted; a rail that leaves its window, or does not reach it in time, raises a RAIL fault; one that enters it is
armed; the trip of a fold's own monitor is noted and raised at its source. -/
def Obligations.monitors_act : Prop :=
  ∀ (s : State),
    (∀ n i, n < 61 → i = (if n < 9 then n else n - 9) → s.dev.pow.state = .idle →
      exec (.monitorSelfCheck n true true) s = .next s ∧
      (∃ u, exec (.monitorSelfCheck n false true) s = .next u ∧ u = s.put (s.dev.raise 0x3BF 0x36 0 i)) ∧
      ∃ u, exec (.monitorSelfCheck n true false) s = .next u ∧ u = s.put (s.dev.raise 0x3BF 0x36 1 i)) ∧
    (∀ c ppm, c < 8 → s.dev.clockOn c = true →
      (ppm.natAbs ≤ clockLimit c →
        ∃ u, exec (.clockMonitorTrip c ppm false) s = .next u ∧ tget u.dev.safe.clockBad c = none ∧ s.touches u [.safe]) ∧
      (clockLimit c < ppm.natAbs →
        ∃ u, exec (.clockMonitorTrip c ppm false) s = .next u ∧ tget u.dev.safe.clockBad c = some true ∧
          s.touches u faultParts ∧ u.dev.col = (s.dev.raise (clockSource c) 0x37 c (patternOf ppm 40)).col)) ∧
    (∀ ppm lost, (lost = true ∨ 20000 < ppm.natAbs) → s.clk.running = true →
      ∃ u, exec (.clockMonitorTrip 8 ppm lost) s = .next u ∧ u.clk = { s.clk with running := false } ∧ u.fuse = s.fuse ∧
        u.dev.pow = { s.dev.pow with timePllLost := true } ∧
        (∀ p, p ∉ [Part.tu, .fsets, .pow] ++ postParts → p.same s.dev u.dev) ∧
        ∀ k, k < 2 → (s.dev.dom k).fn = .running → (u.dev.dom k).fn = .faulted) ∧
    (∀ ppm : Int, 1000 < ppm.natAbs → ppm.natAbs ≤ 20000 → s.dev.clockOn 8 = true →
      ∃ u, exec (.clockMonitorTrip 8 ppm false) s = .next u ∧ tget u.dev.safe.clockBad 8 = some true ∧
        s.touches u faultParts ∧ u.dev.col = (s.dev.raise 0x300 0x23 1 s.clk.raw).col) ∧
    (∀ l : List Int, l.length = 24 → s.dev.pow.state = .idle →
      ((∀ r ∈ l, r ≤ (tempLimits s.fuse).2.2.2) →
        ∃ u, exec (.temperatureSample l) s = .next u ∧ tgetD u.dev.safe.tempCount 3 0 = 0 ∧ s.touches u faultParts) ∧
      ((∀ r ∈ l, (tempLimits s.fuse).2.2.2 < r) → 1 ≤ tgetD s.dev.safe.tempCount 3 0 →
        ∃ u, exec (.temperatureSample l) s = .next u ∧ u.dev.pow.state = .off ∧ u.dev.pow.tempShut = true ∧ u.clk = {} ∧ u.fuse = s.fuseNow ∧
          u.dev.safe.safe0 = true ∧ u.dev.safe.safe1 = true)) ∧
    (s.dev.pow.state ≠ .off → tgetD s.dev.safe.clockBad 7 false = false →
      ∃ u, exec .oscillatorTrim s = .next u ∧ u = s.put { s.dev with pow := { s.dev.pow with lastTrim := s.clk.raw } }) ∧
    (∀ r over_, r < 9 → (tgetD s.dev.safe.rails r {}).armed = true → s.dev.railOn r = true → s.dev.pow.state = .idle →
      ∃ u, exec (.railTrip r over_) s = .next u ∧ (tgetD u.dev.safe.rails r {}).inWindow = false ∧
        s.touches u faultParts ∧ u.dev.col = (s.dev.raise (0x3B4 + railGroup r) 0x35 (if over_ then 1 else 0) r).col) ∧
    (∀ p over_, p < 52 → s.dev.foldPowered p = true → (∀ x ∈ s.dev.col.halts, x.1 ≠ .foldEngines) → s.dev.silent 0x3B6 = true →
      ∃ u, exec (.railTrip (9 + p) over_) s = .next u ∧ tget u.dev.safe.foldRailBad p = some true ∧
        s.touches u faultParts ∧ u.dev.col = (s.dev.raise (0x380 + p) 0x35 (if over_ then 1 else 0) p).col) ∧
    (∀ r, r < 9 → (tgetD s.dev.safe.rails r {}).inWindow = false → s.dev.railOn r = true → s.dev.pow.state = .standby →
      ∃ u, exec (.railRampTimeout r) s = .next u ∧ s.touches u faultParts ∧ u.dev.col = (s.dev.raise (0x3B4 + railGroup r) 0x35 0 r).col) ∧
    (∀ r, r < 9 → s.dev.railOn r = true →
      ∃ u, exec (.railEntersWindow r) s = .next u ∧ tget u.dev.safe.rails r = some { inWindow := true, armed := true } ∧
        s.touches u [.mbox, .safe] ∧ (∀ k, k ≠ r → tget u.dev.safe.rails k = tget s.dev.safe.rails k))

/-! ## Power and reset -/

/-- R534, R564, R573, R574: SUPPLY_WARN_N's fall stops the active gates and a lifecycle transition, and drives SAFE_N[0] low;
the sequence's end lets a wake that waited begin; WAKE_N wakes from STANDBY and starts from HIBERNATE; the end of a start
or a wake is IDLE; a rail's retry starts afresh. R575, R576, R577, R578, R583, R587: PORST_N resets everything but the
fuses, those burnt so far set, and the flash, and its release starts the device; WARM_RST_N keeps memory and the fold map;
both drive the SAFE_N pins low; without REFCLK the ROM stops. -/
def Obligations.power_and_reset_act : Prop :=
  (∀ (s : State),
     (s.dev.pow.holdup = false → s.dev.pow.state = .idle →
       ∃ u, exec .holdupStart s = .next u ∧ u.dev.pow = { s.dev.pow with supplyLow := true, holdup := true } ∧ u.dev.safe.safe0 = true ∧
         u.clk = s.clk ∧ u.fuse = s.fuseNow ∧ u.dev.sec = { s.dev.sec with burning := none } ∧ u.pending = s.pending ∧
         (∀ p, p ∉ [Part.sec, .pow] ++ raceParts → p.same s.dev u.dev) ∧ (∀ g, (s.dev.gate g).fn.active = false → u.dev.gate g = s.dev.gate g) ∧
         ∀ g, (s.dev.gate g).fn.active = true → (u.dev.gate g).fn = .stopped) ∧
     (s.dev.pow.wakeWaiting = false →
       ∃ u, exec .holdupEnd s = .next u ∧ u.dev.pow = { s.dev.pow with supplyLow := false, holdup := false } ∧
         s.touches u [.pow, .safe]) ∧
     (s.dev.pow.wakeWaiting = true → s.dev.pow.sleeping = true →
       ∃ u, exec .holdupEnd s = .next u ∧ u.dev.pow.phase = .waking ∧ u.dev.pow.wakeWaiting = false ∧ u.dev.pow.pwrFold = true ∧
         s.touches u [.pow, .safe]) ∧
     (s.dev.pow.sleeping = true → s.dev.pow.holdup = false →
       ∃ u, exec .wakeN s = .next u ∧ u.dev.pow.phase = .waking ∧ u.dev.pow.pwrFold = true ∧ s.touches u [.pow]) ∧
     (s.dev.pow.state = .hibernate → s.dev.pow.holdup = false →
       ∃ u, exec .wakeN s = .next u ∧ u.dev.pow.state = .standby ∧ u.clk = { running := true } ∧ u.fuse = s.fuse.mended) ∧
     (s.dev.pow.phase = .bringUp → s.dev.mbox.ready = true → s.dev.sec.respWaiting = none →
       ∃ u, exec .idleReached s = .next u ∧ u.dev.pow.state = .idle ∧ u.dev.pow.phase = .settled ∧ u.dev.mbox.boot.stage = 5 ∧
         u.dev.mbox.boot.testDone = true ∧ u.dev.gddr.selfRefresh = false ∧
         u.clk = s.clk ∧ u.fuse = s.fuse ∧ u.dev.sec = s.dev.sec) ∧
     (s.dev.pow.phase = .waking → s.clk.running = true → s.dev.sec.respWaiting = none →
       ∃ u, exec .idleReached s = .next u ∧ u.dev.pow.state = .idle ∧ u.dev.pow.phase = .settled ∧ u.dev.gddr.selfRefresh = false ∧
         u.clk = s.clk ∧ u.fuse = s.fuse ∧ u.dev.sec = s.dev.sec ∧ u.dev.foldMap = s.dev.foldMap) ∧
     (s.dev.pow.retryDue = true → s.dev.pow.porstLow = false →
       ∃ u, exec .railRetry s = .next u ∧ u.dev.pow.retryDue = false ∧ u.dev.pow.state = .standby ∧
         u.clk = { running := true } ∧ u.fuse = s.fuse.mended ∧ u.dev.sec.flashA = s.dev.sec.flashA ∧ u.dev.sec.flashB = s.dev.sec.flashB)) ∧
  (∀ (s : State) (b : StartUp),
     (∃ u, exec .porstN s = .next u ∧ u.dev.pow.state = .off ∧ u.dev.pow.porstLow = true ∧ u.clk = {} ∧ u.fuse = s.fuseNow ∧
       u.dev.mem.bytes = [] ∧ u.dev.sec.flashA = s.dev.sec.flashA ∧ u.dev.sec.flashB = s.dev.sec.flashB ∧
       u.dev.safe.safe0 = true ∧ u.dev.safe.safe1 = true) ∧
     (s.dev.pow.porstLow = true →
       ∃ u, exec (.porstNRelease b) s = .next u ∧ u.dev.pow.porstLow = false ∧ u.dev.pow.state = .standby ∧
         u.dev.pow.bootSel = b.bootSel ∧ u.dev.pow.pwrMain = true ∧ u.clk = { running := true } ∧
         u.fuse = s.fuse.mended ∧ u.dev.sec.flashA = s.dev.sec.flashA ∧ u.dev.sec.flashB = s.dev.sec.flashB) ∧
     (s.dev.pow.firstIdle = true → s.dev.pow.state = .idle ∨ s.dev.pow.state = .standby →
       ∃ u, exec .warmRstN s = .next u ∧ u.dev.pow.warmLow = true ∧ u.dev.pow.phase = .inReset ∧ u.dev.mem = s.dev.mem ∧
         u.dev.foldMap = s.dev.foldMap ∧ u.dev.threads = [] ∧ u.clk = s.clk ∧ u.fuse = s.fuseNow ∧ u.dev.safe.safe0 = true ∧ u.dev.safe.safe1 = true) ∧
     (s.dev.pow.warmLow = true → s.dev.pow.state = .standby → s.dev.pow.phase = .inReset →
       ∃ u, exec (.warmRstNRelease b) s = .next u ∧ u.dev.pow.warmLow = false ∧ u.dev.pow.phase ≠ .inReset ∧
         u.clk = s.clk ∧ u.fuse = s.fuse.mended ∧ ∀ p, p ∉ [Part.mbox, .sec, .pow, .safe] → p.same s.dev u.dev) ∧
     (s.dev.pow.phase = .rom ∨ s.dev.pow.phase = .awaitPush → s.dev.mbox.ready = false →
       ∃ u, exec .refclkTimeout s = .next u ∧ u.dev.pow.romStopped = true ∧ u.clk = { s.clk with running := false } ∧ u.dev.mbox.boot.stage = 15 ∧
         u.fuse = s.fuse ∧ ∀ p, p ∉ [Part.mbox, .pow] ++ faultParts → p.same s.dev u.dev))

/-! ## The TAP -/

/-- R551, R553, R554, R555: AUTH_CHAL gives a fresh challenge, AUTH_RESP hands in its answer, DAP reads memory in a granted
session and writes it at level 2; boundary scan acts while WARM_RST_N is low in a lifecycle state that allows it; IDCODE
answers always. -/
def Obligations.tap_instructions : Prop :=
  ∀ (s : State) (values : List Bool),
    (s.dev.tapFull = true → s.dev.mbox.ready = true → s.dev.sec.session = none →
      ∃ u c, exec .authChal s = .next u ∧ u.dev.sec.challenge = some (c, s.clk.raw) ∧ u.dev.sec.tdo = c ∧ c.length = 16 ∧
        u.dev.sec.tapCode = 0x10 ∧ s.touches u [.sec, .free]) ∧
    (∀ b, s.dev.tapFull = true → s.dev.mbox.ready = true →
      ∃ u, exec (.authResp b) s = .next u ∧ u.dev.sec.tapCode = 0x11 ∧
        (s.dev.pow.state = .idle → u.dev.sec.challenge = none) ∧
        (s.dev.pow.state = .standby → u.dev.sec.respWaiting = some b) ∧ s.touches u (.sec :: faultParts)) ∧
    (∀ x a o data, s.dev.sec.session = some x → s.dev.sec.granted = true → s.dev.pow.state = .idle → zoneOf a = .common o →
      0x2004 ≤ o → s.dev.mem.sound = true →
      (∃ u, exec (.dap false a data) s = .next u ∧ u.dev.sec.tdo = s.dev.raw a data.length ∧
        s.touches u [.sec]) ∧
      (x.level = 2 →
        ∃ u, exec (.dap true a data) s = .next u ∧ u.dev.raw a data.length = data ∧ s.touches u [.mem, .sec] ∧
          ∀ k, (k < a ∨ a + data.length ≤ k) → mget u.dev.mem.bytes k = mget s.dev.mem.bytes k)) ∧
    (s.dev.scanLive s.env = true →
      (∃ u, exec (.extest values) s = .next u ∧ u.dev.sec.tapCode = 0 ∧ u.dev.sec.boundary = values ∧ s.touches u [.sec]) ∧
      (∃ u, exec .highz s = .next u ∧ u.dev.sec.tapCode = 3 ∧ s.touches u [.sec]) ∧
      ∃ u, exec .clamp s = .next u ∧ u.dev.sec.tapCode = 4 ∧ u.dev.sec.boundary = s.dev.sec.boundary ∧ s.touches u [.sec]) ∧
    (∃ u, exec .idcode s = .next u ∧
      u = s.put { s.dev with sec := { s.dev.sec with tapCode := 1, tdo := leBytes 4 idcodeValue } }) ∧
    (s.dev.tapFull = true →
      ∃ u, exec (.samplePreload values) s = .next u ∧ u.dev.sec.boundary = values ∧ u.dev.sec.tapCode = 2 ∧
        s.touches u [.sec, .free]) ∧
    (∀ code, ∃ u, exec (.bypass code) s = .next u ∧
      u = s.put { s.dev with sec := { s.dev.sec with tapCode := 0xFF, tdo := [] } })

/-! ## The block as a whole -/

/-- A step takes the command at the front of the queue and runs it with the queue's rest: it answers what exec answers. -/
def Obligations.step_runs_front_command : Prop :=
  ∀ (s : State) (c : Instr) (rest : List Instr),
    step { s with pending := c :: rest } = exec c { s with pending := rest }

/-- R411, R412, the model's own choice of log entry 1: on an empty queue one nanosecond passes. The raw counter advances by
one while it runs, and while the device stands in STANDBY the time there is counted; nothing else changes. -/
def Obligations.idle_step_passes_time : Prop :=
  ∀ s : State, s.pending = [] →
    (s.clk.running = true → step s = .next { s with clk := { s.clk with raw := (s.clk.raw + 1) % 2 ^ 64 } }) ∧
    (s.clk.running = false → s.dev.pow.state = .standby →
      step s = .next { s with clk := { s.clk with asleepNs := s.clk.asleepNs + 1 } }) ∧
    (s.clk.running = false → s.dev.pow.state ≠ .standby → step s = .next s)

/-- R8: every command whose units the device has answers a next state and leaves the queue of waiting commands alone; one that
names a unit beyond the device's numbers stops with the fault of its name. -/
def Obligations.every_command_answers : Prop :=
  ∀ (c : Instr) (s : State),
    (c.wf = true → ∃ t, exec c s = .next t ∧ t.pending = s.pending) ∧
    (c.wf = false → ∃ n, exec c s = .fault (.noSuchUnit n))

/-- R534, R535: fuses are only ever set. A fuse array that has gained fuses since an earlier one has them after every step,
and the grade, the Heinango key hashes, the device secret and the serial number stay as they were. -/
def Obligations.fuses_only_gain : Prop :=
  ∀ (f : Fuses) (s t : State), f.kept s.fuse = true → step s = .next t → f.kept t.fuse = true

/-- R411: no command writes the raw counter. Every step of a device whose counter runs leaves it as it was, advances it by
one, or, where a reset or a loss of power takes it, leaves it at 0; a step that runs a command never advances it. -/
def Obligations.raw_counter_only_advances : Prop :=
  ∀ s t : State, s.clk.running = true → s.clk.raw < 2 ^ 64 → step s = .next t →
    (t.clk.raw = s.clk.raw ∨ t.clk.raw = s.clk.raw + 1 ∨ t.clk.raw = 0) ∧
    (s.pending ≠ [] → t.clk.raw = s.clk.raw ∨ t.clk.raw = 0) ∧ t.clk.raw < 2 ^ 64

/-- R13, R192, R193, R353, R362, R417, R421, R498, R501, R553, R575, R576: right after reset PORST_N is low and the device
off, every function is UNCONFIGURED, the safe-state pins are low, the counter stands at 0, no queue exists, no window is
mapped, no session is open, memory reads zero with sound lines, and no command waits. -/
def Obligations.reset_leaves_the_device_off : Prop :=
  State.reset.pending = [] ∧ State.reset.clk.raw = 0 ∧ State.reset.clk.running = false ∧
  State.reset.dev.pow.state = .off ∧ State.reset.dev.pow.porstLow = true ∧
  State.reset.dev.safe.safe0 = true ∧ State.reset.dev.safe.safe1 = true ∧ State.reset.dev.safe.pulse = false ∧
  State.reset.dev.mbox.ready = false ∧ (∀ q, State.reset.dev.queue q = none) ∧ State.reset.dev.mbox.outst = [] ∧
  State.reset.dev.host.windows = [] ∧ State.reset.dev.sec.session = none ∧ State.reset.dev.col.held = [] ∧
  State.reset.dev.memOk = true ∧ State.reset.dev.mem.sound = true ∧ State.reset.dev.mem.images = [] ∧ (∀ a, mget State.reset.dev.mem.bytes a = 0) ∧
  (∀ l, State.reset.dev.isPoisoned l = false ∧ tget State.reset.dev.mem.err l = none) ∧
  (∀ g, (State.reset.dev.gate g).fn = .unconfigured) ∧ (∀ k, (State.reset.dev.inst k).fn = .unconfigured) ∧
  (∀ k, (State.reset.dev.dom k).fn = .unconfigured) ∧ (∀ k, (State.reset.dev.trig k).fn = .unconfigured) ∧
  (∀ k, (State.reset.dev.stile k).fn = .unconfigured) ∧ (∀ k, (State.reset.dev.peer k).fn = .unconfigured) ∧
  (∀ k, State.reset.dev.physOf k = 0xFF) ∧ (∀ n, (State.reset.dev.fset n).cfg = none) ∧
  (State.reset.fuse.kept State.reset.fuse = true)

/-- R367, R368, R369, R371: a completion is written at the tail of its queue's ring in the layout of R367 with the ring's
phase, the tail advances and the phase turns where the ring wraps, and the entry is unread until the host's HEAD passes
it. A queue in ERROR, or one that is gone, receives nothing. -/
def Obligations.completions_enter_the_ring : Prop :=
  ∀ (d : Dev) (e : Env) (q op : Nat) (c : Sub) (r : Reply),
    (∀ m, d.queue q = some m → m.error = false → m.cqTail < m.cqEntries → m.cqBase % 64 = 0 → 0x2004 ≤ m.cqBase →
      ∃ m', (d.complete e q op c r).queue q = some m' ∧
        m'.cqTail = (if m.cqTail + 1 = m.cqEntries then 0 else m.cqTail + 1) ∧
        m'.phase = (if m.cqTail + 1 = m.cqEntries then !m.phase else m.phase) ∧
        m'.unread = m.unread ++ [{ posted := e.raw, interrupting := !bitOf c.flags 0, urgent := false }] ∧
        (d.complete e q op c r).raw (commonBase + m.cqBase + 32 * m.cqTail) 32 =
          entryBytes c.tag r.status op m.sqHead (if m.phase then 1 else 0) r.r0 r.r1 r.r2 ∧
        (∀ a, (a < commonBase + m.cqBase + 32 * m.cqTail ∨ commonBase + m.cqBase + 32 * m.cqTail + 32 ≤ a) →
          mget (d.complete e q op c r).mem.bytes a = mget d.mem.bytes a) ∧
        ∀ k, k ≠ q → (d.complete e q op c r).queue k = d.queue k) ∧
    ((d.queue q = none ∨ ∃ m, d.queue q = some m ∧ m.error = true) → d.complete e q op c r = d)

/-- R509, R515: a message from an unpopulated source, or of a kind that is not listed, is collected as a COLLECTOR fault at
0x040 with detail 2 and the received source and kind; one from a retired physical fold p as RETIRED_SPOKE at 0x080 + p, at
the severity of 0x080 + p. The sticky bit of the collected source is set and, in STANDBY, the message as collected is held
for the log. -/
def Obligations.messages_are_collected : Prop :=
  ∀ (s : State) (src : Nat) (m c : BitVec 64), src < 1024 →
    (s.dev.col.waiting.find? fun x => msgSource x == src) = some m → c = asCollected s.dev m →
    ((sourceRow src = none ∨ kindListed (msgKind m) = false) → c = faultMsg 0x040 0x3A 2 (m.toNat / 2 ^ 48)) ∧
    (∀ p, sourceFold src = some p → (s.dev.physFold p).retired = true → kindListed (msgKind m) = true →
      c = faultMsg (0x080 + p) 0x0B (msgKind m) (msgArg m) ∧ msgSource c = 0x080 + p) ∧
    ∃ t, exec (.faultCollect ⟨[], [src], false, false⟩) s = .next t ∧
      s.dev.severityOf (msgSource c) + 1 ≤ tgetD t.dev.col.held (msgSource c) 0 ∧
      (s.dev.pow.sleeping = true → s.dev.col.asleep.length < 512 → tget s.dev.col.unsent (msgSource c) = none → msgKind c = 0x3A ∨ msgKind c = 0x0B →
        s.touches t faultParts ∧
          t.dev.col.asleep = s.dev.col.asleep ++ [(c, s.clk.raw, s.dev.severityOf (msgSource c))] ∧
          t.dev.col.waiting = s.dev.col.waiting.filter fun x => msgSource x != src)

/-- R29, R159, R165, R166, R183: a line that cannot be corrected, a row that has lost its contents, or one whose check does
not fit is delivered poisoned with a POISON fault at the reader's own source and the data as it was, again and again until
its poison bit is stored; from then on it is delivered poisoned with no fault. R29: SECDED corrects first: a line with one
wrong bit is corrected, a poisoned line as well. -/
def Obligations.bad_lines_are_delivered_poisoned : Prop :=
  ∀ (d : Dev) (src line : Nat) (holds : Bool),
    d.mem.late.contains line = false → (d.mem.edc = [] → d.lineFix line = none →
    (∀ x, tget d.mem.err line = some x → x = .uncorrectable ∨ x = .checkMismatch → d.isPoisoned line = false → d.isLost line = false →
      ∃ d', d.readLine src holds line = (true, d') ∧
        d'.col = (d.raise src 3 (if x = .uncorrectable then 0 else 1) (64 * line)).col ∧
        d'.mem.bytes = d.mem.bytes ∧ d'.mem.poisonStore.contains line = true ∧ d'.isPoisoned line = false ∧
        tget d'.mem.err line = some x) ∧
    (d.isLost line = true → d.isPoisoned line = false →
      ∃ d', d.readLine src holds line = (true, d') ∧ d'.col = (d.raise src 3 0 (64 * line)).col ∧ d'.mem.bytes = d.mem.bytes) ∧
    (d.checkBad line = true → tget d.mem.err line = none → d.isPoisoned line = false → d.isLost line = false →
      ∃ d', d.readLine src holds line = (true, d') ∧ d'.col = (d.raise src 3 1 (64 * line)).col ∧ d'.mem.bytes = d.mem.bytes) ∧
    (d.isPoisoned line = true → d.readLine src holds line = (true, d))) ∧
    (∀ b, d.mem.edc = [] → d.lineFix line = some b → holds = false →
      (d.readLine src holds line).2.mem.bytes = d.mem.bytes ∧
      (d.isPoisoned line = false → d.lineFault line = none → d.readLine src holds line = (false, d.corrected line b)) ∧
      (d.isPoisoned line = true → d.readLine src holds line = (true, d.corrected line b))) ∧
    (∀ off k, zoneOf (64 * line) = .gddr off → tget d.mem.edc (gddrIface off) = some k →
      (4 ≤ k → ∃ d', d.readLine src holds line = (true, d') ∧
        d'.col = (d.raise (0x1D0 + gddrIface off) 3 3 (64 * line)).col ∧ d'.mem.bytes = d.mem.bytes) ∧
      (0 < k → k < 4 → d.readLine src holds line =
        (d.modMem fun m => { m with edc := terase m.edc (gddrIface off) }).checkLine src holds line)) ∧
    (∀ (s : State), s.dev.mem.poisonStore.contains line = true →
      ∃ t, exec (.poisonBitStore line) s = .next t ∧ s.touches t [.mem] ∧ t.dev.isPoisoned line = true ∧
        t.dev.mem.bytes = s.dev.mem.bytes ∧ t.dev.mem.poisonStore.contains line = false)

/-- R33: a thread's read of control space, by a load or an atomic, returns poisoned data, a thread's write to it is dropped,
and each such attempt raises an ADDRESS fault at the issuing fold's second-level source. Memory is unchanged. -/
def Obligations.control_space_is_out_of_reach : Prop :=
  ∀ (s : State) (t w size rd ra : Nat) (off : Int) (a : Nat), t < 3088 → rd < 32 → a = s.dev.addrOf t ra off → a % size = 0 →
    s.dev.slotAt a size = none → a < 0x10000000 →
    (∀ edc, (size = 1 ∨ size = 2 ∨ size = 4 ∨ size = 8) → s.dev.issues t 0x04 w → s.dev.posted = [] →
      ∃ u, exec (.threadLoad t size rd ra ⟨off, edc⟩) s = .next u ∧ threadActs s u t (.free :: faultParts) ∧
        (u.dev.thread t).poisonMark = true ∧ (u.dev.thread t).pc = (s.dev.thread t).pc + 8 ∧
        u.dev.col = (s.dev.raise (s.dev.threadSrc t) 5 1 a).col) ∧
    (∀ rs, (size = 1 ∨ size = 2 ∨ size = 4 ∨ size = 8) → s.dev.issues t 0x05 w →
      ∃ u, exec (.threadStore t size ra off rs) s = .next u ∧ threadActs s u t faultParts ∧
        (u.dev.thread t).regs = (s.dev.thread t).regs ∧ (u.dev.thread t).pc = (s.dev.thread t).pc + 8 ∧
        u.dev.col = (s.dev.raise (s.dev.threadSrc t) 5 1 a).col) ∧
    (∀ op rb rc, (size = 4 ∨ size = 8) → off = 0 → s.dev.issues t 0x06 w →
      ∃ u, exec (.threadAtomic t op size rd ra rb rc) s = .next u ∧ threadActs s u t (.free :: faultParts) ∧
        (u.dev.thread t).poisonMark = true ∧ (u.dev.thread t).pc = (s.dev.thread t).pc + 8 ∧
        u.dev.col = (s.dev.raise (s.dev.threadSrc t) 5 1 a).col)

/-- R56: where the open frame's Frame Start carried the number 0, the Frame End's number makes no difference: the frame closes
as with any other number, with no frame-number check. -/
def Obligations.frame_number_zero_is_not_checked : Prop :=
  ∀ (s : State) (p vc g num num' : Nat) (ecc : HeaderEcc) (f : OpenFrame), p < 12 → vc < 32 →
    s.dev.gateOf p vc = some g → (s.dev.gate g).frame = some f → f.number = 0 →
    exec (.csiFrameEnd p vc ecc num) s = exec (.csiFrameEnd p vc ecc num') s ∧
    (s.dev.clocked = true → ecc ≠ .uncorrectable → s.dev.takesCsi g = true → s.clk.raw ≤ f.startRaw + Settings.frameTimeMax f.smp.st →
      exec (.csiFrameEnd p vc ecc num) s = .next (s.put ((s.dev.countHeader p ecc).closeCamera s.env g false)))

/-- R290: an entry (of a POST, a Race notice or a drover completion), a mark or an arrival that is addressed to an identifier
no loaded instance declares is dropped and raises a bad-object fault at the issuing block's source; a WAIT on such an
identifier faults the thread with an illegal instruction. -/
def Obligations.undeclared_objects_are_refused : Prop :=
  ∀ (s : State) (id : Nat), s.dev.clocked = true → id < 65536 →
    (∀ i who data atEnd src, s.dev.flights[i]? = some (.entry id who data atEnd src) →
      (s.dev.flights.take i).any (sameEntry id who) = false → tget s.dev.queues id = none →
      ∃ u, exec (.queueEntryArrival i) s = .next u ∧ s.touches u (.flights :: faultParts) ∧
        u.dev.flights = s.dev.flights.eraseIdx i ∧ u.dev.col = (s.dev.raise src 8 0 id).col) ∧
    (∀ i full src, s.dev.flights[i]? = some (.mark id full src) → tget s.dev.slots id = none →
      ∃ u, exec (.slotMarkArrival i) s = .next u ∧ s.touches u (.flights :: faultParts) ∧
        u.dev.flights = s.dev.flights.eraseIdx i ∧ u.dev.col = (s.dev.raise src 8 0 id).col) ∧
    (∀ i w src, s.dev.flights[i]? = some (.arrive id w src) → tget s.dev.hurdles id = none →
      ∃ u, exec (.hurdleArrival i) s = .next u ∧ s.touches u (.flights :: faultParts) ∧
        u.dev.flights = s.dev.flights.eraseIdx i ∧ u.dev.col = (s.dev.raise src 8 0 id).col) ∧
    (∀ t w, t < 3088 → s.dev.issues t 0x0A w → waitFormOk w = true → id = identOf (s.dev.reg t (fB w)) →
      (fKind w = 1 → tget s.dev.queues id = none →
        exec (.waitQueue t) s = .next (s.put ((s.dev.issued s.env t).faultThread s.env t 1))) ∧
      (fKind w = 2 → tget s.dev.queues id = none →
        exec (.waitCredit t) s = .next (s.put ((s.dev.issued s.env t).faultThread s.env t 1))) ∧
      (fKind w = 3 → tget s.dev.slots id = none →
        exec (.waitSlotFull t) s = .next (s.put ((s.dev.issued s.env t).faultThread s.env t 1))) ∧
      (fKind w = 4 → tget s.dev.slots id = none →
        exec (.waitSlotEmpty t) s = .next (s.put ((s.dev.issued s.env t).faultThread s.env t 1))) ∧
      (fKind w = 5 → tget s.dev.hurdles id = none →
        exec (.waitHurdle t) s = .next (s.put ((s.dev.issued s.env t).faultThread s.env t 1))) ∧
      (fKind w = 7 → tget s.dev.queues id = none →
        exec (.waitQstat t) s = .next (s.put ((s.dev.issued s.env t).faultThread s.env t 1))) ∧
      (s.dev.ownerOf t = none →
        (((s.dev.issued s.env t).faultThread s.env t 1).thread t).st = .faulted ∧
          (((s.dev.issued s.env t).faultThread s.env t 1).thread t).faultCode = 1 ∧
          ((s.dev.issued s.env t).faultThread s.env t 1).col =
            (s.dev.raise (s.dev.threadSrc t) 6 1 (t * 2 ^ 28 + (s.dev.thread t).pc.toNat % 2 ^ 23)).col))

/-- R222, R225, R226: an exact-mode sum does not depend on the order of its products; its cell sums make up the whole sum of
them, no bit below the fixed least significant bit is lost, and while no addition passes the end of the range the
accumulator is its old value plus that sum. R227: the first addition past an end of the range saturates it there, and it
keeps that value. -/
def Obligations.exact_sums_have_no_order : Prop :=
  ∀ (fa fb kt : Nat) (drift drift' : Rat) (l l' : List (Nat × Nat × Nat)) (a : Acc), pairExact fa = true →
    (l.Perm l' → accumulate fa fb kt drift l a = accumulate fa fb kt drift' l' a) ∧
    (exactSum fa fb l).1 = (l.map fun x => (decodeVal fa x.2.1).num * (decodeVal fb x.2.2).num).sum ∧
    (pairExact fb = true → ∃ z : Int, (exactSum fa fb l).1 = (z : Rat) * (if fa ≤ 3 ∧ fb ≤ 3 then 1 else pow2 (-32))) ∧
    (pairLimbs fa fb ≠ 0 → (∀ x ∈ l, x.1 < 128 * kt) →
      (exactParts fa fb (pairLimbs fa fb) kt l).sum = (exactSum fa fb l).1) ∧
    (∀ (top : Rat) (p : List Rat) (at_ : Nat → Rat), a.saturated = false → top = (2 ^ 111 - 1) * exactLsb fa →
      p = exactParts fa fb (pairLimbs fa fb) kt l → (∀ i, at_ i = a.sum + (p.take i).sum) →
      ((∀ i, i ≤ p.length → -(top + exactLsb fa) ≤ at_ i ∧ at_ i ≤ top) →
        (accumulate fa fb kt drift l a).sum = a.sum + p.sum ∧ (accumulate fa fb kt drift l a).saturated = false) ∧
      (∀ k, k < p.length → (∀ i, i ≤ k → -(top + exactLsb fa) ≤ at_ i ∧ at_ i ≤ top) →
        (top < at_ (k + 1) → (accumulate fa fb kt drift l a).sum = top ∧ (accumulate fa fb kt drift l a).saturated = true) ∧
        (at_ (k + 1) < -(top + exactLsb fa) →
          (accumulate fa fb kt drift l a).sum = -top ∧ (accumulate fa fb kt drift l a).saturated = true))) ∧
    (a.saturated = true → (accumulate fa fb kt drift l a).sum = a.sum ∧ (accumulate fa fb kt drift l a).saturated = true)

/-- R235: a value that a format represents is unchanged under every rounding mode, zero as a zero; one between two neighbours
lo and hi becomes the nearer, with a tie to the even or to the larger magnitude, the smaller in magnitude, hi, or lo, as
the mode says: in every float format, on both sides of zero and in the subnormal range, and in every integer format. -/
def Obligations.rounding_chooses_a_neighbour : Prop :=
  ∀ (code rnd : Nat) (sat : Bool), rnd ≤ 4 →
    (∀ w q n, fmtDefined code = true → w < 2 ^ (8 * fmtBytes code) → decodeVal code w = .fin q n → q ≠ 0 →
      encodeVal code rnd sat (.fin q n) = w) ∧
    (∀ f w lo hi y a b n, ffmt code = some f → w + 1 ≤ maxFinite f → decodeVal code w = .fin lo a →
      decodeVal code (w + 1) = .fin hi b → lo < y → y < hi →
      encodeVal code rnd sat (.fin y n) =
        (if rnd = 1 ∨ rnd = 3 then w else if rnd = 2 then w + 1 else if y - lo < hi - y then w else if hi - y < y - lo then w + 1
          else if rnd = 4 then w + 1 else if w % 2 = 0 then w else w + 1) ∧
      encodeVal code rnd sat (.fin (-y) n) = signBit f true +
        (if rnd = 1 ∨ rnd = 2 then w else if rnd = 3 then w + 1 else if y - lo < hi - y then w else if hi - y < y - lo then w + 1
          else if rnd = 4 then w + 1 else if w % 2 = 0 then w else w + 1)) ∧
    (∀ b sgn (k : Int) y n, ifmt code = some (b, sgn) → (intRange b sgn).1 ≤ k → k + 1 ≤ (intRange b sgn).2 →
      (k : Rat) < y → y < (k : Rat) + 1 →
      encodeVal code rnd sat (.fin y n) = patternOf
        (if rnd = 2 then k + 1 else if rnd = 3 then k else if rnd = 1 then (if y < 0 then k + 1 else k)
          else if y - k < 1 / 2 then k else if 1 / 2 < y - k then k + 1
          else if rnd = 4 then (if y < 0 then k else k + 1) else if k % 2 = 0 then k else k + 1) b) ∧
    (∀ n, fmtDefined code = true → ∃ m, decodeVal code (encodeVal code rnd sat (.fin 0 n)) = .fin 0 m)
end

