-- ==== Sys2Proof/Laws/Dispatch.lean ====
section
/-! SUPPORT. The arm of each command: exec of a constructor is that command's meaning. -/

namespace Sys2Proof.Machine

open Sys2Proof

@[simp] theorem exec_createQueue (q : Nat) (e : Sub) (s : State) : exec (.createQueue q e) s = execCreateQueue q e s := rfl
@[simp] theorem exec_deleteQueue (q : Nat) (e : Sub) (s : State) : exec (.deleteQueue q e) s = execDeleteQueue q e s := rfl
@[simp] theorem exec_abort (q : Nat) (e : Sub) (s : State) : exec (.abort q e) s = execAbort q e s := rfl
@[simp] theorem exec_deviceInfo (q : Nat) (e : Sub) (s : State) : exec (.deviceInfo q e) s = execDeviceInfo q e s := rfl
@[simp] theorem exec_irqDest (q : Nat) (e : Sub) (s : State) : exec (.irqDest q e) s = execIrqDest q e s := rfl
@[simp] theorem exec_funcState (q : Nat) (e : Sub) (s : State) : exec (.funcState q e) s = execFuncState q e s := rfl
@[simp] theorem exec_power (q : Nat) (e : Sub) (s : State) : exec (.power q e) s = execPower q e s := rfl
@[simp] theorem exec_load (q : Nat) (e : Sub) (s : State) : exec (.load q e) s = execLoad q e s := rfl
@[simp] theorem exec_unload (q : Nat) (e : Sub) (s : State) : exec (.unload q e) s = execUnload q e s := rfl
@[simp] theorem exec_start (q : Nat) (e : Sub) (s : State) : exec (.start q e) s = execStart q e s := rfl
@[simp] theorem exec_stop (q : Nat) (e : Sub) (s : State) : exec (.stop q e) s = execStop q e s := rfl
@[simp] theorem exec_invoke (q : Nat) (e : Sub) (s : State) : exec (.invoke q e) s = execInvoke q e s := rfl
@[simp] theorem exec_firmwareStage (q : Nat) (e : Sub) (s : State) : exec (.firmwareStage q e) s = execFirmwareStage q e s := rfl
@[simp] theorem exec_gateConfigure (q : Nat) (e : Sub) (s : State) : exec (.gateConfigure q e) s = execGateConfigure q e s := rfl
@[simp] theorem exec_gateSet (q : Nat) (e : Sub) (s : State) : exec (.gateSet q e) s = execGateSet q e s := rfl
@[simp] theorem exec_gateStart (q : Nat) (e : Sub) (s : State) : exec (.gateStart q e) s = execGateStart q e s := rfl
@[simp] theorem exec_gateStop (q : Nat) (e : Sub) (s : State) : exec (.gateStop q e) s = execGateStop q e s := rfl
@[simp] theorem exec_gateRelease (q : Nat) (e : Sub) (s : State) : exec (.gateRelease q e) s = execGateRelease q e s := rfl
@[simp] theorem exec_gateFeed (q : Nat) (e : Sub) (s : State) : exec (.gateFeed q e) s = execGateFeed q e s := rfl
@[simp] theorem exec_gateMap (q : Nat) (e : Sub) (s : State) : exec (.gateMap q e) s = execGateMap q e s := rfl
@[simp] theorem exec_portConfigure (q : Nat) (e : Sub) (s : State) : exec (.portConfigure q e) s = execPortConfigure q e s := rfl
@[simp] theorem exec_fsetConfigure (q : Nat) (e : Sub) (s : State) : exec (.fsetConfigure q e) s = execFsetConfigure q e s := rfl
@[simp] theorem exec_fsetHold (q : Nat) (e : Sub) (s : State) : exec (.fsetHold q e) s = execFsetHold q e s := rfl
@[simp] theorem exec_windowMap (q : Nat) (e : Sub) (s : State) : exec (.windowMap q e) s = execWindowMap q e s := rfl
@[simp] theorem exec_gateTableLoad (q : Nat) (e : Sub) (s : State) : exec (.gateTableLoad q e) s = execGateTableLoad q e s := rfl
@[simp] theorem exec_gateTableSwitch (q : Nat) (e : Sub) (s : State) : exec (.gateTableSwitch q e) s = execGateTableSwitch q e s := rfl
@[simp] theorem exec_tableLoad (q : Nat) (e : Sub) (s : State) : exec (.tableLoad q e) s = execTableLoad q e s := rfl
@[simp] theorem exec_tableSwitch (q : Nat) (e : Sub) (s : State) : exec (.tableSwitch q e) s = execTableSwitch q e s := rfl
@[simp] theorem exec_domainConfigure (q : Nat) (e : Sub) (s : State) : exec (.domainConfigure q e) s = execDomainConfigure q e s := rfl
@[simp] theorem exec_domainStart (q : Nat) (e : Sub) (s : State) : exec (.domainStart q e) s = execDomainStart q e s := rfl
@[simp] theorem exec_domainStop (q : Nat) (e : Sub) (s : State) : exec (.domainStop q e) s = execDomainStop q e s := rfl
@[simp] theorem exec_domainRelease (q : Nat) (e : Sub) (s : State) : exec (.domainRelease q e) s = execDomainRelease q e s := rfl
@[simp] theorem exec_timeSelect (q : Nat) (e : Sub) (s : State) : exec (.timeSelect q e) s = execTimeSelect q e s := rfl
@[simp] theorem exec_portDelay (q : Nat) (e : Sub) (s : State) : exec (.portDelay q e) s = execPortDelay q e s := rfl
@[simp] theorem exec_timeRead (q : Nat) (e : Sub) (s : State) : exec (.timeRead q e) s = execTimeRead q e s := rfl
@[simp] theorem exec_trigConfigure (q : Nat) (e : Sub) (s : State) : exec (.trigConfigure q e) s = execTrigConfigure q e s := rfl
@[simp] theorem exec_trigStart (q : Nat) (e : Sub) (s : State) : exec (.trigStart q e) s = execTrigStart q e s := rfl
@[simp] theorem exec_trigStop (q : Nat) (e : Sub) (s : State) : exec (.trigStop q e) s = execTrigStop q e s := rfl
@[simp] theorem exec_trigRelease (q : Nat) (e : Sub) (s : State) : exec (.trigRelease q e) s = execTrigRelease q e s := rfl
@[simp] theorem exec_flockIdentity (q : Nat) (e : Sub) (s : State) : exec (.flockIdentity q e) s = execFlockIdentity q e s := rfl
@[simp] theorem exec_flockEvent (q : Nat) (e : Sub) (s : State) : exec (.flockEvent q e) s = execFlockEvent q e s := rfl
@[simp] theorem exec_ethPort (q : Nat) (e : Sub) (s : State) : exec (.ethPort q e) s = execEthPort q e s := rfl
@[simp] theorem exec_peerConfigure (q : Nat) (e : Sub) (s : State) : exec (.peerConfigure q e) s = execPeerConfigure q e s := rfl
@[simp] theorem exec_peerStart (q : Nat) (e : Sub) (s : State) : exec (.peerStart q e) s = execPeerStart q e s := rfl
@[simp] theorem exec_peerStop (q : Nat) (e : Sub) (s : State) : exec (.peerStop q e) s = execPeerStop q e s := rfl
@[simp] theorem exec_peerRelease (q : Nat) (e : Sub) (s : State) : exec (.peerRelease q e) s = execPeerRelease q e s := rfl
@[simp] theorem exec_stileConfigure (q : Nat) (e : Sub) (s : State) : exec (.stileConfigure q e) s = execStileConfigure q e s := rfl
@[simp] theorem exec_stileStart (q : Nat) (e : Sub) (s : State) : exec (.stileStart q e) s = execStileStart q e s := rfl
@[simp] theorem exec_stileStop (q : Nat) (e : Sub) (s : State) : exec (.stileStop q e) s = execStileStop q e s := rfl
@[simp] theorem exec_stileRelease (q : Nat) (e : Sub) (s : State) : exec (.stileRelease q e) s = execStileRelease q e s := rfl
@[simp] theorem exec_selftestPlan (q : Nat) (e : Sub) (s : State) : exec (.selftestPlan q e) s = execSelftestPlan q e s := rfl
@[simp] theorem exec_agreeConfigure (q : Nat) (e : Sub) (s : State) : exec (.agreeConfigure q e) s = execAgreeConfigure q e s := rfl
@[simp] theorem exec_spareTest (q : Nat) (e : Sub) (s : State) : exec (.spareTest q e) s = execSpareTest q e s := rfl
@[simp] theorem exec_severitySet (q : Nat) (e : Sub) (s : State) : exec (.severitySet q e) s = execSeveritySet q e s := rfl
@[simp] theorem exec_severityRead (q : Nat) (e : Sub) (s : State) : exec (.severityRead q e) s = execSeverityRead q e s := rfl
@[simp] theorem exec_stickyRead (q : Nat) (e : Sub) (s : State) : exec (.stickyRead q e) s = execStickyRead q e s := rfl
@[simp] theorem exec_stickyClear (q : Nat) (e : Sub) (s : State) : exec (.stickyClear q e) s = execStickyClear q e s := rfl
@[simp] theorem exec_logConfigure (q : Nat) (e : Sub) (s : State) : exec (.logConfigure q e) s = execLogConfigure q e s := rfl
@[simp] theorem exec_faultInject (q : Nat) (e : Sub) (s : State) : exec (.faultInject q e) s = execFaultInject q e s := rfl
@[simp] theorem exec_attest (q : Nat) (e : Sub) (s : State) : exec (.attest q e) s = execAttest q e s := rfl
@[simp] theorem exec_lifecycleSet (q : Nat) (e : Sub) (s : State) : exec (.lifecycleSet q e) s = execLifecycleSet q e s := rfl
@[simp] theorem exec_lifecycleReset (s : State) : exec .lifecycleReset s = execLifecycleReset s := rfl
@[simp] theorem exec_debugChallenge (q : Nat) (e : Sub) (s : State) : exec (.debugChallenge q e) s = execDebugChallenge q e s := rfl
@[simp] theorem exec_debugUnlock (q : Nat) (e : Sub) (s : State) : exec (.debugUnlock q e) s = execDebugUnlock q e s := rfl
@[simp] theorem exec_debugAccessGrant (s : State) : exec .debugAccessGrant s = execDebugAccessGrant s := rfl
@[simp] theorem exec_debugLock (q : Nat) (e : Sub) (s : State) : exec (.debugLock q e) s = execDebugLock q e s := rfl
@[simp] theorem exec_debugSessionExpiry (s : State) : exec .debugSessionExpiry s = execDebugSessionExpiry s := rfl
@[simp] theorem exec_commandTimeout (q tag : Nat) (s : State) : exec (.commandTimeout q tag) s = execCommandTimeout q tag s := rfl
@[simp] theorem exec_hpcSqTail (q : Nat) (v : Word32) (s : State) : exec (.hpcSqTail q v) s = execHpcSqTail q v s := rfl
@[simp] theorem exec_hpcCqHead (q : Nat) (v : Word32) (s : State) : exec (.hpcCqHead q v) s = execHpcCqHead q v s := rfl
@[simp] theorem exec_adminReset (v : Word32) (s : State) : exec (.adminReset v) s = execAdminReset v s := rfl
@[simp] theorem exec_hpcHostAlive (v : Word32) (s : State) : exec (.hpcHostAlive v) s = execHpcHostAlive v s := rfl
@[simp] theorem exec_hpcFsetDone (f : Nat) (w : Writer) (v : Word32) (s : State) : exec (.hpcFsetDone f w v) s = execHpcFsetDone f w v s := rfl
@[simp] theorem exec_statusBlockWrite (offset : Nat) (data : List Byte) (s : State) : exec (.statusBlockWrite offset data) s = execStatusBlockWrite offset data s := rfl
@[simp] theorem exec_submissionTake (s : State) : exec .submissionTake s = execSubmissionTake s := rfl
@[simp] theorem exec_coalesceTimeout (q : Nat) (s : State) : exec (.coalesceTimeout q) s = execCoalesceTimeout q s := rfl
@[simp] theorem exec_irqMessageResend (q : Nat) (s : State) : exec (.irqMessageResend q) s = execIrqMessageResend q s := rfl
@[simp] theorem exec_hpcHeartbeat (s : State) : exec .hpcHeartbeat s = execHpcHeartbeat s := rfl
@[simp] theorem exec_hostSilentCheck (s : State) : exec .hostSilentCheck s = execHostSilentCheck s := rfl
@[simp] theorem exec_firmwareReady (s : State) : exec .firmwareReady s = execFirmwareReady s := rfl
@[simp] theorem exec_activate (ch : Nat) (b : BankAddr) (row : Nat) (s : State) : exec (.activate ch b row) s = execActivate ch b row s := rfl
@[simp] theorem exec_pageFetchComplete (ch bank : Nat) (s : State) : exec (.pageFetchComplete ch bank) s = execPageFetchComplete ch bank s := rfl
@[simp] theorem exec_precharge (ch : Nat) (b : BankAddr) (s : State) : exec (.precharge ch b) s = execPrecharge ch b s := rfl
@[simp] theorem exec_hostRead (ch : Nat) (b : BankAddr) (page len : Nat) (wckOk : Bool) (s : State) : exec (.hostRead ch b page len wckOk) s = execHostRead ch b page len wckOk s := rfl
@[simp] theorem exec_hostWrite (ch : Nat) (b : BankAddr) (page : Nat) (data : List Byte) (mask : List Bool) (ecc : LinkEcc) (wckOk : Bool) (s : State) : exec (.hostWrite ch b page data mask ecc wckOk) s = execHostWrite ch b page data mask ecc wckOk s := rfl
@[simp] theorem exec_hostPenWriteLand (i : Nat) (s : State) : exec (.hostPenWriteLand i) s = execHostPenWriteLand i s := rfl
@[simp] theorem exec_windowWriteLand (ch : Nat) (x : WindowLand) (s : State) : exec (.windowWriteLand ch x) s = execWindowWriteLand ch x s := rfl
@[simp] theorem exec_modeRegisterWrite (ch mr : Nat) (v : Byte) (s : State) : exec (.modeRegisterWrite ch mr v) s = execModeRegisterWrite ch mr v s := rfl
@[simp] theorem exec_modeRegisterRead (ch mr : Nat) (s : State) : exec (.modeRegisterRead ch mr) s = execModeRegisterRead ch mr s := rfl
@[simp] theorem exec_refresh (ch : Nat) (s : State) : exec (.refresh ch) s = execRefresh ch s := rfl
@[simp] theorem exec_trainingStep (ch : Nat) (k : TrainStep) (s : State) : exec (.trainingStep ch k) s = execTrainingStep ch k s := rfl
@[simp] theorem exec_powerDownEntry (ch : Nat) (selfRefresh : Bool) (s : State) : exec (.powerDownEntry ch selfRefresh) s = execPowerDownEntry ch selfRefresh s := rfl
@[simp] theorem exec_deepSleepEntry (ch : Nat) (s : State) : exec (.deepSleepEntry ch) s = execDeepSleepEntry ch s := rfl
@[simp] theorem exec_deepSleepExit (ch : Nat) (s : State) : exec (.deepSleepExit ch) s = execDeepSleepExit ch s := rfl
@[simp] theorem exec_hpResetN (p : ResetPin) (s : State) : exec (.hpResetN p) s = execHpResetN p s := rfl
@[simp] theorem exec_ckCheck (ch kHz : Nat) (s : State) : exec (.ckCheck ch kHz) s = execCkCheck ch kHz s := rfl
@[simp] theorem exec_ckTimeout (ch : Nat) (s : State) : exec (.ckTimeout ch) s = execCkTimeout ch s := rfl
@[simp] theorem exec_alu (t : Nat) (op : AluOp) (rd ra rb rc : Nat) (s : State) : exec (.alu t op rd ra rb rc) s = execAlu t op rd ra rb rc s := rfl
@[simp] theorem exec_mul (t rd ra rb : Nat) (s : State) : exec (.mul t rd ra rb) s = execMul t rd ra rb s := rfl
@[simp] theorem exec_branch (t : Nat) (c : BranchCond) (ra rb target : Nat) (s : State) : exec (.branch t c ra rb target) s = execBranch t c ra rb target s := rfl
@[simp] theorem exec_threadLoad (t size rd ra : Nat) (x : LoadOff) (s : State) : exec (.threadLoad t size rd ra x) s = execThreadLoad t size rd ra x s := rfl
@[simp] theorem exec_threadStore (t size ra : Nat) (off : Int) (rs : Nat) (s : State) : exec (.threadStore t size ra off rs) s = execThreadStore t size ra off rs s := rfl
@[simp] theorem exec_threadAtomic (t : Nat) (op : AtomicOp) (size rd ra rb rc : Nat) (s : State) : exec (.threadAtomic t op size rd ra rb rc) s = execThreadAtomic t op size rd ra rb rc s := rfl
@[simp] theorem exec_fence (t : Nat) (s : State) : exec (.fence t) s = execFence t s := rfl
@[simp] theorem exec_issue (t engine rd ra : Nat) (s : State) : exec (.issue t engine rd ra) s = execIssue t engine rd ra s := rfl
@[simp] theorem exec_group (t : Nat) (members : List (Nat × Nat × Nat)) (s : State) : exec (.group t members) s = execGroup t members s := rfl
@[simp] theorem exec_waitEngine (t : Nat) (s : State) : exec (.waitEngine t) s = execWaitEngine t s := rfl
@[simp] theorem exec_waitQueue (t : Nat) (s : State) : exec (.waitQueue t) s = execWaitQueue t s := rfl
@[simp] theorem exec_waitCredit (t : Nat) (s : State) : exec (.waitCredit t) s = execWaitCredit t s := rfl
@[simp] theorem exec_waitSlotFull (t : Nat) (s : State) : exec (.waitSlotFull t) s = execWaitSlotFull t s := rfl
@[simp] theorem exec_waitSlotEmpty (t : Nat) (s : State) : exec (.waitSlotEmpty t) s = execWaitSlotEmpty t s := rfl
@[simp] theorem exec_waitHurdle (t : Nat) (s : State) : exec (.waitHurdle t) s = execWaitHurdle t s := rfl
@[simp] theorem exec_waitTime (t : Nat) (s : State) : exec (.waitTime t) s = execWaitTime t s := rfl
@[simp] theorem exec_waitQstat (t : Nat) (s : State) : exec (.waitQstat t) s = execWaitQstat t s := rfl
@[simp] theorem exec_postQueue (t : Nat) (s : State) : exec (.postQueue t) s = execPostQueue t s := rfl
@[simp] theorem exec_postQueueEnd (t : Nat) (s : State) : exec (.postQueueEnd t) s = execPostQueueEnd t s := rfl
@[simp] theorem exec_postMarkFull (t : Nat) (s : State) : exec (.postMarkFull t) s = execPostMarkFull t s := rfl
@[simp] theorem exec_postMarkEmpty (t : Nat) (s : State) : exec (.postMarkEmpty t) s = execPostMarkEmpty t s := rfl
@[simp] theorem exec_postArrive (t : Nat) (s : State) : exec (.postArrive t) s = execPostArrive t s := rfl
@[simp] theorem exec_time (t rd dom : Nat) (s : State) : exec (.time t rd dom) s = execTime t rd dom s := rfl
@[simp] theorem exec_endThread (t : Nat) (s : State) : exec (.endThread t) s = execEndThread t s := rfl
@[simp] theorem exec_illegalInstruction (t : Nat) (s : State) : exec (.illegalInstruction t) s = execIllegalInstruction t s := rfl
@[simp] theorem exec_waitDeadline (t : Nat) (s : State) : exec (.waitDeadline t) s = execWaitDeadline t s := rfl
@[simp] theorem exec_waitTimeout (t : Nat) (s : State) : exec (.waitTimeout t) s = execWaitTimeout t s := rfl
@[simp] theorem exec_timeWaitExpiry (t : Nat) (s : State) : exec (.timeWaitExpiry t) s = execTimeWaitExpiry t s := rfl
@[simp] theorem exec_narrowStoreMerge (i : Nat) (s : State) : exec (.narrowStoreMerge i) s = execNarrowStoreMerge i s := rfl
@[simp] theorem exec_queueEntryArrival (i : Nat) (s : State) : exec (.queueEntryArrival i) s = execQueueEntryArrival i s := rfl
@[simp] theorem exec_raceReleaseEntry (i : Nat) (s : State) : exec (.raceReleaseEntry i) s = execRaceReleaseEntry i s := rfl
@[simp] theorem exec_slotMarkArrival (i : Nat) (s : State) : exec (.slotMarkArrival i) s = execSlotMarkArrival i s := rfl
@[simp] theorem exec_slotReaderTimeout (ident reader : Nat) (s : State) : exec (.slotReaderTimeout ident reader) s = execSlotReaderTimeout ident reader s := rfl
@[simp] theorem exec_slotWriterTimeout (ident writer : Nat) (s : State) : exec (.slotWriterTimeout ident writer) s = execSlotWriterTimeout ident writer s := rfl
@[simp] theorem exec_hurdleArrival (i : Nat) (s : State) : exec (.hurdleArrival i) s = execHurdleArrival i s := rfl
@[simp] theorem exec_hurdleReleaseArrival (i : Nat) (s : State) : exec (.hurdleReleaseArrival i) s = execHurdleReleaseArrival i s := rfl
@[simp] theorem exec_hurdleTimeout (ident : Nat) (s : State) : exec (.hurdleTimeout ident) s = execHurdleTimeout ident s := rfl
@[simp] theorem exec_jobStart (n eng : Nat) (s : State) : exec (.jobStart n eng) s = execJobStart n eng s := rfl
@[simp] theorem exec_groupStart (n : Nat) (s : State) : exec (.groupStart n) s = execGroupStart n s := rfl
@[simp] theorem exec_jobComplete (n : Nat) (x : JobEnd) (s : State) : exec (.jobComplete n x) s = execJobComplete n x s := rfl
@[simp] theorem exec_droverStart (n d : Nat) (s : State) : exec (.droverStart n d) s = execDroverStart n d s := rfl
@[simp] theorem exec_droverComplete (n : Nat) (x : DroverEnd) (s : State) : exec (.droverComplete n x) s = execDroverComplete n x s := rfl
@[simp] theorem exec_droverGuardRetry (n d : Nat) (s : State) : exec (.droverGuardRetry n d) s = execDroverGuardRetry n d s := rfl
@[simp] theorem exec_sliceStart (p sl : Nat) (s : State) : exec (.sliceStart p sl) s = execSliceStart p sl s := rfl
@[simp] theorem exec_sliceEnd (p : Nat) (signature : Word) (s : State) : exec (.sliceEnd p signature) s = execSliceEnd p signature s := rfl
@[simp] theorem exec_coverageLapse (p sl : Nat) (s : State) : exec (.coverageLapse p sl) s = execCoverageLapse p sl s := rfl
@[simp] theorem exec_sliceWake (n : Nat) (s : State) : exec (.sliceWake n) s = execSliceWake n s := rfl
@[simp] theorem exec_sparePeriodicTest (passed : List Nat) (s : State) : exec (.sparePeriodicTest passed) s = execSparePeriodicTest passed s := rfl
@[simp] theorem exec_foldGate (n : Nat) (s : State) : exec (.foldGate n) s = execFoldGate n s := rfl
@[simp] theorem exec_foldWake (n : Nat) (s : State) : exec (.foldWake n) s = execFoldWake n s := rfl
@[simp] theorem exec_foldMemoryRetention (n : Nat) (s : State) : exec (.foldMemoryRetention n) s = execFoldMemoryRetention n s := rfl
@[simp] theorem exec_foldRetirement (p : Nat) (s : State) : exec (.foldRetirement p) s = execFoldRetirement p s := rfl
@[simp] theorem exec_scrub (unit : Nat) (s : State) : exec (.scrub unit) s = execScrub unit s := rfl
@[simp] theorem exec_correctionWriteback (line : Nat) (s : State) : exec (.correctionWriteback line) s = execCorrectionWriteback line s := rfl
@[simp] theorem exec_poisonBitStore (line : Nat) (s : State) : exec (.poisonBitStore line) s = execPoisonBitStore line s := rfl
@[simp] theorem exec_gddr6TemperatureRead (i : Nat) (reading : Option Int) (s : State) : exec (.gddr6TemperatureRead i reading) s = execGddr6TemperatureRead i reading s := rfl
@[simp] theorem exec_gddr6ReadTimeout (i addr : Nat) (t : Option Nat) (s : State) : exec (.gddr6ReadTimeout i addr t) s = execGddr6ReadTimeout i addr t s := rfl
@[simp] theorem exec_csiFrameStart (port vc : Nat) (ecc : HeaderEcc) (frameNumber : Nat) (s : State) : exec (.csiFrameStart port vc ecc frameNumber) s = execCsiFrameStart port vc ecc frameNumber s := rfl
@[simp] theorem exec_csiFrameEnd (port vc : Nat) (ecc : HeaderEcc) (frameNumber : Nat) (s : State) : exec (.csiFrameEnd port vc ecc frameNumber) s = execCsiFrameEnd port vc ecc frameNumber s := rfl
@[simp] theorem exec_csiLongPacket (port vc : Nat) (ecc : HeaderEcc) (dt wc : Nat) (crcOk fifoFull : Bool) (data : List Byte) (s : State) : exec (.csiLongPacket port vc ecc dt wc crcOk fifoFull data) s = execCsiLongPacket port vc ecc dt wc crcOk fifoFull data s := rfl
@[simp] theorem exec_csiLineMarker (port : Nat) (h : MarkerHeader) (s : State) : exec (.csiLineMarker port h) s = execCsiLineMarker port h s := rfl
@[simp] theorem exec_lineTimeout (g : Nat) (s : State) : exec (.lineTimeout g) s = execLineTimeout g s := rfl
@[simp] theorem exec_frameTimeMax (g : Nat) (s : State) : exec (.frameTimeMax g) s = execFrameTimeMax g s := rfl
@[simp] theorem exec_silenceTimeout (g : Nat) (s : State) : exec (.silenceTimeout g) s = execSilenceTimeout g s := rfl
@[simp] theorem exec_secondFaultReport (s : State) : exec .secondFaultReport s = execSecondFaultReport s := rfl
@[simp] theorem exec_ethSensorFrame (f : SensorFrame) (s : State) : exec (.ethSensorFrame f) s = execEthSensorFrame f s := rfl
@[simp] theorem exec_periodSampleClose (g : Nat) (s : State) : exec (.periodSampleClose g) s = execPeriodSampleClose g s := rfl
@[simp] theorem exec_feedRead (g : Nat) (s : State) : exec (.feedRead g) s = execFeedRead g s := rfl
@[simp] theorem exec_decodeSlot (g : Nat) (used : Nat) (s : State) : exec (.decodeSlot g used) s = execDecodeSlot g used s := rfl
@[simp] theorem exec_decodeBudgetExhausted (g : Nat) (unitsDone : Nat) (s : State) : exec (.decodeBudgetExhausted g unitsDone) s = execDecodeBudgetExhausted g unitsDone s := rfl
@[simp] theorem exec_readinessNotice (g : Nat) (s : State) : exec (.readinessNotice g) s = execReadinessNotice g s := rfl
@[simp] theorem exec_deadlineJudge (f : Nat) (s : State) : exec (.deadlineJudge f) s = execDeadlineJudge f s := rfl
@[simp] theorem exec_agreementRun (f : Nat) (s : State) : exec (.agreementRun f) s = execAgreementRun f s := rfl
@[simp] theorem exec_verdictWrite (f : Nat) (s : State) : exec (.verdictWrite f) s = execVerdictWrite f s := rfl
@[simp] theorem exec_agreeSelfCheck (reported : Bool) (s : State) : exec (.agreeSelfCheck reported) s = execAgreeSelfCheck reported s := rfl
@[simp] theorem exec_sync (m : PtpMsg) (s : State) : exec (.sync m) s = execSync m s := rfl
@[simp] theorem exec_followUp (m : PtpMsg) (s : State) : exec (.followUp m) s = execFollowUp m s := rfl
@[simp] theorem exec_delayResp (m : PtpMsg) (s : State) : exec (.delayResp m) s = execDelayResp m s := rfl
@[simp] theorem exec_pdelayResp (m : PtpMsg) (s : State) : exec (.pdelayResp m) s = execPdelayResp m s := rfl
@[simp] theorem exec_announce (m : PtpMsg) (s : State) : exec (.announce m) s = execAnnounce m s := rfl
@[simp] theorem exec_masterLoss (d : Nat) (s : State) : exec (.masterLoss d) s = execMasterLoss d s := rfl
@[simp] theorem exec_crossCheck (s : State) : exec .crossCheck s = execCrossCheck s := rfl
@[simp] theorem exec_bridgeForward (f : BridgeFrame) (s : State) : exec (.bridgeForward f) s = execBridgeForward f s := rfl
@[simp] theorem exec_triggerLeadingEdge (n : Nat) (s : State) : exec (.triggerLeadingEdge n) s = execTriggerLeadingEdge n s := rfl
@[simp] theorem exec_triggerTrailingEdge (n : Nat) (s : State) : exec (.triggerTrailingEdge n) s = execTriggerTrailingEdge n s := rfl
@[simp] theorem exec_refclkLoss (s : State) : exec .refclkLoss s = execRefclkLoss s := rfl
@[simp] theorem exec_counterResume (s : State) : exec .counterResume s = execCounterResume s := rfl
@[simp] theorem exec_connect (h : NdHdr) (s : State) : exec (.connect h) s = execConnect h s := rfl
@[simp] theorem exec_accept (h : NdHdr) (s : State) : exec (.accept h) s = execAccept h s := rfl
@[simp] theorem exec_close (h : NdHdr) (s : State) : exec (.close h) s = execClose h s := rfl
@[simp] theorem exec_ack (h : NdHdr) (s : State) : exec (.ack h) s = execAck h s := rfl
@[simp] theorem exec_keepalive (h : NdHdr) (s : State) : exec (.keepalive h) s = execKeepalive h s := rfl
@[simp] theorem exec_ndournWrite (h : NdHdr) (a : NdAccess) (s : State) : exec (.ndournWrite h a) s = execNdournWrite h a s := rfl
@[simp] theorem exec_readReq (h : NdHdr) (a : NdAccess) (s : State) : exec (.readReq h a) s = execReadReq h a s := rfl
@[simp] theorem exec_readResp (h : NdHdr) (a : NdAccess) (status : Nat) (s : State) : exec (.readResp h a status) s = execReadResp h a status s := rfl
@[simp] theorem exec_done (h : NdHdr) (reqId status : Nat) (s : State) : exec (.done h reqId status) s = execDone h reqId status s := rfl
@[simp] theorem exec_message (h : NdHdr) (m : NdMessage) (s : State) : exec (.message h m) s = execMessage h m s := rfl
@[simp] theorem exec_hurdleArriveFrame (h : NdHdr) (num phase : Nat) (s : State) : exec (.hurdleArriveFrame h num phase) s = execHurdleArriveFrame h num phase s := rfl
@[simp] theorem exec_hurdleReleaseFrame (h : NdHdr) (num phase : Nat) (s : State) : exec (.hurdleReleaseFrame h num phase) s = execHurdleReleaseFrame h num phase s := rfl
@[simp] theorem exec_hurdleBreakFrame (h : NdHdr) (num phase cause : Nat) (s : State) : exec (.hurdleBreakFrame h num phase cause) s = execHurdleBreakFrame h num phase cause s := rfl
@[simp] theorem exec_eventRequest (h : NdHdr) (e : NdEvent) (s : State) : exec (.eventRequest h e) s = execEventRequest h e s := rfl
@[simp] theorem exec_eventOrder (h : NdHdr) (e : NdEvent) (s : State) : exec (.eventOrder h e) s = execEventOrder h e s := rfl
@[simp] theorem exec_eventCancel (h : NdHdr) (e : NdEvent) (s : State) : exec (.eventCancel h e) s = execEventCancel h e s := rfl
@[simp] theorem exec_eventRefuse (h : NdHdr) (e : NdEvent) (s : State) : exec (.eventRefuse h e) s = execEventRefuse h e s := rfl
@[simp] theorem exec_flockEventAction (s : State) : exec .flockEventAction s = execFlockEventAction s := rfl
@[simp] theorem exec_connectResend (k : Nat) (s : State) : exec (.connectResend k) s = execConnectResend k s := rfl
@[simp] theorem exec_retransmitTimeout (k : Nat) (s : State) : exec (.retransmitTimeout k) s = execRetransmitTimeout k s := rfl
@[simp] theorem exec_keepaliveTimer (k : Nat) (s : State) : exec (.keepaliveTimer k) s = execKeepaliveTimer k s := rfl
@[simp] theorem exec_linkSilence (k : Nat) (s : State) : exec (.linkSilence k) s = execLinkSilence k s := rfl
@[simp] theorem exec_closeTimer (k : Nat) (s : State) : exec (.closeTimer k) s = execCloseTimer k s := rfl
@[simp] theorem exec_stileGuardRetry (k : Nat) (s : State) : exec (.stileGuardRetry k) s = execStileGuardRetry k s := rfl
@[simp] theorem exec_stileGuardTimeout (k : Nat) (s : State) : exec (.stileGuardTimeout k) s = execStileGuardTimeout k s := rfl
@[simp] theorem exec_stileLifetime (i : Nat) (s : State) : exec (.stileLifetime i) s = execStileLifetime i s := rfl
@[simp] theorem exec_faultCollect (x : Delivery) (s : State) : exec (.faultCollect x) s = execFaultCollect x s := rfl
@[simp] theorem exec_domainReset (s : State) : exec .domainReset s = execDomainReset s := rfl
@[simp] theorem exec_stateHashCheckpoint (r : PairReport) (s : State) : exec (.stateHashCheckpoint r) s = execStateHashCheckpoint r s := rfl
@[simp] theorem exec_followerTimeout (checkpoint : Nat) (s : State) : exec (.followerTimeout checkpoint) s = execFollowerTimeout checkpoint s := rfl
@[simp] theorem exec_pulseCheckpointTimeout (s : State) : exec .pulseCheckpointTimeout s = execPulseCheckpointTimeout s := rfl
@[simp] theorem exec_monitorSelfCheck (unit : Nat) (underTrips overTrips : Bool) (s : State) : exec (.monitorSelfCheck unit underTrips overTrips) s = execMonitorSelfCheck unit underTrips overTrips s := rfl
@[simp] theorem exec_railTrip (rail : Nat) (overVoltage : Bool) (s : State) : exec (.railTrip rail overVoltage) s = execRailTrip rail overVoltage s := rfl
@[simp] theorem exec_railRampTimeout (rail : Nat) (s : State) : exec (.railRampTimeout rail) s = execRailRampTimeout rail s := rfl
@[simp] theorem exec_railRetry (s : State) : exec .railRetry s = execRailRetry s := rfl
@[simp] theorem exec_clockMonitorTrip (clk : Nat) (ppm : Int) (lost : Bool) (s : State) : exec (.clockMonitorTrip clk ppm lost) s = execClockMonitorTrip clk ppm lost s := rfl
@[simp] theorem exec_temperatureSample (readings : List Int) (s : State) : exec (.temperatureSample readings) s = execTemperatureSample readings s := rfl
@[simp] theorem exec_oscillatorTrim (s : State) : exec .oscillatorTrim s = execOscillatorTrim s := rfl
@[simp] theorem exec_holdupStart (s : State) : exec .holdupStart s = execHoldupStart s := rfl
@[simp] theorem exec_holdupEnd (s : State) : exec .holdupEnd s = execHoldupEnd s := rfl
@[simp] theorem exec_wakeN (s : State) : exec .wakeN s = execWakeN s := rfl
@[simp] theorem exec_idleReached (s : State) : exec .idleReached s = execIdleReached s := rfl
@[simp] theorem exec_porstN (s : State) : exec .porstN s = execPorstN s := rfl
@[simp] theorem exec_porstNRelease (b : StartUp) (s : State) : exec (.porstNRelease b) s = execPorstNRelease b s := rfl
@[simp] theorem exec_warmRstN (s : State) : exec .warmRstN s = execWarmRstN s := rfl
@[simp] theorem exec_warmRstNRelease (b : StartUp) (s : State) : exec (.warmRstNRelease b) s = execWarmRstNRelease b s := rfl
@[simp] theorem exec_refclkTimeout (s : State) : exec .refclkTimeout s = execRefclkTimeout s := rfl
@[simp] theorem exec_authChal (s : State) : exec .authChal s = execAuthChal s := rfl
@[simp] theorem exec_authResp (container : List Byte) (s : State) : exec (.authResp container) s = execAuthResp container s := rfl
@[simp] theorem exec_dap (write : Bool) (addr : Nat) (data : List Byte) (s : State) : exec (.dap write addr data) s = execDap write addr data s := rfl
@[simp] theorem exec_extest (values : List Bool) (s : State) : exec (.extest values) s = execExtest values s := rfl
@[simp] theorem exec_idcode (s : State) : exec .idcode s = execIdcode s := rfl
@[simp] theorem exec_samplePreload (values : List Bool) (s : State) : exec (.samplePreload values) s = execSamplePreload values s := rfl
@[simp] theorem exec_highz (s : State) : exec .highz s = execHighz s := rfl
@[simp] theorem exec_clamp (s : State) : exec .clamp s = execClamp s := rfl
@[simp] theorem exec_bypass (code : Nat) (s : State) : exec (.bypass code) s = execBypass code s := rfl
@[simp] theorem exec_loadDataReturn (t : Nat) (s : State) : exec (.loadDataReturn t) s = execLoadDataReturn t s := rfl
@[simp] theorem exec_commandWorkComplete (q tag : Nat) (s : State) : exec (.commandWorkComplete q tag) s = execCommandWorkComplete q tag s := rfl
@[simp] theorem exec_pulseEdge (s : State) : exec .pulseEdge s = execPulseEdge s := rfl
@[simp] theorem exec_learningTableAgeing (s : State) : exec .learningTableAgeing s = execLearningTableAgeing s := rfl
@[simp] theorem exec_railEntersWindow (rail : Nat) (s : State) : exec (.railEntersWindow rail) s = execRailEntersWindow rail s := rfl

end Sys2Proof.Machine
end

