-- ==== Sys2Proof/Laws/Mailbox.lean ====
section
/-! SUPPORT. What running a row and serving a submission entry do: one lemma for each way the handler answers. -/

namespace Sys2Proof.Machine

open Sys2Proof

/-- A row whose units all exist runs its effect on the device and leaves the rest of the state. -/
theorem run_next {i : Instr} {f : Env → Dev → Dev} {s : State} (h : missingUnit i = none) :
    run i f s = .next { s with dev := f s.env s.dev } := by
  simp [run, h]

/-- A row that names a missing unit faults. -/
theorem run_fault {i : Instr} {f : Env → Dev → Dev} {s : State} {n : Nat} (h : missingUnit i = some n) :
    run i f s = .fault (.noSuchUnit n) := by
  simp [run, h]

/-- What a row that only acts on the device can do. -/
theorem run_spec {i : Instr} {f : Env → Dev → Dev} {s t : State} (h : run i f s = .next t) :
    t = { s with dev := f s.env s.dev } := by
  unfold run at h
  split at h
  · cases h
  · cases h; rfl

/-- What a row that may change the power state can do: queue and fuses stay. -/
theorem runPower_spec {i : Instr} {f : Env → Dev → Dev} {s t : State} (h : runPower i f s = .next t) :
    t = { s with dev := f s.env s.dev, clk := clockAfter s.dev.pow (f s.env s.dev).pow s.clk } := by
  unfold runPower at h
  split at h
  · cases h
  · cases h; rfl

theorem runPower_next {i : Instr} {f : Env → Dev → Dev} {s : State} (h : missingUnit i = none) :
    runPower i f s =
      .next { s with dev := f s.env s.dev, clk := clockAfter s.dev.pow (f s.env s.dev).pow s.clk } := by
  simp [runPower, h]

/-- The facts that `Dev.admits` gathers. -/
theorem admits_facts {d : Dev} {q op : Nat} {e : Sub} (h : d.admits q op e = true) :
    d.serving = true ∧ d.mbox.frozen = false ∧ d.canTake q = true ∧ d.mbox.marked.contains (q, e.tag) = false ∧
      (d.outstBy q e.tag).isSome = false ∧ (d.pow.state != .idle && !servedEarly op) = false ∧
      e.formOk = true ∧ e.reservedOk op = true ∧ ¬ targetLimit op ≤ e.target := by
  simp only [Dev.admits, Bool.and_eq_true, Bool.not_eq_true', decide_eq_true_eq] at h
  obtain ⟨⟨⟨⟨⟨⟨⟨⟨h1, h2⟩, h3⟩, h4⟩, h5⟩, h6⟩, h7⟩, h9⟩, h8⟩ := h
  refine ⟨h1, h2, h3, h4, ?_, ?_, h7, h9, ?_⟩
  · simpa using h5
  · unfold bne
    generalize (d.pow.state == PState.idle) = x at h6 ⊢
    cases x <;> simp_all
  · omega

/-- An admitted entry meets its handler, HPC_SQ_HEAD past it. -/
theorem serveRow_admits {d : Dev} {q op : Nat} {e : Sub} {v : Env} {h : Handler} (ha : d.admits q op e = true)
    (hk : opcodeKnown op = true) :
    serveRow op h q e v d = match h v q e (d.passed q) with
      | (.done r, d') => d'.complete v q op e r
      | (.posted, d') => d'
      | (.long img aux, d') =>
        d'.open {
          q := q, opcode := op, e := e, image := img, aux := aux,
          deadline := v.raw + 1000 * (if e.timeoutUs = 0 then (longDefault op).getD 0 else e.timeoutUs) } := by
  obtain ⟨h1, h2, h3, h4, h5, h6, h7, h9, h8⟩ := admits_facts ha
  have e4 : (d.passed q).mbox.marked.contains (q, e.tag) = false := h4
  have e5 : ((d.passed q).outstBy q e.tag).isSome = false := h5
  have e6 : ((d.passed q).pow.state != .idle && !servedEarly op) = false := h6
  unfold serveRow Dev.serve
  simp only [h1, h2, h3, h7, h8, h9, e4, e5, e6, hk, Bool.not_false, Bool.and_self, if_true, Bool.false_eq_true, if_false,
    Bool.not_true]
  all_goals rfl

/-- The handler completes the command. -/
theorem row_answered {i : Instr} {s : State} {q op : Nat} {e : Sub} {h : Handler} {r : Reply} {d' : Dev}
    (hu : missingUnit i = none) (ha : s.dev.admits q op e = true) (hk : opcodeKnown op = true)
    (hh : h s.env q e (s.taken q).dev = (.done r, d')) :
    run i (serveRow op h q e) s = .next ((s.taken q).answered d' q op e r) := by
  rw [run_next hu, serveRow_admits ha hk, show h s.env q e (s.dev.passed q) = _ from hh]; rfl

/-- The handler leaves the command outstanding. -/
theorem row_opened {i : Instr} {s : State} {q op : Nat} {e : Sub} {h : Handler} {img : Option Image} {aux : List Nat} {d' : Dev}
    (hu : missingUnit i = none) (ha : s.dev.admits q op e = true) (hk : opcodeKnown op = true)
    (hh : h s.env q e (s.taken q).dev = (.long img aux, d')) :
    run i (serveRow op h q e) s = .next ((s.taken q).opened d' q op e img aux) := by
  rw [run_next hu, serveRow_admits ha hk, show h s.env q e (s.dev.passed q) = _ from hh]; rfl

/-- A command whose one unit is its queue names nothing missing. -/
theorem missingUnit_queue {i : Instr} {q : Nat} (hi : i.units = [(q, 32)]) (hq : q < 32) : missingUnit i = none := by
  simp [missingUnit, hi, hq]

end Sys2Proof.Machine
end

