-- ==== Sys2Proof/Laws/Frames.lean ====
section
/-! SUPPORT. What the shared operations leave alone: each operation is the device with only the named parts replaced, and the
simp lemmas that follow for every other part. -/

namespace Sys2Proof.Machine

open Sys2Proof

/-- The pins are the safety part's. -/
theorem Dev.pins_frame (d : Dev) :
    d.pins = { d with safe := (d.pins).safe } := by
  rfl

@[simp] theorem Dev.pins_mem (d : Dev) : (d.pins).mem = d.mem := by rw [Dev.pins_frame]
@[simp] theorem Dev.pins_gddr (d : Dev) : (d.pins).gddr = d.gddr := by rw [Dev.pins_frame]
@[simp] theorem Dev.pins_folds (d : Dev) : (d.pins).folds = d.folds := by rw [Dev.pins_frame]
@[simp] theorem Dev.pins_phys (d : Dev) : (d.pins).phys = d.phys := by rw [Dev.pins_frame]
@[simp] theorem Dev.pins_foldMap (d : Dev) : (d.pins).foldMap = d.foldMap := by rw [Dev.pins_frame]
@[simp] theorem Dev.pins_threads (d : Dev) : (d.pins).threads = d.threads := by rw [Dev.pins_frame]
@[simp] theorem Dev.pins_posted (d : Dev) : (d.pins).posted = d.posted := by rw [Dev.pins_frame]
@[simp] theorem Dev.pins_insts (d : Dev) : (d.pins).insts = d.insts := by rw [Dev.pins_frame]
@[simp] theorem Dev.pins_queues (d : Dev) : (d.pins).queues = d.queues := by rw [Dev.pins_frame]
@[simp] theorem Dev.pins_slots (d : Dev) : (d.pins).slots = d.slots := by rw [Dev.pins_frame]
@[simp] theorem Dev.pins_hurdles (d : Dev) : (d.pins).hurdles = d.hurdles := by rw [Dev.pins_frame]
@[simp] theorem Dev.pins_flights (d : Dev) : (d.pins).flights = d.flights := by rw [Dev.pins_frame]
@[simp] theorem Dev.pins_host (d : Dev) : (d.pins).host = d.host := by rw [Dev.pins_frame]
@[simp] theorem Dev.pins_mbox (d : Dev) : (d.pins).mbox = d.mbox := by rw [Dev.pins_frame]
@[simp] theorem Dev.pins_race (d : Dev) : (d.pins).race = d.race := by rw [Dev.pins_frame]
@[simp] theorem Dev.pins_fsets (d : Dev) : (d.pins).fsets = d.fsets := by rw [Dev.pins_frame]
@[simp] theorem Dev.pins_tu (d : Dev) : (d.pins).tu = d.tu := by rw [Dev.pins_frame]
@[simp] theorem Dev.pins_flock (d : Dev) : (d.pins).flock = d.flock := by rw [Dev.pins_frame]
@[simp] theorem Dev.pins_col (d : Dev) : (d.pins).col = d.col := by rw [Dev.pins_frame]
@[simp] theorem Dev.pins_sec (d : Dev) : (d.pins).sec = d.sec := by rw [Dev.pins_frame]
@[simp] theorem Dev.pins_pow (d : Dev) : (d.pins).pow = d.pow := by rw [Dev.pins_frame]
@[simp] theorem Dev.pins_free (d : Dev) : (d.pins).free = d.free := by rw [Dev.pins_frame]

/-- The reaction sets a sticky bit, a reset that is due, and the pins. -/
theorem Dev.react_frame (d : Dev) (c : BitVec 64) (sev : Nat) :
    d.react c sev = { d with col := (d.react c sev).col, safe := (d.react c sev).safe } := by
  rfl

@[simp] theorem Dev.react_mem (d : Dev) (c : BitVec 64) (sev : Nat) : (d.react c sev).mem = d.mem := by rw [Dev.react_frame]
@[simp] theorem Dev.react_gddr (d : Dev) (c : BitVec 64) (sev : Nat) : (d.react c sev).gddr = d.gddr := by rw [Dev.react_frame]
@[simp] theorem Dev.react_folds (d : Dev) (c : BitVec 64) (sev : Nat) : (d.react c sev).folds = d.folds := by rw [Dev.react_frame]
@[simp] theorem Dev.react_phys (d : Dev) (c : BitVec 64) (sev : Nat) : (d.react c sev).phys = d.phys := by rw [Dev.react_frame]
@[simp] theorem Dev.react_foldMap (d : Dev) (c : BitVec 64) (sev : Nat) : (d.react c sev).foldMap = d.foldMap := by rw [Dev.react_frame]
@[simp] theorem Dev.react_threads (d : Dev) (c : BitVec 64) (sev : Nat) : (d.react c sev).threads = d.threads := by rw [Dev.react_frame]
@[simp] theorem Dev.react_posted (d : Dev) (c : BitVec 64) (sev : Nat) : (d.react c sev).posted = d.posted := by rw [Dev.react_frame]
@[simp] theorem Dev.react_insts (d : Dev) (c : BitVec 64) (sev : Nat) : (d.react c sev).insts = d.insts := by rw [Dev.react_frame]
@[simp] theorem Dev.react_queues (d : Dev) (c : BitVec 64) (sev : Nat) : (d.react c sev).queues = d.queues := by rw [Dev.react_frame]
@[simp] theorem Dev.react_slots (d : Dev) (c : BitVec 64) (sev : Nat) : (d.react c sev).slots = d.slots := by rw [Dev.react_frame]
@[simp] theorem Dev.react_hurdles (d : Dev) (c : BitVec 64) (sev : Nat) : (d.react c sev).hurdles = d.hurdles := by rw [Dev.react_frame]
@[simp] theorem Dev.react_flights (d : Dev) (c : BitVec 64) (sev : Nat) : (d.react c sev).flights = d.flights := by rw [Dev.react_frame]
@[simp] theorem Dev.react_host (d : Dev) (c : BitVec 64) (sev : Nat) : (d.react c sev).host = d.host := by rw [Dev.react_frame]
@[simp] theorem Dev.react_mbox (d : Dev) (c : BitVec 64) (sev : Nat) : (d.react c sev).mbox = d.mbox := by rw [Dev.react_frame]
@[simp] theorem Dev.react_race (d : Dev) (c : BitVec 64) (sev : Nat) : (d.react c sev).race = d.race := by rw [Dev.react_frame]
@[simp] theorem Dev.react_fsets (d : Dev) (c : BitVec 64) (sev : Nat) : (d.react c sev).fsets = d.fsets := by rw [Dev.react_frame]
@[simp] theorem Dev.react_tu (d : Dev) (c : BitVec 64) (sev : Nat) : (d.react c sev).tu = d.tu := by rw [Dev.react_frame]
@[simp] theorem Dev.react_flock (d : Dev) (c : BitVec 64) (sev : Nat) : (d.react c sev).flock = d.flock := by rw [Dev.react_frame]
@[simp] theorem Dev.react_sec (d : Dev) (c : BitVec 64) (sev : Nat) : (d.react c sev).sec = d.sec := by rw [Dev.react_frame]
@[simp] theorem Dev.react_pow (d : Dev) (c : BitVec 64) (sev : Nat) : (d.react c sev).pow = d.pow := by rw [Dev.react_frame]
@[simp] theorem Dev.react_free (d : Dev) (c : BitVec 64) (sev : Nat) : (d.react c sev).free = d.free := by rw [Dev.react_frame]

/-- Raising a fault touches the collector and the pins alone. -/
theorem Dev.raise_frame (d : Dev) (src kind detail arg : Nat) :
    d.raise src kind detail arg = { d with col := (d.raise src kind detail arg).col, safe := (d.raise src kind detail arg).safe } := by
  unfold Dev.raise Dev.unsentFault Dev.setLine
  dsimp only
  split
  · rw [Dev.react_frame]
  · rfl

@[simp] theorem Dev.raise_mem (d : Dev) (src kind detail arg : Nat) : (d.raise src kind detail arg).mem = d.mem := by rw [Dev.raise_frame]
@[simp] theorem Dev.raise_gddr (d : Dev) (src kind detail arg : Nat) : (d.raise src kind detail arg).gddr = d.gddr := by rw [Dev.raise_frame]
@[simp] theorem Dev.raise_folds (d : Dev) (src kind detail arg : Nat) : (d.raise src kind detail arg).folds = d.folds := by rw [Dev.raise_frame]
@[simp] theorem Dev.raise_phys (d : Dev) (src kind detail arg : Nat) : (d.raise src kind detail arg).phys = d.phys := by rw [Dev.raise_frame]
@[simp] theorem Dev.raise_foldMap (d : Dev) (src kind detail arg : Nat) : (d.raise src kind detail arg).foldMap = d.foldMap := by rw [Dev.raise_frame]
@[simp] theorem Dev.raise_threads (d : Dev) (src kind detail arg : Nat) : (d.raise src kind detail arg).threads = d.threads := by rw [Dev.raise_frame]
@[simp] theorem Dev.raise_posted (d : Dev) (src kind detail arg : Nat) : (d.raise src kind detail arg).posted = d.posted := by rw [Dev.raise_frame]
@[simp] theorem Dev.raise_insts (d : Dev) (src kind detail arg : Nat) : (d.raise src kind detail arg).insts = d.insts := by rw [Dev.raise_frame]
@[simp] theorem Dev.raise_queues (d : Dev) (src kind detail arg : Nat) : (d.raise src kind detail arg).queues = d.queues := by rw [Dev.raise_frame]
@[simp] theorem Dev.raise_slots (d : Dev) (src kind detail arg : Nat) : (d.raise src kind detail arg).slots = d.slots := by rw [Dev.raise_frame]
@[simp] theorem Dev.raise_hurdles (d : Dev) (src kind detail arg : Nat) : (d.raise src kind detail arg).hurdles = d.hurdles := by rw [Dev.raise_frame]
@[simp] theorem Dev.raise_flights (d : Dev) (src kind detail arg : Nat) : (d.raise src kind detail arg).flights = d.flights := by rw [Dev.raise_frame]
@[simp] theorem Dev.raise_host (d : Dev) (src kind detail arg : Nat) : (d.raise src kind detail arg).host = d.host := by rw [Dev.raise_frame]
@[simp] theorem Dev.raise_mbox (d : Dev) (src kind detail arg : Nat) : (d.raise src kind detail arg).mbox = d.mbox := by rw [Dev.raise_frame]
@[simp] theorem Dev.raise_race (d : Dev) (src kind detail arg : Nat) : (d.raise src kind detail arg).race = d.race := by rw [Dev.raise_frame]
@[simp] theorem Dev.raise_fsets (d : Dev) (src kind detail arg : Nat) : (d.raise src kind detail arg).fsets = d.fsets := by rw [Dev.raise_frame]
@[simp] theorem Dev.raise_tu (d : Dev) (src kind detail arg : Nat) : (d.raise src kind detail arg).tu = d.tu := by rw [Dev.raise_frame]
@[simp] theorem Dev.raise_flock (d : Dev) (src kind detail arg : Nat) : (d.raise src kind detail arg).flock = d.flock := by rw [Dev.raise_frame]
@[simp] theorem Dev.raise_sec (d : Dev) (src kind detail arg : Nat) : (d.raise src kind detail arg).sec = d.sec := by rw [Dev.raise_frame]
@[simp] theorem Dev.raise_pow (d : Dev) (src kind detail arg : Nat) : (d.raise src kind detail arg).pow = d.pow := by rw [Dev.raise_frame]
@[simp] theorem Dev.raise_free (d : Dev) (src kind detail arg : Nat) : (d.raise src kind detail arg).free = d.free := by rw [Dev.raise_frame]

/-- A fault counted within its second waits in the collector. -/
theorem Dev.raiseSecond_frame (d : Dev) (e : Env) (src kind detail arg : Nat) (b : Bool) :
    d.raiseSecond e src kind detail arg b = { d with col := (d.raiseSecond e src kind detail arg b).col } := by
  unfold Dev.raiseSecond Dev.raiseKeyed
  dsimp only
  split <;> rfl

@[simp] theorem Dev.raiseSecond_mem (d : Dev) (e : Env) (src kind detail arg : Nat) (b : Bool) : (d.raiseSecond e src kind detail arg b).mem = d.mem := by rw [Dev.raiseSecond_frame]
@[simp] theorem Dev.raiseSecond_gddr (d : Dev) (e : Env) (src kind detail arg : Nat) (b : Bool) : (d.raiseSecond e src kind detail arg b).gddr = d.gddr := by rw [Dev.raiseSecond_frame]
@[simp] theorem Dev.raiseSecond_folds (d : Dev) (e : Env) (src kind detail arg : Nat) (b : Bool) : (d.raiseSecond e src kind detail arg b).folds = d.folds := by rw [Dev.raiseSecond_frame]
@[simp] theorem Dev.raiseSecond_phys (d : Dev) (e : Env) (src kind detail arg : Nat) (b : Bool) : (d.raiseSecond e src kind detail arg b).phys = d.phys := by rw [Dev.raiseSecond_frame]
@[simp] theorem Dev.raiseSecond_foldMap (d : Dev) (e : Env) (src kind detail arg : Nat) (b : Bool) : (d.raiseSecond e src kind detail arg b).foldMap = d.foldMap := by rw [Dev.raiseSecond_frame]
@[simp] theorem Dev.raiseSecond_threads (d : Dev) (e : Env) (src kind detail arg : Nat) (b : Bool) : (d.raiseSecond e src kind detail arg b).threads = d.threads := by rw [Dev.raiseSecond_frame]
@[simp] theorem Dev.raiseSecond_posted (d : Dev) (e : Env) (src kind detail arg : Nat) (b : Bool) : (d.raiseSecond e src kind detail arg b).posted = d.posted := by rw [Dev.raiseSecond_frame]
@[simp] theorem Dev.raiseSecond_insts (d : Dev) (e : Env) (src kind detail arg : Nat) (b : Bool) : (d.raiseSecond e src kind detail arg b).insts = d.insts := by rw [Dev.raiseSecond_frame]
@[simp] theorem Dev.raiseSecond_queues (d : Dev) (e : Env) (src kind detail arg : Nat) (b : Bool) : (d.raiseSecond e src kind detail arg b).queues = d.queues := by rw [Dev.raiseSecond_frame]
@[simp] theorem Dev.raiseSecond_slots (d : Dev) (e : Env) (src kind detail arg : Nat) (b : Bool) : (d.raiseSecond e src kind detail arg b).slots = d.slots := by rw [Dev.raiseSecond_frame]
@[simp] theorem Dev.raiseSecond_hurdles (d : Dev) (e : Env) (src kind detail arg : Nat) (b : Bool) : (d.raiseSecond e src kind detail arg b).hurdles = d.hurdles := by rw [Dev.raiseSecond_frame]
@[simp] theorem Dev.raiseSecond_flights (d : Dev) (e : Env) (src kind detail arg : Nat) (b : Bool) : (d.raiseSecond e src kind detail arg b).flights = d.flights := by rw [Dev.raiseSecond_frame]
@[simp] theorem Dev.raiseSecond_host (d : Dev) (e : Env) (src kind detail arg : Nat) (b : Bool) : (d.raiseSecond e src kind detail arg b).host = d.host := by rw [Dev.raiseSecond_frame]
@[simp] theorem Dev.raiseSecond_mbox (d : Dev) (e : Env) (src kind detail arg : Nat) (b : Bool) : (d.raiseSecond e src kind detail arg b).mbox = d.mbox := by rw [Dev.raiseSecond_frame]
@[simp] theorem Dev.raiseSecond_race (d : Dev) (e : Env) (src kind detail arg : Nat) (b : Bool) : (d.raiseSecond e src kind detail arg b).race = d.race := by rw [Dev.raiseSecond_frame]
@[simp] theorem Dev.raiseSecond_fsets (d : Dev) (e : Env) (src kind detail arg : Nat) (b : Bool) : (d.raiseSecond e src kind detail arg b).fsets = d.fsets := by rw [Dev.raiseSecond_frame]
@[simp] theorem Dev.raiseSecond_tu (d : Dev) (e : Env) (src kind detail arg : Nat) (b : Bool) : (d.raiseSecond e src kind detail arg b).tu = d.tu := by rw [Dev.raiseSecond_frame]
@[simp] theorem Dev.raiseSecond_flock (d : Dev) (e : Env) (src kind detail arg : Nat) (b : Bool) : (d.raiseSecond e src kind detail arg b).flock = d.flock := by rw [Dev.raiseSecond_frame]
@[simp] theorem Dev.raiseSecond_safe (d : Dev) (e : Env) (src kind detail arg : Nat) (b : Bool) : (d.raiseSecond e src kind detail arg b).safe = d.safe := by rw [Dev.raiseSecond_frame]
@[simp] theorem Dev.raiseSecond_sec (d : Dev) (e : Env) (src kind detail arg : Nat) (b : Bool) : (d.raiseSecond e src kind detail arg b).sec = d.sec := by rw [Dev.raiseSecond_frame]
@[simp] theorem Dev.raiseSecond_pow (d : Dev) (e : Env) (src kind detail arg : Nat) (b : Bool) : (d.raiseSecond e src kind detail arg b).pow = d.pow := by rw [Dev.raiseSecond_frame]
@[simp] theorem Dev.raiseSecond_free (d : Dev) (e : Env) (src kind detail arg : Nat) (b : Bool) : (d.raiseSecond e src kind detail arg b).free = d.free := by rw [Dev.raiseSecond_frame]

theorem Dev.modMem_frame (d : Dev) (f : Mem → Mem) :
    d.modMem f = { d with mem := (d.modMem f).mem } := by
  rfl

@[simp] theorem Dev.modMem_gddr (d : Dev) (f : Mem → Mem) : (d.modMem f).gddr = d.gddr := by rw [Dev.modMem_frame]
@[simp] theorem Dev.modMem_folds (d : Dev) (f : Mem → Mem) : (d.modMem f).folds = d.folds := by rw [Dev.modMem_frame]
@[simp] theorem Dev.modMem_phys (d : Dev) (f : Mem → Mem) : (d.modMem f).phys = d.phys := by rw [Dev.modMem_frame]
@[simp] theorem Dev.modMem_foldMap (d : Dev) (f : Mem → Mem) : (d.modMem f).foldMap = d.foldMap := by rw [Dev.modMem_frame]
@[simp] theorem Dev.modMem_threads (d : Dev) (f : Mem → Mem) : (d.modMem f).threads = d.threads := by rw [Dev.modMem_frame]
@[simp] theorem Dev.modMem_posted (d : Dev) (f : Mem → Mem) : (d.modMem f).posted = d.posted := by rw [Dev.modMem_frame]
@[simp] theorem Dev.modMem_insts (d : Dev) (f : Mem → Mem) : (d.modMem f).insts = d.insts := by rw [Dev.modMem_frame]
@[simp] theorem Dev.modMem_queues (d : Dev) (f : Mem → Mem) : (d.modMem f).queues = d.queues := by rw [Dev.modMem_frame]
@[simp] theorem Dev.modMem_slots (d : Dev) (f : Mem → Mem) : (d.modMem f).slots = d.slots := by rw [Dev.modMem_frame]
@[simp] theorem Dev.modMem_hurdles (d : Dev) (f : Mem → Mem) : (d.modMem f).hurdles = d.hurdles := by rw [Dev.modMem_frame]
@[simp] theorem Dev.modMem_flights (d : Dev) (f : Mem → Mem) : (d.modMem f).flights = d.flights := by rw [Dev.modMem_frame]
@[simp] theorem Dev.modMem_host (d : Dev) (f : Mem → Mem) : (d.modMem f).host = d.host := by rw [Dev.modMem_frame]
@[simp] theorem Dev.modMem_mbox (d : Dev) (f : Mem → Mem) : (d.modMem f).mbox = d.mbox := by rw [Dev.modMem_frame]
@[simp] theorem Dev.modMem_race (d : Dev) (f : Mem → Mem) : (d.modMem f).race = d.race := by rw [Dev.modMem_frame]
@[simp] theorem Dev.modMem_fsets (d : Dev) (f : Mem → Mem) : (d.modMem f).fsets = d.fsets := by rw [Dev.modMem_frame]
@[simp] theorem Dev.modMem_tu (d : Dev) (f : Mem → Mem) : (d.modMem f).tu = d.tu := by rw [Dev.modMem_frame]
@[simp] theorem Dev.modMem_flock (d : Dev) (f : Mem → Mem) : (d.modMem f).flock = d.flock := by rw [Dev.modMem_frame]
@[simp] theorem Dev.modMem_col (d : Dev) (f : Mem → Mem) : (d.modMem f).col = d.col := by rw [Dev.modMem_frame]
@[simp] theorem Dev.modMem_safe (d : Dev) (f : Mem → Mem) : (d.modMem f).safe = d.safe := by rw [Dev.modMem_frame]
@[simp] theorem Dev.modMem_sec (d : Dev) (f : Mem → Mem) : (d.modMem f).sec = d.sec := by rw [Dev.modMem_frame]
@[simp] theorem Dev.modMem_pow (d : Dev) (f : Mem → Mem) : (d.modMem f).pow = d.pow := by rw [Dev.modMem_frame]
@[simp] theorem Dev.modMem_free (d : Dev) (f : Mem → Mem) : (d.modMem f).free = d.free := by rw [Dev.modMem_frame]

theorem Dev.modPhys_frame (d : Dev) (p : Nat) (f : PhysFold → PhysFold) :
    d.modPhys p f = { d with phys := (d.modPhys p f).phys } := by
  rfl

@[simp] theorem Dev.modPhys_mem (d : Dev) (p : Nat) (f : PhysFold → PhysFold) : (d.modPhys p f).mem = d.mem := by rw [Dev.modPhys_frame]
@[simp] theorem Dev.modPhys_gddr (d : Dev) (p : Nat) (f : PhysFold → PhysFold) : (d.modPhys p f).gddr = d.gddr := by rw [Dev.modPhys_frame]
@[simp] theorem Dev.modPhys_folds (d : Dev) (p : Nat) (f : PhysFold → PhysFold) : (d.modPhys p f).folds = d.folds := by rw [Dev.modPhys_frame]
@[simp] theorem Dev.modPhys_foldMap (d : Dev) (p : Nat) (f : PhysFold → PhysFold) : (d.modPhys p f).foldMap = d.foldMap := by rw [Dev.modPhys_frame]
@[simp] theorem Dev.modPhys_threads (d : Dev) (p : Nat) (f : PhysFold → PhysFold) : (d.modPhys p f).threads = d.threads := by rw [Dev.modPhys_frame]
@[simp] theorem Dev.modPhys_posted (d : Dev) (p : Nat) (f : PhysFold → PhysFold) : (d.modPhys p f).posted = d.posted := by rw [Dev.modPhys_frame]
@[simp] theorem Dev.modPhys_insts (d : Dev) (p : Nat) (f : PhysFold → PhysFold) : (d.modPhys p f).insts = d.insts := by rw [Dev.modPhys_frame]
@[simp] theorem Dev.modPhys_queues (d : Dev) (p : Nat) (f : PhysFold → PhysFold) : (d.modPhys p f).queues = d.queues := by rw [Dev.modPhys_frame]
@[simp] theorem Dev.modPhys_slots (d : Dev) (p : Nat) (f : PhysFold → PhysFold) : (d.modPhys p f).slots = d.slots := by rw [Dev.modPhys_frame]
@[simp] theorem Dev.modPhys_hurdles (d : Dev) (p : Nat) (f : PhysFold → PhysFold) : (d.modPhys p f).hurdles = d.hurdles := by rw [Dev.modPhys_frame]
@[simp] theorem Dev.modPhys_flights (d : Dev) (p : Nat) (f : PhysFold → PhysFold) : (d.modPhys p f).flights = d.flights := by rw [Dev.modPhys_frame]
@[simp] theorem Dev.modPhys_host (d : Dev) (p : Nat) (f : PhysFold → PhysFold) : (d.modPhys p f).host = d.host := by rw [Dev.modPhys_frame]
@[simp] theorem Dev.modPhys_mbox (d : Dev) (p : Nat) (f : PhysFold → PhysFold) : (d.modPhys p f).mbox = d.mbox := by rw [Dev.modPhys_frame]
@[simp] theorem Dev.modPhys_race (d : Dev) (p : Nat) (f : PhysFold → PhysFold) : (d.modPhys p f).race = d.race := by rw [Dev.modPhys_frame]
@[simp] theorem Dev.modPhys_fsets (d : Dev) (p : Nat) (f : PhysFold → PhysFold) : (d.modPhys p f).fsets = d.fsets := by rw [Dev.modPhys_frame]
@[simp] theorem Dev.modPhys_tu (d : Dev) (p : Nat) (f : PhysFold → PhysFold) : (d.modPhys p f).tu = d.tu := by rw [Dev.modPhys_frame]
@[simp] theorem Dev.modPhys_flock (d : Dev) (p : Nat) (f : PhysFold → PhysFold) : (d.modPhys p f).flock = d.flock := by rw [Dev.modPhys_frame]
@[simp] theorem Dev.modPhys_col (d : Dev) (p : Nat) (f : PhysFold → PhysFold) : (d.modPhys p f).col = d.col := by rw [Dev.modPhys_frame]
@[simp] theorem Dev.modPhys_safe (d : Dev) (p : Nat) (f : PhysFold → PhysFold) : (d.modPhys p f).safe = d.safe := by rw [Dev.modPhys_frame]
@[simp] theorem Dev.modPhys_sec (d : Dev) (p : Nat) (f : PhysFold → PhysFold) : (d.modPhys p f).sec = d.sec := by rw [Dev.modPhys_frame]
@[simp] theorem Dev.modPhys_pow (d : Dev) (p : Nat) (f : PhysFold → PhysFold) : (d.modPhys p f).pow = d.pow := by rw [Dev.modPhys_frame]
@[simp] theorem Dev.modPhys_free (d : Dev) (p : Nat) (f : PhysFold → PhysFold) : (d.modPhys p f).free = d.free := by rw [Dev.modPhys_frame]

theorem Dev.setPoison_frame (d : Dev) (line : Nat) (p : Bool) :
    d.setPoison line p = { d with mem := (d.setPoison line p).mem } := by
  rfl

@[simp] theorem Dev.setPoison_gddr (d : Dev) (line : Nat) (p : Bool) : (d.setPoison line p).gddr = d.gddr := by rw [Dev.setPoison_frame]
@[simp] theorem Dev.setPoison_folds (d : Dev) (line : Nat) (p : Bool) : (d.setPoison line p).folds = d.folds := by rw [Dev.setPoison_frame]
@[simp] theorem Dev.setPoison_phys (d : Dev) (line : Nat) (p : Bool) : (d.setPoison line p).phys = d.phys := by rw [Dev.setPoison_frame]
@[simp] theorem Dev.setPoison_foldMap (d : Dev) (line : Nat) (p : Bool) : (d.setPoison line p).foldMap = d.foldMap := by rw [Dev.setPoison_frame]
@[simp] theorem Dev.setPoison_threads (d : Dev) (line : Nat) (p : Bool) : (d.setPoison line p).threads = d.threads := by rw [Dev.setPoison_frame]
@[simp] theorem Dev.setPoison_posted (d : Dev) (line : Nat) (p : Bool) : (d.setPoison line p).posted = d.posted := by rw [Dev.setPoison_frame]
@[simp] theorem Dev.setPoison_insts (d : Dev) (line : Nat) (p : Bool) : (d.setPoison line p).insts = d.insts := by rw [Dev.setPoison_frame]
@[simp] theorem Dev.setPoison_queues (d : Dev) (line : Nat) (p : Bool) : (d.setPoison line p).queues = d.queues := by rw [Dev.setPoison_frame]
@[simp] theorem Dev.setPoison_slots (d : Dev) (line : Nat) (p : Bool) : (d.setPoison line p).slots = d.slots := by rw [Dev.setPoison_frame]
@[simp] theorem Dev.setPoison_hurdles (d : Dev) (line : Nat) (p : Bool) : (d.setPoison line p).hurdles = d.hurdles := by rw [Dev.setPoison_frame]
@[simp] theorem Dev.setPoison_flights (d : Dev) (line : Nat) (p : Bool) : (d.setPoison line p).flights = d.flights := by rw [Dev.setPoison_frame]
@[simp] theorem Dev.setPoison_host (d : Dev) (line : Nat) (p : Bool) : (d.setPoison line p).host = d.host := by rw [Dev.setPoison_frame]
@[simp] theorem Dev.setPoison_mbox (d : Dev) (line : Nat) (p : Bool) : (d.setPoison line p).mbox = d.mbox := by rw [Dev.setPoison_frame]
@[simp] theorem Dev.setPoison_race (d : Dev) (line : Nat) (p : Bool) : (d.setPoison line p).race = d.race := by rw [Dev.setPoison_frame]
@[simp] theorem Dev.setPoison_fsets (d : Dev) (line : Nat) (p : Bool) : (d.setPoison line p).fsets = d.fsets := by rw [Dev.setPoison_frame]
@[simp] theorem Dev.setPoison_tu (d : Dev) (line : Nat) (p : Bool) : (d.setPoison line p).tu = d.tu := by rw [Dev.setPoison_frame]
@[simp] theorem Dev.setPoison_flock (d : Dev) (line : Nat) (p : Bool) : (d.setPoison line p).flock = d.flock := by rw [Dev.setPoison_frame]
@[simp] theorem Dev.setPoison_col (d : Dev) (line : Nat) (p : Bool) : (d.setPoison line p).col = d.col := by rw [Dev.setPoison_frame]
@[simp] theorem Dev.setPoison_safe (d : Dev) (line : Nat) (p : Bool) : (d.setPoison line p).safe = d.safe := by rw [Dev.setPoison_frame]
@[simp] theorem Dev.setPoison_sec (d : Dev) (line : Nat) (p : Bool) : (d.setPoison line p).sec = d.sec := by rw [Dev.setPoison_frame]
@[simp] theorem Dev.setPoison_pow (d : Dev) (line : Nat) (p : Bool) : (d.setPoison line p).pow = d.pow := by rw [Dev.setPoison_frame]
@[simp] theorem Dev.setPoison_free (d : Dev) (line : Nat) (p : Bool) : (d.setPoison line p).free = d.free := by rw [Dev.setPoison_frame]

theorem Dev.freshLine_frame (d : Dev) (line : Nat) (p : Bool) :
    d.freshLine line p = { d with mem := (d.freshLine line p).mem } := by
  rfl

@[simp] theorem Dev.freshLine_gddr (d : Dev) (line : Nat) (p : Bool) : (d.freshLine line p).gddr = d.gddr := by rw [Dev.freshLine_frame]
@[simp] theorem Dev.freshLine_folds (d : Dev) (line : Nat) (p : Bool) : (d.freshLine line p).folds = d.folds := by rw [Dev.freshLine_frame]
@[simp] theorem Dev.freshLine_phys (d : Dev) (line : Nat) (p : Bool) : (d.freshLine line p).phys = d.phys := by rw [Dev.freshLine_frame]
@[simp] theorem Dev.freshLine_foldMap (d : Dev) (line : Nat) (p : Bool) : (d.freshLine line p).foldMap = d.foldMap := by rw [Dev.freshLine_frame]
@[simp] theorem Dev.freshLine_threads (d : Dev) (line : Nat) (p : Bool) : (d.freshLine line p).threads = d.threads := by rw [Dev.freshLine_frame]
@[simp] theorem Dev.freshLine_posted (d : Dev) (line : Nat) (p : Bool) : (d.freshLine line p).posted = d.posted := by rw [Dev.freshLine_frame]
@[simp] theorem Dev.freshLine_insts (d : Dev) (line : Nat) (p : Bool) : (d.freshLine line p).insts = d.insts := by rw [Dev.freshLine_frame]
@[simp] theorem Dev.freshLine_queues (d : Dev) (line : Nat) (p : Bool) : (d.freshLine line p).queues = d.queues := by rw [Dev.freshLine_frame]
@[simp] theorem Dev.freshLine_slots (d : Dev) (line : Nat) (p : Bool) : (d.freshLine line p).slots = d.slots := by rw [Dev.freshLine_frame]
@[simp] theorem Dev.freshLine_hurdles (d : Dev) (line : Nat) (p : Bool) : (d.freshLine line p).hurdles = d.hurdles := by rw [Dev.freshLine_frame]
@[simp] theorem Dev.freshLine_flights (d : Dev) (line : Nat) (p : Bool) : (d.freshLine line p).flights = d.flights := by rw [Dev.freshLine_frame]
@[simp] theorem Dev.freshLine_host (d : Dev) (line : Nat) (p : Bool) : (d.freshLine line p).host = d.host := by rw [Dev.freshLine_frame]
@[simp] theorem Dev.freshLine_mbox (d : Dev) (line : Nat) (p : Bool) : (d.freshLine line p).mbox = d.mbox := by rw [Dev.freshLine_frame]
@[simp] theorem Dev.freshLine_race (d : Dev) (line : Nat) (p : Bool) : (d.freshLine line p).race = d.race := by rw [Dev.freshLine_frame]
@[simp] theorem Dev.freshLine_fsets (d : Dev) (line : Nat) (p : Bool) : (d.freshLine line p).fsets = d.fsets := by rw [Dev.freshLine_frame]
@[simp] theorem Dev.freshLine_tu (d : Dev) (line : Nat) (p : Bool) : (d.freshLine line p).tu = d.tu := by rw [Dev.freshLine_frame]
@[simp] theorem Dev.freshLine_flock (d : Dev) (line : Nat) (p : Bool) : (d.freshLine line p).flock = d.flock := by rw [Dev.freshLine_frame]
@[simp] theorem Dev.freshLine_col (d : Dev) (line : Nat) (p : Bool) : (d.freshLine line p).col = d.col := by rw [Dev.freshLine_frame]
@[simp] theorem Dev.freshLine_safe (d : Dev) (line : Nat) (p : Bool) : (d.freshLine line p).safe = d.safe := by rw [Dev.freshLine_frame]
@[simp] theorem Dev.freshLine_sec (d : Dev) (line : Nat) (p : Bool) : (d.freshLine line p).sec = d.sec := by rw [Dev.freshLine_frame]
@[simp] theorem Dev.freshLine_pow (d : Dev) (line : Nat) (p : Bool) : (d.freshLine line p).pow = d.pow := by rw [Dev.freshLine_frame]
@[simp] theorem Dev.freshLine_free (d : Dev) (line : Nat) (p : Bool) : (d.freshLine line p).free = d.free := by rw [Dev.freshLine_frame]

theorem Dev.poke_frame (d : Dev) (a : Nat) (bs : List Byte) :
    d.poke a bs = { d with mem := (d.poke a bs).mem } := by
  rfl

@[simp] theorem Dev.poke_gddr (d : Dev) (a : Nat) (bs : List Byte) : (d.poke a bs).gddr = d.gddr := by rw [Dev.poke_frame]
@[simp] theorem Dev.poke_folds (d : Dev) (a : Nat) (bs : List Byte) : (d.poke a bs).folds = d.folds := by rw [Dev.poke_frame]
@[simp] theorem Dev.poke_phys (d : Dev) (a : Nat) (bs : List Byte) : (d.poke a bs).phys = d.phys := by rw [Dev.poke_frame]
@[simp] theorem Dev.poke_foldMap (d : Dev) (a : Nat) (bs : List Byte) : (d.poke a bs).foldMap = d.foldMap := by rw [Dev.poke_frame]
@[simp] theorem Dev.poke_threads (d : Dev) (a : Nat) (bs : List Byte) : (d.poke a bs).threads = d.threads := by rw [Dev.poke_frame]
@[simp] theorem Dev.poke_posted (d : Dev) (a : Nat) (bs : List Byte) : (d.poke a bs).posted = d.posted := by rw [Dev.poke_frame]
@[simp] theorem Dev.poke_insts (d : Dev) (a : Nat) (bs : List Byte) : (d.poke a bs).insts = d.insts := by rw [Dev.poke_frame]
@[simp] theorem Dev.poke_queues (d : Dev) (a : Nat) (bs : List Byte) : (d.poke a bs).queues = d.queues := by rw [Dev.poke_frame]
@[simp] theorem Dev.poke_slots (d : Dev) (a : Nat) (bs : List Byte) : (d.poke a bs).slots = d.slots := by rw [Dev.poke_frame]
@[simp] theorem Dev.poke_hurdles (d : Dev) (a : Nat) (bs : List Byte) : (d.poke a bs).hurdles = d.hurdles := by rw [Dev.poke_frame]
@[simp] theorem Dev.poke_flights (d : Dev) (a : Nat) (bs : List Byte) : (d.poke a bs).flights = d.flights := by rw [Dev.poke_frame]
@[simp] theorem Dev.poke_host (d : Dev) (a : Nat) (bs : List Byte) : (d.poke a bs).host = d.host := by rw [Dev.poke_frame]
@[simp] theorem Dev.poke_mbox (d : Dev) (a : Nat) (bs : List Byte) : (d.poke a bs).mbox = d.mbox := by rw [Dev.poke_frame]
@[simp] theorem Dev.poke_race (d : Dev) (a : Nat) (bs : List Byte) : (d.poke a bs).race = d.race := by rw [Dev.poke_frame]
@[simp] theorem Dev.poke_fsets (d : Dev) (a : Nat) (bs : List Byte) : (d.poke a bs).fsets = d.fsets := by rw [Dev.poke_frame]
@[simp] theorem Dev.poke_tu (d : Dev) (a : Nat) (bs : List Byte) : (d.poke a bs).tu = d.tu := by rw [Dev.poke_frame]
@[simp] theorem Dev.poke_flock (d : Dev) (a : Nat) (bs : List Byte) : (d.poke a bs).flock = d.flock := by rw [Dev.poke_frame]
@[simp] theorem Dev.poke_col (d : Dev) (a : Nat) (bs : List Byte) : (d.poke a bs).col = d.col := by rw [Dev.poke_frame]
@[simp] theorem Dev.poke_safe (d : Dev) (a : Nat) (bs : List Byte) : (d.poke a bs).safe = d.safe := by rw [Dev.poke_frame]
@[simp] theorem Dev.poke_sec (d : Dev) (a : Nat) (bs : List Byte) : (d.poke a bs).sec = d.sec := by rw [Dev.poke_frame]
@[simp] theorem Dev.poke_pow (d : Dev) (a : Nat) (bs : List Byte) : (d.poke a bs).pow = d.pow := by rw [Dev.poke_frame]
@[simp] theorem Dev.poke_free (d : Dev) (a : Nat) (bs : List Byte) : (d.poke a bs).free = d.free := by rw [Dev.poke_frame]

theorem Dev.zeroRange_frame (d : Dev) (a n : Nat) :
    d.zeroRange a n = { d with mem := (d.zeroRange a n).mem } := by
  rfl

@[simp] theorem Dev.zeroRange_gddr (d : Dev) (a n : Nat) : (d.zeroRange a n).gddr = d.gddr := by rw [Dev.zeroRange_frame]
@[simp] theorem Dev.zeroRange_folds (d : Dev) (a n : Nat) : (d.zeroRange a n).folds = d.folds := by rw [Dev.zeroRange_frame]
@[simp] theorem Dev.zeroRange_phys (d : Dev) (a n : Nat) : (d.zeroRange a n).phys = d.phys := by rw [Dev.zeroRange_frame]
@[simp] theorem Dev.zeroRange_foldMap (d : Dev) (a n : Nat) : (d.zeroRange a n).foldMap = d.foldMap := by rw [Dev.zeroRange_frame]
@[simp] theorem Dev.zeroRange_threads (d : Dev) (a n : Nat) : (d.zeroRange a n).threads = d.threads := by rw [Dev.zeroRange_frame]
@[simp] theorem Dev.zeroRange_posted (d : Dev) (a n : Nat) : (d.zeroRange a n).posted = d.posted := by rw [Dev.zeroRange_frame]
@[simp] theorem Dev.zeroRange_insts (d : Dev) (a n : Nat) : (d.zeroRange a n).insts = d.insts := by rw [Dev.zeroRange_frame]
@[simp] theorem Dev.zeroRange_queues (d : Dev) (a n : Nat) : (d.zeroRange a n).queues = d.queues := by rw [Dev.zeroRange_frame]
@[simp] theorem Dev.zeroRange_slots (d : Dev) (a n : Nat) : (d.zeroRange a n).slots = d.slots := by rw [Dev.zeroRange_frame]
@[simp] theorem Dev.zeroRange_hurdles (d : Dev) (a n : Nat) : (d.zeroRange a n).hurdles = d.hurdles := by rw [Dev.zeroRange_frame]
@[simp] theorem Dev.zeroRange_flights (d : Dev) (a n : Nat) : (d.zeroRange a n).flights = d.flights := by rw [Dev.zeroRange_frame]
@[simp] theorem Dev.zeroRange_host (d : Dev) (a n : Nat) : (d.zeroRange a n).host = d.host := by rw [Dev.zeroRange_frame]
@[simp] theorem Dev.zeroRange_mbox (d : Dev) (a n : Nat) : (d.zeroRange a n).mbox = d.mbox := by rw [Dev.zeroRange_frame]
@[simp] theorem Dev.zeroRange_race (d : Dev) (a n : Nat) : (d.zeroRange a n).race = d.race := by rw [Dev.zeroRange_frame]
@[simp] theorem Dev.zeroRange_fsets (d : Dev) (a n : Nat) : (d.zeroRange a n).fsets = d.fsets := by rw [Dev.zeroRange_frame]
@[simp] theorem Dev.zeroRange_tu (d : Dev) (a n : Nat) : (d.zeroRange a n).tu = d.tu := by rw [Dev.zeroRange_frame]
@[simp] theorem Dev.zeroRange_flock (d : Dev) (a n : Nat) : (d.zeroRange a n).flock = d.flock := by rw [Dev.zeroRange_frame]
@[simp] theorem Dev.zeroRange_col (d : Dev) (a n : Nat) : (d.zeroRange a n).col = d.col := by rw [Dev.zeroRange_frame]
@[simp] theorem Dev.zeroRange_safe (d : Dev) (a n : Nat) : (d.zeroRange a n).safe = d.safe := by rw [Dev.zeroRange_frame]
@[simp] theorem Dev.zeroRange_sec (d : Dev) (a n : Nat) : (d.zeroRange a n).sec = d.sec := by rw [Dev.zeroRange_frame]
@[simp] theorem Dev.zeroRange_pow (d : Dev) (a n : Nat) : (d.zeroRange a n).pow = d.pow := by rw [Dev.zeroRange_frame]
@[simp] theorem Dev.zeroRange_free (d : Dev) (a n : Nat) : (d.zeroRange a n).free = d.free := by rw [Dev.zeroRange_frame]

theorem Dev.blank_frame (d : Dev) (a n : Nat) :
    d.blank a n = { d with mem := (d.blank a n).mem } := by
  rfl

@[simp] theorem Dev.blank_gddr (d : Dev) (a n : Nat) : (d.blank a n).gddr = d.gddr := by rw [Dev.blank_frame]
@[simp] theorem Dev.blank_folds (d : Dev) (a n : Nat) : (d.blank a n).folds = d.folds := by rw [Dev.blank_frame]
@[simp] theorem Dev.blank_phys (d : Dev) (a n : Nat) : (d.blank a n).phys = d.phys := by rw [Dev.blank_frame]
@[simp] theorem Dev.blank_foldMap (d : Dev) (a n : Nat) : (d.blank a n).foldMap = d.foldMap := by rw [Dev.blank_frame]
@[simp] theorem Dev.blank_threads (d : Dev) (a n : Nat) : (d.blank a n).threads = d.threads := by rw [Dev.blank_frame]
@[simp] theorem Dev.blank_posted (d : Dev) (a n : Nat) : (d.blank a n).posted = d.posted := by rw [Dev.blank_frame]
@[simp] theorem Dev.blank_insts (d : Dev) (a n : Nat) : (d.blank a n).insts = d.insts := by rw [Dev.blank_frame]
@[simp] theorem Dev.blank_queues (d : Dev) (a n : Nat) : (d.blank a n).queues = d.queues := by rw [Dev.blank_frame]
@[simp] theorem Dev.blank_slots (d : Dev) (a n : Nat) : (d.blank a n).slots = d.slots := by rw [Dev.blank_frame]
@[simp] theorem Dev.blank_hurdles (d : Dev) (a n : Nat) : (d.blank a n).hurdles = d.hurdles := by rw [Dev.blank_frame]
@[simp] theorem Dev.blank_flights (d : Dev) (a n : Nat) : (d.blank a n).flights = d.flights := by rw [Dev.blank_frame]
@[simp] theorem Dev.blank_host (d : Dev) (a n : Nat) : (d.blank a n).host = d.host := by rw [Dev.blank_frame]
@[simp] theorem Dev.blank_mbox (d : Dev) (a n : Nat) : (d.blank a n).mbox = d.mbox := by rw [Dev.blank_frame]
@[simp] theorem Dev.blank_race (d : Dev) (a n : Nat) : (d.blank a n).race = d.race := by rw [Dev.blank_frame]
@[simp] theorem Dev.blank_fsets (d : Dev) (a n : Nat) : (d.blank a n).fsets = d.fsets := by rw [Dev.blank_frame]
@[simp] theorem Dev.blank_tu (d : Dev) (a n : Nat) : (d.blank a n).tu = d.tu := by rw [Dev.blank_frame]
@[simp] theorem Dev.blank_flock (d : Dev) (a n : Nat) : (d.blank a n).flock = d.flock := by rw [Dev.blank_frame]
@[simp] theorem Dev.blank_col (d : Dev) (a n : Nat) : (d.blank a n).col = d.col := by rw [Dev.blank_frame]
@[simp] theorem Dev.blank_safe (d : Dev) (a n : Nat) : (d.blank a n).safe = d.safe := by rw [Dev.blank_frame]
@[simp] theorem Dev.blank_sec (d : Dev) (a n : Nat) : (d.blank a n).sec = d.sec := by rw [Dev.blank_frame]
@[simp] theorem Dev.blank_pow (d : Dev) (a n : Nat) : (d.blank a n).pow = d.pow := by rw [Dev.blank_frame]
@[simp] theorem Dev.blank_free (d : Dev) (a n : Nat) : (d.blank a n).free = d.free := by rw [Dev.blank_frame]

/-- A correction is counted at its line and reported. -/
theorem Dev.corrected_frame (d : Dev) (line bit : Nat) :
    d.corrected line bit = { d with mem := (d.corrected line bit).mem, col := (d.corrected line bit).col, safe := (d.corrected line bit).safe } := by
  unfold Dev.corrected
  dsimp only
  split
  · rw [Dev.raise_frame]; rfl
  · split
    · rw [Dev.raise_frame]; rfl
    · rfl

@[simp] theorem Dev.corrected_gddr (d : Dev) (line bit : Nat) : (d.corrected line bit).gddr = d.gddr := by rw [Dev.corrected_frame]
@[simp] theorem Dev.corrected_folds (d : Dev) (line bit : Nat) : (d.corrected line bit).folds = d.folds := by rw [Dev.corrected_frame]
@[simp] theorem Dev.corrected_phys (d : Dev) (line bit : Nat) : (d.corrected line bit).phys = d.phys := by rw [Dev.corrected_frame]
@[simp] theorem Dev.corrected_foldMap (d : Dev) (line bit : Nat) : (d.corrected line bit).foldMap = d.foldMap := by rw [Dev.corrected_frame]
@[simp] theorem Dev.corrected_threads (d : Dev) (line bit : Nat) : (d.corrected line bit).threads = d.threads := by rw [Dev.corrected_frame]
@[simp] theorem Dev.corrected_posted (d : Dev) (line bit : Nat) : (d.corrected line bit).posted = d.posted := by rw [Dev.corrected_frame]
@[simp] theorem Dev.corrected_insts (d : Dev) (line bit : Nat) : (d.corrected line bit).insts = d.insts := by rw [Dev.corrected_frame]
@[simp] theorem Dev.corrected_queues (d : Dev) (line bit : Nat) : (d.corrected line bit).queues = d.queues := by rw [Dev.corrected_frame]
@[simp] theorem Dev.corrected_slots (d : Dev) (line bit : Nat) : (d.corrected line bit).slots = d.slots := by rw [Dev.corrected_frame]
@[simp] theorem Dev.corrected_hurdles (d : Dev) (line bit : Nat) : (d.corrected line bit).hurdles = d.hurdles := by rw [Dev.corrected_frame]
@[simp] theorem Dev.corrected_flights (d : Dev) (line bit : Nat) : (d.corrected line bit).flights = d.flights := by rw [Dev.corrected_frame]
@[simp] theorem Dev.corrected_host (d : Dev) (line bit : Nat) : (d.corrected line bit).host = d.host := by rw [Dev.corrected_frame]
@[simp] theorem Dev.corrected_mbox (d : Dev) (line bit : Nat) : (d.corrected line bit).mbox = d.mbox := by rw [Dev.corrected_frame]
@[simp] theorem Dev.corrected_race (d : Dev) (line bit : Nat) : (d.corrected line bit).race = d.race := by rw [Dev.corrected_frame]
@[simp] theorem Dev.corrected_fsets (d : Dev) (line bit : Nat) : (d.corrected line bit).fsets = d.fsets := by rw [Dev.corrected_frame]
@[simp] theorem Dev.corrected_tu (d : Dev) (line bit : Nat) : (d.corrected line bit).tu = d.tu := by rw [Dev.corrected_frame]
@[simp] theorem Dev.corrected_flock (d : Dev) (line bit : Nat) : (d.corrected line bit).flock = d.flock := by rw [Dev.corrected_frame]
@[simp] theorem Dev.corrected_sec (d : Dev) (line bit : Nat) : (d.corrected line bit).sec = d.sec := by rw [Dev.corrected_frame]
@[simp] theorem Dev.corrected_pow (d : Dev) (line bit : Nat) : (d.corrected line bit).pow = d.pow := by rw [Dev.corrected_frame]
@[simp] theorem Dev.corrected_free (d : Dev) (line bit : Nat) : (d.corrected line bit).free = d.free := by rw [Dev.corrected_frame]

/-- A transfer over a GDDR6 interface may repeat, and reports its failure. -/
theorem Dev.transfer_frame (d : Dev) (line : Nat) :
    (d.transfer line).2 = { d with mem := (d.transfer line).2.mem, col := (d.transfer line).2.col, safe := (d.transfer line).2.safe } := by
  unfold Dev.transfer
  split
  · dsimp only
    split
    · rfl
    · split
      · rfl
      · dsimp only
        rw [Dev.raise_frame]; rfl
  · rfl

@[simp] theorem Dev.transfer_gddr (d : Dev) (line : Nat) : ((d.transfer line).2).gddr = d.gddr := by rw [Dev.transfer_frame]
@[simp] theorem Dev.transfer_folds (d : Dev) (line : Nat) : ((d.transfer line).2).folds = d.folds := by rw [Dev.transfer_frame]
@[simp] theorem Dev.transfer_phys (d : Dev) (line : Nat) : ((d.transfer line).2).phys = d.phys := by rw [Dev.transfer_frame]
@[simp] theorem Dev.transfer_foldMap (d : Dev) (line : Nat) : ((d.transfer line).2).foldMap = d.foldMap := by rw [Dev.transfer_frame]
@[simp] theorem Dev.transfer_threads (d : Dev) (line : Nat) : ((d.transfer line).2).threads = d.threads := by rw [Dev.transfer_frame]
@[simp] theorem Dev.transfer_posted (d : Dev) (line : Nat) : ((d.transfer line).2).posted = d.posted := by rw [Dev.transfer_frame]
@[simp] theorem Dev.transfer_insts (d : Dev) (line : Nat) : ((d.transfer line).2).insts = d.insts := by rw [Dev.transfer_frame]
@[simp] theorem Dev.transfer_queues (d : Dev) (line : Nat) : ((d.transfer line).2).queues = d.queues := by rw [Dev.transfer_frame]
@[simp] theorem Dev.transfer_slots (d : Dev) (line : Nat) : ((d.transfer line).2).slots = d.slots := by rw [Dev.transfer_frame]
@[simp] theorem Dev.transfer_hurdles (d : Dev) (line : Nat) : ((d.transfer line).2).hurdles = d.hurdles := by rw [Dev.transfer_frame]
@[simp] theorem Dev.transfer_flights (d : Dev) (line : Nat) : ((d.transfer line).2).flights = d.flights := by rw [Dev.transfer_frame]
@[simp] theorem Dev.transfer_host (d : Dev) (line : Nat) : ((d.transfer line).2).host = d.host := by rw [Dev.transfer_frame]
@[simp] theorem Dev.transfer_mbox (d : Dev) (line : Nat) : ((d.transfer line).2).mbox = d.mbox := by rw [Dev.transfer_frame]
@[simp] theorem Dev.transfer_race (d : Dev) (line : Nat) : ((d.transfer line).2).race = d.race := by rw [Dev.transfer_frame]
@[simp] theorem Dev.transfer_fsets (d : Dev) (line : Nat) : ((d.transfer line).2).fsets = d.fsets := by rw [Dev.transfer_frame]
@[simp] theorem Dev.transfer_tu (d : Dev) (line : Nat) : ((d.transfer line).2).tu = d.tu := by rw [Dev.transfer_frame]
@[simp] theorem Dev.transfer_flock (d : Dev) (line : Nat) : ((d.transfer line).2).flock = d.flock := by rw [Dev.transfer_frame]
@[simp] theorem Dev.transfer_sec (d : Dev) (line : Nat) : ((d.transfer line).2).sec = d.sec := by rw [Dev.transfer_frame]
@[simp] theorem Dev.transfer_pow (d : Dev) (line : Nat) : ((d.transfer line).2).pow = d.pow := by rw [Dev.transfer_frame]
@[simp] theorem Dev.transfer_free (d : Dev) (line : Nat) : ((d.transfer line).2).free = d.free := by rw [Dev.transfer_frame]

/-- A correction touches the line tables, the fold's hold counter and the collector. -/
theorem Dev.fixLine_frame (d : Dev) (holds : Bool) (line : Nat) :
    d.fixLine holds line = { d with mem := (d.fixLine holds line).mem, phys := (d.fixLine holds line).phys, col := (d.fixLine holds line).col, safe := (d.fixLine holds line).safe } := by
  unfold Dev.fixLine
  split
  · rfl
  · dsimp only
    rw [Dev.corrected_frame]
    split
    · split <;> rfl
    · rfl

@[simp] theorem Dev.fixLine_false_phys (d : Dev) (line : Nat) : (d.fixLine false line).phys = d.phys := by
  unfold Dev.fixLine
  split
  · rfl
  · dsimp only
    split <;> simp

/-- Checking a line may correct it, and reports what it finds. -/
theorem Dev.checkLine_frame (d : Dev) (src : Nat) (holds : Bool) (line : Nat) :
    (d.checkLine src holds line).2 = { d with mem := ((d.checkLine src holds line).2).mem, phys := ((d.checkLine src holds line).2).phys, col := ((d.checkLine src holds line).2).col, safe := ((d.checkLine src holds line).2).safe } := by
  unfold Dev.checkLine
  dsimp only
  split
  · rw [Dev.fixLine_frame]
  · split
    · rw [Dev.fixLine_frame]
    · dsimp only
      rw [Dev.raise_frame, Dev.fixLine_frame]; rfl

/-- Reading a line may correct it, and reports what it finds. -/
theorem Dev.readLine_frame (d : Dev) (src : Nat) (holds : Bool) (line : Nat) :
    (d.readLine src holds line).2 = { d with mem := ((d.readLine src holds line).2).mem, phys := ((d.readLine src holds line).2).phys, col := ((d.readLine src holds line).2).col, safe := ((d.readLine src holds line).2).safe } := by
  unfold Dev.readLine
  dsimp only
  split
  · rw [Dev.transfer_frame]
  · split
    · dsimp only [Dev.modMem]
      rw [Dev.transfer_frame]
    · rw [Dev.checkLine_frame, Dev.transfer_frame]

@[simp] theorem Dev.readLine_gddr (d : Dev) (src : Nat) (holds : Bool) (line : Nat) : ((d.readLine src holds line).2).gddr = d.gddr := by rw [Dev.readLine_frame]
@[simp] theorem Dev.readLine_folds (d : Dev) (src : Nat) (holds : Bool) (line : Nat) : ((d.readLine src holds line).2).folds = d.folds := by rw [Dev.readLine_frame]
@[simp] theorem Dev.readLine_foldMap (d : Dev) (src : Nat) (holds : Bool) (line : Nat) : ((d.readLine src holds line).2).foldMap = d.foldMap := by rw [Dev.readLine_frame]
@[simp] theorem Dev.readLine_threads (d : Dev) (src : Nat) (holds : Bool) (line : Nat) : ((d.readLine src holds line).2).threads = d.threads := by rw [Dev.readLine_frame]
@[simp] theorem Dev.readLine_posted (d : Dev) (src : Nat) (holds : Bool) (line : Nat) : ((d.readLine src holds line).2).posted = d.posted := by rw [Dev.readLine_frame]
@[simp] theorem Dev.readLine_insts (d : Dev) (src : Nat) (holds : Bool) (line : Nat) : ((d.readLine src holds line).2).insts = d.insts := by rw [Dev.readLine_frame]
@[simp] theorem Dev.readLine_queues (d : Dev) (src : Nat) (holds : Bool) (line : Nat) : ((d.readLine src holds line).2).queues = d.queues := by rw [Dev.readLine_frame]
@[simp] theorem Dev.readLine_slots (d : Dev) (src : Nat) (holds : Bool) (line : Nat) : ((d.readLine src holds line).2).slots = d.slots := by rw [Dev.readLine_frame]
@[simp] theorem Dev.readLine_hurdles (d : Dev) (src : Nat) (holds : Bool) (line : Nat) : ((d.readLine src holds line).2).hurdles = d.hurdles := by rw [Dev.readLine_frame]
@[simp] theorem Dev.readLine_flights (d : Dev) (src : Nat) (holds : Bool) (line : Nat) : ((d.readLine src holds line).2).flights = d.flights := by rw [Dev.readLine_frame]
@[simp] theorem Dev.readLine_host (d : Dev) (src : Nat) (holds : Bool) (line : Nat) : ((d.readLine src holds line).2).host = d.host := by rw [Dev.readLine_frame]
@[simp] theorem Dev.readLine_mbox (d : Dev) (src : Nat) (holds : Bool) (line : Nat) : ((d.readLine src holds line).2).mbox = d.mbox := by rw [Dev.readLine_frame]
@[simp] theorem Dev.readLine_race (d : Dev) (src : Nat) (holds : Bool) (line : Nat) : ((d.readLine src holds line).2).race = d.race := by rw [Dev.readLine_frame]
@[simp] theorem Dev.readLine_fsets (d : Dev) (src : Nat) (holds : Bool) (line : Nat) : ((d.readLine src holds line).2).fsets = d.fsets := by rw [Dev.readLine_frame]
@[simp] theorem Dev.readLine_tu (d : Dev) (src : Nat) (holds : Bool) (line : Nat) : ((d.readLine src holds line).2).tu = d.tu := by rw [Dev.readLine_frame]
@[simp] theorem Dev.readLine_flock (d : Dev) (src : Nat) (holds : Bool) (line : Nat) : ((d.readLine src holds line).2).flock = d.flock := by rw [Dev.readLine_frame]
@[simp] theorem Dev.readLine_sec (d : Dev) (src : Nat) (holds : Bool) (line : Nat) : ((d.readLine src holds line).2).sec = d.sec := by rw [Dev.readLine_frame]
@[simp] theorem Dev.readLine_pow (d : Dev) (src : Nat) (holds : Bool) (line : Nat) : ((d.readLine src holds line).2).pow = d.pow := by rw [Dev.readLine_frame]
@[simp] theorem Dev.readLine_free (d : Dev) (src : Nat) (holds : Bool) (line : Nat) : ((d.readLine src holds line).2).free = d.free := by rw [Dev.readLine_frame]

/-- A read that does not hold a fold leaves the folds' counters alone. -/
@[simp] theorem Dev.readLine_false_phys (d : Dev) (src line : Nat) : (d.readLine src false line).2.phys = d.phys := by
  have h : ∀ x : Dev, (x.checkLine src false line).2.phys = x.phys := by
    intro x
    unfold Dev.checkLine
    dsimp only
    split
    · simp
    · split
      · simp
      · dsimp only [Dev.modMem]
        simp
  unfold Dev.readLine
  dsimp only
  split
  · simp
  · split
    · simp
    · rw [h]; simp

/-- Reading a range. -/
theorem Dev.readLines_frame (d : Dev) (src : Nat) (holds : Bool) (a n : Nat) :
    (d.readLines src holds a n).2 = { d with mem := ((d.readLines src holds a n).2).mem, phys := ((d.readLines src holds a n).2).phys, col := ((d.readLines src holds a n).2).col, safe := ((d.readLines src holds a n).2).safe } := by
  unfold Dev.readLines
  suffices h : ∀ (l : List Nat) (acc : Bool × Dev), (l.foldl (fun acc l =>
      let r := acc.2.readLine src holds l; (acc.1 || r.1, r.2)) acc).2 = { acc.2 with
        mem := (l.foldl (fun acc l => let r := acc.2.readLine src holds l; (acc.1 || r.1, r.2)) acc).2.mem
        phys := (l.foldl (fun acc l => let r := acc.2.readLine src holds l; (acc.1 || r.1, r.2)) acc).2.phys
        col := (l.foldl (fun acc l => let r := acc.2.readLine src holds l; (acc.1 || r.1, r.2)) acc).2.col
        safe := (l.foldl (fun acc l => let r := acc.2.readLine src holds l; (acc.1 || r.1, r.2)) acc).2.safe } from h _ _
  intro l
  induction l with
  | nil => intro acc; rfl
  | cons x l ih =>
    intro acc
    simp only [List.foldl_cons]
    rw [ih]
    simp

@[simp] theorem Dev.readLines_gddr (d : Dev) (src : Nat) (holds : Bool) (a n : Nat) : ((d.readLines src holds a n).2).gddr = d.gddr := by rw [Dev.readLines_frame]
@[simp] theorem Dev.readLines_folds (d : Dev) (src : Nat) (holds : Bool) (a n : Nat) : ((d.readLines src holds a n).2).folds = d.folds := by rw [Dev.readLines_frame]
@[simp] theorem Dev.readLines_foldMap (d : Dev) (src : Nat) (holds : Bool) (a n : Nat) : ((d.readLines src holds a n).2).foldMap = d.foldMap := by rw [Dev.readLines_frame]
@[simp] theorem Dev.readLines_threads (d : Dev) (src : Nat) (holds : Bool) (a n : Nat) : ((d.readLines src holds a n).2).threads = d.threads := by rw [Dev.readLines_frame]
@[simp] theorem Dev.readLines_posted (d : Dev) (src : Nat) (holds : Bool) (a n : Nat) : ((d.readLines src holds a n).2).posted = d.posted := by rw [Dev.readLines_frame]
@[simp] theorem Dev.readLines_insts (d : Dev) (src : Nat) (holds : Bool) (a n : Nat) : ((d.readLines src holds a n).2).insts = d.insts := by rw [Dev.readLines_frame]
@[simp] theorem Dev.readLines_queues (d : Dev) (src : Nat) (holds : Bool) (a n : Nat) : ((d.readLines src holds a n).2).queues = d.queues := by rw [Dev.readLines_frame]
@[simp] theorem Dev.readLines_slots (d : Dev) (src : Nat) (holds : Bool) (a n : Nat) : ((d.readLines src holds a n).2).slots = d.slots := by rw [Dev.readLines_frame]
@[simp] theorem Dev.readLines_hurdles (d : Dev) (src : Nat) (holds : Bool) (a n : Nat) : ((d.readLines src holds a n).2).hurdles = d.hurdles := by rw [Dev.readLines_frame]
@[simp] theorem Dev.readLines_flights (d : Dev) (src : Nat) (holds : Bool) (a n : Nat) : ((d.readLines src holds a n).2).flights = d.flights := by rw [Dev.readLines_frame]
@[simp] theorem Dev.readLines_host (d : Dev) (src : Nat) (holds : Bool) (a n : Nat) : ((d.readLines src holds a n).2).host = d.host := by rw [Dev.readLines_frame]
@[simp] theorem Dev.readLines_mbox (d : Dev) (src : Nat) (holds : Bool) (a n : Nat) : ((d.readLines src holds a n).2).mbox = d.mbox := by rw [Dev.readLines_frame]
@[simp] theorem Dev.readLines_race (d : Dev) (src : Nat) (holds : Bool) (a n : Nat) : ((d.readLines src holds a n).2).race = d.race := by rw [Dev.readLines_frame]
@[simp] theorem Dev.readLines_fsets (d : Dev) (src : Nat) (holds : Bool) (a n : Nat) : ((d.readLines src holds a n).2).fsets = d.fsets := by rw [Dev.readLines_frame]
@[simp] theorem Dev.readLines_tu (d : Dev) (src : Nat) (holds : Bool) (a n : Nat) : ((d.readLines src holds a n).2).tu = d.tu := by rw [Dev.readLines_frame]
@[simp] theorem Dev.readLines_flock (d : Dev) (src : Nat) (holds : Bool) (a n : Nat) : ((d.readLines src holds a n).2).flock = d.flock := by rw [Dev.readLines_frame]
@[simp] theorem Dev.readLines_sec (d : Dev) (src : Nat) (holds : Bool) (a n : Nat) : ((d.readLines src holds a n).2).sec = d.sec := by rw [Dev.readLines_frame]
@[simp] theorem Dev.readLines_pow (d : Dev) (src : Nat) (holds : Bool) (a n : Nat) : ((d.readLines src holds a n).2).pow = d.pow := by rw [Dev.readLines_frame]
@[simp] theorem Dev.readLines_free (d : Dev) (src : Nat) (holds : Bool) (a n : Nat) : ((d.readLines src holds a n).2).free = d.free := by rw [Dev.readLines_frame]

/-- A merge inside one line. -/
theorem Dev.mergePiece_frame (d : Dev) (a : Nat) (bs : List Byte) (p old : Bool) :
    d.mergePiece a bs p old = { d with mem := (d.mergePiece a bs p old).mem, col := (d.mergePiece a bs p old).col, safe := (d.mergePiece a bs p old).safe } := by
  unfold Dev.mergePiece
  dsimp only
  rw [Dev.poke_frame, Dev.freshLine_frame, Dev.transfer_frame]

@[simp] theorem Dev.mergePiece_gddr (d : Dev) (a : Nat) (bs : List Byte) (p old : Bool) : (d.mergePiece a bs p old).gddr = d.gddr := by rw [Dev.mergePiece_frame]
@[simp] theorem Dev.mergePiece_folds (d : Dev) (a : Nat) (bs : List Byte) (p old : Bool) : (d.mergePiece a bs p old).folds = d.folds := by rw [Dev.mergePiece_frame]
@[simp] theorem Dev.mergePiece_phys (d : Dev) (a : Nat) (bs : List Byte) (p old : Bool) : (d.mergePiece a bs p old).phys = d.phys := by rw [Dev.mergePiece_frame]
@[simp] theorem Dev.mergePiece_foldMap (d : Dev) (a : Nat) (bs : List Byte) (p old : Bool) : (d.mergePiece a bs p old).foldMap = d.foldMap := by rw [Dev.mergePiece_frame]
@[simp] theorem Dev.mergePiece_threads (d : Dev) (a : Nat) (bs : List Byte) (p old : Bool) : (d.mergePiece a bs p old).threads = d.threads := by rw [Dev.mergePiece_frame]
@[simp] theorem Dev.mergePiece_posted (d : Dev) (a : Nat) (bs : List Byte) (p old : Bool) : (d.mergePiece a bs p old).posted = d.posted := by rw [Dev.mergePiece_frame]
@[simp] theorem Dev.mergePiece_insts (d : Dev) (a : Nat) (bs : List Byte) (p old : Bool) : (d.mergePiece a bs p old).insts = d.insts := by rw [Dev.mergePiece_frame]
@[simp] theorem Dev.mergePiece_queues (d : Dev) (a : Nat) (bs : List Byte) (p old : Bool) : (d.mergePiece a bs p old).queues = d.queues := by rw [Dev.mergePiece_frame]
@[simp] theorem Dev.mergePiece_slots (d : Dev) (a : Nat) (bs : List Byte) (p old : Bool) : (d.mergePiece a bs p old).slots = d.slots := by rw [Dev.mergePiece_frame]
@[simp] theorem Dev.mergePiece_hurdles (d : Dev) (a : Nat) (bs : List Byte) (p old : Bool) : (d.mergePiece a bs p old).hurdles = d.hurdles := by rw [Dev.mergePiece_frame]
@[simp] theorem Dev.mergePiece_flights (d : Dev) (a : Nat) (bs : List Byte) (p old : Bool) : (d.mergePiece a bs p old).flights = d.flights := by rw [Dev.mergePiece_frame]
@[simp] theorem Dev.mergePiece_host (d : Dev) (a : Nat) (bs : List Byte) (p old : Bool) : (d.mergePiece a bs p old).host = d.host := by rw [Dev.mergePiece_frame]
@[simp] theorem Dev.mergePiece_mbox (d : Dev) (a : Nat) (bs : List Byte) (p old : Bool) : (d.mergePiece a bs p old).mbox = d.mbox := by rw [Dev.mergePiece_frame]
@[simp] theorem Dev.mergePiece_race (d : Dev) (a : Nat) (bs : List Byte) (p old : Bool) : (d.mergePiece a bs p old).race = d.race := by rw [Dev.mergePiece_frame]
@[simp] theorem Dev.mergePiece_fsets (d : Dev) (a : Nat) (bs : List Byte) (p old : Bool) : (d.mergePiece a bs p old).fsets = d.fsets := by rw [Dev.mergePiece_frame]
@[simp] theorem Dev.mergePiece_tu (d : Dev) (a : Nat) (bs : List Byte) (p old : Bool) : (d.mergePiece a bs p old).tu = d.tu := by rw [Dev.mergePiece_frame]
@[simp] theorem Dev.mergePiece_flock (d : Dev) (a : Nat) (bs : List Byte) (p old : Bool) : (d.mergePiece a bs p old).flock = d.flock := by rw [Dev.mergePiece_frame]
@[simp] theorem Dev.mergePiece_sec (d : Dev) (a : Nat) (bs : List Byte) (p old : Bool) : (d.mergePiece a bs p old).sec = d.sec := by rw [Dev.mergePiece_frame]
@[simp] theorem Dev.mergePiece_pow (d : Dev) (a : Nat) (bs : List Byte) (p old : Bool) : (d.mergePiece a bs p old).pow = d.pow := by rw [Dev.mergePiece_frame]
@[simp] theorem Dev.mergePiece_free (d : Dev) (a : Nat) (bs : List Byte) (p old : Bool) : (d.mergePiece a bs p old).free = d.free := by rw [Dev.mergePiece_frame]

/-- A write inside one line. -/
theorem Dev.writePiece_frame (d : Dev) (a : Nat) (bs : List Byte) (p : Bool) :
    d.writePiece a bs p = { d with mem := (d.writePiece a bs p).mem, col := (d.writePiece a bs p).col, safe := (d.writePiece a bs p).safe } := by
  unfold Dev.writePiece
  dsimp only
  split
  · rw [Dev.mergePiece_frame]
  · rw [Dev.mergePiece_frame, Dev.readLine_frame]
    simp

@[simp] theorem Dev.writePiece_gddr (d : Dev) (a : Nat) (bs : List Byte) (p : Bool) : (d.writePiece a bs p).gddr = d.gddr := by rw [Dev.writePiece_frame]
@[simp] theorem Dev.writePiece_folds (d : Dev) (a : Nat) (bs : List Byte) (p : Bool) : (d.writePiece a bs p).folds = d.folds := by rw [Dev.writePiece_frame]
@[simp] theorem Dev.writePiece_phys (d : Dev) (a : Nat) (bs : List Byte) (p : Bool) : (d.writePiece a bs p).phys = d.phys := by rw [Dev.writePiece_frame]
@[simp] theorem Dev.writePiece_foldMap (d : Dev) (a : Nat) (bs : List Byte) (p : Bool) : (d.writePiece a bs p).foldMap = d.foldMap := by rw [Dev.writePiece_frame]
@[simp] theorem Dev.writePiece_threads (d : Dev) (a : Nat) (bs : List Byte) (p : Bool) : (d.writePiece a bs p).threads = d.threads := by rw [Dev.writePiece_frame]
@[simp] theorem Dev.writePiece_posted (d : Dev) (a : Nat) (bs : List Byte) (p : Bool) : (d.writePiece a bs p).posted = d.posted := by rw [Dev.writePiece_frame]
@[simp] theorem Dev.writePiece_insts (d : Dev) (a : Nat) (bs : List Byte) (p : Bool) : (d.writePiece a bs p).insts = d.insts := by rw [Dev.writePiece_frame]
@[simp] theorem Dev.writePiece_queues (d : Dev) (a : Nat) (bs : List Byte) (p : Bool) : (d.writePiece a bs p).queues = d.queues := by rw [Dev.writePiece_frame]
@[simp] theorem Dev.writePiece_slots (d : Dev) (a : Nat) (bs : List Byte) (p : Bool) : (d.writePiece a bs p).slots = d.slots := by rw [Dev.writePiece_frame]
@[simp] theorem Dev.writePiece_hurdles (d : Dev) (a : Nat) (bs : List Byte) (p : Bool) : (d.writePiece a bs p).hurdles = d.hurdles := by rw [Dev.writePiece_frame]
@[simp] theorem Dev.writePiece_flights (d : Dev) (a : Nat) (bs : List Byte) (p : Bool) : (d.writePiece a bs p).flights = d.flights := by rw [Dev.writePiece_frame]
@[simp] theorem Dev.writePiece_host (d : Dev) (a : Nat) (bs : List Byte) (p : Bool) : (d.writePiece a bs p).host = d.host := by rw [Dev.writePiece_frame]
@[simp] theorem Dev.writePiece_mbox (d : Dev) (a : Nat) (bs : List Byte) (p : Bool) : (d.writePiece a bs p).mbox = d.mbox := by rw [Dev.writePiece_frame]
@[simp] theorem Dev.writePiece_race (d : Dev) (a : Nat) (bs : List Byte) (p : Bool) : (d.writePiece a bs p).race = d.race := by rw [Dev.writePiece_frame]
@[simp] theorem Dev.writePiece_fsets (d : Dev) (a : Nat) (bs : List Byte) (p : Bool) : (d.writePiece a bs p).fsets = d.fsets := by rw [Dev.writePiece_frame]
@[simp] theorem Dev.writePiece_tu (d : Dev) (a : Nat) (bs : List Byte) (p : Bool) : (d.writePiece a bs p).tu = d.tu := by rw [Dev.writePiece_frame]
@[simp] theorem Dev.writePiece_flock (d : Dev) (a : Nat) (bs : List Byte) (p : Bool) : (d.writePiece a bs p).flock = d.flock := by rw [Dev.writePiece_frame]
@[simp] theorem Dev.writePiece_sec (d : Dev) (a : Nat) (bs : List Byte) (p : Bool) : (d.writePiece a bs p).sec = d.sec := by rw [Dev.writePiece_frame]
@[simp] theorem Dev.writePiece_pow (d : Dev) (a : Nat) (bs : List Byte) (p : Bool) : (d.writePiece a bs p).pow = d.pow := by rw [Dev.writePiece_frame]
@[simp] theorem Dev.writePiece_free (d : Dev) (a : Nat) (bs : List Byte) (p : Bool) : (d.writePiece a bs p).free = d.free := by rw [Dev.writePiece_frame]

/-- A write of a run of bytes. -/
theorem Dev.write_frame (d : Dev) (a : Nat) (bs : List Byte) (p : Bool) :
    d.write a bs p = { d with mem := (d.write a bs p).mem, col := (d.write a bs p).col, safe := (d.write a bs p).safe } := by
  unfold Dev.write
  suffices h : ∀ (l : List (Nat × List Byte)) (d : Dev), l.foldl (fun d x => d.writePiece x.1 x.2 p) d = { d with
      mem := (l.foldl (fun d x => d.writePiece x.1 x.2 p) d).mem
      col := (l.foldl (fun d x => d.writePiece x.1 x.2 p) d).col
      safe := (l.foldl (fun d x => d.writePiece x.1 x.2 p) d).safe } from h _ _
  intro l
  induction l with
  | nil => intro d; rfl
  | cons x l ih =>
    intro d
    simp only [List.foldl_cons]
    rw [ih]
    simp

@[simp] theorem Dev.write_gddr (d : Dev) (a : Nat) (bs : List Byte) (p : Bool) : (d.write a bs p).gddr = d.gddr := by rw [Dev.write_frame]
@[simp] theorem Dev.write_folds (d : Dev) (a : Nat) (bs : List Byte) (p : Bool) : (d.write a bs p).folds = d.folds := by rw [Dev.write_frame]
@[simp] theorem Dev.write_phys (d : Dev) (a : Nat) (bs : List Byte) (p : Bool) : (d.write a bs p).phys = d.phys := by rw [Dev.write_frame]
@[simp] theorem Dev.write_foldMap (d : Dev) (a : Nat) (bs : List Byte) (p : Bool) : (d.write a bs p).foldMap = d.foldMap := by rw [Dev.write_frame]
@[simp] theorem Dev.write_threads (d : Dev) (a : Nat) (bs : List Byte) (p : Bool) : (d.write a bs p).threads = d.threads := by rw [Dev.write_frame]
@[simp] theorem Dev.write_posted (d : Dev) (a : Nat) (bs : List Byte) (p : Bool) : (d.write a bs p).posted = d.posted := by rw [Dev.write_frame]
@[simp] theorem Dev.write_insts (d : Dev) (a : Nat) (bs : List Byte) (p : Bool) : (d.write a bs p).insts = d.insts := by rw [Dev.write_frame]
@[simp] theorem Dev.write_queues (d : Dev) (a : Nat) (bs : List Byte) (p : Bool) : (d.write a bs p).queues = d.queues := by rw [Dev.write_frame]
@[simp] theorem Dev.write_slots (d : Dev) (a : Nat) (bs : List Byte) (p : Bool) : (d.write a bs p).slots = d.slots := by rw [Dev.write_frame]
@[simp] theorem Dev.write_hurdles (d : Dev) (a : Nat) (bs : List Byte) (p : Bool) : (d.write a bs p).hurdles = d.hurdles := by rw [Dev.write_frame]
@[simp] theorem Dev.write_flights (d : Dev) (a : Nat) (bs : List Byte) (p : Bool) : (d.write a bs p).flights = d.flights := by rw [Dev.write_frame]
@[simp] theorem Dev.write_host (d : Dev) (a : Nat) (bs : List Byte) (p : Bool) : (d.write a bs p).host = d.host := by rw [Dev.write_frame]
@[simp] theorem Dev.write_mbox (d : Dev) (a : Nat) (bs : List Byte) (p : Bool) : (d.write a bs p).mbox = d.mbox := by rw [Dev.write_frame]
@[simp] theorem Dev.write_race (d : Dev) (a : Nat) (bs : List Byte) (p : Bool) : (d.write a bs p).race = d.race := by rw [Dev.write_frame]
@[simp] theorem Dev.write_fsets (d : Dev) (a : Nat) (bs : List Byte) (p : Bool) : (d.write a bs p).fsets = d.fsets := by rw [Dev.write_frame]
@[simp] theorem Dev.write_tu (d : Dev) (a : Nat) (bs : List Byte) (p : Bool) : (d.write a bs p).tu = d.tu := by rw [Dev.write_frame]
@[simp] theorem Dev.write_flock (d : Dev) (a : Nat) (bs : List Byte) (p : Bool) : (d.write a bs p).flock = d.flock := by rw [Dev.write_frame]
@[simp] theorem Dev.write_sec (d : Dev) (a : Nat) (bs : List Byte) (p : Bool) : (d.write a bs p).sec = d.sec := by rw [Dev.write_frame]
@[simp] theorem Dev.write_pow (d : Dev) (a : Nat) (bs : List Byte) (p : Bool) : (d.write a bs p).pow = d.pow := by rw [Dev.write_frame]
@[simp] theorem Dev.write_free (d : Dev) (a : Nat) (bs : List Byte) (p : Bool) : (d.write a bs p).free = d.free := by rw [Dev.write_frame]

theorem Dev.modQueue_frame (d : Dev) (q : Nat) (f : MQueue → MQueue) :
    d.modQueue q f = { d with mbox := (d.modQueue q f).mbox } := by
  rfl

@[simp] theorem Dev.modQueue_mem (d : Dev) (q : Nat) (f : MQueue → MQueue) : (d.modQueue q f).mem = d.mem := by rw [Dev.modQueue_frame]
@[simp] theorem Dev.modQueue_gddr (d : Dev) (q : Nat) (f : MQueue → MQueue) : (d.modQueue q f).gddr = d.gddr := by rw [Dev.modQueue_frame]
@[simp] theorem Dev.modQueue_folds (d : Dev) (q : Nat) (f : MQueue → MQueue) : (d.modQueue q f).folds = d.folds := by rw [Dev.modQueue_frame]
@[simp] theorem Dev.modQueue_phys (d : Dev) (q : Nat) (f : MQueue → MQueue) : (d.modQueue q f).phys = d.phys := by rw [Dev.modQueue_frame]
@[simp] theorem Dev.modQueue_foldMap (d : Dev) (q : Nat) (f : MQueue → MQueue) : (d.modQueue q f).foldMap = d.foldMap := by rw [Dev.modQueue_frame]
@[simp] theorem Dev.modQueue_threads (d : Dev) (q : Nat) (f : MQueue → MQueue) : (d.modQueue q f).threads = d.threads := by rw [Dev.modQueue_frame]
@[simp] theorem Dev.modQueue_posted (d : Dev) (q : Nat) (f : MQueue → MQueue) : (d.modQueue q f).posted = d.posted := by rw [Dev.modQueue_frame]
@[simp] theorem Dev.modQueue_insts (d : Dev) (q : Nat) (f : MQueue → MQueue) : (d.modQueue q f).insts = d.insts := by rw [Dev.modQueue_frame]
@[simp] theorem Dev.modQueue_queues (d : Dev) (q : Nat) (f : MQueue → MQueue) : (d.modQueue q f).queues = d.queues := by rw [Dev.modQueue_frame]
@[simp] theorem Dev.modQueue_slots (d : Dev) (q : Nat) (f : MQueue → MQueue) : (d.modQueue q f).slots = d.slots := by rw [Dev.modQueue_frame]
@[simp] theorem Dev.modQueue_hurdles (d : Dev) (q : Nat) (f : MQueue → MQueue) : (d.modQueue q f).hurdles = d.hurdles := by rw [Dev.modQueue_frame]
@[simp] theorem Dev.modQueue_flights (d : Dev) (q : Nat) (f : MQueue → MQueue) : (d.modQueue q f).flights = d.flights := by rw [Dev.modQueue_frame]
@[simp] theorem Dev.modQueue_host (d : Dev) (q : Nat) (f : MQueue → MQueue) : (d.modQueue q f).host = d.host := by rw [Dev.modQueue_frame]
@[simp] theorem Dev.modQueue_race (d : Dev) (q : Nat) (f : MQueue → MQueue) : (d.modQueue q f).race = d.race := by rw [Dev.modQueue_frame]
@[simp] theorem Dev.modQueue_fsets (d : Dev) (q : Nat) (f : MQueue → MQueue) : (d.modQueue q f).fsets = d.fsets := by rw [Dev.modQueue_frame]
@[simp] theorem Dev.modQueue_tu (d : Dev) (q : Nat) (f : MQueue → MQueue) : (d.modQueue q f).tu = d.tu := by rw [Dev.modQueue_frame]
@[simp] theorem Dev.modQueue_flock (d : Dev) (q : Nat) (f : MQueue → MQueue) : (d.modQueue q f).flock = d.flock := by rw [Dev.modQueue_frame]
@[simp] theorem Dev.modQueue_col (d : Dev) (q : Nat) (f : MQueue → MQueue) : (d.modQueue q f).col = d.col := by rw [Dev.modQueue_frame]
@[simp] theorem Dev.modQueue_safe (d : Dev) (q : Nat) (f : MQueue → MQueue) : (d.modQueue q f).safe = d.safe := by rw [Dev.modQueue_frame]
@[simp] theorem Dev.modQueue_sec (d : Dev) (q : Nat) (f : MQueue → MQueue) : (d.modQueue q f).sec = d.sec := by rw [Dev.modQueue_frame]
@[simp] theorem Dev.modQueue_pow (d : Dev) (q : Nat) (f : MQueue → MQueue) : (d.modQueue q f).pow = d.pow := by rw [Dev.modQueue_frame]
@[simp] theorem Dev.modQueue_free (d : Dev) (q : Nat) (f : MQueue → MQueue) : (d.modQueue q f).free = d.free := by rw [Dev.modQueue_frame]

theorem Dev.sendIrq_frame (d : Dev) (e : Env) (q : Nat) :
    d.sendIrq e q = { d with mbox := (d.sendIrq e q).mbox, flock := (d.sendIrq e q).flock } := by
  unfold Dev.sendIrq
  split <;> rfl

@[simp] theorem Dev.sendIrq_mem (d : Dev) (e : Env) (q : Nat) : (d.sendIrq e q).mem = d.mem := by rw [Dev.sendIrq_frame]
@[simp] theorem Dev.sendIrq_gddr (d : Dev) (e : Env) (q : Nat) : (d.sendIrq e q).gddr = d.gddr := by rw [Dev.sendIrq_frame]
@[simp] theorem Dev.sendIrq_folds (d : Dev) (e : Env) (q : Nat) : (d.sendIrq e q).folds = d.folds := by rw [Dev.sendIrq_frame]
@[simp] theorem Dev.sendIrq_phys (d : Dev) (e : Env) (q : Nat) : (d.sendIrq e q).phys = d.phys := by rw [Dev.sendIrq_frame]
@[simp] theorem Dev.sendIrq_foldMap (d : Dev) (e : Env) (q : Nat) : (d.sendIrq e q).foldMap = d.foldMap := by rw [Dev.sendIrq_frame]
@[simp] theorem Dev.sendIrq_threads (d : Dev) (e : Env) (q : Nat) : (d.sendIrq e q).threads = d.threads := by rw [Dev.sendIrq_frame]
@[simp] theorem Dev.sendIrq_posted (d : Dev) (e : Env) (q : Nat) : (d.sendIrq e q).posted = d.posted := by rw [Dev.sendIrq_frame]
@[simp] theorem Dev.sendIrq_insts (d : Dev) (e : Env) (q : Nat) : (d.sendIrq e q).insts = d.insts := by rw [Dev.sendIrq_frame]
@[simp] theorem Dev.sendIrq_queues (d : Dev) (e : Env) (q : Nat) : (d.sendIrq e q).queues = d.queues := by rw [Dev.sendIrq_frame]
@[simp] theorem Dev.sendIrq_slots (d : Dev) (e : Env) (q : Nat) : (d.sendIrq e q).slots = d.slots := by rw [Dev.sendIrq_frame]
@[simp] theorem Dev.sendIrq_hurdles (d : Dev) (e : Env) (q : Nat) : (d.sendIrq e q).hurdles = d.hurdles := by rw [Dev.sendIrq_frame]
@[simp] theorem Dev.sendIrq_flights (d : Dev) (e : Env) (q : Nat) : (d.sendIrq e q).flights = d.flights := by rw [Dev.sendIrq_frame]
@[simp] theorem Dev.sendIrq_host (d : Dev) (e : Env) (q : Nat) : (d.sendIrq e q).host = d.host := by rw [Dev.sendIrq_frame]
@[simp] theorem Dev.sendIrq_race (d : Dev) (e : Env) (q : Nat) : (d.sendIrq e q).race = d.race := by rw [Dev.sendIrq_frame]
@[simp] theorem Dev.sendIrq_fsets (d : Dev) (e : Env) (q : Nat) : (d.sendIrq e q).fsets = d.fsets := by rw [Dev.sendIrq_frame]
@[simp] theorem Dev.sendIrq_tu (d : Dev) (e : Env) (q : Nat) : (d.sendIrq e q).tu = d.tu := by rw [Dev.sendIrq_frame]
@[simp] theorem Dev.sendIrq_col (d : Dev) (e : Env) (q : Nat) : (d.sendIrq e q).col = d.col := by rw [Dev.sendIrq_frame]
@[simp] theorem Dev.sendIrq_safe (d : Dev) (e : Env) (q : Nat) : (d.sendIrq e q).safe = d.safe := by rw [Dev.sendIrq_frame]
@[simp] theorem Dev.sendIrq_sec (d : Dev) (e : Env) (q : Nat) : (d.sendIrq e q).sec = d.sec := by rw [Dev.sendIrq_frame]
@[simp] theorem Dev.sendIrq_pow (d : Dev) (e : Env) (q : Nat) : (d.sendIrq e q).pow = d.pow := by rw [Dev.sendIrq_frame]
@[simp] theorem Dev.sendIrq_free (d : Dev) (e : Env) (q : Nat) : (d.sendIrq e q).free = d.free := by rw [Dev.sendIrq_frame]

theorem Dev.evalIrq_frame (d : Dev) (e : Env) (q : Nat) :
    d.evalIrq e q = { d with mbox := (d.evalIrq e q).mbox, flock := (d.evalIrq e q).flock } := by
  unfold Dev.evalIrq
  split
  · rfl
  · dsimp only
    split
    · rw [Dev.sendIrq_frame]; rfl
    · rfl

@[simp] theorem Dev.evalIrq_mem (d : Dev) (e : Env) (q : Nat) : (d.evalIrq e q).mem = d.mem := by rw [Dev.evalIrq_frame]
@[simp] theorem Dev.evalIrq_gddr (d : Dev) (e : Env) (q : Nat) : (d.evalIrq e q).gddr = d.gddr := by rw [Dev.evalIrq_frame]
@[simp] theorem Dev.evalIrq_folds (d : Dev) (e : Env) (q : Nat) : (d.evalIrq e q).folds = d.folds := by rw [Dev.evalIrq_frame]
@[simp] theorem Dev.evalIrq_phys (d : Dev) (e : Env) (q : Nat) : (d.evalIrq e q).phys = d.phys := by rw [Dev.evalIrq_frame]
@[simp] theorem Dev.evalIrq_foldMap (d : Dev) (e : Env) (q : Nat) : (d.evalIrq e q).foldMap = d.foldMap := by rw [Dev.evalIrq_frame]
@[simp] theorem Dev.evalIrq_threads (d : Dev) (e : Env) (q : Nat) : (d.evalIrq e q).threads = d.threads := by rw [Dev.evalIrq_frame]
@[simp] theorem Dev.evalIrq_posted (d : Dev) (e : Env) (q : Nat) : (d.evalIrq e q).posted = d.posted := by rw [Dev.evalIrq_frame]
@[simp] theorem Dev.evalIrq_insts (d : Dev) (e : Env) (q : Nat) : (d.evalIrq e q).insts = d.insts := by rw [Dev.evalIrq_frame]
@[simp] theorem Dev.evalIrq_queues (d : Dev) (e : Env) (q : Nat) : (d.evalIrq e q).queues = d.queues := by rw [Dev.evalIrq_frame]
@[simp] theorem Dev.evalIrq_slots (d : Dev) (e : Env) (q : Nat) : (d.evalIrq e q).slots = d.slots := by rw [Dev.evalIrq_frame]
@[simp] theorem Dev.evalIrq_hurdles (d : Dev) (e : Env) (q : Nat) : (d.evalIrq e q).hurdles = d.hurdles := by rw [Dev.evalIrq_frame]
@[simp] theorem Dev.evalIrq_flights (d : Dev) (e : Env) (q : Nat) : (d.evalIrq e q).flights = d.flights := by rw [Dev.evalIrq_frame]
@[simp] theorem Dev.evalIrq_host (d : Dev) (e : Env) (q : Nat) : (d.evalIrq e q).host = d.host := by rw [Dev.evalIrq_frame]
@[simp] theorem Dev.evalIrq_race (d : Dev) (e : Env) (q : Nat) : (d.evalIrq e q).race = d.race := by rw [Dev.evalIrq_frame]
@[simp] theorem Dev.evalIrq_fsets (d : Dev) (e : Env) (q : Nat) : (d.evalIrq e q).fsets = d.fsets := by rw [Dev.evalIrq_frame]
@[simp] theorem Dev.evalIrq_tu (d : Dev) (e : Env) (q : Nat) : (d.evalIrq e q).tu = d.tu := by rw [Dev.evalIrq_frame]
@[simp] theorem Dev.evalIrq_col (d : Dev) (e : Env) (q : Nat) : (d.evalIrq e q).col = d.col := by rw [Dev.evalIrq_frame]
@[simp] theorem Dev.evalIrq_safe (d : Dev) (e : Env) (q : Nat) : (d.evalIrq e q).safe = d.safe := by rw [Dev.evalIrq_frame]
@[simp] theorem Dev.evalIrq_sec (d : Dev) (e : Env) (q : Nat) : (d.evalIrq e q).sec = d.sec := by rw [Dev.evalIrq_frame]
@[simp] theorem Dev.evalIrq_pow (d : Dev) (e : Env) (q : Nat) : (d.evalIrq e q).pow = d.pow := by rw [Dev.evalIrq_frame]
@[simp] theorem Dev.evalIrq_free (d : Dev) (e : Env) (q : Nat) : (d.evalIrq e q).free = d.free := by rw [Dev.evalIrq_frame]

/-- Posting an entry writes the ring, and may send an interrupt message. -/
theorem Dev.post_frame (d : Dev) (e : Env) (q tag status opcode : Nat) (note : Bool) (r0 r1 r2 : Nat) (i u : Bool) :
    d.post e q tag status opcode note r0 r1 r2 i u = { d with mem := (d.post e q tag status opcode note r0 r1 r2 i u).mem, mbox := (d.post e q tag status opcode note r0 r1 r2 i u).mbox, flock := (d.post e q tag status opcode note r0 r1 r2 i u).flock, col := (d.post e q tag status opcode note r0 r1 r2 i u).col, safe := (d.post e q tag status opcode note r0 r1 r2 i u).safe } := by
  unfold Dev.post
  split
  · rfl
  · dsimp only
    rw [Dev.evalIrq_frame]
    simp

@[simp] theorem Dev.post_gddr (d : Dev) (e : Env) (q tag status opcode : Nat) (note : Bool) (r0 r1 r2 : Nat) (i u : Bool) : (d.post e q tag status opcode note r0 r1 r2 i u).gddr = d.gddr := by rw [Dev.post_frame]
@[simp] theorem Dev.post_folds (d : Dev) (e : Env) (q tag status opcode : Nat) (note : Bool) (r0 r1 r2 : Nat) (i u : Bool) : (d.post e q tag status opcode note r0 r1 r2 i u).folds = d.folds := by rw [Dev.post_frame]
@[simp] theorem Dev.post_phys (d : Dev) (e : Env) (q tag status opcode : Nat) (note : Bool) (r0 r1 r2 : Nat) (i u : Bool) : (d.post e q tag status opcode note r0 r1 r2 i u).phys = d.phys := by rw [Dev.post_frame]
@[simp] theorem Dev.post_foldMap (d : Dev) (e : Env) (q tag status opcode : Nat) (note : Bool) (r0 r1 r2 : Nat) (i u : Bool) : (d.post e q tag status opcode note r0 r1 r2 i u).foldMap = d.foldMap := by rw [Dev.post_frame]
@[simp] theorem Dev.post_threads (d : Dev) (e : Env) (q tag status opcode : Nat) (note : Bool) (r0 r1 r2 : Nat) (i u : Bool) : (d.post e q tag status opcode note r0 r1 r2 i u).threads = d.threads := by rw [Dev.post_frame]
@[simp] theorem Dev.post_posted (d : Dev) (e : Env) (q tag status opcode : Nat) (note : Bool) (r0 r1 r2 : Nat) (i u : Bool) : (d.post e q tag status opcode note r0 r1 r2 i u).posted = d.posted := by rw [Dev.post_frame]
@[simp] theorem Dev.post_insts (d : Dev) (e : Env) (q tag status opcode : Nat) (note : Bool) (r0 r1 r2 : Nat) (i u : Bool) : (d.post e q tag status opcode note r0 r1 r2 i u).insts = d.insts := by rw [Dev.post_frame]
@[simp] theorem Dev.post_queues (d : Dev) (e : Env) (q tag status opcode : Nat) (note : Bool) (r0 r1 r2 : Nat) (i u : Bool) : (d.post e q tag status opcode note r0 r1 r2 i u).queues = d.queues := by rw [Dev.post_frame]
@[simp] theorem Dev.post_slots (d : Dev) (e : Env) (q tag status opcode : Nat) (note : Bool) (r0 r1 r2 : Nat) (i u : Bool) : (d.post e q tag status opcode note r0 r1 r2 i u).slots = d.slots := by rw [Dev.post_frame]
@[simp] theorem Dev.post_hurdles (d : Dev) (e : Env) (q tag status opcode : Nat) (note : Bool) (r0 r1 r2 : Nat) (i u : Bool) : (d.post e q tag status opcode note r0 r1 r2 i u).hurdles = d.hurdles := by rw [Dev.post_frame]
@[simp] theorem Dev.post_flights (d : Dev) (e : Env) (q tag status opcode : Nat) (note : Bool) (r0 r1 r2 : Nat) (i u : Bool) : (d.post e q tag status opcode note r0 r1 r2 i u).flights = d.flights := by rw [Dev.post_frame]
@[simp] theorem Dev.post_host (d : Dev) (e : Env) (q tag status opcode : Nat) (note : Bool) (r0 r1 r2 : Nat) (i u : Bool) : (d.post e q tag status opcode note r0 r1 r2 i u).host = d.host := by rw [Dev.post_frame]
@[simp] theorem Dev.post_race (d : Dev) (e : Env) (q tag status opcode : Nat) (note : Bool) (r0 r1 r2 : Nat) (i u : Bool) : (d.post e q tag status opcode note r0 r1 r2 i u).race = d.race := by rw [Dev.post_frame]
@[simp] theorem Dev.post_fsets (d : Dev) (e : Env) (q tag status opcode : Nat) (note : Bool) (r0 r1 r2 : Nat) (i u : Bool) : (d.post e q tag status opcode note r0 r1 r2 i u).fsets = d.fsets := by rw [Dev.post_frame]
@[simp] theorem Dev.post_tu (d : Dev) (e : Env) (q tag status opcode : Nat) (note : Bool) (r0 r1 r2 : Nat) (i u : Bool) : (d.post e q tag status opcode note r0 r1 r2 i u).tu = d.tu := by rw [Dev.post_frame]
@[simp] theorem Dev.post_sec (d : Dev) (e : Env) (q tag status opcode : Nat) (note : Bool) (r0 r1 r2 : Nat) (i u : Bool) : (d.post e q tag status opcode note r0 r1 r2 i u).sec = d.sec := by rw [Dev.post_frame]
@[simp] theorem Dev.post_pow (d : Dev) (e : Env) (q tag status opcode : Nat) (note : Bool) (r0 r1 r2 : Nat) (i u : Bool) : (d.post e q tag status opcode note r0 r1 r2 i u).pow = d.pow := by rw [Dev.post_frame]
@[simp] theorem Dev.post_free (d : Dev) (e : Env) (q tag status opcode : Nat) (note : Bool) (r0 r1 r2 : Nat) (i u : Bool) : (d.post e q tag status opcode note r0 r1 r2 i u).free = d.free := by rw [Dev.post_frame]

/-- Completing a command changes the ring, the mailbox, and what a write of memory may report. -/
theorem Dev.complete_frame (d : Dev) (e : Env) (q opcode : Nat) (s : Sub) (r : Reply) :
    d.complete e q opcode s r = { d with mem := (d.complete e q opcode s r).mem, mbox := (d.complete e q opcode s r).mbox, flock := (d.complete e q opcode s r).flock, col := (d.complete e q opcode s r).col, safe := (d.complete e q opcode s r).safe } := by
  unfold Dev.complete
  split
  · rfl
  · split
    · rfl
    · rw [Dev.post_frame]

@[simp] theorem Dev.complete_gddr (d : Dev) (e : Env) (q opcode : Nat) (s : Sub) (r : Reply) : (d.complete e q opcode s r).gddr = d.gddr := by rw [Dev.complete_frame]
@[simp] theorem Dev.complete_folds (d : Dev) (e : Env) (q opcode : Nat) (s : Sub) (r : Reply) : (d.complete e q opcode s r).folds = d.folds := by rw [Dev.complete_frame]
@[simp] theorem Dev.complete_phys (d : Dev) (e : Env) (q opcode : Nat) (s : Sub) (r : Reply) : (d.complete e q opcode s r).phys = d.phys := by rw [Dev.complete_frame]
@[simp] theorem Dev.complete_foldMap (d : Dev) (e : Env) (q opcode : Nat) (s : Sub) (r : Reply) : (d.complete e q opcode s r).foldMap = d.foldMap := by rw [Dev.complete_frame]
@[simp] theorem Dev.complete_threads (d : Dev) (e : Env) (q opcode : Nat) (s : Sub) (r : Reply) : (d.complete e q opcode s r).threads = d.threads := by rw [Dev.complete_frame]
@[simp] theorem Dev.complete_posted (d : Dev) (e : Env) (q opcode : Nat) (s : Sub) (r : Reply) : (d.complete e q opcode s r).posted = d.posted := by rw [Dev.complete_frame]
@[simp] theorem Dev.complete_insts (d : Dev) (e : Env) (q opcode : Nat) (s : Sub) (r : Reply) : (d.complete e q opcode s r).insts = d.insts := by rw [Dev.complete_frame]
@[simp] theorem Dev.complete_queues (d : Dev) (e : Env) (q opcode : Nat) (s : Sub) (r : Reply) : (d.complete e q opcode s r).queues = d.queues := by rw [Dev.complete_frame]
@[simp] theorem Dev.complete_slots (d : Dev) (e : Env) (q opcode : Nat) (s : Sub) (r : Reply) : (d.complete e q opcode s r).slots = d.slots := by rw [Dev.complete_frame]
@[simp] theorem Dev.complete_hurdles (d : Dev) (e : Env) (q opcode : Nat) (s : Sub) (r : Reply) : (d.complete e q opcode s r).hurdles = d.hurdles := by rw [Dev.complete_frame]
@[simp] theorem Dev.complete_flights (d : Dev) (e : Env) (q opcode : Nat) (s : Sub) (r : Reply) : (d.complete e q opcode s r).flights = d.flights := by rw [Dev.complete_frame]
@[simp] theorem Dev.complete_host (d : Dev) (e : Env) (q opcode : Nat) (s : Sub) (r : Reply) : (d.complete e q opcode s r).host = d.host := by rw [Dev.complete_frame]
@[simp] theorem Dev.complete_race (d : Dev) (e : Env) (q opcode : Nat) (s : Sub) (r : Reply) : (d.complete e q opcode s r).race = d.race := by rw [Dev.complete_frame]
@[simp] theorem Dev.complete_fsets (d : Dev) (e : Env) (q opcode : Nat) (s : Sub) (r : Reply) : (d.complete e q opcode s r).fsets = d.fsets := by rw [Dev.complete_frame]
@[simp] theorem Dev.complete_tu (d : Dev) (e : Env) (q opcode : Nat) (s : Sub) (r : Reply) : (d.complete e q opcode s r).tu = d.tu := by rw [Dev.complete_frame]
@[simp] theorem Dev.complete_sec (d : Dev) (e : Env) (q opcode : Nat) (s : Sub) (r : Reply) : (d.complete e q opcode s r).sec = d.sec := by rw [Dev.complete_frame]
@[simp] theorem Dev.complete_pow (d : Dev) (e : Env) (q opcode : Nat) (s : Sub) (r : Reply) : (d.complete e q opcode s r).pow = d.pow := by rw [Dev.complete_frame]
@[simp] theorem Dev.complete_free (d : Dev) (e : Env) (q opcode : Nat) (s : Sub) (r : Reply) : (d.complete e q opcode s r).free = d.free := by rw [Dev.complete_frame]

theorem Dev.finish_frame (d : Dev) (e : Env) (o : Outst) (r : Reply) :
    d.finish e o r = { d with mem := (d.finish e o r).mem, mbox := (d.finish e o r).mbox, flock := (d.finish e o r).flock, col := (d.finish e o r).col, safe := (d.finish e o r).safe } := by
  unfold Dev.finish
  dsimp only
  rw [Dev.complete_frame]

@[simp] theorem Dev.finish_gddr (d : Dev) (e : Env) (o : Outst) (r : Reply) : (d.finish e o r).gddr = d.gddr := by rw [Dev.finish_frame]
@[simp] theorem Dev.finish_folds (d : Dev) (e : Env) (o : Outst) (r : Reply) : (d.finish e o r).folds = d.folds := by rw [Dev.finish_frame]
@[simp] theorem Dev.finish_phys (d : Dev) (e : Env) (o : Outst) (r : Reply) : (d.finish e o r).phys = d.phys := by rw [Dev.finish_frame]
@[simp] theorem Dev.finish_foldMap (d : Dev) (e : Env) (o : Outst) (r : Reply) : (d.finish e o r).foldMap = d.foldMap := by rw [Dev.finish_frame]
@[simp] theorem Dev.finish_threads (d : Dev) (e : Env) (o : Outst) (r : Reply) : (d.finish e o r).threads = d.threads := by rw [Dev.finish_frame]
@[simp] theorem Dev.finish_posted (d : Dev) (e : Env) (o : Outst) (r : Reply) : (d.finish e o r).posted = d.posted := by rw [Dev.finish_frame]
@[simp] theorem Dev.finish_insts (d : Dev) (e : Env) (o : Outst) (r : Reply) : (d.finish e o r).insts = d.insts := by rw [Dev.finish_frame]
@[simp] theorem Dev.finish_queues (d : Dev) (e : Env) (o : Outst) (r : Reply) : (d.finish e o r).queues = d.queues := by rw [Dev.finish_frame]
@[simp] theorem Dev.finish_slots (d : Dev) (e : Env) (o : Outst) (r : Reply) : (d.finish e o r).slots = d.slots := by rw [Dev.finish_frame]
@[simp] theorem Dev.finish_hurdles (d : Dev) (e : Env) (o : Outst) (r : Reply) : (d.finish e o r).hurdles = d.hurdles := by rw [Dev.finish_frame]
@[simp] theorem Dev.finish_flights (d : Dev) (e : Env) (o : Outst) (r : Reply) : (d.finish e o r).flights = d.flights := by rw [Dev.finish_frame]
@[simp] theorem Dev.finish_host (d : Dev) (e : Env) (o : Outst) (r : Reply) : (d.finish e o r).host = d.host := by rw [Dev.finish_frame]
@[simp] theorem Dev.finish_race (d : Dev) (e : Env) (o : Outst) (r : Reply) : (d.finish e o r).race = d.race := by rw [Dev.finish_frame]
@[simp] theorem Dev.finish_fsets (d : Dev) (e : Env) (o : Outst) (r : Reply) : (d.finish e o r).fsets = d.fsets := by rw [Dev.finish_frame]
@[simp] theorem Dev.finish_tu (d : Dev) (e : Env) (o : Outst) (r : Reply) : (d.finish e o r).tu = d.tu := by rw [Dev.finish_frame]
@[simp] theorem Dev.finish_sec (d : Dev) (e : Env) (o : Outst) (r : Reply) : (d.finish e o r).sec = d.sec := by rw [Dev.finish_frame]
@[simp] theorem Dev.finish_pow (d : Dev) (e : Env) (o : Outst) (r : Reply) : (d.finish e o r).pow = d.pow := by rw [Dev.finish_frame]
@[simp] theorem Dev.finish_free (d : Dev) (e : Env) (o : Outst) (r : Reply) : (d.finish e o r).free = d.free := by rw [Dev.finish_frame]

theorem Dev.finishAll_frame (d : Dev) (e : Env) (p : Outst → Bool) (r : Reply) :
    d.finishAll e p r = { d with mem := (d.finishAll e p r).mem, mbox := (d.finishAll e p r).mbox, flock := (d.finishAll e p r).flock, col := (d.finishAll e p r).col, safe := (d.finishAll e p r).safe } := by
  unfold Dev.finishAll
  suffices h : ∀ (l : List Outst) (d : Dev), l.foldl (fun d o => d.finish e o r) d = { d with
      mem := (l.foldl (fun d o => d.finish e o r) d).mem
      mbox := (l.foldl (fun d o => d.finish e o r) d).mbox
      flock := (l.foldl (fun d o => d.finish e o r) d).flock
      col := (l.foldl (fun d o => d.finish e o r) d).col
      safe := (l.foldl (fun d o => d.finish e o r) d).safe } from h _ _
  intro l
  induction l with
  | nil => intro d; rfl
  | cons x l ih =>
    intro d
    simp only [List.foldl_cons]
    rw [ih]
    simp

@[simp] theorem Dev.finishAll_gddr (d : Dev) (e : Env) (p : Outst → Bool) (r : Reply) : (d.finishAll e p r).gddr = d.gddr := by rw [Dev.finishAll_frame]
@[simp] theorem Dev.finishAll_folds (d : Dev) (e : Env) (p : Outst → Bool) (r : Reply) : (d.finishAll e p r).folds = d.folds := by rw [Dev.finishAll_frame]
@[simp] theorem Dev.finishAll_phys (d : Dev) (e : Env) (p : Outst → Bool) (r : Reply) : (d.finishAll e p r).phys = d.phys := by rw [Dev.finishAll_frame]
@[simp] theorem Dev.finishAll_foldMap (d : Dev) (e : Env) (p : Outst → Bool) (r : Reply) : (d.finishAll e p r).foldMap = d.foldMap := by rw [Dev.finishAll_frame]
@[simp] theorem Dev.finishAll_threads (d : Dev) (e : Env) (p : Outst → Bool) (r : Reply) : (d.finishAll e p r).threads = d.threads := by rw [Dev.finishAll_frame]
@[simp] theorem Dev.finishAll_posted (d : Dev) (e : Env) (p : Outst → Bool) (r : Reply) : (d.finishAll e p r).posted = d.posted := by rw [Dev.finishAll_frame]
@[simp] theorem Dev.finishAll_insts (d : Dev) (e : Env) (p : Outst → Bool) (r : Reply) : (d.finishAll e p r).insts = d.insts := by rw [Dev.finishAll_frame]
@[simp] theorem Dev.finishAll_queues (d : Dev) (e : Env) (p : Outst → Bool) (r : Reply) : (d.finishAll e p r).queues = d.queues := by rw [Dev.finishAll_frame]
@[simp] theorem Dev.finishAll_slots (d : Dev) (e : Env) (p : Outst → Bool) (r : Reply) : (d.finishAll e p r).slots = d.slots := by rw [Dev.finishAll_frame]
@[simp] theorem Dev.finishAll_hurdles (d : Dev) (e : Env) (p : Outst → Bool) (r : Reply) : (d.finishAll e p r).hurdles = d.hurdles := by rw [Dev.finishAll_frame]
@[simp] theorem Dev.finishAll_flights (d : Dev) (e : Env) (p : Outst → Bool) (r : Reply) : (d.finishAll e p r).flights = d.flights := by rw [Dev.finishAll_frame]
@[simp] theorem Dev.finishAll_host (d : Dev) (e : Env) (p : Outst → Bool) (r : Reply) : (d.finishAll e p r).host = d.host := by rw [Dev.finishAll_frame]
@[simp] theorem Dev.finishAll_race (d : Dev) (e : Env) (p : Outst → Bool) (r : Reply) : (d.finishAll e p r).race = d.race := by rw [Dev.finishAll_frame]
@[simp] theorem Dev.finishAll_fsets (d : Dev) (e : Env) (p : Outst → Bool) (r : Reply) : (d.finishAll e p r).fsets = d.fsets := by rw [Dev.finishAll_frame]
@[simp] theorem Dev.finishAll_tu (d : Dev) (e : Env) (p : Outst → Bool) (r : Reply) : (d.finishAll e p r).tu = d.tu := by rw [Dev.finishAll_frame]
@[simp] theorem Dev.finishAll_sec (d : Dev) (e : Env) (p : Outst → Bool) (r : Reply) : (d.finishAll e p r).sec = d.sec := by rw [Dev.finishAll_frame]
@[simp] theorem Dev.finishAll_pow (d : Dev) (e : Env) (p : Outst → Bool) (r : Reply) : (d.finishAll e p r).pow = d.pow := by rw [Dev.finishAll_frame]
@[simp] theorem Dev.finishAll_free (d : Dev) (e : Env) (p : Outst → Bool) (r : Reply) : (d.finishAll e p r).free = d.free := by rw [Dev.finishAll_frame]

theorem Dev.postNote_frame (d : Dev) (e : Env) (q kind r0 r1 r2 : Nat) (u : Bool) :
    d.postNote e q kind r0 r1 r2 u = { d with mem := (d.postNote e q kind r0 r1 r2 u).mem, mbox := (d.postNote e q kind r0 r1 r2 u).mbox, flock := (d.postNote e q kind r0 r1 r2 u).flock, col := (d.postNote e q kind r0 r1 r2 u).col, safe := (d.postNote e q kind r0 r1 r2 u).safe } := by
  unfold Dev.postNote
  split
  · rfl
  · rw [Dev.modQueue_frame, Dev.post_frame]

@[simp] theorem Dev.postNote_gddr (d : Dev) (e : Env) (q kind r0 r1 r2 : Nat) (u : Bool) : (d.postNote e q kind r0 r1 r2 u).gddr = d.gddr := by rw [Dev.postNote_frame]
@[simp] theorem Dev.postNote_folds (d : Dev) (e : Env) (q kind r0 r1 r2 : Nat) (u : Bool) : (d.postNote e q kind r0 r1 r2 u).folds = d.folds := by rw [Dev.postNote_frame]
@[simp] theorem Dev.postNote_phys (d : Dev) (e : Env) (q kind r0 r1 r2 : Nat) (u : Bool) : (d.postNote e q kind r0 r1 r2 u).phys = d.phys := by rw [Dev.postNote_frame]
@[simp] theorem Dev.postNote_foldMap (d : Dev) (e : Env) (q kind r0 r1 r2 : Nat) (u : Bool) : (d.postNote e q kind r0 r1 r2 u).foldMap = d.foldMap := by rw [Dev.postNote_frame]
@[simp] theorem Dev.postNote_threads (d : Dev) (e : Env) (q kind r0 r1 r2 : Nat) (u : Bool) : (d.postNote e q kind r0 r1 r2 u).threads = d.threads := by rw [Dev.postNote_frame]
@[simp] theorem Dev.postNote_posted (d : Dev) (e : Env) (q kind r0 r1 r2 : Nat) (u : Bool) : (d.postNote e q kind r0 r1 r2 u).posted = d.posted := by rw [Dev.postNote_frame]
@[simp] theorem Dev.postNote_insts (d : Dev) (e : Env) (q kind r0 r1 r2 : Nat) (u : Bool) : (d.postNote e q kind r0 r1 r2 u).insts = d.insts := by rw [Dev.postNote_frame]
@[simp] theorem Dev.postNote_queues (d : Dev) (e : Env) (q kind r0 r1 r2 : Nat) (u : Bool) : (d.postNote e q kind r0 r1 r2 u).queues = d.queues := by rw [Dev.postNote_frame]
@[simp] theorem Dev.postNote_slots (d : Dev) (e : Env) (q kind r0 r1 r2 : Nat) (u : Bool) : (d.postNote e q kind r0 r1 r2 u).slots = d.slots := by rw [Dev.postNote_frame]
@[simp] theorem Dev.postNote_hurdles (d : Dev) (e : Env) (q kind r0 r1 r2 : Nat) (u : Bool) : (d.postNote e q kind r0 r1 r2 u).hurdles = d.hurdles := by rw [Dev.postNote_frame]
@[simp] theorem Dev.postNote_flights (d : Dev) (e : Env) (q kind r0 r1 r2 : Nat) (u : Bool) : (d.postNote e q kind r0 r1 r2 u).flights = d.flights := by rw [Dev.postNote_frame]
@[simp] theorem Dev.postNote_host (d : Dev) (e : Env) (q kind r0 r1 r2 : Nat) (u : Bool) : (d.postNote e q kind r0 r1 r2 u).host = d.host := by rw [Dev.postNote_frame]
@[simp] theorem Dev.postNote_race (d : Dev) (e : Env) (q kind r0 r1 r2 : Nat) (u : Bool) : (d.postNote e q kind r0 r1 r2 u).race = d.race := by rw [Dev.postNote_frame]
@[simp] theorem Dev.postNote_fsets (d : Dev) (e : Env) (q kind r0 r1 r2 : Nat) (u : Bool) : (d.postNote e q kind r0 r1 r2 u).fsets = d.fsets := by rw [Dev.postNote_frame]
@[simp] theorem Dev.postNote_tu (d : Dev) (e : Env) (q kind r0 r1 r2 : Nat) (u : Bool) : (d.postNote e q kind r0 r1 r2 u).tu = d.tu := by rw [Dev.postNote_frame]
@[simp] theorem Dev.postNote_sec (d : Dev) (e : Env) (q kind r0 r1 r2 : Nat) (u : Bool) : (d.postNote e q kind r0 r1 r2 u).sec = d.sec := by rw [Dev.postNote_frame]
@[simp] theorem Dev.postNote_pow (d : Dev) (e : Env) (q kind r0 r1 r2 : Nat) (u : Bool) : (d.postNote e q kind r0 r1 r2 u).pow = d.pow := by rw [Dev.postNote_frame]
@[simp] theorem Dev.postNote_free (d : Dev) (e : Env) (q kind r0 r1 r2 : Nat) (u : Bool) : (d.postNote e q kind r0 r1 r2 u).free = d.free := by rw [Dev.postNote_frame]

theorem Dev.postLost_frame (d : Dev) (e : Env) (q : Nat) :
    d.postLost e q = { d with mem := (d.postLost e q).mem, mbox := (d.postLost e q).mbox, flock := (d.postLost e q).flock, col := (d.postLost e q).col, safe := (d.postLost e q).safe } := by
  unfold Dev.postLost
  split
  · rfl
  · split
    · rw [Dev.modQueue_frame, Dev.postNote_frame]
    · rfl

@[simp] theorem Dev.postLost_gddr (d : Dev) (e : Env) (q : Nat) : (d.postLost e q).gddr = d.gddr := by rw [Dev.postLost_frame]
@[simp] theorem Dev.postLost_folds (d : Dev) (e : Env) (q : Nat) : (d.postLost e q).folds = d.folds := by rw [Dev.postLost_frame]
@[simp] theorem Dev.postLost_phys (d : Dev) (e : Env) (q : Nat) : (d.postLost e q).phys = d.phys := by rw [Dev.postLost_frame]
@[simp] theorem Dev.postLost_foldMap (d : Dev) (e : Env) (q : Nat) : (d.postLost e q).foldMap = d.foldMap := by rw [Dev.postLost_frame]
@[simp] theorem Dev.postLost_threads (d : Dev) (e : Env) (q : Nat) : (d.postLost e q).threads = d.threads := by rw [Dev.postLost_frame]
@[simp] theorem Dev.postLost_posted (d : Dev) (e : Env) (q : Nat) : (d.postLost e q).posted = d.posted := by rw [Dev.postLost_frame]
@[simp] theorem Dev.postLost_insts (d : Dev) (e : Env) (q : Nat) : (d.postLost e q).insts = d.insts := by rw [Dev.postLost_frame]
@[simp] theorem Dev.postLost_queues (d : Dev) (e : Env) (q : Nat) : (d.postLost e q).queues = d.queues := by rw [Dev.postLost_frame]
@[simp] theorem Dev.postLost_slots (d : Dev) (e : Env) (q : Nat) : (d.postLost e q).slots = d.slots := by rw [Dev.postLost_frame]
@[simp] theorem Dev.postLost_hurdles (d : Dev) (e : Env) (q : Nat) : (d.postLost e q).hurdles = d.hurdles := by rw [Dev.postLost_frame]
@[simp] theorem Dev.postLost_flights (d : Dev) (e : Env) (q : Nat) : (d.postLost e q).flights = d.flights := by rw [Dev.postLost_frame]
@[simp] theorem Dev.postLost_host (d : Dev) (e : Env) (q : Nat) : (d.postLost e q).host = d.host := by rw [Dev.postLost_frame]
@[simp] theorem Dev.postLost_race (d : Dev) (e : Env) (q : Nat) : (d.postLost e q).race = d.race := by rw [Dev.postLost_frame]
@[simp] theorem Dev.postLost_fsets (d : Dev) (e : Env) (q : Nat) : (d.postLost e q).fsets = d.fsets := by rw [Dev.postLost_frame]
@[simp] theorem Dev.postLost_tu (d : Dev) (e : Env) (q : Nat) : (d.postLost e q).tu = d.tu := by rw [Dev.postLost_frame]
@[simp] theorem Dev.postLost_sec (d : Dev) (e : Env) (q : Nat) : (d.postLost e q).sec = d.sec := by rw [Dev.postLost_frame]
@[simp] theorem Dev.postLost_pow (d : Dev) (e : Env) (q : Nat) : (d.postLost e q).pow = d.pow := by rw [Dev.postLost_frame]
@[simp] theorem Dev.postLost_free (d : Dev) (e : Env) (q : Nat) : (d.postLost e q).free = d.free := by rw [Dev.postLost_frame]

theorem Dev.noteOn_frame (d : Dev) (e : Env) (q kind r0 r1 r2 : Nat) (u : Bool) :
    d.noteOn e q kind r0 r1 r2 u = { d with mem := (d.noteOn e q kind r0 r1 r2 u).mem, mbox := (d.noteOn e q kind r0 r1 r2 u).mbox, flock := (d.noteOn e q kind r0 r1 r2 u).flock, col := (d.noteOn e q kind r0 r1 r2 u).col, safe := (d.noteOn e q kind r0 r1 r2 u).safe } := by
  unfold Dev.noteOn
  dsimp only
  split
  · rfl
  · split
    · rfl
    · split
      · rw [Dev.postNote_frame, Dev.postLost_frame]
      · rw [Dev.modQueue_frame, Dev.postLost_frame]

@[simp] theorem Dev.noteOn_gddr (d : Dev) (e : Env) (q kind r0 r1 r2 : Nat) (u : Bool) : (d.noteOn e q kind r0 r1 r2 u).gddr = d.gddr := by rw [Dev.noteOn_frame]
@[simp] theorem Dev.noteOn_folds (d : Dev) (e : Env) (q kind r0 r1 r2 : Nat) (u : Bool) : (d.noteOn e q kind r0 r1 r2 u).folds = d.folds := by rw [Dev.noteOn_frame]
@[simp] theorem Dev.noteOn_phys (d : Dev) (e : Env) (q kind r0 r1 r2 : Nat) (u : Bool) : (d.noteOn e q kind r0 r1 r2 u).phys = d.phys := by rw [Dev.noteOn_frame]
@[simp] theorem Dev.noteOn_foldMap (d : Dev) (e : Env) (q kind r0 r1 r2 : Nat) (u : Bool) : (d.noteOn e q kind r0 r1 r2 u).foldMap = d.foldMap := by rw [Dev.noteOn_frame]
@[simp] theorem Dev.noteOn_threads (d : Dev) (e : Env) (q kind r0 r1 r2 : Nat) (u : Bool) : (d.noteOn e q kind r0 r1 r2 u).threads = d.threads := by rw [Dev.noteOn_frame]
@[simp] theorem Dev.noteOn_posted (d : Dev) (e : Env) (q kind r0 r1 r2 : Nat) (u : Bool) : (d.noteOn e q kind r0 r1 r2 u).posted = d.posted := by rw [Dev.noteOn_frame]
@[simp] theorem Dev.noteOn_insts (d : Dev) (e : Env) (q kind r0 r1 r2 : Nat) (u : Bool) : (d.noteOn e q kind r0 r1 r2 u).insts = d.insts := by rw [Dev.noteOn_frame]
@[simp] theorem Dev.noteOn_queues (d : Dev) (e : Env) (q kind r0 r1 r2 : Nat) (u : Bool) : (d.noteOn e q kind r0 r1 r2 u).queues = d.queues := by rw [Dev.noteOn_frame]
@[simp] theorem Dev.noteOn_slots (d : Dev) (e : Env) (q kind r0 r1 r2 : Nat) (u : Bool) : (d.noteOn e q kind r0 r1 r2 u).slots = d.slots := by rw [Dev.noteOn_frame]
@[simp] theorem Dev.noteOn_hurdles (d : Dev) (e : Env) (q kind r0 r1 r2 : Nat) (u : Bool) : (d.noteOn e q kind r0 r1 r2 u).hurdles = d.hurdles := by rw [Dev.noteOn_frame]
@[simp] theorem Dev.noteOn_flights (d : Dev) (e : Env) (q kind r0 r1 r2 : Nat) (u : Bool) : (d.noteOn e q kind r0 r1 r2 u).flights = d.flights := by rw [Dev.noteOn_frame]
@[simp] theorem Dev.noteOn_host (d : Dev) (e : Env) (q kind r0 r1 r2 : Nat) (u : Bool) : (d.noteOn e q kind r0 r1 r2 u).host = d.host := by rw [Dev.noteOn_frame]
@[simp] theorem Dev.noteOn_race (d : Dev) (e : Env) (q kind r0 r1 r2 : Nat) (u : Bool) : (d.noteOn e q kind r0 r1 r2 u).race = d.race := by rw [Dev.noteOn_frame]
@[simp] theorem Dev.noteOn_fsets (d : Dev) (e : Env) (q kind r0 r1 r2 : Nat) (u : Bool) : (d.noteOn e q kind r0 r1 r2 u).fsets = d.fsets := by rw [Dev.noteOn_frame]
@[simp] theorem Dev.noteOn_tu (d : Dev) (e : Env) (q kind r0 r1 r2 : Nat) (u : Bool) : (d.noteOn e q kind r0 r1 r2 u).tu = d.tu := by rw [Dev.noteOn_frame]
@[simp] theorem Dev.noteOn_sec (d : Dev) (e : Env) (q kind r0 r1 r2 : Nat) (u : Bool) : (d.noteOn e q kind r0 r1 r2 u).sec = d.sec := by rw [Dev.noteOn_frame]
@[simp] theorem Dev.noteOn_pow (d : Dev) (e : Env) (q kind r0 r1 r2 : Nat) (u : Bool) : (d.noteOn e q kind r0 r1 r2 u).pow = d.pow := by rw [Dev.noteOn_frame]
@[simp] theorem Dev.noteOn_free (d : Dev) (e : Env) (q kind r0 r1 r2 : Nat) (u : Bool) : (d.noteOn e q kind r0 r1 r2 u).free = d.free := by rw [Dev.noteOn_frame]

/-- A notification. -/
theorem Dev.notify_frame (d : Dev) (e : Env) (kind r0 r1 r2 : Nat) (u : Bool) :
    d.notify e kind r0 r1 r2 u = { d with mem := (d.notify e kind r0 r1 r2 u).mem, mbox := (d.notify e kind r0 r1 r2 u).mbox, flock := (d.notify e kind r0 r1 r2 u).flock, col := (d.notify e kind r0 r1 r2 u).col, safe := (d.notify e kind r0 r1 r2 u).safe } := by
  unfold Dev.notify
  split
  · rw [Dev.noteOn_frame]
  · unfold Dev.holdNote; split <;> rfl

@[simp] theorem Dev.notify_gddr (d : Dev) (e : Env) (kind r0 r1 r2 : Nat) (u : Bool) : (d.notify e kind r0 r1 r2 u).gddr = d.gddr := by rw [Dev.notify_frame]
@[simp] theorem Dev.notify_folds (d : Dev) (e : Env) (kind r0 r1 r2 : Nat) (u : Bool) : (d.notify e kind r0 r1 r2 u).folds = d.folds := by rw [Dev.notify_frame]
@[simp] theorem Dev.notify_phys (d : Dev) (e : Env) (kind r0 r1 r2 : Nat) (u : Bool) : (d.notify e kind r0 r1 r2 u).phys = d.phys := by rw [Dev.notify_frame]
@[simp] theorem Dev.notify_foldMap (d : Dev) (e : Env) (kind r0 r1 r2 : Nat) (u : Bool) : (d.notify e kind r0 r1 r2 u).foldMap = d.foldMap := by rw [Dev.notify_frame]
@[simp] theorem Dev.notify_threads (d : Dev) (e : Env) (kind r0 r1 r2 : Nat) (u : Bool) : (d.notify e kind r0 r1 r2 u).threads = d.threads := by rw [Dev.notify_frame]
@[simp] theorem Dev.notify_posted (d : Dev) (e : Env) (kind r0 r1 r2 : Nat) (u : Bool) : (d.notify e kind r0 r1 r2 u).posted = d.posted := by rw [Dev.notify_frame]
@[simp] theorem Dev.notify_insts (d : Dev) (e : Env) (kind r0 r1 r2 : Nat) (u : Bool) : (d.notify e kind r0 r1 r2 u).insts = d.insts := by rw [Dev.notify_frame]
@[simp] theorem Dev.notify_queues (d : Dev) (e : Env) (kind r0 r1 r2 : Nat) (u : Bool) : (d.notify e kind r0 r1 r2 u).queues = d.queues := by rw [Dev.notify_frame]
@[simp] theorem Dev.notify_slots (d : Dev) (e : Env) (kind r0 r1 r2 : Nat) (u : Bool) : (d.notify e kind r0 r1 r2 u).slots = d.slots := by rw [Dev.notify_frame]
@[simp] theorem Dev.notify_hurdles (d : Dev) (e : Env) (kind r0 r1 r2 : Nat) (u : Bool) : (d.notify e kind r0 r1 r2 u).hurdles = d.hurdles := by rw [Dev.notify_frame]
@[simp] theorem Dev.notify_flights (d : Dev) (e : Env) (kind r0 r1 r2 : Nat) (u : Bool) : (d.notify e kind r0 r1 r2 u).flights = d.flights := by rw [Dev.notify_frame]
@[simp] theorem Dev.notify_host (d : Dev) (e : Env) (kind r0 r1 r2 : Nat) (u : Bool) : (d.notify e kind r0 r1 r2 u).host = d.host := by rw [Dev.notify_frame]
@[simp] theorem Dev.notify_race (d : Dev) (e : Env) (kind r0 r1 r2 : Nat) (u : Bool) : (d.notify e kind r0 r1 r2 u).race = d.race := by rw [Dev.notify_frame]
@[simp] theorem Dev.notify_fsets (d : Dev) (e : Env) (kind r0 r1 r2 : Nat) (u : Bool) : (d.notify e kind r0 r1 r2 u).fsets = d.fsets := by rw [Dev.notify_frame]
@[simp] theorem Dev.notify_tu (d : Dev) (e : Env) (kind r0 r1 r2 : Nat) (u : Bool) : (d.notify e kind r0 r1 r2 u).tu = d.tu := by rw [Dev.notify_frame]
@[simp] theorem Dev.notify_sec (d : Dev) (e : Env) (kind r0 r1 r2 : Nat) (u : Bool) : (d.notify e kind r0 r1 r2 u).sec = d.sec := by rw [Dev.notify_frame]
@[simp] theorem Dev.notify_pow (d : Dev) (e : Env) (kind r0 r1 r2 : Nat) (u : Bool) : (d.notify e kind r0 r1 r2 u).pow = d.pow := by rw [Dev.notify_frame]
@[simp] theorem Dev.notify_free (d : Dev) (e : Env) (kind r0 r1 r2 : Nat) (u : Bool) : (d.notify e kind r0 r1 r2 u).free = d.free := by rw [Dev.notify_frame]

theorem Dev.noteState_frame (d : Dev) (e : Env) (kind : Nat) (st : FnState) (n m : Nat) :
    d.noteState e kind st n m = { d with mem := (d.noteState e kind st n m).mem, mbox := (d.noteState e kind st n m).mbox, flock := (d.noteState e kind st n m).flock, col := (d.noteState e kind st n m).col, safe := (d.noteState e kind st n m).safe } := by
  unfold Dev.noteState
  rw [Dev.notify_frame]

@[simp] theorem Dev.noteState_gddr (d : Dev) (e : Env) (kind : Nat) (st : FnState) (n m : Nat) : (d.noteState e kind st n m).gddr = d.gddr := by rw [Dev.noteState_frame]
@[simp] theorem Dev.noteState_folds (d : Dev) (e : Env) (kind : Nat) (st : FnState) (n m : Nat) : (d.noteState e kind st n m).folds = d.folds := by rw [Dev.noteState_frame]
@[simp] theorem Dev.noteState_phys (d : Dev) (e : Env) (kind : Nat) (st : FnState) (n m : Nat) : (d.noteState e kind st n m).phys = d.phys := by rw [Dev.noteState_frame]
@[simp] theorem Dev.noteState_foldMap (d : Dev) (e : Env) (kind : Nat) (st : FnState) (n m : Nat) : (d.noteState e kind st n m).foldMap = d.foldMap := by rw [Dev.noteState_frame]
@[simp] theorem Dev.noteState_threads (d : Dev) (e : Env) (kind : Nat) (st : FnState) (n m : Nat) : (d.noteState e kind st n m).threads = d.threads := by rw [Dev.noteState_frame]
@[simp] theorem Dev.noteState_posted (d : Dev) (e : Env) (kind : Nat) (st : FnState) (n m : Nat) : (d.noteState e kind st n m).posted = d.posted := by rw [Dev.noteState_frame]
@[simp] theorem Dev.noteState_insts (d : Dev) (e : Env) (kind : Nat) (st : FnState) (n m : Nat) : (d.noteState e kind st n m).insts = d.insts := by rw [Dev.noteState_frame]
@[simp] theorem Dev.noteState_queues (d : Dev) (e : Env) (kind : Nat) (st : FnState) (n m : Nat) : (d.noteState e kind st n m).queues = d.queues := by rw [Dev.noteState_frame]
@[simp] theorem Dev.noteState_slots (d : Dev) (e : Env) (kind : Nat) (st : FnState) (n m : Nat) : (d.noteState e kind st n m).slots = d.slots := by rw [Dev.noteState_frame]
@[simp] theorem Dev.noteState_hurdles (d : Dev) (e : Env) (kind : Nat) (st : FnState) (n m : Nat) : (d.noteState e kind st n m).hurdles = d.hurdles := by rw [Dev.noteState_frame]
@[simp] theorem Dev.noteState_flights (d : Dev) (e : Env) (kind : Nat) (st : FnState) (n m : Nat) : (d.noteState e kind st n m).flights = d.flights := by rw [Dev.noteState_frame]
@[simp] theorem Dev.noteState_host (d : Dev) (e : Env) (kind : Nat) (st : FnState) (n m : Nat) : (d.noteState e kind st n m).host = d.host := by rw [Dev.noteState_frame]
@[simp] theorem Dev.noteState_race (d : Dev) (e : Env) (kind : Nat) (st : FnState) (n m : Nat) : (d.noteState e kind st n m).race = d.race := by rw [Dev.noteState_frame]
@[simp] theorem Dev.noteState_fsets (d : Dev) (e : Env) (kind : Nat) (st : FnState) (n m : Nat) : (d.noteState e kind st n m).fsets = d.fsets := by rw [Dev.noteState_frame]
@[simp] theorem Dev.noteState_tu (d : Dev) (e : Env) (kind : Nat) (st : FnState) (n m : Nat) : (d.noteState e kind st n m).tu = d.tu := by rw [Dev.noteState_frame]
@[simp] theorem Dev.noteState_sec (d : Dev) (e : Env) (kind : Nat) (st : FnState) (n m : Nat) : (d.noteState e kind st n m).sec = d.sec := by rw [Dev.noteState_frame]
@[simp] theorem Dev.noteState_pow (d : Dev) (e : Env) (kind : Nat) (st : FnState) (n m : Nat) : (d.noteState e kind st n m).pow = d.pow := by rw [Dev.noteState_frame]
@[simp] theorem Dev.noteState_free (d : Dev) (e : Env) (kind : Nat) (st : FnState) (n m : Nat) : (d.noteState e kind st n m).free = d.free := by rw [Dev.noteState_frame]

end Sys2Proof.Machine
end

