-- ==== Sys2Proof/Laws/Memory.lean ====
section
/-! SUPPORT. Memory: what a byte reads as after each operation, and that every operation keeps the canonical form. -/

namespace Sys2Proof.Machine

open Sys2Proof

/-! ## Reading a byte -/

theorem mget_absent (m : List Host.Cell) (k : Nat) (h : ∀ c ∈ m, c.1 ≠ k) : mget m k = 0 := by
  induction m with
  | nil => rfl
  | cons x t ih =>
    obtain ⟨a, b⟩ := x
    have ha : a ≠ k := h (a, b) (by simp)
    simp only [mget, if_neg ha]
    exact ih fun c hc => h c (by simp [hc])

theorem mget_append_left (x y : List Host.Cell) (k : Nat) (h : ∀ c ∈ x, c.1 ≠ k) : mget (x ++ y) k = mget y k := by
  induction x with
  | nil => rfl
  | cons c t ih =>
    obtain ⟨a, b⟩ := c
    have ha : a ≠ k := h (a, b) (by simp)
    simp only [List.cons_append, mget, if_neg ha]
    exact ih fun c hc => h c (by simp [hc])

theorem mget_append_right (x y : List Host.Cell) (k : Nat) (h : ∀ c ∈ y, c.1 ≠ k) : mget (x ++ y) k = mget x k := by
  induction x with
  | nil => exact mget_absent y k h
  | cons c t ih =>
    obtain ⟨a, b⟩ := c
    simp only [List.cons_append, mget, ih]

/-- A filter on addresses keeps what it keeps and reads zero elsewhere. -/
theorem mget_filter (m : List Host.Cell) (p : Nat → Bool) (k : Nat) :
    mget (m.filter fun c => p c.1) k = if p k then mget m k else 0 := by
  induction m with
  | nil => simp [mget]
  | cons c t ih =>
    obtain ⟨a, b⟩ := c
    by_cases hp : p a = true
    · rw [List.filter_cons_of_pos (by simpa using hp)]
      by_cases ha : a = k
      · subst ha; simp [mget, hp]
      · simp only [mget, if_neg ha, ih]
    · rw [List.filter_cons_of_neg (by simpa using hp)]
      by_cases ha : a = k
      · subst ha; simp [hp, ih]
      · simp only [mget, if_neg ha, ih]

theorem cellsOf_mem (bs : List Byte) (a : Nat) : ∀ c ∈ cellsOf a bs, a ≤ c.1 ∧ c.1 < a + bs.length ∧ c.2 ≠ 0 := by
  induction bs generalizing a with
  | nil => simp [cellsOf]
  | cons b t ih =>
    intro c hc
    simp only [cellsOf] at hc
    split at hc
    · obtain ⟨h1, h2, h3⟩ := ih _ c hc
      exact ⟨by omega, by simp; omega, h3⟩
    · rename_i hb
      rcases List.mem_cons.1 hc with h | h
      · subst h; exact ⟨Nat.le_refl _, by simp, hb⟩
      · obtain ⟨h1, h2, h3⟩ := ih _ c h
        exact ⟨by omega, by simp; omega, h3⟩

/-- The cells of a run read as the run. -/
theorem mget_cellsOf (bs : List Byte) (a k : Nat) (h : k < bs.length) : mget (cellsOf a bs) (a + k) = bs.getD k 0 := by
  induction bs generalizing a k with
  | nil => simp at h
  | cons b t ih =>
    cases k with
    | zero =>
      simp only [cellsOf]
      split
      · rename_i hb
        rw [mget_absent]
        · simp [hb]
        · intro c hc
          have := cellsOf_mem t (a + 1) c hc
          omega
      · simp [mget]
    | succ k =>
      have hk : k < t.length := by simpa using h
      have e : a + (k + 1) = (a + 1) + k := by omega
      simp only [cellsOf]
      split
      · rw [e, ih _ _ hk]; simp
      · have : a ≠ a + (k + 1) := by omega
        simp only [mget, if_neg this]
        rw [e, ih _ _ hk]; simp

/-- A write is read back, and every other byte is as it was. -/
theorem mget_mput (m : List Host.Cell) (a : Nat) (bs : List Byte) (k : Nat) :
    mget (mput m a bs) k = if a ≤ k ∧ k < a + bs.length then bs.getD (k - a) 0 else mget m k := by
  unfold mput
  have low : mget (m.filter fun c => decide (c.1 < a)) k = if k < a then mget m k else 0 := by
    simpa using mget_filter m (fun x => decide (x < a)) k
  have high : mget (m.filter fun c => decide (a + bs.length ≤ c.1)) k = if a + bs.length ≤ k then mget m k else 0 := by
    simpa using mget_filter m (fun x => decide (a + bs.length ≤ x)) k
  by_cases h1 : k < a
  · rw [List.append_assoc, mget_append_right, low]
    · rw [if_pos h1, if_neg (by omega)]
    · intro c hc
      rcases List.mem_append.1 hc with h | h
      · have := cellsOf_mem bs a c h; omega
      · have := (List.mem_filter.1 h).2; simp at this; omega
  · rw [List.append_assoc, mget_append_left]
    · by_cases h2 : k < a + bs.length
      · rw [mget_append_right]
        · have := mget_cellsOf bs a (k - a) (by omega)
          rw [show a + (k - a) = k by omega] at this
          rw [this, if_pos ⟨by omega, h2⟩]
        · intro c hc
          have := (List.mem_filter.1 hc).2; simp at this; omega
      · rw [mget_append_left, high, if_pos (by omega), if_neg (by omega)]
        intro c hc
        have := cellsOf_mem bs a c hc; omega
    · intro c hc
      have := (List.mem_filter.1 hc).2; simp at this; omega

theorem mget_mclear (m : List Host.Cell) (a n k : Nat) :
    mget (mclear m a n) k = if a ≤ k ∧ k < a + n then 0 else mget m k := by
  have h := mget_filter m (fun x => decide (x < a) || decide (a + n ≤ x)) k
  have e : mclear m a n = m.filter fun c => decide (c.1 < a) || decide (a + n ≤ c.1) := rfl
  rw [e, h]
  by_cases h1 : k < a
  · rw [if_pos (by simp [h1]), if_neg (by omega)]
  · by_cases h2 : a + n ≤ k
    · rw [if_pos (by simp [h2]), if_neg (by omega)]
    · rw [if_neg (by simp [h1, h2]), if_pos (by omega)]

/-! ## The canonical form -/

theorem wf_iff (m : List Host.Cell) : Memory.wf m = true ↔ m.Pairwise (fun x y => x.1 < y.1) ∧ ∀ c ∈ m, c.2 ≠ 0 := by
  simp [Memory.wf]

theorem cellsOf_pairwise (bs : List Byte) (a : Nat) : (cellsOf a bs).Pairwise fun x y => x.1 < y.1 := by
  induction bs generalizing a with
  | nil => simp [cellsOf]
  | cons b t ih =>
    simp only [cellsOf]
    split
    · exact ih _
    · refine List.Pairwise.cons ?_ (ih _)
      intro c hc
      have := cellsOf_mem t (a + 1) c hc
      simp only
      omega

theorem wf_mput (m : List Host.Cell) (a : Nat) (bs : List Byte) (h : Memory.wf m = true) : Memory.wf (mput m a bs) = true := by
  rw [wf_iff] at h ⊢
  obtain ⟨hp, hz⟩ := h
  unfold mput
  refine ⟨?_, ?_⟩
  · rw [List.pairwise_append, List.pairwise_append]
    refine ⟨⟨hp.filter _, cellsOf_pairwise _ _, ?_⟩, hp.filter _, ?_⟩
    · intro x hx y hy
      have h1 := (List.mem_filter.1 hx).2
      have h2 := cellsOf_mem bs a y hy
      simp at h1; omega
    · intro x hx y hy
      have h2 := (List.mem_filter.1 hy).2
      simp at h2
      rcases List.mem_append.1 hx with h | h
      · have h1 := (List.mem_filter.1 h).2
        simp at h1; omega
      · have h1 := cellsOf_mem bs a x h
        omega
  · intro c hc
    rcases List.mem_append.1 hc with h | h
    · rcases List.mem_append.1 h with h | h
      · exact hz c (List.mem_filter.1 h).1
      · exact (cellsOf_mem bs a c h).2.2
    · exact hz c (List.mem_filter.1 h).1

theorem wf_filter (m : List Host.Cell) (p : Host.Cell → Bool) (h : Memory.wf m = true) : Memory.wf (m.filter p) = true := by
  rw [wf_iff] at h ⊢
  exact ⟨h.1.filter _, fun c hc => h.2 c (List.mem_filter.1 hc).1⟩

theorem wf_mclear (m : List Host.Cell) (a n : Nat) (h : Memory.wf m = true) : Memory.wf (mclear m a n) = true :=
  wf_filter m _ h

/-! ## The memory operations of the device -/

theorem Dev.memOk_poke (d : Dev) (a : Nat) (bs : List Byte) (h : d.memOk = true) : (d.poke a bs).memOk = true :=
  wf_mput _ _ _ h

/-- An operation that leaves the bytes alone keeps the form. -/
theorem Dev.memOk_of_bytes {d d' : Dev} (e : d'.mem.bytes = d.mem.bytes) (h : d.memOk = true) : d'.memOk = true := by
  unfold Dev.memOk at *
  rw [e]; exact h

theorem Dev.memOk_zeroRange (d : Dev) (a n : Nat) (h : d.memOk = true) : (d.zeroRange a n).memOk = true :=
  wf_mclear _ _ _ h

theorem Dev.freshLine_bytes (d : Dev) (l : Nat) (p : Bool) : (d.freshLine l p).mem.bytes = d.mem.bytes := by
  unfold Dev.freshLine Dev.setPoison Dev.modMem
  cases p <;> rfl

theorem Dev.transfer_bytes (d : Dev) (l : Nat) : (d.transfer l).2.mem.bytes = d.mem.bytes := by
  unfold Dev.transfer
  split
  · dsimp only
    repeat' (first | rfl | (rw [Dev.raise_mem]; rfl) | split)
  · rfl

theorem Dev.fixLine_bytes (d : Dev) (holds : Bool) (l : Nat) : (d.fixLine holds l).mem.bytes = d.mem.bytes := by
  unfold Dev.fixLine
  split
  · rfl
  · simp only [Dev.corrected, Dev.hold]
    repeat' (first | rfl | (rw [Dev.raise_mem]; rfl) | split)

theorem Dev.readLine_bytes (d : Dev) (src : Nat) (holds : Bool) (l : Nat) :
    (d.readLine src holds l).2.mem.bytes = d.mem.bytes := by
  have h : ∀ x : Dev, (x.checkLine src holds l).2.mem.bytes = x.mem.bytes := by
    intro x
    have f := Dev.fixLine_bytes x holds l
    unfold Dev.checkLine
    dsimp only
    split
    · exact f
    · split
      · exact f
      · rw [Dev.raise_mem]; exact f
  unfold Dev.readLine
  dsimp only
  split
  · exact Dev.transfer_bytes d l
  · split
    · exact Dev.transfer_bytes d l
    · rw [h]; exact Dev.transfer_bytes d l

/-- A line over an interface with no transfer about to fail. -/
theorem Dev.transfer_sound (d : Dev) (l : Nat) (h : d.mem.edc = []) : d.transfer l = (false, d) := by
  unfold Dev.transfer
  split
  · dsimp only
    rw [h]; rfl
  · rfl

theorem Dev.memOk_mergePiece (d : Dev) (a : Nat) (bs : List Byte) (p old : Bool) (h : d.memOk = true) :
    (d.mergePiece a bs p old).memOk = true :=
  Dev.memOk_poke _ _ _ (Dev.memOk_of_bytes ((Dev.freshLine_bytes _ _ _).trans (Dev.transfer_bytes _ _)) h)

theorem Dev.memOk_writePiece (d : Dev) (a : Nat) (bs : List Byte) (p : Bool) (h : d.memOk = true) :
    (d.writePiece a bs p).memOk = true := by
  unfold Dev.writePiece
  dsimp only
  split
  · exact Dev.memOk_mergePiece _ _ _ _ _ h
  · exact Dev.memOk_mergePiece _ _ _ _ _ (Dev.memOk_of_bytes (Dev.readLine_bytes _ _ _ _) h)

theorem Dev.memOk_write (d : Dev) (a : Nat) (bs : List Byte) (p : Bool) (h : d.memOk = true) :
    (d.write a bs p).memOk = true := by
  unfold Dev.write
  generalize linePieces (bs.length / 64 + 2) a bs = l
  induction l generalizing d with
  | nil => exact h
  | cons x t ih => exact ih _ (Dev.memOk_writePiece _ _ _ _ h)

theorem Dev.memOk_init (d : Dev) (a : Nat) (bs : List Byte) (h : d.memOk = true) : (d.init a bs).memOk = true := by
  unfold Dev.init
  have h' := Dev.memOk_poke d a bs h
  generalize linesOf a bs.length = l
  generalize d.poke a bs = x at h' ⊢
  induction l generalizing x with
  | nil => exact h'
  | cons y t ih => exact ih _ (Dev.memOk_of_bytes (Dev.freshLine_bytes _ _ _) h')

/-! ## Blocks -/

/-- The bytes just written are read back. -/
theorem Dev.raw_poke (d : Dev) (a : Nat) (bs : List Byte) : (d.poke a bs).raw a bs.length = bs := by
  apply List.ext_getElem
  · simp [Dev.raw, mread]
  · intro i h1 h2
    have e : (d.poke a bs).mem.bytes = mput d.mem.bytes a bs := rfl
    simp [Dev.raw, mread, e, mget_mput, h2]

/-- What `sound` says of the tables. -/
theorem Mem.sound_iff (m : Mem) : m.sound = true ↔
    m.poison = [] ∧ m.err = [] ∧ m.check = [] ∧ m.lost = [] ∧ m.edc = [] ∧ m.late = [] ∧ m.stuck = [] := by
  simp [Mem.sound, and_assoc]

/-- A line of sound memory needs no correction. -/
theorem Dev.lineFix_sound (d : Dev) (l : Nat) (h : d.mem.sound = true) : d.lineFix l = none := by
  obtain ⟨-, he, -, hl, -, -, hk⟩ := (Mem.sound_iff _).1 h
  simp [Dev.lineFix, Dev.isLost, he, hl, hk, tget]

/-- A line of sound memory reads clean. -/
theorem Dev.lineFault_sound (d : Dev) (l : Nat) (h : d.mem.sound = true) : d.lineFault l = none := by
  obtain ⟨-, he, hc, hl, -, -, -⟩ := (Mem.sound_iff _).1 h
  simp [Dev.lineFault, Dev.isLost, Dev.checkBad, he, hc, hl, tget]

/-- A run of sound lines is read with no fault. -/
theorem Dev.readLines_sound (d : Dev) (src : Nat) (holds : Bool) (a n : Nat) (hs : d.mem.sound = true) :
    d.readLines src holds a n = (false, d) := by
  unfold Dev.readLines
  have one : ∀ l, d.readLine src holds l = (false, d) := by
    intro l
    obtain ⟨hp, -, -, -, hx, ht, -⟩ := (Mem.sound_iff _).1 hs
    have h1 : d.isPoisoned l = false := by unfold Dev.isPoisoned; rw [hp]; rfl
    unfold Dev.readLine Dev.checkLine Dev.fixLine
    rw [Dev.transfer_sound d l hx]
    simp [ht, h1, Dev.lineFix_sound d l hs, Dev.lineFault_sound d l hs]
  generalize linesOf a n = l
  induction l with
  | nil => rfl
  | cons x t ih => simpa [List.foldl_cons, one] using ih

/-- A row that has lost its contents never passes as valid (R159). -/
theorem Row.zero_bad : Row.zero.bad = true := by decide

/-- A word with the check bits that were stored with it decodes. -/
theorem wordRead_stored (code : Nat → Nat) (bits v : Nat) (h : 0 < bits) :
    wordRead code bits v (storedCheck code bits v) = .good := by
  unfold wordRead
  have hz : ¬ (v = 0 ∧ storedCheck code bits v = 0) := by
    rintro ⟨rfl, h0⟩
    have : 2 ≤ 2 ^ bits := Nat.le_self_pow (by omega) 2
    simp [storedCheck] at h0
    omega
  rw [if_neg hz, if_pos rfl]

/-- A line as a row stores it decodes, whatever the code (R158, R159). -/
theorem Row.of_good (b : List Byte) (check : Nat) (p : Bool) : (Row.of b check p).bad = false := by
  simp [Row.bad, Row.of, wordRead_stored]

/-- A parameter block in sound lines whose CRC is right is delivered whole. -/
theorem Dev.block_sound (d : Dev) (e : Sub) (b : List Byte) (hs : d.mem.sound = true)
    (ho : e.field 0x34 4 % 64 = 0) (hl : 0x2000000 ≤ e.field 0x34 4) (hu : e.field 0x34 4 + b.length ≤ 0x4000000)
    (h4 : 4 ≤ b.length) (hm : b.length ≤ 2 ^ 24) (hn : e.field 0x38 4 = b.length)
    (hb : d.raw (commonBase + e.field 0x34 4) b.length = b) (hc : e.field 0x3C 4 = crc32c b) :
    d.block e = (stOk, b, d) := by
  unfold Dev.block
  dsimp only
  rw [if_neg (by omega), hn, hb, d.readLines_sound _ _ _ _ hs, hc]
  simp

theorem leNat_leBytes (n v : Nat) : leNat (leBytes n v) = v % 2 ^ (8 * n) := by
  induction n generalizing v with
  | zero => simp [leBytes, leNat, Nat.mod_one]
  | succ n ih =>
    simp only [leBytes, leNat, ih, BitVec.toNat_ofNat]
    rw [show 8 * (n + 1) = 8 + 8 * n by omega, Nat.pow_add, Nat.mod_mul]

/-- Memory after reset has the canonical form. -/
theorem reset_memOk : State.reset.dev.memOk = true := by decide

end Sys2Proof.Machine
end

