-- ==== Sys2Proof/Laws/Posting.lean ====
section
/-! SUPPORT. What posting an entry does to the mailbox: only the rings' indices and the count of interrupt messages change. -/

namespace Sys2Proof.Machine

open Sys2Proof

theorem Dev.sendIrq_mbox (d : Dev) (e : Env) (q : Nat) :
    (d.sendIrq e q).mbox = { d.mbox with queues := (d.sendIrq e q).mbox.queues, irqSeq := (d.sendIrq e q).mbox.irqSeq } := by
  unfold Dev.sendIrq
  split <;> rfl

theorem Dev.evalIrq_mbox (d : Dev) (e : Env) (q : Nat) :
    (d.evalIrq e q).mbox = { d.mbox with queues := (d.evalIrq e q).mbox.queues, irqSeq := (d.evalIrq e q).mbox.irqSeq } := by
  unfold Dev.evalIrq
  split
  · rfl
  · dsimp only
    split
    · rw [Dev.sendIrq_mbox]; rfl
    · rfl

theorem Dev.post_mbox (d : Dev) (e : Env) (q tag status opcode : Nat) (note : Bool) (r0 r1 r2 : Nat) (i u : Bool) :
    (d.post e q tag status opcode note r0 r1 r2 i u).mbox = { d.mbox with
      queues := (d.post e q tag status opcode note r0 r1 r2 i u).mbox.queues
      irqSeq := (d.post e q tag status opcode note r0 r1 r2 i u).mbox.irqSeq } := by
  unfold Dev.post
  split
  · rfl
  · dsimp only
    rw [Dev.evalIrq_mbox]
    simp [Dev.modQueue]

theorem Dev.complete_mbox (d : Dev) (e : Env) (q opcode : Nat) (s : Sub) (r : Reply) :
    (d.complete e q opcode s r).mbox = { d.mbox with
      queues := (d.complete e q opcode s r).mbox.queues, irqSeq := (d.complete e q opcode s r).mbox.irqSeq } := by
  unfold Dev.complete
  split
  · rfl
  · split
    · rfl
    · rw [Dev.post_mbox]

@[simp] theorem Dev.complete_outst (d : Dev) (e : Env) (q opcode : Nat) (s : Sub) (r : Reply) :
    (d.complete e q opcode s r).mbox.outst = d.mbox.outst := by rw [Dev.complete_mbox]
@[simp] theorem Dev.complete_marked (d : Dev) (e : Env) (q opcode : Nat) (s : Sub) (r : Reply) :
    (d.complete e q opcode s r).mbox.marked = d.mbox.marked := by rw [Dev.complete_mbox]
@[simp] theorem Dev.complete_hostSleep (d : Dev) (e : Env) (q opcode : Nat) (s : Sub) (r : Reply) :
    (d.complete e q opcode s r).mbox.hostSleep = d.mbox.hostSleep := by rw [Dev.complete_mbox]
@[simp] theorem Dev.complete_hostTimeoutMs (d : Dev) (e : Env) (q opcode : Nat) (s : Sub) (r : Reply) :
    (d.complete e q opcode s r).mbox.hostTimeoutMs = d.mbox.hostTimeoutMs := by rw [Dev.complete_mbox]
@[simp] theorem Dev.complete_ready (d : Dev) (e : Env) (q opcode : Nat) (s : Sub) (r : Reply) :
    (d.complete e q opcode s r).mbox.ready = d.mbox.ready := by rw [Dev.complete_mbox]

/-- Ending an outstanding command removes it from the commands in work. -/
theorem Dev.finish_outst (d : Dev) (e : Env) (o : Outst) (r : Reply) :
    (d.finish e o r).mbox.outst = d.mbox.outst.filter fun x => !(x.q == o.q && x.e.tag == o.e.tag) := by
  unfold Dev.finish
  simp

end Sys2Proof.Machine
end

