-- ==== Sys2Proof/Laws/Table.lean ====
section
/-! SUPPORT. Tables: what is read after a write, an erasure or a change. -/

namespace Sys2Proof.Machine

open Sys2Proof

/-- A table reads what was written at the key, and every other key as before. -/
theorem tget_tset {α : Type} (t : Tab α) (k j : Nat) (v : α) :
    tget (tset t k v) j = if j = k then some v else tget t j := by
  induction t with
  | nil =>
    by_cases h : j = k
    · simp [tset, tget, h]
    · simp [tset, tget, h, Ne.symm h]
  | cons x t ih =>
    obtain ⟨i, w⟩ := x
    rcases Nat.lt_trichotomy i k with h | h | h
    · by_cases hj : i = j
      · subst hj
        have : i ≠ k := by omega
        simp [tset, tget, h, this]
      · simp [tset, tget, h, hj, ih]
    · by_cases hj : j = k
      · simp [tset, tget, h, hj]
      · have : k ≠ j := by omega
        simp [tset, tget, h, hj, this]
    · have h1 : ¬ i < k := by omega
      have h2 : i ≠ k := by omega
      by_cases hj : j = k
      · simp [tset, tget, h1, h2, hj]
      · have : k ≠ j := by omega
        simp [tset, tget, h1, h2, hj, this]

@[simp] theorem tget_tset_same {α : Type} (t : Tab α) (k : Nat) (v : α) : tget (tset t k v) k = some v := by
  simp [tget_tset]

theorem tget_tset_other {α : Type} (t : Tab α) {k j : Nat} (v : α) (h : j ≠ k) : tget (tset t k v) j = tget t j := by
  simp [tget_tset, h]

/-- An erased key is gone; the others stay. -/
theorem tget_terase {α : Type} (t : Tab α) (k j : Nat) : tget (terase t k) j = if j = k then none else tget t j := by
  induction t with
  | nil => simp [terase, tget]
  | cons x t ih =>
    obtain ⟨i, w⟩ := x
    by_cases h : i = k
    · by_cases hj : j = k
      · subst hj
        simpa [terase, h] using ih
      · have : k ≠ j := by omega
        simp [terase, tget, h, hj, ih, this]
    · by_cases hj : i = j
      · have : j ≠ k := by omega
        simp [terase, tget, hj, this]
      · simp [terase, tget, h, hj, ih]

theorem tgetD_tset {α : Type} (t : Tab α) (k j : Nat) (v d : α) :
    tgetD (tset t k v) j d = if j = k then v else tgetD t j d := by
  unfold tgetD
  rw [tget_tset]
  split <;> rfl

/-- A change at a key gives the changed entry there, from the default where the table lists none. -/
theorem tgetD_tmod {α : Type} (t : Tab α) (k j : Nat) (d : α) (f : α → α) :
    tgetD (tmod t k d f) j d = if j = k then f (tgetD t k d) else tgetD t j d := by
  simp [tmod, tgetD_tset]

/-- A change of a listed entry; a table that lists none stays as it was. -/
theorem tget_tupd {α : Type} (t : Tab α) (k j : Nat) (f : α → α) :
    tget (tupd t k f) j = if j = k then (tget t k).map f else tget t j := by
  unfold tupd
  split <;> rename_i h
  · rw [tget_tset]
    split <;> simp_all
  · split <;> simp_all

end Sys2Proof.Machine
end

