-- ==== Sys2Proof/Laws/State.lean ====
section
/-! SUPPORT. The accessors of the state: what a change of one unit leaves of every other part, and what its own reader gives
after it. -/

namespace Sys2Proof.Machine

open Sys2Proof

@[simp] theorem Dev.modFold_mem (d : Dev) (n : Nat) (f : Fold → Fold) : (d.modFold n f).mem = d.mem := rfl
@[simp] theorem Dev.modFold_gddr (d : Dev) (n : Nat) (f : Fold → Fold) : (d.modFold n f).gddr = d.gddr := rfl
@[simp] theorem Dev.modFold_phys (d : Dev) (n : Nat) (f : Fold → Fold) : (d.modFold n f).phys = d.phys := rfl
@[simp] theorem Dev.modFold_foldMap (d : Dev) (n : Nat) (f : Fold → Fold) : (d.modFold n f).foldMap = d.foldMap := rfl
@[simp] theorem Dev.modFold_threads (d : Dev) (n : Nat) (f : Fold → Fold) : (d.modFold n f).threads = d.threads := rfl
@[simp] theorem Dev.modFold_posted (d : Dev) (n : Nat) (f : Fold → Fold) : (d.modFold n f).posted = d.posted := rfl
@[simp] theorem Dev.modFold_insts (d : Dev) (n : Nat) (f : Fold → Fold) : (d.modFold n f).insts = d.insts := rfl
@[simp] theorem Dev.modFold_queues (d : Dev) (n : Nat) (f : Fold → Fold) : (d.modFold n f).queues = d.queues := rfl
@[simp] theorem Dev.modFold_slots (d : Dev) (n : Nat) (f : Fold → Fold) : (d.modFold n f).slots = d.slots := rfl
@[simp] theorem Dev.modFold_hurdles (d : Dev) (n : Nat) (f : Fold → Fold) : (d.modFold n f).hurdles = d.hurdles := rfl
@[simp] theorem Dev.modFold_flights (d : Dev) (n : Nat) (f : Fold → Fold) : (d.modFold n f).flights = d.flights := rfl
@[simp] theorem Dev.modFold_host (d : Dev) (n : Nat) (f : Fold → Fold) : (d.modFold n f).host = d.host := rfl
@[simp] theorem Dev.modFold_mbox (d : Dev) (n : Nat) (f : Fold → Fold) : (d.modFold n f).mbox = d.mbox := rfl
@[simp] theorem Dev.modFold_race (d : Dev) (n : Nat) (f : Fold → Fold) : (d.modFold n f).race = d.race := rfl
@[simp] theorem Dev.modFold_fsets (d : Dev) (n : Nat) (f : Fold → Fold) : (d.modFold n f).fsets = d.fsets := rfl
@[simp] theorem Dev.modFold_tu (d : Dev) (n : Nat) (f : Fold → Fold) : (d.modFold n f).tu = d.tu := rfl
@[simp] theorem Dev.modFold_flock (d : Dev) (n : Nat) (f : Fold → Fold) : (d.modFold n f).flock = d.flock := rfl
@[simp] theorem Dev.modFold_col (d : Dev) (n : Nat) (f : Fold → Fold) : (d.modFold n f).col = d.col := rfl
@[simp] theorem Dev.modFold_safe (d : Dev) (n : Nat) (f : Fold → Fold) : (d.modFold n f).safe = d.safe := rfl
@[simp] theorem Dev.modFold_sec (d : Dev) (n : Nat) (f : Fold → Fold) : (d.modFold n f).sec = d.sec := rfl
@[simp] theorem Dev.modFold_pow (d : Dev) (n : Nat) (f : Fold → Fold) : (d.modFold n f).pow = d.pow := rfl
@[simp] theorem Dev.modFold_free (d : Dev) (n : Nat) (f : Fold → Fold) : (d.modFold n f).free = d.free := rfl
theorem Dev.fold_modFold (d : Dev) (n : Nat) (f : Fold → Fold) (j : Nat) :
    (d.modFold n f).fold j = if j = n then f (d.fold n) else d.fold j := by
  simp only [Dev.fold, Dev.modFold]
  exact tgetD_tmod _ _ _ _ _

theorem Dev.physFold_modPhys (d : Dev) (p : Nat) (f : PhysFold → PhysFold) (j : Nat) :
    (d.modPhys p f).physFold j = if j = p then f (d.physFold p) else d.physFold j := by
  simp only [Dev.physFold, Dev.modPhys]
  exact tgetD_tmod _ _ _ _ _

@[simp] theorem Dev.modThread_mem (d : Dev) (t : Nat) (f : Thread → Thread) : (d.modThread t f).mem = d.mem := rfl
@[simp] theorem Dev.modThread_gddr (d : Dev) (t : Nat) (f : Thread → Thread) : (d.modThread t f).gddr = d.gddr := rfl
@[simp] theorem Dev.modThread_folds (d : Dev) (t : Nat) (f : Thread → Thread) : (d.modThread t f).folds = d.folds := rfl
@[simp] theorem Dev.modThread_phys (d : Dev) (t : Nat) (f : Thread → Thread) : (d.modThread t f).phys = d.phys := rfl
@[simp] theorem Dev.modThread_foldMap (d : Dev) (t : Nat) (f : Thread → Thread) : (d.modThread t f).foldMap = d.foldMap := rfl
@[simp] theorem Dev.modThread_posted (d : Dev) (t : Nat) (f : Thread → Thread) : (d.modThread t f).posted = d.posted := rfl
@[simp] theorem Dev.modThread_insts (d : Dev) (t : Nat) (f : Thread → Thread) : (d.modThread t f).insts = d.insts := rfl
@[simp] theorem Dev.modThread_queues (d : Dev) (t : Nat) (f : Thread → Thread) : (d.modThread t f).queues = d.queues := rfl
@[simp] theorem Dev.modThread_slots (d : Dev) (t : Nat) (f : Thread → Thread) : (d.modThread t f).slots = d.slots := rfl
@[simp] theorem Dev.modThread_hurdles (d : Dev) (t : Nat) (f : Thread → Thread) : (d.modThread t f).hurdles = d.hurdles := rfl
@[simp] theorem Dev.modThread_flights (d : Dev) (t : Nat) (f : Thread → Thread) : (d.modThread t f).flights = d.flights := rfl
@[simp] theorem Dev.modThread_host (d : Dev) (t : Nat) (f : Thread → Thread) : (d.modThread t f).host = d.host := rfl
@[simp] theorem Dev.modThread_mbox (d : Dev) (t : Nat) (f : Thread → Thread) : (d.modThread t f).mbox = d.mbox := rfl
@[simp] theorem Dev.modThread_race (d : Dev) (t : Nat) (f : Thread → Thread) : (d.modThread t f).race = d.race := rfl
@[simp] theorem Dev.modThread_fsets (d : Dev) (t : Nat) (f : Thread → Thread) : (d.modThread t f).fsets = d.fsets := rfl
@[simp] theorem Dev.modThread_tu (d : Dev) (t : Nat) (f : Thread → Thread) : (d.modThread t f).tu = d.tu := rfl
@[simp] theorem Dev.modThread_flock (d : Dev) (t : Nat) (f : Thread → Thread) : (d.modThread t f).flock = d.flock := rfl
@[simp] theorem Dev.modThread_col (d : Dev) (t : Nat) (f : Thread → Thread) : (d.modThread t f).col = d.col := rfl
@[simp] theorem Dev.modThread_safe (d : Dev) (t : Nat) (f : Thread → Thread) : (d.modThread t f).safe = d.safe := rfl
@[simp] theorem Dev.modThread_sec (d : Dev) (t : Nat) (f : Thread → Thread) : (d.modThread t f).sec = d.sec := rfl
@[simp] theorem Dev.modThread_pow (d : Dev) (t : Nat) (f : Thread → Thread) : (d.modThread t f).pow = d.pow := rfl
@[simp] theorem Dev.modThread_free (d : Dev) (t : Nat) (f : Thread → Thread) : (d.modThread t f).free = d.free := rfl
theorem Dev.thread_modThread (d : Dev) (t : Nat) (f : Thread → Thread) (j : Nat) :
    (d.modThread t f).thread j = if j = t then f (d.thread t) else d.thread j := by
  simp only [Dev.thread, Dev.modThread]
  exact tgetD_tmod _ _ _ _ _

@[simp] theorem Dev.modInst_mem (d : Dev) (k : Nat) (f : Inst → Inst) : (d.modInst k f).mem = d.mem := rfl
@[simp] theorem Dev.modInst_gddr (d : Dev) (k : Nat) (f : Inst → Inst) : (d.modInst k f).gddr = d.gddr := rfl
@[simp] theorem Dev.modInst_folds (d : Dev) (k : Nat) (f : Inst → Inst) : (d.modInst k f).folds = d.folds := rfl
@[simp] theorem Dev.modInst_phys (d : Dev) (k : Nat) (f : Inst → Inst) : (d.modInst k f).phys = d.phys := rfl
@[simp] theorem Dev.modInst_foldMap (d : Dev) (k : Nat) (f : Inst → Inst) : (d.modInst k f).foldMap = d.foldMap := rfl
@[simp] theorem Dev.modInst_threads (d : Dev) (k : Nat) (f : Inst → Inst) : (d.modInst k f).threads = d.threads := rfl
@[simp] theorem Dev.modInst_posted (d : Dev) (k : Nat) (f : Inst → Inst) : (d.modInst k f).posted = d.posted := rfl
@[simp] theorem Dev.modInst_queues (d : Dev) (k : Nat) (f : Inst → Inst) : (d.modInst k f).queues = d.queues := rfl
@[simp] theorem Dev.modInst_slots (d : Dev) (k : Nat) (f : Inst → Inst) : (d.modInst k f).slots = d.slots := rfl
@[simp] theorem Dev.modInst_hurdles (d : Dev) (k : Nat) (f : Inst → Inst) : (d.modInst k f).hurdles = d.hurdles := rfl
@[simp] theorem Dev.modInst_flights (d : Dev) (k : Nat) (f : Inst → Inst) : (d.modInst k f).flights = d.flights := rfl
@[simp] theorem Dev.modInst_host (d : Dev) (k : Nat) (f : Inst → Inst) : (d.modInst k f).host = d.host := rfl
@[simp] theorem Dev.modInst_mbox (d : Dev) (k : Nat) (f : Inst → Inst) : (d.modInst k f).mbox = d.mbox := rfl
@[simp] theorem Dev.modInst_race (d : Dev) (k : Nat) (f : Inst → Inst) : (d.modInst k f).race = d.race := rfl
@[simp] theorem Dev.modInst_fsets (d : Dev) (k : Nat) (f : Inst → Inst) : (d.modInst k f).fsets = d.fsets := rfl
@[simp] theorem Dev.modInst_tu (d : Dev) (k : Nat) (f : Inst → Inst) : (d.modInst k f).tu = d.tu := rfl
@[simp] theorem Dev.modInst_flock (d : Dev) (k : Nat) (f : Inst → Inst) : (d.modInst k f).flock = d.flock := rfl
@[simp] theorem Dev.modInst_col (d : Dev) (k : Nat) (f : Inst → Inst) : (d.modInst k f).col = d.col := rfl
@[simp] theorem Dev.modInst_safe (d : Dev) (k : Nat) (f : Inst → Inst) : (d.modInst k f).safe = d.safe := rfl
@[simp] theorem Dev.modInst_sec (d : Dev) (k : Nat) (f : Inst → Inst) : (d.modInst k f).sec = d.sec := rfl
@[simp] theorem Dev.modInst_pow (d : Dev) (k : Nat) (f : Inst → Inst) : (d.modInst k f).pow = d.pow := rfl
@[simp] theorem Dev.modInst_free (d : Dev) (k : Nat) (f : Inst → Inst) : (d.modInst k f).free = d.free := rfl
theorem Dev.inst_modInst (d : Dev) (k : Nat) (f : Inst → Inst) (j : Nat) :
    (d.modInst k f).inst j = if j = k then f (d.inst k) else d.inst j := by
  simp only [Dev.inst, Dev.modInst]
  exact tgetD_tmod _ _ _ _ _

@[simp] theorem Dev.modGate_mem (d : Dev) (g : Nat) (f : Gate → Gate) : (d.modGate g f).mem = d.mem := rfl
@[simp] theorem Dev.modGate_gddr (d : Dev) (g : Nat) (f : Gate → Gate) : (d.modGate g f).gddr = d.gddr := rfl
@[simp] theorem Dev.modGate_folds (d : Dev) (g : Nat) (f : Gate → Gate) : (d.modGate g f).folds = d.folds := rfl
@[simp] theorem Dev.modGate_phys (d : Dev) (g : Nat) (f : Gate → Gate) : (d.modGate g f).phys = d.phys := rfl
@[simp] theorem Dev.modGate_foldMap (d : Dev) (g : Nat) (f : Gate → Gate) : (d.modGate g f).foldMap = d.foldMap := rfl
@[simp] theorem Dev.modGate_threads (d : Dev) (g : Nat) (f : Gate → Gate) : (d.modGate g f).threads = d.threads := rfl
@[simp] theorem Dev.modGate_posted (d : Dev) (g : Nat) (f : Gate → Gate) : (d.modGate g f).posted = d.posted := rfl
@[simp] theorem Dev.modGate_insts (d : Dev) (g : Nat) (f : Gate → Gate) : (d.modGate g f).insts = d.insts := rfl
@[simp] theorem Dev.modGate_queues (d : Dev) (g : Nat) (f : Gate → Gate) : (d.modGate g f).queues = d.queues := rfl
@[simp] theorem Dev.modGate_slots (d : Dev) (g : Nat) (f : Gate → Gate) : (d.modGate g f).slots = d.slots := rfl
@[simp] theorem Dev.modGate_hurdles (d : Dev) (g : Nat) (f : Gate → Gate) : (d.modGate g f).hurdles = d.hurdles := rfl
@[simp] theorem Dev.modGate_flights (d : Dev) (g : Nat) (f : Gate → Gate) : (d.modGate g f).flights = d.flights := rfl
@[simp] theorem Dev.modGate_host (d : Dev) (g : Nat) (f : Gate → Gate) : (d.modGate g f).host = d.host := rfl
@[simp] theorem Dev.modGate_mbox (d : Dev) (g : Nat) (f : Gate → Gate) : (d.modGate g f).mbox = d.mbox := rfl
@[simp] theorem Dev.modGate_fsets (d : Dev) (g : Nat) (f : Gate → Gate) : (d.modGate g f).fsets = d.fsets := rfl
@[simp] theorem Dev.modGate_tu (d : Dev) (g : Nat) (f : Gate → Gate) : (d.modGate g f).tu = d.tu := rfl
@[simp] theorem Dev.modGate_flock (d : Dev) (g : Nat) (f : Gate → Gate) : (d.modGate g f).flock = d.flock := rfl
@[simp] theorem Dev.modGate_col (d : Dev) (g : Nat) (f : Gate → Gate) : (d.modGate g f).col = d.col := rfl
@[simp] theorem Dev.modGate_safe (d : Dev) (g : Nat) (f : Gate → Gate) : (d.modGate g f).safe = d.safe := rfl
@[simp] theorem Dev.modGate_sec (d : Dev) (g : Nat) (f : Gate → Gate) : (d.modGate g f).sec = d.sec := rfl
@[simp] theorem Dev.modGate_pow (d : Dev) (g : Nat) (f : Gate → Gate) : (d.modGate g f).pow = d.pow := rfl
@[simp] theorem Dev.modGate_free (d : Dev) (g : Nat) (f : Gate → Gate) : (d.modGate g f).free = d.free := rfl
theorem Dev.gate_modGate (d : Dev) (g : Nat) (f : Gate → Gate) (j : Nat) :
    (d.modGate g f).gate j = if j = g then f (d.gate g) else d.gate j := by
  simp only [Dev.gate, Dev.modGate]
  exact tgetD_tmod _ _ _ _ _

@[simp] theorem Dev.modPort_mem (d : Dev) (p : Nat) (f : CsiPort → CsiPort) : (d.modPort p f).mem = d.mem := rfl
@[simp] theorem Dev.modPort_gddr (d : Dev) (p : Nat) (f : CsiPort → CsiPort) : (d.modPort p f).gddr = d.gddr := rfl
@[simp] theorem Dev.modPort_folds (d : Dev) (p : Nat) (f : CsiPort → CsiPort) : (d.modPort p f).folds = d.folds := rfl
@[simp] theorem Dev.modPort_phys (d : Dev) (p : Nat) (f : CsiPort → CsiPort) : (d.modPort p f).phys = d.phys := rfl
@[simp] theorem Dev.modPort_foldMap (d : Dev) (p : Nat) (f : CsiPort → CsiPort) : (d.modPort p f).foldMap = d.foldMap := rfl
@[simp] theorem Dev.modPort_threads (d : Dev) (p : Nat) (f : CsiPort → CsiPort) : (d.modPort p f).threads = d.threads := rfl
@[simp] theorem Dev.modPort_posted (d : Dev) (p : Nat) (f : CsiPort → CsiPort) : (d.modPort p f).posted = d.posted := rfl
@[simp] theorem Dev.modPort_insts (d : Dev) (p : Nat) (f : CsiPort → CsiPort) : (d.modPort p f).insts = d.insts := rfl
@[simp] theorem Dev.modPort_queues (d : Dev) (p : Nat) (f : CsiPort → CsiPort) : (d.modPort p f).queues = d.queues := rfl
@[simp] theorem Dev.modPort_slots (d : Dev) (p : Nat) (f : CsiPort → CsiPort) : (d.modPort p f).slots = d.slots := rfl
@[simp] theorem Dev.modPort_hurdles (d : Dev) (p : Nat) (f : CsiPort → CsiPort) : (d.modPort p f).hurdles = d.hurdles := rfl
@[simp] theorem Dev.modPort_flights (d : Dev) (p : Nat) (f : CsiPort → CsiPort) : (d.modPort p f).flights = d.flights := rfl
@[simp] theorem Dev.modPort_host (d : Dev) (p : Nat) (f : CsiPort → CsiPort) : (d.modPort p f).host = d.host := rfl
@[simp] theorem Dev.modPort_mbox (d : Dev) (p : Nat) (f : CsiPort → CsiPort) : (d.modPort p f).mbox = d.mbox := rfl
@[simp] theorem Dev.modPort_fsets (d : Dev) (p : Nat) (f : CsiPort → CsiPort) : (d.modPort p f).fsets = d.fsets := rfl
@[simp] theorem Dev.modPort_tu (d : Dev) (p : Nat) (f : CsiPort → CsiPort) : (d.modPort p f).tu = d.tu := rfl
@[simp] theorem Dev.modPort_flock (d : Dev) (p : Nat) (f : CsiPort → CsiPort) : (d.modPort p f).flock = d.flock := rfl
@[simp] theorem Dev.modPort_col (d : Dev) (p : Nat) (f : CsiPort → CsiPort) : (d.modPort p f).col = d.col := rfl
@[simp] theorem Dev.modPort_safe (d : Dev) (p : Nat) (f : CsiPort → CsiPort) : (d.modPort p f).safe = d.safe := rfl
@[simp] theorem Dev.modPort_sec (d : Dev) (p : Nat) (f : CsiPort → CsiPort) : (d.modPort p f).sec = d.sec := rfl
@[simp] theorem Dev.modPort_pow (d : Dev) (p : Nat) (f : CsiPort → CsiPort) : (d.modPort p f).pow = d.pow := rfl
@[simp] theorem Dev.modPort_free (d : Dev) (p : Nat) (f : CsiPort → CsiPort) : (d.modPort p f).free = d.free := rfl
theorem Dev.port_modPort (d : Dev) (p : Nat) (f : CsiPort → CsiPort) (j : Nat) :
    (d.modPort p f).port j = if j = p then f (d.port p) else d.port j := by
  simp only [Dev.port, Dev.modPort]
  exact tgetD_tmod _ _ _ _ _

@[simp] theorem Dev.modFset_mem (d : Dev) (n : Nat) (f : FSet → FSet) : (d.modFset n f).mem = d.mem := rfl
@[simp] theorem Dev.modFset_gddr (d : Dev) (n : Nat) (f : FSet → FSet) : (d.modFset n f).gddr = d.gddr := rfl
@[simp] theorem Dev.modFset_folds (d : Dev) (n : Nat) (f : FSet → FSet) : (d.modFset n f).folds = d.folds := rfl
@[simp] theorem Dev.modFset_phys (d : Dev) (n : Nat) (f : FSet → FSet) : (d.modFset n f).phys = d.phys := rfl
@[simp] theorem Dev.modFset_foldMap (d : Dev) (n : Nat) (f : FSet → FSet) : (d.modFset n f).foldMap = d.foldMap := rfl
@[simp] theorem Dev.modFset_threads (d : Dev) (n : Nat) (f : FSet → FSet) : (d.modFset n f).threads = d.threads := rfl
@[simp] theorem Dev.modFset_posted (d : Dev) (n : Nat) (f : FSet → FSet) : (d.modFset n f).posted = d.posted := rfl
@[simp] theorem Dev.modFset_insts (d : Dev) (n : Nat) (f : FSet → FSet) : (d.modFset n f).insts = d.insts := rfl
@[simp] theorem Dev.modFset_queues (d : Dev) (n : Nat) (f : FSet → FSet) : (d.modFset n f).queues = d.queues := rfl
@[simp] theorem Dev.modFset_slots (d : Dev) (n : Nat) (f : FSet → FSet) : (d.modFset n f).slots = d.slots := rfl
@[simp] theorem Dev.modFset_hurdles (d : Dev) (n : Nat) (f : FSet → FSet) : (d.modFset n f).hurdles = d.hurdles := rfl
@[simp] theorem Dev.modFset_flights (d : Dev) (n : Nat) (f : FSet → FSet) : (d.modFset n f).flights = d.flights := rfl
@[simp] theorem Dev.modFset_host (d : Dev) (n : Nat) (f : FSet → FSet) : (d.modFset n f).host = d.host := rfl
@[simp] theorem Dev.modFset_mbox (d : Dev) (n : Nat) (f : FSet → FSet) : (d.modFset n f).mbox = d.mbox := rfl
@[simp] theorem Dev.modFset_race (d : Dev) (n : Nat) (f : FSet → FSet) : (d.modFset n f).race = d.race := rfl
@[simp] theorem Dev.modFset_tu (d : Dev) (n : Nat) (f : FSet → FSet) : (d.modFset n f).tu = d.tu := rfl
@[simp] theorem Dev.modFset_flock (d : Dev) (n : Nat) (f : FSet → FSet) : (d.modFset n f).flock = d.flock := rfl
@[simp] theorem Dev.modFset_col (d : Dev) (n : Nat) (f : FSet → FSet) : (d.modFset n f).col = d.col := rfl
@[simp] theorem Dev.modFset_safe (d : Dev) (n : Nat) (f : FSet → FSet) : (d.modFset n f).safe = d.safe := rfl
@[simp] theorem Dev.modFset_sec (d : Dev) (n : Nat) (f : FSet → FSet) : (d.modFset n f).sec = d.sec := rfl
@[simp] theorem Dev.modFset_pow (d : Dev) (n : Nat) (f : FSet → FSet) : (d.modFset n f).pow = d.pow := rfl
@[simp] theorem Dev.modFset_free (d : Dev) (n : Nat) (f : FSet → FSet) : (d.modFset n f).free = d.free := rfl
theorem Dev.fset_modFset (d : Dev) (n : Nat) (f : FSet → FSet) (j : Nat) :
    (d.modFset n f).fset j = if j = n then f (d.fset n) else d.fset j := by
  simp only [Dev.fset, Dev.modFset]
  exact tgetD_tmod _ _ _ _ _

@[simp] theorem Dev.modDom_mem (d : Dev) (k : Nat) (f : Domain → Domain) : (d.modDom k f).mem = d.mem := rfl
@[simp] theorem Dev.modDom_gddr (d : Dev) (k : Nat) (f : Domain → Domain) : (d.modDom k f).gddr = d.gddr := rfl
@[simp] theorem Dev.modDom_folds (d : Dev) (k : Nat) (f : Domain → Domain) : (d.modDom k f).folds = d.folds := rfl
@[simp] theorem Dev.modDom_phys (d : Dev) (k : Nat) (f : Domain → Domain) : (d.modDom k f).phys = d.phys := rfl
@[simp] theorem Dev.modDom_foldMap (d : Dev) (k : Nat) (f : Domain → Domain) : (d.modDom k f).foldMap = d.foldMap := rfl
@[simp] theorem Dev.modDom_threads (d : Dev) (k : Nat) (f : Domain → Domain) : (d.modDom k f).threads = d.threads := rfl
@[simp] theorem Dev.modDom_posted (d : Dev) (k : Nat) (f : Domain → Domain) : (d.modDom k f).posted = d.posted := rfl
@[simp] theorem Dev.modDom_insts (d : Dev) (k : Nat) (f : Domain → Domain) : (d.modDom k f).insts = d.insts := rfl
@[simp] theorem Dev.modDom_queues (d : Dev) (k : Nat) (f : Domain → Domain) : (d.modDom k f).queues = d.queues := rfl
@[simp] theorem Dev.modDom_slots (d : Dev) (k : Nat) (f : Domain → Domain) : (d.modDom k f).slots = d.slots := rfl
@[simp] theorem Dev.modDom_hurdles (d : Dev) (k : Nat) (f : Domain → Domain) : (d.modDom k f).hurdles = d.hurdles := rfl
@[simp] theorem Dev.modDom_flights (d : Dev) (k : Nat) (f : Domain → Domain) : (d.modDom k f).flights = d.flights := rfl
@[simp] theorem Dev.modDom_host (d : Dev) (k : Nat) (f : Domain → Domain) : (d.modDom k f).host = d.host := rfl
@[simp] theorem Dev.modDom_mbox (d : Dev) (k : Nat) (f : Domain → Domain) : (d.modDom k f).mbox = d.mbox := rfl
@[simp] theorem Dev.modDom_race (d : Dev) (k : Nat) (f : Domain → Domain) : (d.modDom k f).race = d.race := rfl
@[simp] theorem Dev.modDom_fsets (d : Dev) (k : Nat) (f : Domain → Domain) : (d.modDom k f).fsets = d.fsets := rfl
@[simp] theorem Dev.modDom_flock (d : Dev) (k : Nat) (f : Domain → Domain) : (d.modDom k f).flock = d.flock := rfl
@[simp] theorem Dev.modDom_col (d : Dev) (k : Nat) (f : Domain → Domain) : (d.modDom k f).col = d.col := rfl
@[simp] theorem Dev.modDom_safe (d : Dev) (k : Nat) (f : Domain → Domain) : (d.modDom k f).safe = d.safe := rfl
@[simp] theorem Dev.modDom_sec (d : Dev) (k : Nat) (f : Domain → Domain) : (d.modDom k f).sec = d.sec := rfl
@[simp] theorem Dev.modDom_pow (d : Dev) (k : Nat) (f : Domain → Domain) : (d.modDom k f).pow = d.pow := rfl
@[simp] theorem Dev.modDom_free (d : Dev) (k : Nat) (f : Domain → Domain) : (d.modDom k f).free = d.free := rfl
theorem Dev.dom_modDom (d : Dev) (k : Nat) (f : Domain → Domain) (j : Nat) :
    (d.modDom k f).dom j = if j = k then f (d.dom k) else d.dom j := by
  simp only [Dev.dom, Dev.modDom]
  exact tgetD_tmod _ _ _ _ _

@[simp] theorem Dev.modTrig_mem (d : Dev) (k : Nat) (f : Trigger → Trigger) : (d.modTrig k f).mem = d.mem := rfl
@[simp] theorem Dev.modTrig_gddr (d : Dev) (k : Nat) (f : Trigger → Trigger) : (d.modTrig k f).gddr = d.gddr := rfl
@[simp] theorem Dev.modTrig_folds (d : Dev) (k : Nat) (f : Trigger → Trigger) : (d.modTrig k f).folds = d.folds := rfl
@[simp] theorem Dev.modTrig_phys (d : Dev) (k : Nat) (f : Trigger → Trigger) : (d.modTrig k f).phys = d.phys := rfl
@[simp] theorem Dev.modTrig_foldMap (d : Dev) (k : Nat) (f : Trigger → Trigger) : (d.modTrig k f).foldMap = d.foldMap := rfl
@[simp] theorem Dev.modTrig_threads (d : Dev) (k : Nat) (f : Trigger → Trigger) : (d.modTrig k f).threads = d.threads := rfl
@[simp] theorem Dev.modTrig_posted (d : Dev) (k : Nat) (f : Trigger → Trigger) : (d.modTrig k f).posted = d.posted := rfl
@[simp] theorem Dev.modTrig_insts (d : Dev) (k : Nat) (f : Trigger → Trigger) : (d.modTrig k f).insts = d.insts := rfl
@[simp] theorem Dev.modTrig_queues (d : Dev) (k : Nat) (f : Trigger → Trigger) : (d.modTrig k f).queues = d.queues := rfl
@[simp] theorem Dev.modTrig_slots (d : Dev) (k : Nat) (f : Trigger → Trigger) : (d.modTrig k f).slots = d.slots := rfl
@[simp] theorem Dev.modTrig_hurdles (d : Dev) (k : Nat) (f : Trigger → Trigger) : (d.modTrig k f).hurdles = d.hurdles := rfl
@[simp] theorem Dev.modTrig_flights (d : Dev) (k : Nat) (f : Trigger → Trigger) : (d.modTrig k f).flights = d.flights := rfl
@[simp] theorem Dev.modTrig_host (d : Dev) (k : Nat) (f : Trigger → Trigger) : (d.modTrig k f).host = d.host := rfl
@[simp] theorem Dev.modTrig_mbox (d : Dev) (k : Nat) (f : Trigger → Trigger) : (d.modTrig k f).mbox = d.mbox := rfl
@[simp] theorem Dev.modTrig_race (d : Dev) (k : Nat) (f : Trigger → Trigger) : (d.modTrig k f).race = d.race := rfl
@[simp] theorem Dev.modTrig_fsets (d : Dev) (k : Nat) (f : Trigger → Trigger) : (d.modTrig k f).fsets = d.fsets := rfl
@[simp] theorem Dev.modTrig_flock (d : Dev) (k : Nat) (f : Trigger → Trigger) : (d.modTrig k f).flock = d.flock := rfl
@[simp] theorem Dev.modTrig_col (d : Dev) (k : Nat) (f : Trigger → Trigger) : (d.modTrig k f).col = d.col := rfl
@[simp] theorem Dev.modTrig_safe (d : Dev) (k : Nat) (f : Trigger → Trigger) : (d.modTrig k f).safe = d.safe := rfl
@[simp] theorem Dev.modTrig_sec (d : Dev) (k : Nat) (f : Trigger → Trigger) : (d.modTrig k f).sec = d.sec := rfl
@[simp] theorem Dev.modTrig_pow (d : Dev) (k : Nat) (f : Trigger → Trigger) : (d.modTrig k f).pow = d.pow := rfl
@[simp] theorem Dev.modTrig_free (d : Dev) (k : Nat) (f : Trigger → Trigger) : (d.modTrig k f).free = d.free := rfl
theorem Dev.trig_modTrig (d : Dev) (k : Nat) (f : Trigger → Trigger) (j : Nat) :
    (d.modTrig k f).trig j = if j = k then f (d.trig k) else d.trig j := by
  simp only [Dev.trig, Dev.modTrig]
  exact tgetD_tmod _ _ _ _ _

@[simp] theorem Dev.modPeer_mem (d : Dev) (k : Nat) (f : Peer → Peer) : (d.modPeer k f).mem = d.mem := rfl
@[simp] theorem Dev.modPeer_gddr (d : Dev) (k : Nat) (f : Peer → Peer) : (d.modPeer k f).gddr = d.gddr := rfl
@[simp] theorem Dev.modPeer_folds (d : Dev) (k : Nat) (f : Peer → Peer) : (d.modPeer k f).folds = d.folds := rfl
@[simp] theorem Dev.modPeer_phys (d : Dev) (k : Nat) (f : Peer → Peer) : (d.modPeer k f).phys = d.phys := rfl
@[simp] theorem Dev.modPeer_foldMap (d : Dev) (k : Nat) (f : Peer → Peer) : (d.modPeer k f).foldMap = d.foldMap := rfl
@[simp] theorem Dev.modPeer_threads (d : Dev) (k : Nat) (f : Peer → Peer) : (d.modPeer k f).threads = d.threads := rfl
@[simp] theorem Dev.modPeer_posted (d : Dev) (k : Nat) (f : Peer → Peer) : (d.modPeer k f).posted = d.posted := rfl
@[simp] theorem Dev.modPeer_insts (d : Dev) (k : Nat) (f : Peer → Peer) : (d.modPeer k f).insts = d.insts := rfl
@[simp] theorem Dev.modPeer_queues (d : Dev) (k : Nat) (f : Peer → Peer) : (d.modPeer k f).queues = d.queues := rfl
@[simp] theorem Dev.modPeer_slots (d : Dev) (k : Nat) (f : Peer → Peer) : (d.modPeer k f).slots = d.slots := rfl
@[simp] theorem Dev.modPeer_hurdles (d : Dev) (k : Nat) (f : Peer → Peer) : (d.modPeer k f).hurdles = d.hurdles := rfl
@[simp] theorem Dev.modPeer_flights (d : Dev) (k : Nat) (f : Peer → Peer) : (d.modPeer k f).flights = d.flights := rfl
@[simp] theorem Dev.modPeer_host (d : Dev) (k : Nat) (f : Peer → Peer) : (d.modPeer k f).host = d.host := rfl
@[simp] theorem Dev.modPeer_mbox (d : Dev) (k : Nat) (f : Peer → Peer) : (d.modPeer k f).mbox = d.mbox := rfl
@[simp] theorem Dev.modPeer_race (d : Dev) (k : Nat) (f : Peer → Peer) : (d.modPeer k f).race = d.race := rfl
@[simp] theorem Dev.modPeer_fsets (d : Dev) (k : Nat) (f : Peer → Peer) : (d.modPeer k f).fsets = d.fsets := rfl
@[simp] theorem Dev.modPeer_tu (d : Dev) (k : Nat) (f : Peer → Peer) : (d.modPeer k f).tu = d.tu := rfl
@[simp] theorem Dev.modPeer_col (d : Dev) (k : Nat) (f : Peer → Peer) : (d.modPeer k f).col = d.col := rfl
@[simp] theorem Dev.modPeer_safe (d : Dev) (k : Nat) (f : Peer → Peer) : (d.modPeer k f).safe = d.safe := rfl
@[simp] theorem Dev.modPeer_sec (d : Dev) (k : Nat) (f : Peer → Peer) : (d.modPeer k f).sec = d.sec := rfl
@[simp] theorem Dev.modPeer_pow (d : Dev) (k : Nat) (f : Peer → Peer) : (d.modPeer k f).pow = d.pow := rfl
@[simp] theorem Dev.modPeer_free (d : Dev) (k : Nat) (f : Peer → Peer) : (d.modPeer k f).free = d.free := rfl
theorem Dev.peer_modPeer (d : Dev) (k : Nat) (f : Peer → Peer) (j : Nat) :
    (d.modPeer k f).peer j = if j = k then f (d.peer k) else d.peer j := by
  simp only [Dev.peer, Dev.modPeer]
  exact tgetD_tmod _ _ _ _ _

@[simp] theorem Dev.modStile_mem (d : Dev) (k : Nat) (f : Stile → Stile) : (d.modStile k f).mem = d.mem := rfl
@[simp] theorem Dev.modStile_gddr (d : Dev) (k : Nat) (f : Stile → Stile) : (d.modStile k f).gddr = d.gddr := rfl
@[simp] theorem Dev.modStile_folds (d : Dev) (k : Nat) (f : Stile → Stile) : (d.modStile k f).folds = d.folds := rfl
@[simp] theorem Dev.modStile_phys (d : Dev) (k : Nat) (f : Stile → Stile) : (d.modStile k f).phys = d.phys := rfl
@[simp] theorem Dev.modStile_foldMap (d : Dev) (k : Nat) (f : Stile → Stile) : (d.modStile k f).foldMap = d.foldMap := rfl
@[simp] theorem Dev.modStile_threads (d : Dev) (k : Nat) (f : Stile → Stile) : (d.modStile k f).threads = d.threads := rfl
@[simp] theorem Dev.modStile_posted (d : Dev) (k : Nat) (f : Stile → Stile) : (d.modStile k f).posted = d.posted := rfl
@[simp] theorem Dev.modStile_insts (d : Dev) (k : Nat) (f : Stile → Stile) : (d.modStile k f).insts = d.insts := rfl
@[simp] theorem Dev.modStile_queues (d : Dev) (k : Nat) (f : Stile → Stile) : (d.modStile k f).queues = d.queues := rfl
@[simp] theorem Dev.modStile_slots (d : Dev) (k : Nat) (f : Stile → Stile) : (d.modStile k f).slots = d.slots := rfl
@[simp] theorem Dev.modStile_hurdles (d : Dev) (k : Nat) (f : Stile → Stile) : (d.modStile k f).hurdles = d.hurdles := rfl
@[simp] theorem Dev.modStile_flights (d : Dev) (k : Nat) (f : Stile → Stile) : (d.modStile k f).flights = d.flights := rfl
@[simp] theorem Dev.modStile_host (d : Dev) (k : Nat) (f : Stile → Stile) : (d.modStile k f).host = d.host := rfl
@[simp] theorem Dev.modStile_mbox (d : Dev) (k : Nat) (f : Stile → Stile) : (d.modStile k f).mbox = d.mbox := rfl
@[simp] theorem Dev.modStile_race (d : Dev) (k : Nat) (f : Stile → Stile) : (d.modStile k f).race = d.race := rfl
@[simp] theorem Dev.modStile_fsets (d : Dev) (k : Nat) (f : Stile → Stile) : (d.modStile k f).fsets = d.fsets := rfl
@[simp] theorem Dev.modStile_tu (d : Dev) (k : Nat) (f : Stile → Stile) : (d.modStile k f).tu = d.tu := rfl
@[simp] theorem Dev.modStile_col (d : Dev) (k : Nat) (f : Stile → Stile) : (d.modStile k f).col = d.col := rfl
@[simp] theorem Dev.modStile_safe (d : Dev) (k : Nat) (f : Stile → Stile) : (d.modStile k f).safe = d.safe := rfl
@[simp] theorem Dev.modStile_sec (d : Dev) (k : Nat) (f : Stile → Stile) : (d.modStile k f).sec = d.sec := rfl
@[simp] theorem Dev.modStile_pow (d : Dev) (k : Nat) (f : Stile → Stile) : (d.modStile k f).pow = d.pow := rfl
@[simp] theorem Dev.modStile_free (d : Dev) (k : Nat) (f : Stile → Stile) : (d.modStile k f).free = d.free := rfl
theorem Dev.stile_modStile (d : Dev) (k : Nat) (f : Stile → Stile) (j : Nat) :
    (d.modStile k f).stile j = if j = k then f (d.stile k) else d.stile j := by
  simp only [Dev.stile, Dev.modStile]
  exact tgetD_tmod _ _ _ _ _

@[simp] theorem Dev.modMac_mem (d : Dev) (m : Nat) (f : MacPort → MacPort) : (d.modMac m f).mem = d.mem := rfl
@[simp] theorem Dev.modMac_gddr (d : Dev) (m : Nat) (f : MacPort → MacPort) : (d.modMac m f).gddr = d.gddr := rfl
@[simp] theorem Dev.modMac_folds (d : Dev) (m : Nat) (f : MacPort → MacPort) : (d.modMac m f).folds = d.folds := rfl
@[simp] theorem Dev.modMac_phys (d : Dev) (m : Nat) (f : MacPort → MacPort) : (d.modMac m f).phys = d.phys := rfl
@[simp] theorem Dev.modMac_foldMap (d : Dev) (m : Nat) (f : MacPort → MacPort) : (d.modMac m f).foldMap = d.foldMap := rfl
@[simp] theorem Dev.modMac_threads (d : Dev) (m : Nat) (f : MacPort → MacPort) : (d.modMac m f).threads = d.threads := rfl
@[simp] theorem Dev.modMac_posted (d : Dev) (m : Nat) (f : MacPort → MacPort) : (d.modMac m f).posted = d.posted := rfl
@[simp] theorem Dev.modMac_insts (d : Dev) (m : Nat) (f : MacPort → MacPort) : (d.modMac m f).insts = d.insts := rfl
@[simp] theorem Dev.modMac_queues (d : Dev) (m : Nat) (f : MacPort → MacPort) : (d.modMac m f).queues = d.queues := rfl
@[simp] theorem Dev.modMac_slots (d : Dev) (m : Nat) (f : MacPort → MacPort) : (d.modMac m f).slots = d.slots := rfl
@[simp] theorem Dev.modMac_hurdles (d : Dev) (m : Nat) (f : MacPort → MacPort) : (d.modMac m f).hurdles = d.hurdles := rfl
@[simp] theorem Dev.modMac_flights (d : Dev) (m : Nat) (f : MacPort → MacPort) : (d.modMac m f).flights = d.flights := rfl
@[simp] theorem Dev.modMac_host (d : Dev) (m : Nat) (f : MacPort → MacPort) : (d.modMac m f).host = d.host := rfl
@[simp] theorem Dev.modMac_mbox (d : Dev) (m : Nat) (f : MacPort → MacPort) : (d.modMac m f).mbox = d.mbox := rfl
@[simp] theorem Dev.modMac_race (d : Dev) (m : Nat) (f : MacPort → MacPort) : (d.modMac m f).race = d.race := rfl
@[simp] theorem Dev.modMac_fsets (d : Dev) (m : Nat) (f : MacPort → MacPort) : (d.modMac m f).fsets = d.fsets := rfl
@[simp] theorem Dev.modMac_tu (d : Dev) (m : Nat) (f : MacPort → MacPort) : (d.modMac m f).tu = d.tu := rfl
@[simp] theorem Dev.modMac_col (d : Dev) (m : Nat) (f : MacPort → MacPort) : (d.modMac m f).col = d.col := rfl
@[simp] theorem Dev.modMac_safe (d : Dev) (m : Nat) (f : MacPort → MacPort) : (d.modMac m f).safe = d.safe := rfl
@[simp] theorem Dev.modMac_sec (d : Dev) (m : Nat) (f : MacPort → MacPort) : (d.modMac m f).sec = d.sec := rfl
@[simp] theorem Dev.modMac_pow (d : Dev) (m : Nat) (f : MacPort → MacPort) : (d.modMac m f).pow = d.pow := rfl
@[simp] theorem Dev.modMac_free (d : Dev) (m : Nat) (f : MacPort → MacPort) : (d.modMac m f).free = d.free := rfl
theorem Dev.mac_modMac (d : Dev) (m : Nat) (f : MacPort → MacPort) (j : Nat) :
    (d.modMac m f).mac j = if j = m then f (d.mac m) else d.mac j := by
  simp only [Dev.mac, Dev.modMac]
  exact tgetD_tmod _ _ _ _ _

@[simp] theorem Dev.modEngine_mem (d : Dev) (n k : Nat) (f : Engine → Engine) : (d.modEngine n k f).mem = d.mem := rfl
@[simp] theorem Dev.modEngine_gddr (d : Dev) (n k : Nat) (f : Engine → Engine) : (d.modEngine n k f).gddr = d.gddr := rfl
@[simp] theorem Dev.modEngine_phys (d : Dev) (n k : Nat) (f : Engine → Engine) : (d.modEngine n k f).phys = d.phys := rfl
@[simp] theorem Dev.modEngine_foldMap (d : Dev) (n k : Nat) (f : Engine → Engine) : (d.modEngine n k f).foldMap = d.foldMap := rfl
@[simp] theorem Dev.modEngine_threads (d : Dev) (n k : Nat) (f : Engine → Engine) : (d.modEngine n k f).threads = d.threads := rfl
@[simp] theorem Dev.modEngine_posted (d : Dev) (n k : Nat) (f : Engine → Engine) : (d.modEngine n k f).posted = d.posted := rfl
@[simp] theorem Dev.modEngine_insts (d : Dev) (n k : Nat) (f : Engine → Engine) : (d.modEngine n k f).insts = d.insts := rfl
@[simp] theorem Dev.modEngine_queues (d : Dev) (n k : Nat) (f : Engine → Engine) : (d.modEngine n k f).queues = d.queues := rfl
@[simp] theorem Dev.modEngine_slots (d : Dev) (n k : Nat) (f : Engine → Engine) : (d.modEngine n k f).slots = d.slots := rfl
@[simp] theorem Dev.modEngine_hurdles (d : Dev) (n k : Nat) (f : Engine → Engine) : (d.modEngine n k f).hurdles = d.hurdles := rfl
@[simp] theorem Dev.modEngine_flights (d : Dev) (n k : Nat) (f : Engine → Engine) : (d.modEngine n k f).flights = d.flights := rfl
@[simp] theorem Dev.modEngine_host (d : Dev) (n k : Nat) (f : Engine → Engine) : (d.modEngine n k f).host = d.host := rfl
@[simp] theorem Dev.modEngine_mbox (d : Dev) (n k : Nat) (f : Engine → Engine) : (d.modEngine n k f).mbox = d.mbox := rfl
@[simp] theorem Dev.modEngine_race (d : Dev) (n k : Nat) (f : Engine → Engine) : (d.modEngine n k f).race = d.race := rfl
@[simp] theorem Dev.modEngine_fsets (d : Dev) (n k : Nat) (f : Engine → Engine) : (d.modEngine n k f).fsets = d.fsets := rfl
@[simp] theorem Dev.modEngine_tu (d : Dev) (n k : Nat) (f : Engine → Engine) : (d.modEngine n k f).tu = d.tu := rfl
@[simp] theorem Dev.modEngine_flock (d : Dev) (n k : Nat) (f : Engine → Engine) : (d.modEngine n k f).flock = d.flock := rfl
@[simp] theorem Dev.modEngine_col (d : Dev) (n k : Nat) (f : Engine → Engine) : (d.modEngine n k f).col = d.col := rfl
@[simp] theorem Dev.modEngine_safe (d : Dev) (n k : Nat) (f : Engine → Engine) : (d.modEngine n k f).safe = d.safe := rfl
@[simp] theorem Dev.modEngine_sec (d : Dev) (n k : Nat) (f : Engine → Engine) : (d.modEngine n k f).sec = d.sec := rfl
@[simp] theorem Dev.modEngine_pow (d : Dev) (n k : Nat) (f : Engine → Engine) : (d.modEngine n k f).pow = d.pow := rfl
@[simp] theorem Dev.modEngine_free (d : Dev) (n k : Nat) (f : Engine → Engine) : (d.modEngine n k f).free = d.free := rfl
theorem Dev.engine_modEngine (d : Dev) (n k : Nat) (f : Engine → Engine) (m j : Nat) :
    (d.modEngine n k f).engine m j = if m = n ∧ j = k then f (d.engine n k) else d.engine m j := by
  unfold Dev.engine Dev.modEngine
  rw [Dev.fold_modFold]
  by_cases hm : m = n
  · simp [hm, tgetD_tmod]
  · simp [hm]

@[simp] theorem Dev.modArray_mem (d : Dev) (n k : Nat) (f : ArrayState → ArrayState) : (d.modArray n k f).mem = d.mem := rfl
@[simp] theorem Dev.modArray_gddr (d : Dev) (n k : Nat) (f : ArrayState → ArrayState) : (d.modArray n k f).gddr = d.gddr := rfl
@[simp] theorem Dev.modArray_phys (d : Dev) (n k : Nat) (f : ArrayState → ArrayState) : (d.modArray n k f).phys = d.phys := rfl
@[simp] theorem Dev.modArray_foldMap (d : Dev) (n k : Nat) (f : ArrayState → ArrayState) : (d.modArray n k f).foldMap = d.foldMap := rfl
@[simp] theorem Dev.modArray_threads (d : Dev) (n k : Nat) (f : ArrayState → ArrayState) : (d.modArray n k f).threads = d.threads := rfl
@[simp] theorem Dev.modArray_posted (d : Dev) (n k : Nat) (f : ArrayState → ArrayState) : (d.modArray n k f).posted = d.posted := rfl
@[simp] theorem Dev.modArray_insts (d : Dev) (n k : Nat) (f : ArrayState → ArrayState) : (d.modArray n k f).insts = d.insts := rfl
@[simp] theorem Dev.modArray_queues (d : Dev) (n k : Nat) (f : ArrayState → ArrayState) : (d.modArray n k f).queues = d.queues := rfl
@[simp] theorem Dev.modArray_slots (d : Dev) (n k : Nat) (f : ArrayState → ArrayState) : (d.modArray n k f).slots = d.slots := rfl
@[simp] theorem Dev.modArray_hurdles (d : Dev) (n k : Nat) (f : ArrayState → ArrayState) : (d.modArray n k f).hurdles = d.hurdles := rfl
@[simp] theorem Dev.modArray_flights (d : Dev) (n k : Nat) (f : ArrayState → ArrayState) : (d.modArray n k f).flights = d.flights := rfl
@[simp] theorem Dev.modArray_host (d : Dev) (n k : Nat) (f : ArrayState → ArrayState) : (d.modArray n k f).host = d.host := rfl
@[simp] theorem Dev.modArray_mbox (d : Dev) (n k : Nat) (f : ArrayState → ArrayState) : (d.modArray n k f).mbox = d.mbox := rfl
@[simp] theorem Dev.modArray_race (d : Dev) (n k : Nat) (f : ArrayState → ArrayState) : (d.modArray n k f).race = d.race := rfl
@[simp] theorem Dev.modArray_fsets (d : Dev) (n k : Nat) (f : ArrayState → ArrayState) : (d.modArray n k f).fsets = d.fsets := rfl
@[simp] theorem Dev.modArray_tu (d : Dev) (n k : Nat) (f : ArrayState → ArrayState) : (d.modArray n k f).tu = d.tu := rfl
@[simp] theorem Dev.modArray_flock (d : Dev) (n k : Nat) (f : ArrayState → ArrayState) : (d.modArray n k f).flock = d.flock := rfl
@[simp] theorem Dev.modArray_col (d : Dev) (n k : Nat) (f : ArrayState → ArrayState) : (d.modArray n k f).col = d.col := rfl
@[simp] theorem Dev.modArray_safe (d : Dev) (n k : Nat) (f : ArrayState → ArrayState) : (d.modArray n k f).safe = d.safe := rfl
@[simp] theorem Dev.modArray_sec (d : Dev) (n k : Nat) (f : ArrayState → ArrayState) : (d.modArray n k f).sec = d.sec := rfl
@[simp] theorem Dev.modArray_pow (d : Dev) (n k : Nat) (f : ArrayState → ArrayState) : (d.modArray n k f).pow = d.pow := rfl
@[simp] theorem Dev.modArray_free (d : Dev) (n k : Nat) (f : ArrayState → ArrayState) : (d.modArray n k f).free = d.free := rfl
theorem Dev.array_modArray (d : Dev) (n k : Nat) (f : ArrayState → ArrayState) (m j : Nat) :
    (d.modArray n k f).array m j = if m = n ∧ j = k then f (d.array n k) else d.array m j := by
  unfold Dev.array Dev.modArray
  rw [Dev.fold_modFold]
  by_cases hm : m = n
  · simp [hm, tgetD_tmod]
  · simp [hm]

@[simp] theorem Dev.modLut_mem (d : Dev) (n k : Nat) (f : Lut → Lut) : (d.modLut n k f).mem = d.mem := rfl
@[simp] theorem Dev.modLut_gddr (d : Dev) (n k : Nat) (f : Lut → Lut) : (d.modLut n k f).gddr = d.gddr := rfl
@[simp] theorem Dev.modLut_phys (d : Dev) (n k : Nat) (f : Lut → Lut) : (d.modLut n k f).phys = d.phys := rfl
@[simp] theorem Dev.modLut_foldMap (d : Dev) (n k : Nat) (f : Lut → Lut) : (d.modLut n k f).foldMap = d.foldMap := rfl
@[simp] theorem Dev.modLut_threads (d : Dev) (n k : Nat) (f : Lut → Lut) : (d.modLut n k f).threads = d.threads := rfl
@[simp] theorem Dev.modLut_posted (d : Dev) (n k : Nat) (f : Lut → Lut) : (d.modLut n k f).posted = d.posted := rfl
@[simp] theorem Dev.modLut_insts (d : Dev) (n k : Nat) (f : Lut → Lut) : (d.modLut n k f).insts = d.insts := rfl
@[simp] theorem Dev.modLut_queues (d : Dev) (n k : Nat) (f : Lut → Lut) : (d.modLut n k f).queues = d.queues := rfl
@[simp] theorem Dev.modLut_slots (d : Dev) (n k : Nat) (f : Lut → Lut) : (d.modLut n k f).slots = d.slots := rfl
@[simp] theorem Dev.modLut_hurdles (d : Dev) (n k : Nat) (f : Lut → Lut) : (d.modLut n k f).hurdles = d.hurdles := rfl
@[simp] theorem Dev.modLut_flights (d : Dev) (n k : Nat) (f : Lut → Lut) : (d.modLut n k f).flights = d.flights := rfl
@[simp] theorem Dev.modLut_host (d : Dev) (n k : Nat) (f : Lut → Lut) : (d.modLut n k f).host = d.host := rfl
@[simp] theorem Dev.modLut_mbox (d : Dev) (n k : Nat) (f : Lut → Lut) : (d.modLut n k f).mbox = d.mbox := rfl
@[simp] theorem Dev.modLut_race (d : Dev) (n k : Nat) (f : Lut → Lut) : (d.modLut n k f).race = d.race := rfl
@[simp] theorem Dev.modLut_fsets (d : Dev) (n k : Nat) (f : Lut → Lut) : (d.modLut n k f).fsets = d.fsets := rfl
@[simp] theorem Dev.modLut_tu (d : Dev) (n k : Nat) (f : Lut → Lut) : (d.modLut n k f).tu = d.tu := rfl
@[simp] theorem Dev.modLut_flock (d : Dev) (n k : Nat) (f : Lut → Lut) : (d.modLut n k f).flock = d.flock := rfl
@[simp] theorem Dev.modLut_col (d : Dev) (n k : Nat) (f : Lut → Lut) : (d.modLut n k f).col = d.col := rfl
@[simp] theorem Dev.modLut_safe (d : Dev) (n k : Nat) (f : Lut → Lut) : (d.modLut n k f).safe = d.safe := rfl
@[simp] theorem Dev.modLut_sec (d : Dev) (n k : Nat) (f : Lut → Lut) : (d.modLut n k f).sec = d.sec := rfl
@[simp] theorem Dev.modLut_pow (d : Dev) (n k : Nat) (f : Lut → Lut) : (d.modLut n k f).pow = d.pow := rfl
@[simp] theorem Dev.modLut_free (d : Dev) (n k : Nat) (f : Lut → Lut) : (d.modLut n k f).free = d.free := rfl
theorem Dev.lut_modLut (d : Dev) (n k : Nat) (f : Lut → Lut) (m j : Nat) :
    (d.modLut n k f).lut m j = if m = n ∧ j = k then f (d.lut n k) else d.lut m j := by
  unfold Dev.lut Dev.modLut
  rw [Dev.fold_modFold]
  by_cases hm : m = n
  · simp [hm, tgetD_tmod]
  · simp [hm]

@[simp] theorem Dev.setLow_mem (d : Dev) (ch k : Nat) : (d.setLow ch k).mem = d.mem := rfl
@[simp] theorem Dev.setLow_gddr (d : Dev) (ch k : Nat) : (d.setLow ch k).gddr = d.gddr := rfl
@[simp] theorem Dev.setLow_folds (d : Dev) (ch k : Nat) : (d.setLow ch k).folds = d.folds := rfl
@[simp] theorem Dev.setLow_phys (d : Dev) (ch k : Nat) : (d.setLow ch k).phys = d.phys := rfl
@[simp] theorem Dev.setLow_foldMap (d : Dev) (ch k : Nat) : (d.setLow ch k).foldMap = d.foldMap := rfl
@[simp] theorem Dev.setLow_threads (d : Dev) (ch k : Nat) : (d.setLow ch k).threads = d.threads := rfl
@[simp] theorem Dev.setLow_posted (d : Dev) (ch k : Nat) : (d.setLow ch k).posted = d.posted := rfl
@[simp] theorem Dev.setLow_insts (d : Dev) (ch k : Nat) : (d.setLow ch k).insts = d.insts := rfl
@[simp] theorem Dev.setLow_queues (d : Dev) (ch k : Nat) : (d.setLow ch k).queues = d.queues := rfl
@[simp] theorem Dev.setLow_slots (d : Dev) (ch k : Nat) : (d.setLow ch k).slots = d.slots := rfl
@[simp] theorem Dev.setLow_hurdles (d : Dev) (ch k : Nat) : (d.setLow ch k).hurdles = d.hurdles := rfl
@[simp] theorem Dev.setLow_flights (d : Dev) (ch k : Nat) : (d.setLow ch k).flights = d.flights := rfl
@[simp] theorem Dev.setLow_mbox (d : Dev) (ch k : Nat) : (d.setLow ch k).mbox = d.mbox := rfl
@[simp] theorem Dev.setLow_race (d : Dev) (ch k : Nat) : (d.setLow ch k).race = d.race := rfl
@[simp] theorem Dev.setLow_fsets (d : Dev) (ch k : Nat) : (d.setLow ch k).fsets = d.fsets := rfl
@[simp] theorem Dev.setLow_tu (d : Dev) (ch k : Nat) : (d.setLow ch k).tu = d.tu := rfl
@[simp] theorem Dev.setLow_flock (d : Dev) (ch k : Nat) : (d.setLow ch k).flock = d.flock := rfl
@[simp] theorem Dev.setLow_col (d : Dev) (ch k : Nat) : (d.setLow ch k).col = d.col := rfl
@[simp] theorem Dev.setLow_safe (d : Dev) (ch k : Nat) : (d.setLow ch k).safe = d.safe := rfl
@[simp] theorem Dev.setLow_sec (d : Dev) (ch k : Nat) : (d.setLow ch k).sec = d.sec := rfl
@[simp] theorem Dev.setLow_pow (d : Dev) (ch k : Nat) : (d.setLow ch k).pow = d.pow := rfl
@[simp] theorem Dev.setLow_free (d : Dev) (ch k : Nat) : (d.setLow ch k).free = d.free := rfl
theorem Dev.lowOf_setLow (d : Dev) (ch k j : Nat) : (d.setLow ch k).lowOf j = if j = ch then k else d.lowOf j := by
  by_cases hk : k = 0
  · by_cases hj : j = ch <;> simp [Dev.setLow, Dev.lowOf, tgetD, tget_terase, hk, hj]
  · by_cases hj : j = ch <;> simp [Dev.setLow, Dev.lowOf, tgetD_tset, hk, hj]

theorem Dev.queue_modQueue (d : Dev) (q : Nat) (f : MQueue → MQueue) (j : Nat) :
    (d.modQueue q f).queue j = if j = q then (d.queue q).map f else d.queue j := by
  simp only [Dev.queue, Dev.modQueue]
  exact tget_tupd _ _ _ _

@[simp] theorem State.put_pending (s : State) (d : Dev) : (s.put d).pending = s.pending := rfl
@[simp] theorem State.put_clk (s : State) (d : Dev) : (s.put d).clk = s.clk := rfl
@[simp] theorem State.put_fuse (s : State) (d : Dev) : (s.put d).fuse = s.fuse := rfl
@[simp] theorem State.put_dev (s : State) (d : Dev) : (s.put d).dev = d := rfl
@[simp] theorem State.env_raw (s : State) : s.env.raw = s.clk.raw := rfl
@[simp] theorem State.env_fuse (s : State) : s.env.fuse = s.fuse := rfl

end Sys2Proof.Machine
end

