-- ==== Sys2Proof/Tests/Slice0.lean ====
section
/-! SUPPORT. The model's own tests: well-formedness, the spec's worked examples, and for every statement a state and operands
that meet the hypotheses of each of its clauses together (`test_meets_<statement>`, one existence claim a clause). -/

namespace Sys2Proof.Tests

open Sys2Proof Sys2Proof.Machine

set_option Elab.async false

/-! ## A device in IDLE, entries and blocks -/

def dev : Dev := {
  foldMap := (List.range 48).map fun n => (n, n)
  folds := [(0, { gated := false })]
  mbox := { ready := true, queues := [(0, {})], boot := { stage := 5, testDone := true, testPass := true } }
  safe := { released := true, safe0 := false, safe1 := false }
  pow := { state := .idle, phase := .settled, porstLow := false, firstIdle := true, pwrMain := true, pwrFold := true } }
def st (d : Dev) : State := { pending := [], clk := { raw := 10000000000000, running := true }, fuse := {}, dev := d }
def args (l : List (Nat × Nat × Nat)) : List Byte :=
  l.foldl (fun b x => b.take (x.1 - 0x10) ++ leBytes x.2.1 x.2.2 ++ b.drop (x.1 - 0x10 + x.2.1)) (List.replicate 48 0)
def ent (target : Nat) (l : List (Nat × Nat × Nat)) : Sub :=
  { flags := 0, tag := 7, target := target, timeoutUs := 0, args := args l }
def blkF (b : List Byte) : List (Nat × Nat × Nat) := [(0x34, 4, 0x2000000), (0x38, 4, b.length), (0x3C, 4, crc32c b)]
def withB (d : Dev) (b : List Byte) : Dev := d.poke 0x202000000 b
def blkC (n c : Nat) : List (Nat × Nat × Nat) := [(0x34, 4, 0x2000000), (0x38, 4, n), (0x3C, 4, c)]
/-- The block that `withB` places is delivered whole to an entry that names it, once firmware has taken the entry. -/
theorem block_withB (d : Dev) (b : List Byte) (f : Nat → Sub) (hs : (withB d b).mem.sound = true)
    (ho : (f (crc32c b)).field 0x34 4 = 0x2000000) (hn : (f (crc32c b)).field 0x38 4 = b.length)
    (hl : 4 ≤ b.length ∧ b.length ≤ 4096) (hz : (f (crc32c b)).zero 0x30 4 = true)
    (hc : ∀ c, (f c).field 0x3C 4 = leNat (leBytes 4 c)) : ((withB d b).passed 0).blockIs (f (crc32c b)) b := by
  refine ⟨hz, Dev.block_sound _ _ _ hs (by omega) (by omega) (by omega) hl.1 (by omega) hn ?_ ?_⟩
  · rw [ho]; exact Dev.raw_poke d 0x202000000 b
  · rw [hc, leNat_leBytes, Nat.mod_eq_of_lt]
    show BitVec.toNat _ < 2 ^ 32
    exact BitVec.isLt _

/-! With no mode register written, the fields that R350 gives a reset value read as it. -/

theorem mrInForce_of_no_mr (d : Dev) (ch n : Nat) (h : d.host.mr = []) : d.mrInForce ch n = mrReset n := by
  simp [Dev.mrInForce, h, tgetD, tget]
theorem bankGroups_of_no_mr (d : Dev) (ch : Nat) (h : d.host.mr = []) : d.bankGroups ch = false := by
  simp [Dev.bankGroups, mrInForce_of_no_mr d ch 3 h, mrField]
theorem maskOff_of_no_mr (d : Dev) (ch : Nat) (h : d.host.mr = []) : d.maskOff ch = false := by
  simp [Dev.maskOff, mrInForce_of_no_mr d ch 13 h, mrField]
theorem writeEccOn_of_no_mr (d : Dev) (ch : Nat) (h : d.host.mr = []) : d.writeEccOn ch = false := by
  simp [Dev.writeEccOn, mrInForce_of_no_mr d ch 22 h, mrField]
theorem bankOf_of_no_mr (d : Dev) (ch n : Nat) (b : BankAddr) (hn : n = b.ba % 16) (h : d.host.mr = []) : n = d.bankOf ch b := by
  simp [Dev.bankOf, bankGroups_of_no_mr d ch h, hn]

/-! ## Well-formedness: every kind of unit is checked -/

/-- One command for each kind of unit, naming the first number that the device does not have. -/
def illFormed : List Instr :=
  [.createQueue 32 (ent 0 []), .power 40 (ent 0 []), .commandTimeout 32 7, .hpcSqTail 32 0, .coalesceTimeout 32, .hpcFsetDone 16 .hostPort 0,
    .activate 4 ⟨0, 0⟩ 0, .activate 0 ⟨4, 0⟩ 0, .activate 0 ⟨0, 16⟩ 0, .activate 0 ⟨0, 0⟩ 65536, .hostRead 0 ⟨0, 0⟩ 2048 0 true,
    .modeRegisterRead 0 256, .windowWriteLand 4 ⟨1, 0⟩,
    .fence 3088, .waitDeadline 3088, .slotReaderTimeout 65536 0, .slotReaderTimeout 5 3184, .hurdleTimeout 65536,
    .jobStart 49 0, .jobStart 0 3, .jobStart 48 8, .droverStart 0 2, .sliceStart 52 0, .sliceStart 0 4, .foldGate 48, .foldRetirement 52,
    .scrub 85, .gddr6TemperatureRead 12 none, .csiLineMarker 12 ⟨0, .good⟩, .csiLineMarker 0 ⟨32, .good⟩, .lineTimeout 64, .deadlineJudge 16,
    .masterLoss 2, .triggerLeadingEdge 17, .connectResend 512, .stileLifetime 64, .faultCollect ⟨[], [1024], false, false⟩, .followerTimeout 3,
    .monitorSelfCheck 61 true true, .railRampTimeout 9, .clockMonitorTrip 9 0 false, .loadDataReturn 3088]

/-- The same kinds, naming the last number that the device has. -/
def wellFormed : List Instr :=
  [.createQueue 31 (ent 0 []), .hpcFsetDone 15 .hostPort 0, .activate 3 ⟨3, 15⟩ 65535, .hostRead 3 ⟨3, 15⟩ 2047 0 true, .modeRegisterRead 3 255,
    .fence 3087, .slotReaderTimeout 65535 3183, .hurdleTimeout 65535, .jobStart 47 2, .jobStart 48 7, .droverStart 47 1, .sliceStart 51 3,
    .foldGate 47, .foldRetirement 51, .scrub 84, .gddr6TemperatureRead 11 none, .csiLineMarker 11 ⟨31, .good⟩, .lineTimeout 63,
    .deadlineJudge 15, .masterLoss 1, .triggerLeadingEdge 16, .connectResend 511, .stileLifetime 63, .faultCollect ⟨[.flitParity 51 0], [1023], false, false⟩,
    .followerTimeout 2, .railRampTimeout 8, .loadDataReturn 3087, .wakeN, .idcode]

theorem test_ill_formed_commands_are_refused : illFormed.all (fun i => !i.wf) = true := by decide +kernel

theorem test_well_formed_commands_are_admitted : wellFormed.all (·.wf) = true := by decide +kernel

theorem test_ill_formed_command_stops : exec (.foldGate 48) State.reset = .fault (.noSuchUnit 48) := rfl

theorem test_no_word_spells_a_command : State.reset.withFetchWord 32 5 = State.reset := rfl

/-! ## The spec's worked examples -/

/-- 00_scope.md, worked example: the tally in fold 13's memory. -/
theorem test_fold_memory_address : foldBase 13 + 0x40 = 0x10D000040 := by decide

/-- 05_memory_hierarchy.md, worked example: device address 0x0010_0123_4540 lies at interface A. -/
theorem test_gddr_interleave : (match zoneOf 0x1001234540 with
    | .gddr off => gddrIface off
    | _ => 99) = 0 := by decide +kernel

/-- 18_fault_collection.md, worked example: the COVERAGE message of physical fold 48. -/
theorem test_fault_message : faultMsg 0x170 0x0D 2 0x8235 = 0x5C0D020000008235#64 := by decide +kernel

/-- 02_race_ingress.md, worked example: min_interval of a set with P = 33,333,333 ns. -/
theorem test_min_interval : dev.minIntervalUs [(6, leBytes 4 0)] = 16666 := by decide +kernel

/-- 02_race_ingress.md, "A damaged frame": the capture time 10,997,504,100 falls into instance 300. -/
theorem test_frame_counter :
    ((({ dev with
        race := { gates := [(37, { fn := .running, settings := [(6, leBytes 4 0)] })] }
        fsets := [(0, { cfg := some { period := 33333333, dom := 1, offset := 30000000, hold := 0, epoch := 1000000000 } })]
        } : Dev).assign 37 10997504100).1).1 = 300 := by decide +kernel

/-- 07_numerics.md, worked example: the FP16 products 2^30, 2^-28 and -2^30 sum to 0 in the cells. -/
theorem test_aligned_sum_discards :
    alignedSum 0x12 0x12 2 1 [(0, 0x7800, 0x7800), (1, 0x0400, 0x0400), (2, 0xF800, 0x7800)] 0 = 0 := by decide +kernel

/-- The same products summed exactly (the worked example's exact sum and its magnitude). -/
theorem test_exact_sum_keeps :
    exactSum 0x12 0x12 [(0, 0x7800, 0x7800), (1, 0x0400, 0x0400), (2, 0xF800, 0x7800)] = (pow2 (-28), pow2 31 + pow2 (-28)) := by
  decide +kernel

/-- 06_matrix_arrays.md, worked example: the limbs of FP16 0x3C01, in units of the element's scale 2^-15. -/
theorem test_limbs : (limbOf 0x12 0x3C01 2 1 * pow2 15, limbOf 0x12 0x3C01 2 0 * pow2 15) = (0x80, 0x20) := by decide +kernel

/-- 07_numerics.md, worked example: 100.5 to INT8 under each rounding mode. -/
theorem test_rounding_modes :
    (List.range 5).map (fun r => encodeVal 1 r true (.fin (201 / 2) false)) = [0x64, 0x64, 0x65, 0x64, 0x65] := by decide +kernel

/-- The same output with no bias, 300.5, saturates under every mode. -/
theorem test_saturation :
    (List.range 5).map (fun r => encodeVal 1 r true (.fin (601 / 2) false)) = [0x7F, 0x7F, 0x7F, 0x7F, 0x7F] := by decide +kernel

/-- A descriptor of a variance over one row of FP32 elements. -/
def varD (n : Nat) : List Byte := [0x24, 0x14, 0x14, 0x14, 0, 0, 0, 0] ++ leBytes 4 1 ++ leBytes 4 n ++ List.replicate 112 0

/-- 08_vector_special.md, worked example: the variance of 1, 1 + 2^-23, 1 + 2^-23. -/
theorem test_variance_of_three :
    encodeVal 0x14 0 false (reduceVal (varD 3) [f32 0x3F800000, f32 0x3F800001, f32 0x3F800001]) = 0x27AAAAAB := by decide +kernel

/-- 08_vector_special.md, worked example, shortened to four elements: equal elements have variance +0, with no overflow. -/
theorem test_variance_of_equal_elements :
    encodeVal 0x14 0 false (reduceVal (varD 4) (List.replicate 4 (f32 0x7F000000))) = 0 := by decide +kernel

/-- 15_time.md, worked example: the residence correction of a Sync forwarded from port 0 to port 1. -/
theorem test_residence_correction :
    ({ dev with tu := { doms := [(0, { fn := .running, params := [{ rs := 0, ts := 0, rho := 21990233 }] })],
                        delayIn := [(0, 212)], delayOut := [(1, 198)] } } : Dev).correct { raw := 0, fuse := {} } 0
      { (default : BridgeFrame) with inPort := 0, correction := 73728, residence := 1681 } 1 1 = 137112245 := by decide +kernel

/-- 14_command_reference.md, worked example: the configure block of gate 37 is 84 bytes with nine records. -/
theorem test_settings_block :
    let b : List Byte := leBytes 4 0x40001 ++ leBytes 4 0 ++ leBytes 4 0x40003 ++ leBytes 4 0x2C ++ leBytes 4 0x40004 ++ leBytes 4 1920 ++
      leBytes 4 0x40005 ++ leBytes 4 1536 ++ leBytes 4 0x40006 ++ leBytes 4 0 ++ leBytes 4 0x100008 ++ leBytes 4 2 ++
      leBytes 4 0x2CD440 ++ leBytes 8 0x204000000 ++ leBytes 4 0x4000A ++ leBytes 4 0xFFD9DA60 ++ leBytes 4 0x4002B ++ leBytes 4 0x1E ++
      leBytes 4 0x4003A ++ leBytes 4 0x1403
    (b.length, (parseSettings b.length b).map fun l => l.map (·.1)) =
      (84, some [1, 3, 4, 5, 6, 8, 0x0A, 0x2B, 0x3A]) := by decide +kernel

/-! ## Premises of the statements whose clauses name no unit -/

theorem test_meets_every_command_answers : (∃ c : Instr, c.wf = true) ∧ ∃ c : Instr, c.wf = false :=
  ⟨⟨.wakeN, rfl⟩, ⟨.foldGate 48, rfl⟩⟩

theorem test_meets_fuses_only_gain : ∃ (f : Fuses) (s t : State), f.kept s.fuse = true ∧ step s = .next t :=
  ⟨State.reset.fuse, State.reset, State.reset, by decide +kernel, rfl⟩

theorem test_meets_raw_counter_only_advances :
    ∃ s t : State, s.clk.running = true ∧ s.clk.raw < 2 ^ 64 ∧ step s = .next t ∧ s.pending ≠ [] :=
  ⟨{ st dev with pending := [.idcode] }, _, rfl, by decide, rfl, by decide⟩

theorem test_meets_exact_sums_have_no_order :
    (∃ (fa fb : Nat) (l l' : List (Nat × Nat × Nat)), pairExact fa = true ∧ pairExact fb = true ∧ l.Perm l' ∧ l ≠ l') ∧
    (∃ (fa fb kt : Nat) (l : List (Nat × Nat × Nat)), pairExact fa = true ∧ pairLimbs fa fb ≠ 0 ∧ l ≠ [] ∧ ∀ x ∈ l, x.1 < 128 * kt) ∧
    (∃ (fa fb kt : Nat) (l : List (Nat × Nat × Nat)) (a : Acc) (top : Rat) (p : List Rat) (at_ : Nat → Rat), pairExact fa = true ∧
      a.saturated = false ∧ top = (2 ^ 111 - 1) * exactLsb fa ∧ p = exactParts fa fb (pairLimbs fa fb) kt l ∧
      (∀ i, at_ i = a.sum + (p.take i).sum) ∧ p ≠ [] ∧ ∀ i, i ≤ p.length → -(top + exactLsb fa) ≤ at_ i ∧ at_ i ≤ top) ∧
    (∃ (fa fb kt : Nat) (l : List (Nat × Nat × Nat)) (a : Acc) (top : Rat) (p : List Rat) (at_ : Nat → Rat) (k : Nat),
      pairExact fa = true ∧ a.saturated = false ∧ top = (2 ^ 111 - 1) * exactLsb fa ∧
      p = exactParts fa fb (pairLimbs fa fb) kt l ∧ (∀ i, at_ i = a.sum + (p.take i).sum) ∧ k < p.length ∧
      (∀ i, i ≤ k → -(top + exactLsb fa) ≤ at_ i ∧ at_ i ≤ top) ∧ top < at_ (k + 1)) ∧
    (∃ (fa fb kt : Nat) (l : List (Nat × Nat × Nat)) (a : Acc) (top : Rat) (p : List Rat) (at_ : Nat → Rat) (k : Nat),
      pairExact fa = true ∧ a.saturated = false ∧ top = (2 ^ 111 - 1) * exactLsb fa ∧
      p = exactParts fa fb (pairLimbs fa fb) kt l ∧ (∀ i, at_ i = a.sum + (p.take i).sum) ∧ k < p.length ∧
      (∀ i, i ≤ k → -(top + exactLsb fa) ≤ at_ i ∧ at_ i ≤ top) ∧ at_ (k + 1) < -(top + exactLsb fa)) ∧
    (∃ (fa : Nat) (a : Acc), pairExact fa = true ∧ a.saturated = true) :=
  ⟨⟨1, 3, [(0, 1, 1), (1, 2, 1)], [(1, 2, 1), (0, 1, 1)], by decide +kernel, by decide +kernel, List.Perm.swap .., by decide⟩,
   ⟨1, 1, 1, [(0, 1, 1), (127, 2, 1)], by decide +kernel⟩,
   ⟨1, 1, 1, [(0, 1, 1)], { sum := 2 ^ 111 - 2 }, _, _, _, by decide +kernel, rfl, rfl, rfl, fun _ => rfl, by decide +kernel⟩,
   ⟨1, 1, 1, [(0, 1, 1)], { sum := 2 ^ 111 - 1 }, _, _, _, 0, by decide +kernel, rfl, rfl, rfl, fun _ => rfl, by decide +kernel⟩,
   ⟨1, 1, 1, [(0, 0xFF, 1)], { sum := -(2 ^ 111) }, _, _, _, 0, by decide +kernel, rfl, rfl, rfl, fun _ => rfl, by decide +kernel⟩,
   ⟨1, { saturated := true }, by decide +kernel⟩⟩

theorem test_meets_rounding_chooses_a_neighbour :
    (∃ (code w : Nat) (q : Rat) (n : Bool), fmtDefined code = true ∧ w < 2 ^ (8 * fmtBytes code) ∧ decodeVal code w = .fin q n ∧
      q ≠ 0) ∧
    (∃ (code : Nat) (f : FFmt) (w : Nat) (lo hi y : Rat) (a b : Bool), ffmt code = some f ∧ w + 1 ≤ maxFinite f ∧
      decodeVal code w = .fin lo a ∧ decodeVal code (w + 1) = .fin hi b ∧ lo < y ∧ y < hi) ∧
    (∃ (code b : Nat) (sgn : Bool) (k : Int) (y : Rat), ifmt code = some (b, sgn) ∧ (intRange b sgn).1 ≤ k ∧
      k + 1 ≤ (intRange b sgn).2 ∧ (k : Rat) < y ∧ y < (k : Rat) + 1) :=
  ⟨⟨0x14, 1, pow2 (-149), false, by decide +kernel⟩,
   ⟨0x12, _, 0, 0, pow2 (-24), pow2 (-25), false, false, rfl, by decide +kernel⟩,
   ⟨1, 8, true, -128, -255 / 2, by decide +kernel⟩⟩

/-! ## Premises of the statements -/

namespace W1

def eQ := ent 0 [(0x10,2,31),(0x12,2,16),(0x14,2,32),(0x18,4,0x20000),(0x1C,4,0x21000),(0x20,1,1)]
def q2 : MQueue := { sqBase := 0x20000, cqBase := 0x21000 }
def d2 := { dev with mbox := { dev.mbox with queues := [(0,{}),(1,q2)] } }
def o1 : Outst := { q := 1, opcode := 0x305, e := { ent 0 [] with tag := 9 }, deadline := 10000000000000 }
def d3 := { d2 with mbox := { d2.mbox with outst := [o1] } }
def d4 := ({ d2 with mbox := { d2.mbox with queues := [(0,{}),(1,{q2 with sqTail := 1})] } }).poke (commonBase + 0x20000) (leBytes 2 0x305 ++ leBytes 2 0 ++ leBytes 4 9 ++ List.replicate 56 0)
def rp (n : Nat := 0x2000000) : List (Nat×Nat×Nat) := [(0x30,4,n)]

theorem test_meets_admin_commands_complete :
    (∃ (s₀ : State) (s : State) (e : Sys2Proof.Sub), s = s₀.taken 0 ∧ s₀.dev.admits 0 0x0001 e = true ∧ 1 ≤ e.field 0x10 2 ∧ e.field 0x10 2 ≤ 31 ∧ e.field 0x16 2 < 4 ∧ 1 ≤ e.field 0x20 1 ∧ e.zero 0x21 1 = true ∧ e.field 0x22 2 ≤ 10000 ∧ e.field 0x24 4 < 16 ∧ e.zero 0x28 24 = true ∧ ((queueOf e).ethIrq = true → s.dev.mbox.irqDest.isSome = true) ∧ s.dev.queue (e.field 0x10 2) = none ∧ s.dev.queueOk (queueOf e) = true) ∧
    (∃ (s₀ : State) (s : State) (e : Sys2Proof.Sub), s = s₀.taken 0 ∧ s₀.dev.admits 0 0x0002 e = true ∧ 1 ≤ e.field 0x10 2 ∧ e.field 0x10 2 ≤ 31 ∧ e.zero 0x12 46 = true ∧ (∃ m, s.dev.queue (e.field 0x10 2) = some m ∧ (m.error = true ∨ (s.dev.mbox.outst.all fun o => o.q != e.field 0x10 2) = true)) ∧ s.dev.noticeTarget (e.field 0x10 2) = false) ∧
    (∃ (s₀ : State) (s : State) (e : Sys2Proof.Sub) (o : Outst), s = s₀.taken 0 ∧ s₀.dev.admits 0 0x0003 e = true ∧ e.field 0x10 2 ≤ 31 ∧ e.zero 0x12 2 = true ∧ e.zero 0x18 40 = true ∧ (s.dev.queue (e.field 0x10 2)).isSome = true ∧ s.dev.outstBy (e.field 0x10 2) (e.field 0x14 4) = some o ∧ o.opcode ≠ 3) ∧
    (∃ (s₀ : State) (s : State) (e : Sys2Proof.Sub) (op : Nat), s = s₀.taken 0 ∧ s₀.dev.admits 0 0x0003 e = true ∧ e.field 0x10 2 ≤ 31 ∧ e.zero 0x12 2 = true ∧ e.zero 0x18 40 = true ∧ (s.dev.queue (e.field 0x10 2)).isSome = true ∧ s.dev.outstBy (e.field 0x10 2) (e.field 0x14 4) = none ∧ s.dev.exposed (e.field 0x10 2) (e.field 0x14 4) = some op ∧ op ≠ 3) ∧
    (∃ (s₀ : State) (s : State) (q : Nat) (e : Sys2Proof.Sub), s = s₀.taken q ∧ q < 32 ∧ s₀.dev.admits q 0x0004 e = true ∧ e.zero 0x10 32 = true ∧ e.replyOk 96 = true) ∧
    (∃ (s₀ : State) (s : State) (q : Nat) (e : Sys2Proof.Sub), s = s₀.taken q ∧ q < 32 ∧ s₀.dev.admits q 0x0005 e = true ∧ e.field 0x10 1 ≤ 3 ∧ 100 ≤ e.field 0x14 4 ∧ e.field 0x14 4 ≤ 100000 ∧ e.zero 0x1E 2 = true ∧ e.zero 0x30 16 = true ∧ ipOk (e.field 0x11 1) (List.take 16 (List.drop 16 (padTo 48 e.args))) = true ∧ ((List.all s.dev.mbox.queues fun x => !x.2.ethIrq) = true)) ∧
    (∃ (s₀ : State) (s : State) (q : Nat) (e : Sys2Proof.Sub) (f : FnState), s = s₀.taken q ∧ q < 32 ∧ s₀.dev.admits q 0x0006 e = true ∧ e.zero 0x11 1 = true ∧ e.zero 0x14 44 = true ∧ s.dev.funcState (e.field 0x10 1) (e.field 0x12 2) = some f) ∧
    (∃ (s₀ : State) (s : State) (q : Nat) (e : Sys2Proof.Sub), s = s₀.taken q ∧ q < 32 ∧ s₀.dev.admits q 0x0100 e = true ∧ s.dev.pow.state = PState.idle ∧ e.field 0x11 1 ≤ 2 ∧ e.zero 0x12 2 = true ∧ e.zero 0x18 40 = true ∧ (e.field 0x14 4 = 0 ∨ e.field 0x14 4 = 4294967295 ∨ 10 ≤ e.field 0x14 4 ∧ e.field 0x14 4 ≤ 10000) ∧ e.field 0x10 1 = 2 ∧ s.dev.powerRefusal = none) ∧
    (∃ (s₀ : State) (s : State) (q : Nat) (e : Sys2Proof.Sub), s = s₀.taken q ∧ q < 32 ∧ s₀.dev.admits q 0x0100 e = true ∧ s.dev.pow.state = PState.idle ∧ e.field 0x11 1 ≤ 2 ∧ e.zero 0x12 2 = true ∧ e.zero 0x18 40 = true ∧ (e.field 0x14 4 = 0 ∨ e.field 0x14 4 = 4294967295 ∨ 10 ≤ e.field 0x14 4 ∧ e.field 0x14 4 ≤ 10000) ∧ e.field 0x10 1 = 0) :=
  ⟨⟨(st dev), (State.taken (st dev) 0), eQ, by decide +kernel⟩,
   ⟨(st d2), (State.taken (st d2) 0), (ent 0 [(0x10,2,1)]), by decide +kernel⟩,
   ⟨(st d3), (State.taken (st d3) 0), (ent 0 [(0x10,2,1),(0x14,4,9)]), o1, by decide +kernel⟩,
   ⟨(st d4), (State.taken (st d4) 0), (ent 0 [(0x10,2,1),(0x14,4,9)]), 0x305, by decide +kernel⟩,
   ⟨(st dev), (State.taken (st dev) 0), 0, (ent 0 (rp)), by decide +kernel⟩,
   ⟨(st dev), (State.taken (st dev) 0), 0, (ent 0 [(0x10,1,3),(0x11,1,4),(0x14,4,100)]), by decide +kernel⟩,
   ⟨(st dev), (State.taken (st dev) 0), 0, (ent 0 [(0x10,1,2),(0x12,2,1)]), FnState.unconfigured, by decide +kernel⟩,
   ⟨(st dev), (State.taken (st dev) 0), 0, (ent 0 [(0x10,1,2),(0x11,1,2),(0x14,4,10)]), by decide +kernel⟩,
   ⟨(st dev), (State.taken (st dev) 0), 0, (ent 0 [(0x10,1,0),(0x11,1,1),(0x14,4,10000)]), by decide +kernel⟩⟩

end W1

namespace W2

def img : Image := { folds := [0], threads := [{ thread := 0, entry := 0, high := false, regs := [] }], invokeMode := true }
def dI (f : FnState) := { dev with insts := [(3, { fn := f, image := some img })], threads := [(0, { st := .halted })] }
def dI5 := { dI .running with threads := [(0, { st := .ready })] }
def z (n : Nat) : List Byte := List.replicate n 0

theorem test_meets_program_commands_complete :
    (∃ (s₀ : State) (s : State) (q : Nat) (e : Sys2Proof.Sub), s = s₀.taken q ∧ q < 32 ∧ s₀.dev.admits q 0x0201 e = true ∧ e.zero 0x10 48 = true ∧ s.dev.loadOpen e.target = false ∧ (s.dev.inst e.target).fn = FnState.stopped ∧ s.dev.noticeHeld e.target = false) ∧
    (∃ (s₀ : State) (s : State) (q : Nat) (e : Sys2Proof.Sub), s = s₀.taken q ∧ q < 32 ∧ s₀.dev.admits q 0x0202 e = true ∧ e.zero 0x10 48 = true ∧ s.dev.loadOpen e.target = false ∧ (s.dev.inst e.target).fn = FnState.stopped ∧ s.dev.unmappedUse e.target = false) ∧
    (∃ (s₀ : State) (s : State) (q : Nat) (e : Sys2Proof.Sub), s = s₀.taken q ∧ q < 32 ∧ s₀.dev.admits q 0x0204 e = true ∧ e.zero 0x14 44 = true ∧ s.dev.loadOpen e.target = false ∧ e.field 0x10 4 % 64 = 0 ∧ 33554432 ≤ e.field 0x10 4 ∧ e.field 0x10 4 + 64 ≤ 67108864 ∧ (s.dev.inst e.target).fn = FnState.running ∧ (Option.map (fun x => x.invokeMode) (s.dev.inst e.target).image = some true) ∧ (s.dev.inst e.target).invoc = none) ∧
    (∃ (s₀ : State) (s : State) (q : Nat) (e : Sys2Proof.Sub), s = s₀.taken q ∧ q < 32 ∧ s₀.dev.admits q 0x0203 e = true ∧ e.zero 0x11 47 = true ∧ s.dev.loadOpen e.target = false ∧ e.field 0x10 1 = 1 ∧ (s.dev.inst e.target).fn = FnState.running) ∧
    (∃ (s₀ : State) (s : State) (q : Nat) (e : Sys2Proof.Sub), s = s₀.taken q ∧ q < 32 ∧ s₀.dev.admits q 0x0203 e = true ∧ e.zero 0x11 47 = true ∧ s.dev.loadOpen e.target = false ∧ e.field 0x10 1 < 2 ∧ (s.dev.inst e.target).fn = FnState.faulted) ∧
    (∃ (s₀ : State) (s : State) (q : Nat) (e : Sys2Proof.Sub), s = s₀.taken q ∧ q < 32 ∧ s₀.dev.admits q 0x0203 e = true ∧ e.zero 0x11 47 = true ∧ s.dev.loadOpen e.target = false ∧ e.field 0x10 1 = 0 ∧ (s.dev.inst e.target).fn = FnState.running ∧ s.dev.instDone e.target = false) ∧
    (∃ (s₀ : State) (s : State) (q : Nat) (e : Sys2Proof.Sub) (b : List Byte), s = s₀.taken q ∧ q < 32 ∧ e.zero 0x1C 36 = true ∧ sourceOk (e.field 0x10 8) (e.field 0x18 4) = true ∧ s.dev.source (e.field 0x10 8) (e.field 0x18 4) = (b, false, s.dev) ∧ s₀.dev.admits q 0x0200 e = true ∧ (s.dev.inst e.target).fn.canConfigure = true ∧ s.dev.loadOpen e.target = false) ∧
    (∃ (s₀ : State) (s : State) (q : Nat) (e : Sys2Proof.Sub) (b : List Byte), s = s₀.taken q ∧ q < 32 ∧ e.zero 0x1C 36 = true ∧ sourceOk (e.field 0x10 8) (e.field 0x18 4) = true ∧ s.dev.source (e.field 0x10 8) (e.field 0x18 4) = (b, false, s.dev) ∧ s₀.dev.admits q 0x0205 e = true ∧ e.field 0x18 4 ≤ 33554432 ∧ ((s.dev.mbox.outst.all fun o => o.opcode != 517) = true)) :=
  ⟨⟨(st (dI .stopped)), (State.taken (st (dI .stopped)) 0), 0, (ent 3 []), by decide +kernel⟩,
   ⟨(st (dI .stopped)), (State.taken (st (dI .stopped)) 0), 0, (ent 3 []), by decide +kernel⟩,
   ⟨(st (dI .running)), (State.taken (st (dI .running)) 0), 0, (ent 3 [(0x10,4,0x2000000)]), by decide +kernel⟩,
   ⟨(st (dI .running)), (State.taken (st (dI .running)) 0), 0, (ent 3 [(0x10,1,1)]), by decide +kernel⟩,
   ⟨(st (dI .faulted)), (State.taken (st (dI .faulted)) 0), 0, (ent 3 [(0x10,1,1)]), by decide +kernel⟩,
   ⟨(st dI5), (State.taken (st dI5) 0), 0, (ent 3 []), by decide +kernel⟩,
   ⟨(st dev), (State.taken (st dev) 0), 0, (ent 3 [(0x10,8,gddrBase),(0x18,4,64)]), (z 64), by decide +kernel⟩,
   ⟨(st dev), (State.taken (st dev) 0), 0, (ent 0 [(0x10,8,gddrBase),(0x18,4,64)]), (z 64), by decide +kernel⟩⟩

end W2

namespace W3

def rec_ (id n v : Nat) : List Byte := leBytes 2 id ++ leBytes 2 n ++ leBytes n v
def ringV : List Byte := leBytes 4 4 ++ leBytes 4 8192 ++ leBytes 8 (commonBase + 0x4000000)
def camB : List Byte := rec_ 1 4 0 ++ rec_ 3 4 0x2C ++ rec_ 4 4 64 ++ rec_ 5 4 32 ++ (leBytes 2 8 ++ leBytes 2 16 ++ ringV)
def camL : List (Nat × List Byte) := (parseSettings camB.length camB).getD []
def gd (g : Nat) (x : Gate) : Dev := { dev with race := { ports := [(1,{cfg := some {cphy := false, lanes := 4, rate := 2500, order := 0xE4, polarity := 0}})], gates := [(g, x)] } }
def gR : Gate := { fn := .running, settings := camL }
def gS : Gate := { fn := .stopped, settings := camL }
def smp : Sample := { counter := 0, capture := 0, domB := false, slot := some 0, st := camL }
def gF : Gate := { gR with frame := some { smp := smp, startRaw := 9999999000000 } }
def gSt : State := State.taken (st (gd 5 gF)) 0
def gSd : Dev := (gSt.dev.modGate 5 fun x => { x with fn := .stopping }).cancelShift gSt.env 5
def feedL : List (Nat × List Byte) := (1, leBytes 4 2) :: camL.filter (·.1 != 1)
def gFeed : Gate := { fn := .running, settings := feedL }
def toneB : List Byte := List.replicate 24576 0
def coefB : List Byte := List.replicate 128 0
def dF := { dev with fsets := [(15, { cfg := some {period := 10000000, dom := 0, offset := 1000000, hold := 0, epoch := 0}})] }
def lutB : List Byte := List.replicate 4096 1
def dL : Dev := (dev.modLut 0 2 fun t => { t with loadedBank := some 1, bank1 := some {lo := 0, hi := 1, entries := []} })
def tsE : Sub := ent 0 [(0x10,8,1),(0x18,1,2)]
def tsD : Dev := ((maskFolds (tsE.field 0x10 8)).foldl (fun d n => d.modLut n (tsE.field 0x18 1) fun t => { t with pending := true }) ((st dL).taken 0).dev).switchIdle ((st dL).taken 0).env (maskFolds (tsE.field 0x10 8))
def coefBE (c : Nat) : Sub := ent 5 ([(0x10,1,0),(0x11,1,1)] ++ blkC 128 c)
theorem coefB_block : ((withB (gd 5 gS) coefB).passed 0).blockIs (coefBE (crc32c coefB)) coefB :=
  block_withB (gd 5 gS) coefB coefBE rfl (by decide +kernel) (by decide +kernel) (by decide +kernel) (by decide +kernel)
    fun _ => rfl

def lutBE (c : Nat) : Sub := ent 0 ([(0x10,8,2^48+3),(0x18,1,3),(0x19,1,1),(0x1C,4,0),(0x20,4,0x3F800000)] ++ blkC 4096 c)
theorem lutB_block : ((withB dev lutB).passed 0).blockIs (lutBE (crc32c lutB)) lutB :=
  block_withB dev lutB lutBE rfl (by decide +kernel) (by decide +kernel) (by decide +kernel) (by decide +kernel)
    fun _ => rfl

theorem test_meets_gate_commands_complete :
    (∃ (s₀ : State) (s : State) (q : Nat) (e : Sys2Proof.Sub) (b : List Byte) (l : List (Nat × List Byte)), s = s₀.taken q ∧ q < 32 ∧ s₀.dev.admits q 0x0300 e = true ∧ e.zero 0x10 32 = true ∧ (s.dev.gate e.target).fn.canConfigure = true ∧ s.dev.blockIs e b ∧ parseSettings b.length b = some l ∧ s.dev.settingsOk e.target l = true) ∧
    (∃ (s₀ : State) (s : State) (q : Nat) (e : Sys2Proof.Sub) (now : Settings) (v : List Byte), s = s₀.taken q ∧ q < 32 ∧ s₀.dev.admits q 0x0301 e = true ∧ settingLen (e.field 0x10 2) = some (e.field 0x12 2) ∧ e.zero (20 + e.field 0x12 2) (44 - e.field 0x12 2) = true ∧ settingLive (e.field 0x10 2) = true ∧ (s.dev.gate e.target).fn = FnState.running ∧ (now = List.foldl (fun l r => Settings.put l r.1 r.2) (s.dev.gate e.target).settings (s.dev.gate e.target).liveNext) ∧ v = List.take (e.field 0x12 2) (List.drop 4 (padTo 48 e.args)) ∧ s.dev.settingsOk e.target (now.put (e.field 0x10 2) v) = true) ∧
    (∃ (s₀ : State) (s : State) (q : Nat) (e : Sys2Proof.Sub) (now : Settings) (v : List Byte), s = s₀.taken q ∧ q < 32 ∧ s₀.dev.admits q 0x0301 e = true ∧ settingLen (e.field 0x10 2) = some (e.field 0x12 2) ∧ e.zero (20 + e.field 0x12 2) (44 - e.field 0x12 2) = true ∧ (s.dev.gate e.target).fn = FnState.stopped ∧ (now = List.foldl (fun l r => Settings.put l r.1 r.2) (s.dev.gate e.target).settings (s.dev.gate e.target).liveNext) ∧ v = List.take (e.field 0x12 2) (List.drop 4 (padTo 48 e.args)) ∧ s.dev.settingsOk e.target (now.put (e.field 0x10 2) v) = true) ∧
    (∃ (s₀ : State) (s : State) (q : Nat) (e : Sys2Proof.Sub) (c : Option Nat), s = s₀.taken q ∧ q < 32 ∧ s₀.dev.admits q 0x0302 e = true ∧ e.zero 0x10 48 = true ∧ (s.dev.gate e.target).fn = FnState.stopped ∧ s.dev.gateStartOk e.target = true ∧ s.dev.startCore e.target = some c) ∧
    (∃ (s₀ : State) (s : State) (q : Nat) (e : Sys2Proof.Sub), s = s₀.taken q ∧ q < 32 ∧ s₀.dev.admits q 0x0303 e = true ∧ e.zero 0x11 47 = true ∧ e.field 0x10 1 = 1 ∧ (s.dev.gate e.target).fn = FnState.running) ∧
    (∃ (s₀ : State) (s : State) (q : Nat) (e : Sys2Proof.Sub) (d : Dev), s = s₀.taken q ∧ q < 32 ∧ s₀.dev.admits q 0x0303 e = true ∧ e.zero 0x11 47 = true ∧ e.field 0x10 1 = 0 ∧ (s.dev.gate e.target).fn = FnState.running ∧ (d = Dev.flushRefused (((s.dev.modGate e.target fun x => { fn := FnState.stopping, settings := x.settings, liveNext := x.liveNext, failedRun := x.failedRun, nextCounter := x.nextCounter, lastFs := x.lastFs, silentSince := x.silentSince, served := x.served, held := x.held, lastSlot := x.lastSlot, frame := x.frame, feeds := x.feeds, pipe := x.pipe, prevTiles := x.prevTiles, runLen := x.runLen, frozen := x.frozen, embPrev := x.embPrev, seqPrev := x.seqPrev, lastCapture := x.lastCapture, prevPicture := x.prevPicture, refs := x.refs, prevForm := x.prevForm, paramSets := x.paramSets, streamSize := x.streamSize, awaitIrap := x.awaitIrap, concealRun := x.concealRun, coef := x.coef, tone := x.tone, remap := x.remap, core := x.core, slotUs := x.slotUs, startOrder := x.startOrder, hostMode := x.hostMode, shift := x.shift, sinceShift := x.sinceShift, usage := x.usage, headerBad := x.headerBad, orphaned := x.orphaned, duplicates := x.duplicates, lost := x.lost, unslotted := x.unslotted, discarded := x.discarded }).cancelShift s.env e.target).gate e.target).feeds.length s.env e.target ((s.dev.modGate e.target fun x => { fn := FnState.stopping, settings := x.settings, liveNext := x.liveNext, failedRun := x.failedRun, nextCounter := x.nextCounter, lastFs := x.lastFs, silentSince := x.silentSince, served := x.served, held := x.held, lastSlot := x.lastSlot, frame := x.frame, feeds := x.feeds, pipe := x.pipe, prevTiles := x.prevTiles, runLen := x.runLen, frozen := x.frozen, embPrev := x.embPrev, seqPrev := x.seqPrev, lastCapture := x.lastCapture, prevPicture := x.prevPicture, refs := x.refs, prevForm := x.prevForm, paramSets := x.paramSets, streamSize := x.streamSize, awaitIrap := x.awaitIrap, concealRun := x.concealRun, coef := x.coef, tone := x.tone, remap := x.remap, core := x.core, slotUs := x.slotUs, startOrder := x.startOrder, hostMode := x.hostMode, shift := x.shift, sinceShift := x.sinceShift, usage := x.usage, headerBad := x.headerBad, orphaned := x.orphaned, duplicates := x.duplicates, lost := x.lost, unslotted := x.unslotted, discarded := x.discarded }).cancelShift s.env e.target)) ∧ (d.gate e.target).fn = FnState.stopping ∧ (d.gate e.target).frame.isSome = true) ∧
    (∃ (s₀ : State) (s : State) (q : Nat) (e : Sys2Proof.Sub), s = s₀.taken q ∧ q < 32 ∧ s₀.dev.admits q 0x0304 e = true ∧ e.zero 0x10 48 = true ∧ (s.dev.gate e.target).fn = FnState.stopped) ∧
    (∃ (s₀ : State) (s : State) (q : Nat) (e : Sys2Proof.Sub), s = s₀.taken q ∧ q < 32 ∧ s₀.dev.admits q 0x0305 e = true ∧ e.field 0x28 2 < 4 ∧ e.zero 0x2A 22 = true ∧ (s.dev.gate e.target).fn = FnState.running ∧ Settings.kind (s.dev.gate e.target).settings = 2 ∧ ((List.filter (fun f => !f.refused) (s.dev.gate e.target).feeds).length < 4) ∧ s.dev.feedSource (e.field 0x10 8) (e.field 0x20 4) = true ∧ Settings.decoder (s.dev.gate e.target).settings = 0 ∧ feedLengthOk (s.dev.gate e.target).settings false (e.field 0x20 4) = true ∧ (∀ (c : Nat), (s.dev.gate e.target).lastCapture = some c → c < e.field 0x18 8)) ∧
    (∃ (s₀ : State) (s : State) (q : Nat) (e : Sys2Proof.Sub) (b : List Byte), s = s₀.taken q ∧ q < 32 ∧ s₀.dev.admits q 0x0401 e = true ∧ e.field 0x10 1 ≤ 2 ∧ e.field 0x11 1 ≤ 1 ∧ e.zero 0x12 30 = true ∧ (s.dev.gate e.target).fn ≠ FnState.unconfigured ∧ ((s.dev.gate e.target).table (e.field 0x10 1)).active ≠ e.field 0x11 1 ∧ ((s.dev.gate e.target).table (e.field 0x10 1)).pending = false ∧ s.dev.blockIs e b ∧ tableOk (s.dev.gate e.target).settings e.target (e.field 0x10 1) b = true) ∧
    (∃ (s₀ : State) (s : State) (q : Nat) (e : Sys2Proof.Sub), s = s₀.taken q ∧ q < 32 ∧ s₀.dev.admits q 0x0402 e = true ∧ e.field 0x10 1 ≤ 2 ∧ e.zero 0x11 47 = true ∧ (s.dev.gate e.target).fn = FnState.running ∧ ((s.dev.gate e.target).table (e.field 0x10 1)).pending = false ∧ ((s.dev.gate e.target).table (e.field 0x10 1)).fresh = true) :=
  ⟨⟨(st (withB dev camB)), (State.taken (st (withB dev camB)) 0), 0, (ent 5 (blkF camB)), camB, camL, by unfold Dev.blockIs; decide +kernel⟩,
   ⟨(st (gd 5 gR)), (State.taken (st (gd 5 gR)) 0), 0, (ent 5 [(0x10,2,0x0C),(0x12,2,4),(0x14,4,10)]), camL, (leBytes 4 10), by decide +kernel⟩,
   ⟨(st (gd 5 gS)), (State.taken (st (gd 5 gS)) 0), 0, (ent 5 [(0x10,2,5),(0x12,2,4),(0x14,4,64)]), camL, (leBytes 4 64), by decide +kernel⟩,
   ⟨(st (gd 5 gS)), (State.taken (st (gd 5 gS)) 0), 0, (ent 5 []), (none : Option Nat), by decide +kernel⟩,
   ⟨(st (gd 5 gF)), (State.taken (st (gd 5 gF)) 0), 0, (ent 5 [(0x10,1,1)]), by decide +kernel⟩,
   ⟨(st (gd 5 gF)), gSt, 0, (ent 5 []), (Dev.flushRefused (gSd.gate 5).feeds.length gSt.env 5 gSd), by decide +kernel⟩,
   ⟨(st (gd 5 {gS with held := [commonBase + 0x4000000]})), (State.taken (st (gd 5 {gS with held := [commonBase + 0x4000000]})) 0), 0, (ent 5 []), by decide +kernel⟩,
   ⟨(st (gd 5 gFeed)), (State.taken (st (gd 5 gFeed)) 0), 0, (ent 5 [(0x10,8,commonBase + 0x2000000),(0x18,8,77),(0x20,4,96*32)]), by decide +kernel⟩,
   ⟨(st (withB (gd 5 gS) coefB)), (State.taken (st (withB (gd 5 gS) coefB)) 0), 0, (coefBE (crc32c coefB)), coefB, by refine ⟨rfl, ?_, ?_, ?_, ?_, ?_, ?_, ?_, ?_, coefB_block, ?_⟩ <;> decide +kernel⟩,
   ⟨(st (gd 5 {gR with tone := { fresh := true}})), (State.taken (st (gd 5 {gR with tone := { fresh := true}})) 0), 0, (ent 5 [(0x10,1,1)]), by decide +kernel⟩⟩

theorem test_meets_port_and_window_commands_complete :
    (∃ (s₀ : State) (s : State) (q : Nat) (e : Sys2Proof.Sub), s = s₀.taken q ∧ q < 32 ∧ s₀.dev.admits q 0x0306 e = true ∧ e.zero 0x12 46 = true ∧ e.field 0x10 1 ≤ 11 ∧ e.field 0x11 1 ≤ 3 ∧ (s.dev.gate e.target).fn.active = false ∧ (∀ (g : Nat), s.dev.gateOf (e.field 0x10 1) (e.field 0x11 1) = some g → (s.dev.gate g).fn.active = false)) ∧
    (∃ (s₀ : State) (s : State) (q : Nat) (e : Sys2Proof.Sub), s = s₀.taken q ∧ q < 32 ∧ s₀.dev.admits q 0x0307 e = true ∧ e.field 0x10 1 ≤ 1 ∧ e.zero 0x12 2 = true ∧ e.zero 0x1A 38 = true ∧ portCfgOk { cphy := decide (e.field 0x10 1 = 1), lanes := e.field 0x11 1, rate := e.field 0x14 4, order := e.field 0x18 1, polarity := e.field 0x19 1 } = true ∧ (((s.dev.gatesOfPort e.target).all fun g => (s.dev.gate g).fn.canConfigure) = true)) ∧
    (∃ (s₀ : State) (s : State) (q : Nat) (e : Sys2Proof.Sub), s = s₀.taken q ∧ q < 32 ∧ s₀.dev.admits q 0x0308 e = true ∧ e.zero 0x15 3 = true ∧ e.zero 0x28 24 = true ∧ 10000000 ≤ e.field 0x10 4 ∧ e.field 0x10 4 ≤ 100000000 ∧ e.field 0x14 1 ≤ 1 ∧ 1000000 ≤ e.field 0x18 4 ∧ e.field 0x18 4 ≤ 3 * e.field 0x10 4 ∧ e.field 0x1C 4 ≤ 1000000 ∧ (((s.dev.members e.target).all fun g => (s.dev.gate g).fn == FnState.stopped) = true)) ∧
    (∃ (s₀ : State) (s : State) (q : Nat) (e : Sys2Proof.Sub), s = s₀.taken q ∧ q < 32 ∧ s₀.dev.admits q 0x0309 e = true ∧ e.zero 0x14 44 = true ∧ e.field 0x10 4 ≤ 1000000 ∧ (s.dev.fset e.target).cfg.isSome = true) ∧
    (∃ (s₀ : State) (s : State) (q : Nat) (e : Sys2Proof.Sub), s = s₀.taken q ∧ q < 32 ∧ s₀.dev.admits q 0x0400 e = true ∧ e.target ≠ 0 ∧ e.zero 0x1C 36 = true ∧ windowOk (e.field 0x10 8) (e.field 0x18 4) = true ∧ e.field 0x18 4 ≠ 0 ∧ s.dev.windowOwes e.target s.dev.host.nextWrite = false) ∧
    (∃ (s₀ : State) (s : State) (q : Nat) (e : Sys2Proof.Sub) (b : List Byte), s = s₀.taken q ∧ q < 32 ∧ s₀.dev.admits q 0x0403 e = true ∧ e.field 0x10 8 < 2 ^ 49 ∧ e.field 0x18 1 ≤ 3 ∧ e.field 0x19 1 ≤ 1 ∧ e.zero 0x1A 2 = true ∧ e.zero 0x24 12 = true ∧ lutRangeOk (e.field 0x1C 4) (e.field 0x20 4) = true ∧ (((maskFolds (e.field 0x10 8)).all fun n => !(decide (n < 48) && s.dev.physOf n == 255) && (s.dev.lut n (e.field 0x18 1)).active != some (e.field 0x19 1) && !(s.dev.lut n (e.field 0x18 1)).pending) = true) ∧ s.dev.blockIs e b ∧ b.length = 4096) ∧
    (∃ (s₀ : State) (s : State) (q : Nat) (e : Sys2Proof.Sub) (d : Dev) (wait : List Nat), s = s₀.taken q ∧ q < 32 ∧ s₀.dev.admits q 0x0404 e = true ∧ e.field 0x10 8 < 2 ^ 49 ∧ e.field 0x18 1 ≤ 3 ∧ e.zero 0x19 39 = true ∧ (((maskFolds (e.field 0x10 8)).all fun n => (s.dev.lut n (e.field 0x18 1)).loadedBank.isSome && !(s.dev.lut n (e.field 0x18 1)).pending) = true) ∧ (d = (List.foldl (fun d n => d.modLut n (e.field 0x18 1) fun t => { bank0 := t.bank0, bank1 := t.bank1, active := t.active, loadedBank := t.loadedBank, pending := true }) s.dev (maskFolds (e.field 0x10 8))).switchIdle s.env (maskFolds (e.field 0x10 8))) ∧ (wait = List.filter (fun n => (d.lut n (e.field 0x18 1)).pending) (maskFolds (e.field 0x10 8)))) :=
  ⟨⟨(st dev), (State.taken (st dev) 0), 0, (ent 47 [(0x10,1,11),(0x11,1,3)]), by decide +kernel⟩,
   ⟨(st dev), (State.taken (st dev) 0), 0, (ent 11 [(0x10,1,1),(0x11,1,3),(0x14,4,80),(0x18,1,0x24)]), by decide +kernel⟩,
   ⟨(st dev), (State.taken (st dev) 0), 0, (ent 15 [(0x10,4,10000000),(0x18,4,30000000)]), by decide +kernel⟩,
   ⟨(st dF), (State.taken (st dF) 0), 0, (ent 15 [(0x10,4,1000000)]), by decide +kernel⟩,
   ⟨(st dev), (State.taken (st dev) 0), 0, (ent 127 [(0x10,8,gddrBase),(0x18,4,0x4000000)]), by decide +kernel⟩,
   ⟨(st (withB dev lutB)), (State.taken (st (withB dev lutB)) 0), 0, (lutBE (crc32c lutB)), lutB, by refine ⟨rfl, ?_, ?_, ?_, ?_, ?_, ?_, ?_, ?_, ?_, lutB_block, ?_⟩ <;> decide +kernel⟩,
   ⟨(st dL), (State.taken (st dL) 0), 0, tsE, tsD, ((maskFolds (tsE.field 0x10 8)).filter (fun n => (tsD.lut n (tsE.field 0x18 1)).pending)), by decide +kernel⟩⟩

end W3

namespace W4

def T : Nat := 10000000000000
def dc : DomCfg := { protocol := 0, number := 0, portMask := 1, priority := 0, vlan := 0xFFFF }
def dD (f : FnState) : Dev := { dev with tu := { doms := [(1, { fn := f, cfg := some dc, params := [{ rs := 5, ts := 9, rho := 3}] })] }, flock := { ports := [(0, { cfg := some (0,0) })] } }
def dLo (a b : Bool) : State := st { dD .stopped with pow := { dev.pow with refclkLost := a, timePllLost := b } }
def tr : TrigCfg := { dom := 0, periodic := true, activeLow := false, width := 100, start := T, period := 1000 }
def dT (f : FnState) (ip : Bool := false) : Dev := { dev with tu := { trigs := [(3, { fn := f, cfg := some tr, inPulse := ip, level := ip })] } }
def dFl (n : Nat) (p : Tab Peer := []) (sx : Tab Stile := []) : Dev := { dev with flock := { dev := some n, peers := p, stiles := sx } }
def pc : PeerCfg := { dev := 9, port := 0, priority := 0, vlan := 0xFFFF, mac := [0,0,0,0,0,0] }
def prB : List Byte := leBytes 2 9 ++ leBytes 2 511
def sc : StileCfg := { base := commonBase + 0x4000000, length := 4096, offset := 0, canRead := true, canWrite := true, lifetimeMs := 5, peers := [9] }
def dS (f : FnState) : Dev := dFl 1 [] [(7, { fn := f, cfg := some sc, startedAt := T - 5000000 })]
def ru : List Byte := List.replicate 64 0

theorem test_meets_time_commands_complete :
    (∃ (s₀ : State) (s : State) (q : Nat) (e : Sys2Proof.Sub), s = s₀.taken q ∧ q < 32 ∧ s₀.dev.admits q 0x0500 e = true ∧ e.field 0x10 1 ≤ 1 ∧ e.field 0x11 1 ≤ 127 ∧ e.field 0x12 1 ≤ 15 ∧ e.field 0x13 1 ≤ 7 ∧ vlanOk (e.field 0x14 2) = true ∧ e.zero 0x16 42 = true ∧ (s.dev.dom e.target).fn.canConfigure = true) ∧
    (∃ (s₀ : State) (s : State) (q : Nat) (e : Sys2Proof.Sub), s = s₀.taken q ∧ q < 32 ∧ s₀.dev.admits q 0x0501 e = true ∧ e.zero 0x10 48 = true ∧ (s.dev.dom e.target).fn = FnState.stopped ∧ s.dev.domainReady e.target = true ∧ s.dev.pow.refclkLost = false ∧ s.dev.pow.timePllLost = false) ∧
    (∃ (s₀ : State) (s : State) (q : Nat) (e : Sys2Proof.Sub), s = s₀.taken q ∧ q < 32 ∧ s₀.dev.admits q 0x0501 e = true ∧ e.zero 0x10 48 = true ∧ (s.dev.dom e.target).fn = FnState.stopped ∧ s.dev.domainReady e.target = true ∧ (s.dev.pow.refclkLost = true ∨ s.dev.pow.timePllLost = true)) ∧
    (∃ (s₀ : State) (s : State) (q : Nat) (e : Sys2Proof.Sub), s = s₀.taken q ∧ q < 32 ∧ s₀.dev.admits q 0x0502 e = true ∧ e.zero 0x11 47 = true ∧ e.field 0x10 1 < 2 ∧ ((s.dev.dom e.target).fn = FnState.running ∨ (s.dev.dom e.target).fn = FnState.faulted)) ∧
    (∃ (s₀ : State) (s : State) (q : Nat) (e : Sys2Proof.Sub), s = s₀.taken q ∧ q < 32 ∧ s₀.dev.admits q 0x0503 e = true ∧ e.zero 0x10 48 = true ∧ (s.dev.dom e.target).fn = FnState.stopped) ∧
    (∃ (s₀ : State) (s : State) (q : Nat) (e : Sys2Proof.Sub), s = s₀.taken q ∧ q < 32 ∧ s₀.dev.admits q 0x0504 e = true ∧ e.zero 0x10 48 = true) ∧
    (∃ (s₀ : State) (s : State) (q : Nat) (e : Sys2Proof.Sub), s = s₀.taken q ∧ q < 32 ∧ s₀.dev.admits q 0x0505 e = true ∧ e.zero 0x11 3 = true ∧ e.zero 0x18 40 = true ∧ e.field 0x14 4 ≤ 10000 ∧ e.field 0x10 1 = 0) ∧
    (∃ (s₀ : State) (s : State) (q : Nat) (e : Sys2Proof.Sub), s = s₀.taken q ∧ q < 32 ∧ s₀.dev.admits q 0x0505 e = true ∧ e.zero 0x11 3 = true ∧ e.zero 0x18 40 = true ∧ e.field 0x14 4 ≤ 10000 ∧ e.field 0x10 1 = 1) ∧
    (∃ (s₀ : State) (s : State) (q : Nat) (e : Sys2Proof.Sub), s = s₀.taken q ∧ q < 32 ∧ s₀.dev.admits q 0x0506 e = true ∧ e.zero 0x10 48 = true) ∧
    (∃ (s₀ : State) (s : State) (q : Nat) (e : Sys2Proof.Sub), s = s₀.taken q ∧ q < 32 ∧ s₀.dev.admits q 0x0510 e = true ∧ e.field 0x11 1 ≤ 1 ∧ e.field 0x12 1 ≤ 1 ∧ e.zero 0x13 1 = true ∧ e.zero 0x28 24 = true ∧ trigCfgOk e.target { dom := e.field 0x10 1, periodic := decide (e.field 0x11 1 = 1), activeLow := decide (e.field 0x12 1 = 1), width := e.field 0x14 4, start := e.field 0x18 8, period := e.field 0x20 8 } = true ∧ (s.dev.trig e.target).fn.canConfigure = true) ∧
    (∃ (s₀ : State) (s : State) (q : Nat) (e : Sys2Proof.Sub) (c : TrigCfg), s = s₀.taken q ∧ q < 32 ∧ s₀.dev.admits q 0x0511 e = true ∧ e.zero 0x10 48 = true ∧ (s.dev.trig e.target).fn = FnState.stopped ∧ (s.dev.trig e.target).cfg = some c ∧ s.dev.domTime c.dom s.clk.raw ≤ ↑c.start) ∧
    (∃ (s₀ : State) (s : State) (q : Nat) (e : Sys2Proof.Sub), s = s₀.taken q ∧ q < 32 ∧ s₀.dev.admits q 0x0512 e = true ∧ e.zero 0x11 47 = true ∧ e.field 0x10 1 = 1 ∧ (s.dev.trig e.target).fn = FnState.running) ∧
    (∃ (s₀ : State) (s : State) (q : Nat) (e : Sys2Proof.Sub), s = s₀.taken q ∧ q < 32 ∧ s₀.dev.admits q 0x0512 e = true ∧ e.zero 0x11 47 = true ∧ e.field 0x10 1 = 0 ∧ (s.dev.trig e.target).fn = FnState.running ∧ (s.dev.trig e.target).inPulse = true) ∧
    (∃ (s₀ : State) (s : State) (q : Nat) (e : Sys2Proof.Sub), s = s₀.taken q ∧ q < 32 ∧ s₀.dev.admits q 0x0513 e = true ∧ e.zero 0x10 48 = true ∧ (s.dev.trig e.target).fn = FnState.stopped) :=
  ⟨⟨(st dev), (State.taken (st dev) 0), 0, (ent 1 [(0x10,1,1),(0x11,1,127),(0x12,1,15),(0x13,1,7),(0x14,2,0xFFFF)]), by decide +kernel⟩,
   ⟨(st (dD .stopped)), (State.taken (st (dD .stopped)) 0), 0, (ent 1 []), by decide +kernel⟩,
   ⟨(dLo true false), (State.taken (dLo true false) 0), 0, (ent 1 []), by decide +kernel⟩,
   ⟨(st (dD .running)), (State.taken (st (dD .running)) 0), 0, (ent 1 [(0x10,1,1)]), by decide +kernel⟩,
   ⟨(st (dD .stopped)), (State.taken (st (dD .stopped)) 0), 0, (ent 1 []), by decide +kernel⟩,
   ⟨(st dev), (State.taken (st dev) 0), 0, (ent 1 []), by decide +kernel⟩,
   ⟨(st dev), (State.taken (st dev) 0), 0, (ent 3 [(0x14,4,10000)]), by decide +kernel⟩,
   ⟨(st dev), (State.taken (st dev) 0), 0, (ent 3 [(0x10,1,1),(0x14,4,10000)]), by decide +kernel⟩,
   ⟨(st (dD .running)), (State.taken (st (dD .running)) 0), 0, (ent 1 []), by decide +kernel⟩,
   ⟨(st dev), (State.taken (st dev) 0), 0, (ent 15 [(0x10,1,1),(0x14,4,100),(0x20,8,1000)]), by decide +kernel⟩,
   ⟨(st (dT .stopped)), (State.taken (st (dT .stopped)) 0), 0, (ent 3 []), tr, by decide +kernel⟩,
   ⟨(st (dT .running)), (State.taken (st (dT .running)) 0), 0, (ent 3 [(0x10,1,1)]), by decide +kernel⟩,
   ⟨(st (dT .running true)), (State.taken (st (dT .running true)) 0), 0, (ent 3 []), by decide +kernel⟩,
   ⟨(st (dT .stopped)), (State.taken (st (dT .stopped)) 0), 0, (ent 3 []), by decide +kernel⟩⟩

theorem test_meets_flock_commands_complete :
    (∃ (s₀ : State) (s : State) (q : Nat) (e : Sys2Proof.Sub), s = s₀.taken q ∧ q < 32 ∧ s₀.dev.admits q 0x0600 e = true ∧ (e.field 0x10 2 ≤ 511 ∨ e.field 0x10 2 = 65535) ∧ (e.field 0x12 2 = 0 ∨ 1536 ≤ e.field 0x12 2) ∧ e.field 0x14 1 ≤ 15 ∧ e.zero 0x15 43 = true ∧ ((List.all s.dev.flock.peers fun x => x.2.fn == FnState.unconfigured) = true) ∧ ((List.all s.dev.flock.stiles fun x => x.2.fn == FnState.unconfigured) = true)) ∧
    (∃ (s₀ : State) (s : State) (q : Nat) (e : Sys2Proof.Sub), s = s₀.taken q ∧ q < 32 ∧ s₀.dev.admits q 0x0601 e = true ∧ e.field 0x10 1 ≤ 1 ∧ e.field 0x11 1 ≤ 1 ∧ e.zero 0x12 6 = true ∧ e.zero 0x20 32 = true ∧ s.dev.flock.dev = some 0 ∧ s.dev.treeParent = none ∧ s.dev.domTime (e.field 0x11 1) s.clk.raw + 31000 ≤ ↑(e.field 0x18 8) ∧ s.dev.flock.event = none ∧ ((s.dev.mbox.outst.all fun o => o.opcode != 1537) = true) ∧ s.dev.rootPending s.env = false) ∧
    (∃ (s₀ : State) (s : State) (q : Nat) (e : Sys2Proof.Sub), s = s₀.taken q ∧ q < 32 ∧ s₀.dev.admits q 0x0602 e = true ∧ e.field 0x10 1 ≤ 3 ∧ e.field 0x11 1 ≤ 3 ∧ (e.field 0x10 1 < 2 → e.field 0x11 1 = 0) ∧ e.zero 0x12 46 = true ∧ s.dev.portUsed e.target = false ∧ ((s.dev.mbox.outst.all fun o => !(o.opcode == 1538 && o.e.target == e.target)) = true)) ∧
    (∃ (s₀ : State) (s : State) (q : Nat) (e : Sys2Proof.Sub), s = s₀.taken q ∧ q < 32 ∧ s₀.dev.admits q 0x0610 e = true ∧ e.field 0x10 2 ≤ 511 ∧ e.field 0x12 1 ≤ 3 ∧ e.field 0x13 1 ≤ 7 ∧ vlanOk (e.field 0x14 2) = true ∧ e.zero 0x16 2 = true ∧ e.zero 0x1E 34 = true ∧ (s.dev.peer e.target).fn.canConfigure = true ∧ (s.dev.peer e.target).connecting = false ∧ ((List.all s.dev.flock.peers fun x => x.1 == e.target || x.2.fn == FnState.unconfigured || Option.map (fun x => x.dev) x.2.cfg != some (e.field 0x10 2)) = true)) ∧
    (∃ (s₀ : State) (s : State) (q : Nat) (e : Sys2Proof.Sub), s = s₀.taken q ∧ q < 32 ∧ s₀.dev.admits q 0x0611 e = true ∧ e.zero 0x10 48 = true ∧ (s.dev.peer e.target).fn = FnState.stopped ∧ s.dev.flock.dev.isSome = true ∧ (s.dev.peer e.target).connecting = false ∧ s.dev.initiates e.target = true) ∧
    (∃ (s₀ : State) (s : State) (q : Nat) (e : Sys2Proof.Sub), s = s₀.taken q ∧ q < 32 ∧ s₀.dev.admits q 0x0612 e = true ∧ e.zero 0x11 47 = true ∧ e.field 0x10 1 = 1 ∧ (s.dev.peer e.target).fn = FnState.running) ∧
    (∃ (s₀ : State) (s : State) (q : Nat) (e : Sys2Proof.Sub), s = s₀.taken q ∧ q < 32 ∧ s₀.dev.admits q 0x0613 e = true ∧ e.zero 0x10 48 = true ∧ (s.dev.peer e.target).fn = FnState.stopped ∧ (s.dev.peer e.target).connecting = false) ∧
    (∃ (s₀ : State) (s : State) (q : Nat) (e : Sys2Proof.Sub) (b : List Byte), s = s₀.taken q ∧ q < 32 ∧ s₀.dev.admits q 0x0620 e = true ∧ e.field 0x20 1 ≤ 3 ∧ e.zero 0x21 3 = true ∧ e.zero 0x28 8 = true ∧ s.dev.stileRangeOk e.target (stileOf e []) = true ∧ (s.dev.stile e.target).fn.canConfigure = true ∧ s.dev.blockIs e b ∧ b.length % 2 = 0 ∧ b.length ≤ 1024 ∧ (((stileOf e b).peers.all fun n => decide (n ≤ 511)) = true)) ∧
    (∃ (s₀ : State) (s : State) (q : Nat) (e : Sys2Proof.Sub), s = s₀.taken q ∧ q < 32 ∧ s₀.dev.admits q 0x0621 e = true ∧ e.zero 0x10 48 = true ∧ (s.dev.stile e.target).fn = FnState.stopped ∧ s.dev.flock.dev.isSome = true) ∧
    (∃ (s₀ : State) (s : State) (q : Nat) (e : Sys2Proof.Sub), s = s₀.taken q ∧ q < 32 ∧ s₀.dev.admits q 0x0622 e = true ∧ e.zero 0x11 47 = true ∧ e.field 0x10 1 = 0 ∧ (s.dev.stile e.target).fn = FnState.running ∧ s.dev.stileBusy e.target = false) ∧
    (∃ (s₀ : State) (s : State) (q : Nat) (e : Sys2Proof.Sub), s = s₀.taken q ∧ q < 32 ∧ s₀.dev.admits q 0x0623 e = true ∧ e.zero 0x10 48 = true ∧ (s.dev.stile e.target).fn = FnState.stopped) ∧
    (∃ (s₀ : State) (s : State) (q : Nat) (i : Nat) (c : StileCfg), s = s₀.taken q ∧ q < 32 ∧ i < 64 ∧ (s₀.dev.stile i).cfg = some c ∧ c.lifetimeMs ≠ 0 ∧ (s₀.dev.stile i).fn = FnState.running ∧ (s₀.dev.stile i).startedAt + 1000000 * c.lifetimeMs ≤ s₀.clk.raw) :=
  ⟨⟨(st dev), (State.taken (st dev) 0), 0, (ent 0 [(0x10,2,511),(0x12,2,0x600),(0x14,1,15)]), by decide +kernel⟩,
   ⟨(st (dFl 0)), (State.taken (st (dFl 0)) 0), 0, (ent 0 [(0x10,1,1),(0x11,1,1),(0x18,8,T+31000)]), by decide +kernel⟩,
   ⟨(st dev), (State.taken (st dev) 0), 0, (ent 3 [(0x10,1,3),(0x11,1,3)]), by decide +kernel⟩,
   ⟨(st dev), (State.taken (st dev) 0), 0, (ent 511 [(0x10,2,511),(0x12,1,3),(0x13,1,7),(0x14,2,4094)]), by decide +kernel⟩,
   ⟨(st (dFl 1 [(4, { fn := .stopped, cfg := some pc })])), (State.taken (st (dFl 1 [(4, { fn := .stopped, cfg := some pc })])) 0), 0, (ent 4 []), by decide +kernel⟩,
   ⟨(st (dFl 1 [(4, { fn := .running, cfg := some pc })])), (State.taken (st (dFl 1 [(4, { fn := .running, cfg := some pc })])) 0), 0, (ent 4 [(0x10,1,1)]), by decide +kernel⟩,
   ⟨(st (dFl 1 [(4, { fn := .stopped, cfg := some pc })])), (State.taken (st (dFl 1 [(4, { fn := .stopped, cfg := some pc })])) 0), 0, (ent 4 []), by decide +kernel⟩,
   ⟨(st (withB dev prB)), (State.taken (st (withB dev prB)) 0), 0, (ent 63 ([(0x10,8,commonBase),(0x18,4,4096),(0x20,1,3)] ++ blkF prB)), prB, by unfold Dev.blockIs; decide +kernel⟩,
   ⟨(st (dS .stopped)), (State.taken (st (dS .stopped)) 0), 0, (ent 7 []), by decide +kernel⟩,
   ⟨(st (dS .running)), (State.taken (st (dS .running)) 0), 0, (ent 7 []), by decide +kernel⟩,
   ⟨(st (dS .stopped)), (State.taken (st (dS .stopped)) 0), 0, (ent 7 []), by decide +kernel⟩,
   ⟨(st (dS .running)), (State.taken (st (dS .running)) 0), 0, 7, sc, by decide +kernel⟩⟩

theorem test_meets_safety_commands_complete :
    (∃ (s₀ : State) (s : State) (q : Nat) (e : Sys2Proof.Sub), s = s₀.taken q ∧ q < 32 ∧ s₀.dev.admits q 0x0700 e = true ∧ e.zero 0x10 32 = true ∧ e.replyOk 384 = true) :=
  ⟨(st dev), (State.taken (st dev) 0), 0, (ent 0 [(0x30,4,0x2000000)]), by decide +kernel⟩

end W4

namespace W5

def T : Nat := 10000000000000
def ruB : List Byte := leBytes 1 15 ++ leBytes 1 1 ++ leBytes 2 1 ++ leBytes 4 16 ++ leBytes 8 (commonBase+0x4000000) ++ leBytes 4 0 ++ leBytes 4 0 ++ leBytes 4 0 ++ leBytes 4 0 ++ leBytes 4 1000000 ++ leBytes 4 0 ++ leBytes 8 (commonBase + 0x5000000) ++ List.replicate 16 0
def dF := { dev with fsets := [(15, { cfg := some {period := 10000000, dom := 0, offset := 2000000, hold := 0, epoch := 0}})] }
def dC := { dev with col := { held := [(0,3),(0x3C1,2)] } }
def allB : List Byte := List.replicate 128 0xFF
def nm : Nat × Nat → Bool := fun x => bitOf (fieldAt allB (x.1 / 8) 1) (x.1 % 8)
def b4 : List Byte := [1,2,3,4]
def oo (op : Nat) (e : Sub := ent 0 []) (im : Option Image := none) (aux : List Nat := []) (dl : Nat := T) : Outst := { q := 0, opcode := op, e := e, deadline := dl, image := im, aux := aux }
def dO (o : Outst) : Dev := { dev with mbox := { dev.mbox with outst := [o] } }
def img : Image := { folds := [0], regions := [{ kind := 0, base := foldBase 0, size := 64 }], content := [(foldBase 0, [1,2])], threads := [{ thread := 0, entry := 0, high := false, regs := [] }] }
def bu : Burn := ⟨[(0,2)],1,0,1⟩
def dBu (fr : Bool) : Dev := { dO (oo 0x901 (ent 0 []) none bu.pack) with mbox := { (dO (oo 0x901 (ent 0 []) none bu.pack)).mbox with frozen := fr }, sec := { dev.sec with burning := some (9, bu.pack) } }
def un : Unread := { posted := 0, interrupting := true, urgent := false }
def mU : MQueue := { cqTail := 2, unread := [un,un], irq := true }
def dU := { dev with mbox := { dev.mbox with queues := [(0,mU)] } }
def dFs : Dev := { dev with fsets := [(15, { current := 9, running := true, rawDeadline := 10000000000000 })] }
def mS : MQueue := { sqTail := 1 }
def dSq := { dev with mbox := { dev.mbox with queues := [(0,mS)] }, mem := { poison := [((commonBase + 0x10000)/64, true)] } }
def mI : MQueue := { mU with ethIrq := true }
def dI2 := { dev with mbox := { dev.mbox with queues := [(0,mI)], irqDest := some { port := 0, ipVersion := 4, udpPort := 1, resendUs := 100, mac := [], ip := []} } }
def dRom : Dev := { dev with mbox := { boot := { stage := 2 } }, pow := { dev.pow with state := .standby, phase := .rom, firstIdle := false } }
def allBE (c : Nat) : Sub := ent 0 (blkC 128 c)
theorem allB_block : ((withB dC allB).passed 0).blockIs (allBE (crc32c allB)) allB :=
  block_withB dC allB allBE rfl (by decide +kernel) (by decide +kernel) (by decide +kernel) (by decide +kernel)
    fun _ => rfl

theorem test_meets_safety_commands_complete_more :
    (∃ (s₀ : State) (s : State) (q : Nat) (e : Sys2Proof.Sub) (b : List Byte) (recs : List (List Byte)), s = s₀.taken q ∧ q < 32 ∧ s₀.dev.admits q 0x0701 e = true ∧ 1 ≤ e.field 0x10 1 ∧ e.field 0x10 1 ≤ e.field 0x11 1 ∧ e.field 0x11 1 ≤ 64 ∧ e.zero 0x12 30 = true ∧ ((List.all s.dev.race.gates fun x => !(x.2.fn.active && Settings.collieFeed x.2.settings)) = true) ∧ s.dev.blockIs e b ∧ b.length % 64 = 0 ∧ b.length ≤ 1024 ∧ (recs = List.map (fun i => List.take 64 (List.drop (64 * i) b)) (List.range (b.length / 64))) ∧ recs.all (ruleOk s.dev) = true ∧ rulesAgree (List.map ruleOf recs) = true) ∧
    (∃ (s₀ : State) (s : State) (q : Nat) (e : Sys2Proof.Sub), s = s₀.taken q ∧ q < 32 ∧ s₀.dev.admits q 0x0702 e = true ∧ e.zero 0x10 48 = true ∧ (∀ n < 48, (s.dev.fold n).replacing = false)) ∧
    (∃ (s₀ : State) (s : State) (q : Nat) (e : Sys2Proof.Sub), s = s₀.taken q ∧ q < 32 ∧ s₀.dev.admits q 0x0800 e = true ∧ (sourceRow (e.field 0x10 2)).isSome = true ∧ e.field 0x10 2 ≤ 1023 ∧ e.field 0x12 1 ≤ 3 ∧ e.zero 0x13 45 = true ∧ minimumOf s.env (e.field 0x10 2) ≤ e.field 0x12 1 ∧ (e.field 0x10 2 = 0 → lifecycleOf s.fuse = lcDevelop)) ∧
    (∃ (s₀ : State) (s : State) (q : Nat) (e : Sys2Proof.Sub), s = s₀.taken q ∧ q < 32 ∧ s₀.dev.admits q 0x0801 e = true ∧ e.zero 0x10 32 = true ∧ e.replyOk 1024 = true) ∧
    (∃ (s₀ : State) (s : State) (q : Nat) (e : Sys2Proof.Sub), s = s₀.taken q ∧ q < 32 ∧ s₀.dev.admits q 0x0802 e = true ∧ e.zero 0x10 32 = true ∧ e.replyOk 128 = true) ∧
    (∃ (s₀ : State) (s : State) (q : Nat) (e : Sys2Proof.Sub) (b : List Byte) (named : Nat × Nat → Bool) (keep : Nat × Nat → Bool), s = s₀.taken q ∧ q < 32 ∧ s₀.dev.admits q 0x0803 e = true ∧ e.zero 0x10 32 = true ∧ s.dev.blockIs e b ∧ b.length = 128 ∧ (named = fun x => bitOf (fieldAt b (x.1 / 8) 1) (x.1 % 8)) ∧ (keep = fun x => !named x || s.dev.persists s.env x.1)) ∧
    (∃ (s₀ : State) (s : State) (q : Nat) (e : Sys2Proof.Sub), s = s₀.taken q ∧ q < 32 ∧ s₀.dev.admits q 0x0804 e = true ∧ e.field 0x10 8 % 64 = 0 ∧ commonBase ≤ e.field 0x10 8 ∧ e.field 0x10 8 + e.field 0x18 4 ≤ commonBase + 201326592 ∧ e.field 0x18 4 % 4096 = 0 ∧ 4096 ≤ e.field 0x18 4 ∧ e.field 0x18 4 ≤ 2 ^ 20 ∧ e.zero 0x1C 36 = true) ∧
    (∃ (s₀ : State) (s : State) (q : Nat) (e : Sys2Proof.Sub), s = s₀.taken q ∧ q < 32 ∧ s₀.dev.admits q 0x0805 e = true ∧ e.zero 0x18 40 = true ∧ lifecycleOf s.fuse = lcDevelop) :=
  ⟨⟨(st (withB dF ruB)), (State.taken (st (withB dF ruB)) 0), 0, (ent 0 ([(0x10,1,1),(0x11,1,64)] ++ blkF ruB)), ruB, [ruB], by unfold Dev.blockIs; decide +kernel⟩,
   ⟨(st dev), (State.taken (st dev) 0), 0, (ent 0 []), by decide +kernel⟩,
   ⟨(st dev), (State.taken (st dev) 0), 0, (ent 0 [(0x10,2,0x3C1),(0x12,1,1)]), by decide +kernel⟩,
   ⟨(st dev), (State.taken (st dev) 0), 0, (ent 0 [(0x30,4,0x2000000)]), by decide +kernel⟩,
   ⟨(st dC), (State.taken (st dC) 0), 0, (ent 0 [(0x30,4,0x2000000)]), by decide +kernel⟩,
   ⟨(st (withB dC allB)), (State.taken (st (withB dC allB)) 0), 0, (allBE (crc32c allB)), allB, (fun x => bitOf (fieldAt allB (x.1 / 8) 1) (x.1 % 8)), (fun x => !(fun x => bitOf (fieldAt allB (x.1 / 8) 1) (x.1 % 8)) x || (State.taken (st (withB dC allB)) 0).dev.persists (State.taken (st (withB dC allB)) 0).env x.1), by refine ⟨rfl, ?_, ?_, ?_, allB_block, ?_, rfl, rfl⟩ <;> decide +kernel⟩,
   ⟨(st dC), (State.taken (st dC) 0), 0, (ent 0 [(0x10,8,commonBase + 0xBFFF000),(0x18,4,4096)]), by decide +kernel⟩,
   ⟨{ st dev with fuse := { lifecycle := 3 } }, (({ st dev with fuse := { lifecycle := 3 } } : State).taken 0), 0, (ent 0 [(0x10,8,(faultMsg 0x3C1 0x3C 1 5).toNat)]), by decide +kernel⟩⟩

theorem test_meets_security_commands_act :
    (∃ (s₀ : State) (s : State) (q : Nat) (e : Sys2Proof.Sub), s = s₀.taken q ∧ q < 32 ∧ s₀.dev.admits q 0x0900 e = true ∧ e.replyOk 8192 = true) ∧
    (∃ (s₀ : State) (s : State) (q : Nat) (e : Sys2Proof.Sub) (b : List Byte) (signer : Option (Nat → Bool)) (st : Nat), s = s₀.taken q ∧ q < 32 ∧ s₀.dev.admits q 0x0901 e = true ∧ e.field 0x10 1 ≤ 4 ∧ e.zero 0x11 31 = true ∧ s.dev.allUnconfigured = true ∧ s.dev.blockIs e b ∧ transitionSigner (lifecycleOf s.fuse) (e.field 0x10 1) = some signer ∧ (st = checkContainer s.fuse 2 (signer.getD fun x => false) signer.isNone (decide (lifecycleOf s.fuse = lcBlank)) b.length b)) ∧
    (∃ (s₀ : State) (s : State) (q : Nat) (e : Sys2Proof.Sub), s = s₀.taken q ∧ q < 32 ∧ s₀.dev.admits q 0x0902 e = true ∧ e.zero 0x10 48 = true ∧ s.dev.sec.session = none) ∧
    (∃ (s₀ : State) (s : State) (q : Nat) (e : Sys2Proof.Sub) (b : List Byte), s = s₀.taken q ∧ q < 32 ∧ s₀.dev.admits q 0x0903 e = true ∧ e.zero 0x10 32 = true ∧ s.dev.blockIs e b) ∧
    (∃ (s₀ : State) (s : State) (q : Nat) (e : Sys2Proof.Sub), s = s₀.taken q ∧ q < 32 ∧ s₀.dev.admits q 0x0904 e = true ∧ e.zero 0x10 48 = true) ∧
    (∃ (s : State), s.dev.sec.lifecycleDue = true) ∧
    (∃ (s : State), s.dev.sec.lifecycleDue = false) ∧
    (∃ (s : State), s.dev.sec.session.isSome = true) ∧
    (∃ (s : State) (x : Session), s.dev.sec.session = some x ∧ x.until_ ≤ s.clk.raw) ∧
    (∃ (s : State) (x : Session), s.dev.sec.session = some x ∧ s.clk.raw < x.until_) :=
  ⟨⟨(st dev), (State.taken (st dev) 0), 0, (ent 0 [(0x30,4,0x2000000)]), by decide +kernel⟩,
   ⟨(st (withB dev b4)), (State.taken (st (withB dev b4)) 0), 0, (ent 0 ([(0x10,1,1)] ++ blkF b4)), b4, ((transitionSigner 0 1).getD none), (checkContainer {} 2 (((transitionSigner 0 1).getD none).getD fun _ => false) ((transitionSigner 0 1).getD none).isNone true 4 b4), by refine ⟨?_, ?_, ?_, ?_, ?_, ?_, (by unfold Dev.blockIs; decide +kernel), rfl, ?_⟩ <;> decide +kernel⟩,
   ⟨(st dev), (State.taken (st dev) 0), 0, (ent 0 []), by decide +kernel⟩,
   ⟨(st (withB dev b4)), (State.taken (st (withB dev b4)) 0), 0, (ent 0 (blkF b4)), b4, by unfold Dev.blockIs; decide +kernel⟩,
   ⟨(st dev), (State.taken (st dev) 0), 0, (ent 0 []), by decide +kernel⟩,
   ⟨(st { dev with sec := { lifecycleDue := true } }), by decide +kernel⟩,
   ⟨(st dev), by decide +kernel⟩,
   ⟨(st { dev with sec := { session := some { level := 1, until_ := T } } }), by decide +kernel⟩,
   ⟨(st { dev with sec := { session := some { level := 1, until_ := T } } }), ({ level := 1, until_ := T } : Session), by decide +kernel⟩,
   ⟨(st { dev with sec := { session := some { level := 1, until_ := T + 1 } } }), ({ level := 1, until_ := T + 1 } : Session), by decide +kernel⟩⟩

theorem test_meets_outstanding_commands_finish :
    (∃ (s : State) (q : Nat) (tag : Nat) (o : Outst), q < 32 ∧ s.dev.outstBy q tag = some o ∧ o.deadline ≤ s.clk.raw) ∧
    (∃ (s : State) (q : Nat) (tag : Nat) (o : Outst), q < 32 ∧ s.dev.outstBy q tag = some o ∧ s.clk.raw < o.deadline) ∧
    (∃ (s : State) (q : Nat) (tag : Nat) (o : Outst) (im : Image), q < 32 ∧ s.dev.outstBy q tag = some o ∧ o.opcode = 512 ∧ o.image = some im) ∧
    (∃ (s : State) (q : Nat) (tag : Nat) (o : Outst), q < 32 ∧ s.dev.outstBy q tag = some o ∧ o.opcode = 2) ∧
    (∃ (s : State) (q : Nat) (tag : Nat) (o : Outst), q < 32 ∧ s.dev.outstBy q tag = some o ∧ o.opcode = 2305 ∧ s.dev.sec.burning = none ∧ s.dev.mbox.frozen = false ∧ s.dev.allUnconfigured = true) ∧
    (∃ (s : State) (q : Nat) (tag : Nat) (o : Outst) (t₀ : Nat) (l : List Nat), q < 32 ∧ s.dev.outstBy q tag = some o ∧ o.opcode = 2305 ∧ s.dev.sec.burning = some (t₀, l) ∧ t₀ + 20000 * (Burn.bits s.fuse (Burn.unpack l)).length ≤ s.clk.raw) ∧
    (∃ (s : State) (q : Nat) (tag : Nat) (o : Outst), q < 32 ∧ s.dev.outstBy q tag = some o ∧ o.opcode = 2305 ∧ s.dev.mbox.frozen = true) :=
  ⟨⟨(st (dO (oo 0x305))), 0, 7, (oo 0x305), by decide +kernel⟩,
   ⟨(st (dO (oo 0x305 (ent 0 []) none [] (T+1)))), 0, 7, (oo 0x305 (ent 0 []) none [] (T+1)), by decide +kernel⟩,
   ⟨(st (dO (oo 0x200 (ent 3 []) (some img) [1]))), 0, 7, (oo 0x200 (ent 3 []) (some img) [1]), img, by decide +kernel⟩,
   ⟨(st (dO (oo 2 (ent 0 [(0x10,2,1)])))), 0, 7, (oo 2 (ent 0 [(0x10,2,1)])), by decide +kernel⟩,
   ⟨(st (dO (oo 0x901 (ent 0 []) none bu.pack))), 0, 7, (oo 0x901 (ent 0 []) none bu.pack), by decide +kernel⟩,
   ⟨(st (dBu true)), 0, 7, (oo 0x901 (ent 0 []) none bu.pack), 9, bu.pack, by decide +kernel⟩,
   ⟨(st (dBu true)), 0, 7, (oo 0x901 (ent 0 []) none bu.pack), by decide +kernel⟩⟩

theorem test_meets_doorbells_and_control_words_act :
    (∃ (s : State) (q : Nat) (v : Word32) (m : MQueue), q < 32 ∧ s.dev.penOpen s.env = true ∧ s.dev.mbox.ready = true ∧ s.dev.serving = true ∧ s.dev.host.winWrites = [] ∧ s.dev.host.penWrites = [] ∧ s.dev.queue q = some m ∧ m.error = false ∧ BitVec.toNat v < m.sqEntries ∧ m.sqEntries ≤ 4096 ∧ BitVec.toNat v ≠ m.sqTail ∧ m.sqTail < m.sqEntries ∧ m.used + (BitVec.toNat v + m.sqEntries - m.sqTail) % m.sqEntries < m.sqEntries ∧ (∀ o ∈ s.dev.mbox.outst, o.opcode ≠ 1024)) ∧
    (∃ (s : State) (q : Nat) (v : Word32) (m : MQueue), q < 32 ∧ s.dev.penOpen s.env = true ∧ s.dev.mbox.ready = true ∧ s.dev.serving = true ∧ s.dev.host.winWrites = [] ∧ s.dev.host.penWrites = [] ∧ s.dev.queue q = some m ∧ m.error = false ∧ m.sqEntries ≤ BitVec.toNat v ∧ BitVec.toNat v ≠ m.sqTail ∧ m.sqTail < 65536 ∧ (∀ o ∈ s.dev.mbox.outst, o.opcode ≠ 1024)) ∧
    (∃ (s : State) (q : Nat) (v : Word32) (m : MQueue), q < 32 ∧ s.dev.penOpen s.env = true ∧ s.dev.mbox.ready = true ∧ s.dev.serving = true ∧ s.dev.host.winWrites = [] ∧ s.dev.host.penWrites = [] ∧ s.dev.queue q = some m ∧ m.error = false ∧ BitVec.toNat v < m.cqEntries ∧ m.cqEntries ≤ 8192 ∧ m.cqHead < m.cqEntries ∧ (BitVec.toNat v + m.cqEntries - m.cqHead) % m.cqEntries ≤ m.unread.length ∧ (∀ o ∈ s.dev.mbox.outst, o.opcode ≠ 1024)) ∧
    (∃ (s : State) (v : Word32), s.dev.penOpen s.env = true ∧ s.dev.host.penWrites = [] ∧ v ≠ 45063) ∧
    (∃ (s : State) (v : Word32), s.dev.penOpen s.env = true ∧ s.dev.host.penWrites = [] ∧ BitVec.getLsbD v 0 = true ∧ s.dev.mbox.ready = true) ∧
    (∃ (s : State) (v : Word32), s.dev.penOpen s.env = true ∧ s.dev.host.penWrites = [] ∧ BitVec.getLsbD v 0 = false) ∧
    (∃ (s : State) (off : Nat), s.dev.penOpen s.env = true ∧ s.dev.host.penWrites = [] ∧ off < 4096 ∧ off / 4 ≠ 192 / 4 ∧ off / 4 ≠ 196 / 4 ∧ off < 2048) ∧
    (∃ (s : State) (off : Nat), s.dev.penOpen s.env = true ∧ s.dev.host.penWrites = [] ∧ 8192 ≤ off ∧ off < 65536 ∧ tget s.dev.host.faultAt (128 * 8) = none) ∧
    (∃ (s : State) (f : Nat), s.dev.penOpen s.env = true ∧ s.dev.host.penWrites = [] ∧ f < 16) ∧
    (∃ (s : State) (f : Nat) (v : Word32) (x : FSet), s.dev.penOpen s.env = true ∧ s.dev.host.penWrites = [] ∧ f < 16 ∧ x = (s.dev.judgeTo f s.clk.raw s.clk.raw).fset f ∧ x.running = true ∧ (BitVec.toNat v + 2 ^ 32 - x.current) % 2 ^ 32 < 4) :=
  ⟨⟨(st dev), 0, 5, ({} : MQueue), by decide +kernel⟩,
   ⟨(st dev), 0, 64, ({} : MQueue), by decide +kernel⟩,
   ⟨(st dU), 0, 2, mU, by decide +kernel⟩,
   ⟨(st dev), 5, by decide +kernel⟩,
   ⟨(st dU), 1, by decide +kernel⟩,
   ⟨(st dU), 2, by decide +kernel⟩,
   ⟨(st dU), 0x7FF, by decide +kernel⟩,
   ⟨(st dU), 0x2000, by decide +kernel⟩,
   ⟨(st dU), 15, by decide +kernel⟩,
   ⟨(st dFs), 15, 12, (dFs.fset 15), by decide +kernel⟩⟩

theorem test_meets_firmware_acts :
    (∃ (s : State) (q : Nat) (n : Nat) (m : MQueue), s.dev.serving = true ∧ s.dev.mbox.frozen = false ∧ s.dev.nextQueue = some (q, n) ∧ s.dev.queue q = some m) ∧
    (∃ (s : State), s.dev.serving = true) ∧
    (∃ (s : State) (q : Nat), q < 32 ∧ s.dev.serving = true) ∧
    (∃ (s : State) (q : Nat) (m : MQueue), q < 32 ∧ s.dev.serving = true ∧ s.dev.queue q = some m ∧ m.irq = true ∧ m.ethIrq = true ∧ s.dev.resendDue s.env m = true) ∧
    (∃ (s : State) (ms : Nat), s.dev.serving = true ∧ s.dev.mbox.hostTimeoutMs = some ms ∧ s.dev.mbox.hostAlive = s.dev.mbox.aliveSeen ∧ s.dev.mbox.silentRaised = false ∧ s.dev.mbox.aliveAt + 1000000 * ms ≤ s.clk.raw) ∧
    (∃ (s : State), s.dev.pow.phase = Phase.rom ∧ s.dev.pow.romStopped = false ∧ s.dev.mbox.boot.stage = 2) :=
  ⟨⟨(st dSq), 0, 1, mS, by decide +kernel⟩,
   ⟨(st dSq), by decide +kernel⟩,
   ⟨(st dU), 0, by decide +kernel⟩,
   ⟨(st dI2), 0, mI, by decide +kernel⟩,
   ⟨(st { dev with mbox := { dev.mbox with hostTimeoutMs := some 10 } }), 10, by decide +kernel⟩,
   ⟨(st dRom), by decide +kernel⟩⟩

end W5

namespace W6

def T : Nat := 10000000000000
def b15 : BankAddr := {bg := 3, ba := 15}
def b5 : BankAddr := {bg := 0, ba := 5}
def sby (d : Dev) : Dev := { d with pow := { d.pow with state := .standby, pwrFold := false } }
def stB (d : Dev) : State := { st d with clk := { raw := T, running := false, saved := T, asleepNs := 70 } }
def pg (row : Nat) (f : Bool) : Dev := { dev with host := { pages := [(pageKey 3 15, { row := row, fetched := f })] } }
def dsl : Dev := { dev with mbox := { dev.mbox with hostSleep := true }, host := { low := [(0,3),(1,3),(2,3)] } }
def dp (d : Dev) : Dev := d.setLow 3 0
def P (r : Nat) (f : Bool) : Page := {row := r, fetched := f}
def dat : List Byte := (List.range 32).map fun i => BitVec.ofNat 8 (i+1)
def nm := List.replicate 32 false
def c511 := burstCells (burstOffsets 3 15 511 1984 32) dat nm
def c512 := burstCells (burstOffsets 3 15 512 1984 32) dat nm
def pgE : Dev := { pg 511 true with host := { (pg 511 true).host with mr := [(mrKey 3 22 (mrField Config.fspWrite 16 ((pg 511 true).mr16 3)), 0xFF)] } }
def dE := (dp pgE).raise 0x280 3 4 (hostOffset 3 15 511 1984)
def wno := hostOffset 3 15 512 1984 / 0x4000000
def pgw : Dev := { pg 512 true with host := { (pg 512 true).host with windows := [(wno,(gddrBase,0x4000000))] } }
def nm1 := List.replicate 31 false ++ [true]
def c512m := burstCells (burstOffsets 3 15 512 1984 32) dat nm1
def w1 : PenWrite := { ch := 0, cells := [(0x10000, 5)], poison := false, posted := 0 }
def w2 : PenWrite := { ch := 3, cells := [(gddrBase + 5, 5),(gddrBase + 6, 0)], poison := true, posted := 0, win := 1, no := 0 }

theorem test_meets_port_commands_act :
    (∃ (s : State) (ch : Nat) (bank : Nat) (row : Nat) (b : BankAddr), ch < 4 ∧ b.bg < 4 ∧ b.ba < 16 ∧ bank = s.dev.bankOf ch b ∧ row < 65536 ∧ s.dev.portOn s.env = true ∧ tgetD s.dev.host.ckBad ch false = false ∧ s.dev.lowOf ch = 0 ∧ s.dev.page ch bank = none) ∧
    (∃ (s : State) (ch : Nat) (bank : Nat) (row : Nat) (b : BankAddr) (p : Page), ch < 4 ∧ b.bg < 4 ∧ b.ba < 16 ∧ bank = s.dev.bankOf ch b ∧ row < 65536 ∧ s.dev.portOn s.env = true ∧ tgetD s.dev.host.ckBad ch false = false ∧ s.dev.lowOf ch = 0 ∧ s.dev.page ch bank = some p) ∧
    (∃ (s : State) (ch : Nat) (bank : Nat) (row : Nat) (b : BankAddr), ch < 4 ∧ b.bg < 4 ∧ b.ba < 16 ∧ bank = s.dev.bankOf ch b ∧ row < 65536 ∧ s.dev.portOn s.env = true ∧ tgetD s.dev.host.ckBad ch false = false ∧ s.dev.lowOf ch = 0) ∧
    (∃ (s : State) (ch : Nat) (bank : Nat) (row : Nat) (b : BankAddr), ch < 4 ∧ b.bg < 4 ∧ b.ba < 16 ∧ bank = s.dev.bankOf ch b ∧ row < 65536 ∧ s.dev.portOn s.env = true ∧ tgetD s.dev.host.ckBad ch false = false ∧ s.dev.lowOf ch = 0 ∧ s.dev.bankGroups ch = false) ∧
    (∃ (s : State) (ch : Nat) (bank : Nat) (row : Nat) (b : BankAddr), ch < 4 ∧ b.bg < 4 ∧ b.ba < 16 ∧ bank = s.dev.bankOf ch b ∧ row < 65536 ∧ s.dev.portOn s.env = true ∧ tgetD s.dev.host.ckBad ch false = false ∧ s.dev.lowOf ch = 0 ∧ b.ba < 4) ∧
    (∃ (s : State) (ch : Nat) (bank : Nat) (row : Nat) (b : BankAddr), ch < 4 ∧ b.bg < 4 ∧ b.ba < 16 ∧ bank = s.dev.bankOf ch b ∧ row < 65536 ∧ s.dev.portOn s.env = true ∧ tgetD s.dev.host.ckBad ch false = false ∧ s.dev.lowOf ch = 0 ∧ s.dev.page ch bank = some { row := row, fetched := false } ∧ row < 512 ∧ s.dev.penAnswers s.env = true) ∧
    (∃ (s : State) (ch : Nat), ch < 4 ∧ s.dev.portOn s.env = true ∧ tgetD s.dev.host.ckBad ch false = false ∧ s.dev.lowOf ch = 0) ∧
    (∃ (s : State) (ch : Nat), ch < 4 ∧ s.dev.portOn s.env = true ∧ tgetD s.dev.host.ckBad ch false = false ∧ s.dev.lowOf ch = 0 ∧ s.dev.mbox.hostSleep = false) ∧
    (∃ (s : State) (ch : Nat), ch < 4 ∧ s.dev.portOn s.env = true ∧ tgetD s.dev.host.ckBad ch false = false ∧ s.dev.lowOf ch = 0 ∧ s.dev.mbox.hostSleep = true ∧ s.dev.mbox.ready = true ∧ s.dev.pow.state = PState.idle ∧ s.dev.powerRefusal = none ∧ (∀ c < 4, c ≠ ch → s.dev.lowOf c = 3)) ∧
    (∃ (s : State) (ch : Nat), ch < 4 ∧ s.dev.portOn s.env = true ∧ tgetD s.dev.host.ckBad ch false = false ∧ s.dev.lowOf ch = 3 ∧ s.dev.pow.sleeping = true ∧ s.dev.pow.holdup = false) ∧
    (∃ (s : State) (ch : Nat) (ns : Nat), ch < 4 ∧ s.dev.portOn s.env = true ∧ tgetD s.dev.host.ckBad ch false = false ∧ ns < 80) ∧
    (∃ (s : State) (ch : Nat) (r : ResetPin), ch < 4 ∧ s.dev.portOn s.env = true ∧ tgetD s.dev.host.ckBad ch false = false ∧ (r = ResetPin.low ∨ ∃ ns, 80 ≤ ns ∧ r = ResetPin.pulse ns)) ∧
    (∃ (s : State) (ch : Nat) (kHz : Nat), ch < 4 ∧ s.dev.portOn s.env = true ∧ tgetD s.dev.host.ckBad ch false = false ∧ (kHz < 190000 ∨ 1120000 < kHz) ∧ (s.dev.lowOf ch = 0 ∨ kHz ≠ 0)) ∧
    (∃ (s : State) (ch : Nat), ch < 4 ∧ s.dev.portOn s.env = true ∧ tgetD s.dev.host.ckBad ch false = false ∧ s.dev.lowOf ch = 0) :=
  ⟨⟨(st dev), 3, 15, 65535, b15, by refine ⟨?_, ?_, ?_, bankOf_of_no_mr _ _ _ _ rfl rfl, ?_, ?_, ?_, ?_, ?_⟩ <;> decide +kernel⟩,
   ⟨(st (pg 5 true)), 3, 15, 65535, b15, ({row := 5, fetched := true} : Page), by refine ⟨?_, ?_, ?_, bankOf_of_no_mr _ _ _ _ rfl rfl, ?_, ?_, ?_, ?_, ?_⟩ <;> decide +kernel⟩,
   ⟨(st (pg 5 true)), 3, 15, 5, b15, by refine ⟨?_, ?_, ?_, bankOf_of_no_mr _ _ _ _ rfl rfl, ?_, ?_, ?_, ?_⟩ <;> decide +kernel⟩,
   ⟨(st (pg 5 true)), 3, 15, 5, b15, by refine ⟨?_, ?_, ?_, bankOf_of_no_mr _ _ _ _ rfl rfl, ?_, ?_, ?_, ?_, bankGroups_of_no_mr _ _ rfl⟩ <;> decide +kernel⟩,
   ⟨(st (pg 5 true)), 3, 2, 5, ({bg := 3, ba := 2} : BankAddr), by refine ⟨?_, ?_, ?_, bankOf_of_no_mr _ _ _ _ rfl rfl, ?_, ?_, ?_, ?_, ?_⟩ <;> decide +kernel⟩,
   ⟨(st (pg 511 false)), 3, 15, 511, b15, by refine ⟨?_, ?_, ?_, bankOf_of_no_mr _ _ _ _ rfl rfl, ?_, ?_, ?_, ?_, ?_, ?_, ?_⟩ <;> decide +kernel⟩,
   ⟨(st (pg 5 true)), 3, by decide +kernel⟩,
   ⟨(st dev), 3, by decide +kernel⟩,
   ⟨(st dsl), 3, by decide +kernel⟩,
   ⟨(stB ((sby dev).setLow 3 3)), 3, by decide +kernel⟩,
   ⟨(st (pg 5 true)), 3, 79, by decide +kernel⟩,
   ⟨(st (pg 5 true)), 3, ResetPin.low, by refine ⟨?_, ?_, ?_, .inl rfl⟩ <;> decide +kernel⟩,
   ⟨(st (pg 5 true)), 3, 1120001, by decide +kernel⟩,
   ⟨(st (pg 5 true)), 3, by decide +kernel⟩⟩

theorem test_meets_mode_registers_act :
    (∃ (s : State) (ch : Nat) (mr : Nat) (key : Nat), ch < 4 ∧ mr < 256 ∧ s.dev.portOn s.env = true ∧ tgetD s.dev.host.ckBad ch false = false ∧ s.dev.lowOf ch = 0 ∧ key = mrKey ch mr (mrField Config.fspWrite 16 (s.dev.mr16 ch))) ∧
    (∃ (s : State) (ch : Nat) (mr : Nat) (key : Nat), ch < 4 ∧ mr < 256 ∧ s.dev.portOn s.env = true ∧ tgetD s.dev.host.ckBad ch false = false ∧ s.dev.lowOf ch = 0 ∧ key = mrKey ch mr (mrField Config.fspWrite 16 (s.dev.mr16 ch)) ∧ mrWritable mr = true) ∧
    (∃ (s : State) (ch : Nat) (mr : Nat) (key : Nat), ch < 4 ∧ mr < 256 ∧ s.dev.portOn s.env = true ∧ tgetD s.dev.host.ckBad ch false = false ∧ s.dev.lowOf ch = 0 ∧ key = mrKey ch mr (mrField Config.fspWrite 16 (s.dev.mr16 ch)) ∧ mrWritable mr = false) ∧
    (∃ (s : State) (ch : Nat) (mr : Nat) (key : Nat), ch < 4 ∧ mr < 256 ∧ s.dev.portOn s.env = true ∧ tgetD s.dev.host.ckBad ch false = false ∧ s.dev.lowOf ch = 0 ∧ key = mrKey ch mr (mrField Config.fspWrite 16 (s.dev.mr16 ch))) ∧
    (∃ (s : State) (ch : Nat) (mr : Nat) (key : Nat), ch < 4 ∧ mr < 256 ∧ s.dev.portOn s.env = true ∧ tgetD s.dev.host.ckBad ch false = false ∧ s.dev.lowOf ch = 0 ∧ key = mrKey ch mr (mrField Config.fspWrite 16 (s.dev.mr16 ch)) ∧ s.dev.host.mr = []) ∧
    (∃ (s : State) (ch : Nat) (mr : Nat) (key : Nat), ch < 4 ∧ mr < 256 ∧ s.dev.portOn s.env = true ∧ tgetD s.dev.host.ckBad ch false = false ∧ s.dev.lowOf ch = 0 ∧ key = mrKey ch mr (mrField Config.fspWrite 16 (s.dev.mr16 ch))) :=
  ⟨⟨(st dev), 3, 255, (mrKey 3 255 (mrField Config.fspWrite 16 (dev.mr16 3))), by refine ⟨?_, ?_, ?_, ?_, ?_, rfl⟩ <;> decide +kernel⟩,
   ⟨(st dev), 3, 1, (mrKey 3 1 (mrField Config.fspWrite 16 (dev.mr16 3))), by refine ⟨?_, ?_, ?_, ?_, ?_, rfl, ?_⟩ <;> decide +kernel⟩,
   ⟨(st dev), 3, 0, (mrKey 3 0 (mrField Config.fspWrite 16 (dev.mr16 3))), by refine ⟨?_, ?_, ?_, ?_, ?_, rfl, ?_⟩ <;> decide +kernel⟩,
   ⟨(st dev), 2, 0, (mrKey 2 0 (mrField Config.fspWrite 16 (dev.mr16 2))), by refine ⟨?_, ?_, ?_, ?_, ?_, rfl⟩ <;> decide +kernel⟩,
   ⟨(st dev), 2, 0, (mrKey 2 0 (mrField Config.fspWrite 16 (dev.mr16 2))), by refine ⟨?_, ?_, ?_, ?_, ?_, rfl, ?_⟩ <;> decide +kernel⟩,
   ⟨(st dev), 3, 0, (mrKey 3 0 (mrField Config.fspWrite 16 (dev.mr16 3))), by refine ⟨?_, ?_, ?_, ?_, ?_, rfl⟩ <;> decide +kernel⟩⟩

theorem test_meets_host_transfers_act :
    (∃ (s : State) (ch : Nat) (bank : Nat) (page : Nat) (len : Nat) (b : BankAddr) (p : Page) (d : Dev), ch < 4 ∧ b.bg < 4 ∧ b.ba < 16 ∧ bank = s.dev.bankOf ch b ∧ page < 2048 ∧ (len = 32 ∨ len = 64) ∧ s.dev.portOn s.env = true ∧ tgetD s.dev.host.ckBad ch false = false ∧ s.dev.lowOf ch = 0 ∧ s.dev.penAnswers s.env = true ∧ s.dev.page ch bank = some p ∧ d = s.dev.setLow ch 0 ∧ p.row < 512 ∧ p.fetched = true) ∧
    (∃ (s : State) (ch : Nat) (bank : Nat) (page : Nat) (len : Nat) (b : BankAddr) (p : Page) (d : Dev), ch < 4 ∧ b.bg < 4 ∧ b.ba < 16 ∧ bank = s.dev.bankOf ch b ∧ page < 2048 ∧ (len = 32 ∨ len = 64) ∧ s.dev.portOn s.env = true ∧ tgetD s.dev.host.ckBad ch false = false ∧ s.dev.lowOf ch = 0 ∧ s.dev.penAnswers s.env = true ∧ s.dev.page ch bank = some p ∧ d = s.dev.setLow ch 0 ∧ p.row < 512 ∧ p.fetched = true ∧ page % len = 0 ∧ s.dev.mem.buffered = [] ∧ 65536 ≤ hostOffset ch bank p.row page) ∧
    (∃ (s : State) (ch : Nat) (bank : Nat) (page : Nat) (len : Nat) (b : BankAddr) (p : Page) (d : Dev), ch < 4 ∧ b.bg < 4 ∧ b.ba < 16 ∧ bank = s.dev.bankOf ch b ∧ page < 2048 ∧ (len = 32 ∨ len = 64) ∧ s.dev.portOn s.env = true ∧ tgetD s.dev.host.ckBad ch false = false ∧ s.dev.lowOf ch = 0 ∧ s.dev.penAnswers s.env = true ∧ s.dev.page ch bank = some p ∧ d = s.dev.setLow ch 0 ∧ p.row < 512 ∧ p.fetched = false) ∧
    (∃ (s : State) (ch : Nat) (bank : Nat) (page : Nat) (len : Nat) (b : BankAddr) (p : Page) (d : Dev), ch < 4 ∧ b.bg < 4 ∧ b.ba < 16 ∧ bank = s.dev.bankOf ch b ∧ page < 2048 ∧ (len = 32 ∨ len = 64) ∧ s.dev.portOn s.env = true ∧ tgetD s.dev.host.ckBad ch false = false ∧ s.dev.lowOf ch = 0 ∧ s.dev.penAnswers s.env = true ∧ s.dev.page ch bank = some p ∧ d = s.dev.setLow ch 0 ∧ 512 ≤ p.row) ∧
    (∃ (s : State) (ch : Nat) (bank : Nat) (page : Nat) (b : BankAddr) (data : List Byte) (mask : List Bool) (ecc : LinkEcc) (p : Page) (cells : List Host.Cell) (bad : Bool) (d : Dev), ch < 4 ∧ b.bg < 4 ∧ b.ba < 16 ∧ bank = s.dev.bankOf ch b ∧ page < 2048 ∧ (data.length = 32 ∨ data.length = 64) ∧ s.dev.portOn s.env = true ∧ tgetD s.dev.host.ckBad ch false = false ∧ s.dev.lowOf ch = 0 ∧ s.dev.penAnswers s.env = true ∧ s.dev.page ch bank = some p ∧ (cells = burstCells (burstOffsets ch bank p.row page data.length) data (if s.dev.maskOff ch = true then [] else mask)) ∧ bad = (s.dev.writeEccOn ch && ecc == LinkEcc.double) ∧ (d = if bad = true then (s.dev.setLow ch 0).raise 640 3 4 (hostOffset ch bank p.row page) else s.dev.setLow ch 0) ∧ p.row < 512) ∧
    (∃ (s : State) (ch : Nat) (bank : Nat) (page : Nat) (b : BankAddr) (data : List Byte) (mask : List Bool) (ecc : LinkEcc) (p : Page) (cells : List Host.Cell) (bad : Bool) (d : Dev), ch < 4 ∧ b.bg < 4 ∧ b.ba < 16 ∧ bank = s.dev.bankOf ch b ∧ page < 2048 ∧ (data.length = 32 ∨ data.length = 64) ∧ s.dev.portOn s.env = true ∧ tgetD s.dev.host.ckBad ch false = false ∧ s.dev.lowOf ch = 0 ∧ s.dev.penAnswers s.env = true ∧ s.dev.page ch bank = some p ∧ (cells = burstCells (burstOffsets ch bank p.row page data.length) data (if s.dev.maskOff ch = true then [] else mask)) ∧ bad = (s.dev.writeEccOn ch && ecc == LinkEcc.double) ∧ (d = if bad = true then (s.dev.setLow ch 0).raise 640 3 4 (hostOffset ch bank p.row page) else s.dev.setLow ch 0)) ∧
    (∃ (s : State) (ch : Nat) (bank : Nat) (page : Nat) (b : BankAddr) (data : List Byte) (mask : List Bool) (ecc : LinkEcc) (p : Page) (cells : List Host.Cell) (bad : Bool) (d : Dev) (base : Nat) (length : Nat), ch < 4 ∧ b.bg < 4 ∧ b.ba < 16 ∧ bank = s.dev.bankOf ch b ∧ page < 2048 ∧ (data.length = 32 ∨ data.length = 64) ∧ s.dev.portOn s.env = true ∧ tgetD s.dev.host.ckBad ch false = false ∧ s.dev.lowOf ch = 0 ∧ s.dev.penAnswers s.env = true ∧ s.dev.page ch bank = some p ∧ (cells = burstCells (burstOffsets ch bank p.row page data.length) data (if s.dev.maskOff ch = true then [] else mask)) ∧ bad = (s.dev.writeEccOn ch && ecc == LinkEcc.double) ∧ (d = if bad = true then (s.dev.setLow ch 0).raise 640 3 4 (hostOffset ch bank p.row page) else s.dev.setLow ch 0) ∧ 512 ≤ p.row ∧ tget s.dev.host.windows (hostOffset ch bank p.row page / 67108864) = some (base, length) ∧ hostOffset ch bank p.row page % 67108864 < length ∧ s.dev.host.winHeld ch + cells.length ≤ 1048576) ∧
    (∃ (s : State) (w : PenWrite) (i : Nat), ((List.map (fun x => x.1) w.cells).Nodup) ∧ s.dev.host.penWrites[i]? = some w ∧ (((List.take i s.dev.host.penWrites).all fun x => x.line != w.line) = true) ∧ 1024 ≤ w.line ∧ s.dev.penAnswers s.env = true) ∧
    (∃ (s : State) (w : PenWrite) (ch : Nat) (i : Nat), ((List.map (fun x => x.1) w.cells).Nodup) ∧ ch < 4 ∧ ((List.filter (fun x => x.ch == ch) s.dev.host.winWrites)[i]? = some w) ∧ (((List.takeWhile (fun x => x.no != w.no) s.dev.host.winWrites).all fun x => x.line != w.line) = true) ∧ s.dev.gddr.selfRefresh = false ∧ (∀ o ∈ s.dev.mbox.outst, o.opcode ≠ 1024) ∧ s.dev.gddrFailed (64 * w.line) = false) :=
  ⟨⟨(st (pg 511 true)), 3, 15, 1984, 64, b15, (P 511 true), (dp (pg 511 true)), by refine ⟨?_, ?_, ?_, bankOf_of_no_mr _ _ _ _ rfl rfl, ?_, ?_, ?_, ?_, ?_, ?_, ?_, ?_, ?_, ?_⟩ <;> decide +kernel⟩,
   ⟨(st (pg 511 true)), 3, 15, 1984, 64, b15, (P 511 true), (dp (pg 511 true)), by refine ⟨?_, ?_, ?_, bankOf_of_no_mr _ _ _ _ rfl rfl, ?_, ?_, ?_, ?_, ?_, ?_, ?_, ?_, ?_, ?_, ?_, ?_, ?_⟩ <;> decide +kernel⟩,
   ⟨(st (pg 0 false)), 3, 15, 32, 32, b15, (P 0 false), (dp (pg 0 false)), by refine ⟨?_, ?_, ?_, bankOf_of_no_mr _ _ _ _ rfl rfl, ?_, ?_, ?_, ?_, ?_, ?_, ?_, ?_, ?_, ?_⟩ <;> decide +kernel⟩,
   ⟨(st (pg 512 false)), 3, 15, 32, 32, b15, (P 512 false), (dp (pg 512 false)), by refine ⟨?_, ?_, ?_, bankOf_of_no_mr _ _ _ _ rfl rfl, ?_, ?_, ?_, ?_, ?_, ?_, ?_, ?_, ?_⟩ <;> decide +kernel⟩,
   ⟨(st (pg 511 true)), 3, 15, 1984, b15, dat, nm, LinkEcc.double, (P 511 true), c511, false, (dp (pg 511 true)), by refine ⟨?_, ?_, ?_, bankOf_of_no_mr _ _ _ _ rfl rfl, ?_, ?_, ?_, ?_, ?_, ?_, ?_, (by rw [maskOff_of_no_mr _ _ rfl]; rfl), (by rw [writeEccOn_of_no_mr _ _ rfl]; rfl), ?_, ?_⟩ <;> decide +kernel⟩,
   ⟨(st (pg 511 true)), 3, 15, 1984, b15, dat, nm, LinkEcc.double, (P 511 true), c511, false, (dp (pg 511 true)), by refine ⟨?_, ?_, ?_, bankOf_of_no_mr _ _ _ _ rfl rfl, ?_, ?_, ?_, ?_, ?_, ?_, ?_, (by rw [maskOff_of_no_mr _ _ rfl]; rfl), (by rw [writeEccOn_of_no_mr _ _ rfl]; rfl), ?_⟩ <;> decide +kernel⟩,
   ⟨(st pgw), 3, 15, 1984, b15, dat, nm1, LinkEcc.good, (P 512 true), c512m, false, (dp pgw), gddrBase, 0x4000000, by refine ⟨?_, ?_, ?_, bankOf_of_no_mr _ _ _ _ rfl rfl, ?_, ?_, ?_, ?_, ?_, ?_, ?_, (by rw [maskOff_of_no_mr _ _ rfl]; rfl), (by rw [writeEccOn_of_no_mr _ _ rfl]; rfl), ?_, ?_, ?_, ?_, ?_⟩ <;> decide +kernel⟩,
   ⟨(st { dev with host := { penWrites := [w1] } }), w1, 0, by decide +kernel⟩,
   ⟨(st { dev with host := { winWrites := [w2] } }), w2, 3, 0, by decide +kernel⟩⟩

end W6

namespace W7

def T : Nat := 10000000000000
def th (t w : Nat) (regs : Tab Word := []) : Dev :=
  { dev with
    folds := [(t/64, { gated := false })]
    threads := [(t, { st := .ready, regs := regs })]
    mem := { bytes := cellsOf (foldBase (t/64)) (leBytes 8 w) } }
def wd (cls : Nat) (k a b c : Nat) : Nat := cls * 2^58 + k * 2^54 + a * 2^49 + b * 2^44 + c * 2^39
def t1 := 3071
def own : Word := BitVec.ofNat 64 (foldBase 47 + 0x100)
def com : Word := BitVec.ofNat 64 (commonBase + 0x4000000)
def s4 : State := st (th t1 (wd 4 0 0 0 0) [(1,own),(2,com)])
def po : Posted := { thread := t1, addr := foldBase 47 + 0x100, data := [1,0,3,4], poisoned := false }
def wt (w : WaitFor) (since : Nat := 0) (t := t1) : Dev := { dev with threads := [(t, { st := .waiting, wait := some { what := w, since := since } })] }
def tw (kind : Nat) (id v : Word) (f : Dev → Dev := fun d => d) (rd := 1): State := st (f (th t1 (wd 10 kind rd 2 3) [(2,id),(3,v)]))
def ww (kind : Nat) (rd := 1) := wd 10 kind rd 2 3
def Q : Nat := 47*256+3
def fq : FQueue := { inst := 0, prods := [{ who := .thread t1, credits := 1 }] }
def withQ (q : FQueue) (d : Dev) : Dev := { d with queues := [(Q, q)] }
def fqE : FQueue := { fq with entries := [{ data := List.replicate 16 9, atEnd := true, prod := 0 }], overrun := true, prods := [{ who := .thread t1, credits := 1, used := 1 }] }
def sl (x : SlotState) (b := false) : Slot := { inst := 0, base := foldBase 0 + 0x1000, size := 64, writer := some 0, st := x, taint := b }
def withS (x : SlotState) (d : Dev) : Dev := { d with slots := [(5, sl x)] }
def hu : Hurdle := { inst := 0, members := 2 }
def withH (h : Hurdle) (d : Dev) : Dev := { d with hurdles := [(6, h)] }
def tp (kind : Nat) (a b c : Word) (f : Dev → Dev := fun d => d) : State := st (f (th t1 (wd 11 kind 1 2 3) [(1,a),(2,b),(3,c)]))
def wp (kind : Nat) := wd 11 kind 1 2 3

theorem test_meets_thread_arithmetic :
    (∃ (s : State) (t : Nat) (w : Nat) (rd : Nat), t < 3088 ∧ rd < 32 ∧ s.dev.issues t 1 w) ∧
    (∃ (s : State) (t : Nat) (w : Nat) (rd : Nat), t < 3088 ∧ rd < 32 ∧ s.dev.issues t 2 w) ∧
    (∃ (s : State) (t : Nat) (w : Nat) (rd : Nat) (k : Nat), t < 3088 ∧ rd < 32 ∧ k ≤ 2 ∧ s.dev.issues t 12 w) ∧
    (∃ (s : State) (t : Nat) (w : Nat), t < 3088 ∧ s.dev.issues t 3 w) :=
  ⟨⟨(st (th t1 (wd 1 0 0 0 0) [(1,5),(2,7)])), t1, (wd 1 0 0 0 0), 3, by unfold Dev.issues; decide +kernel⟩,
   ⟨(st (th t1 (wd 2 0 0 0 0) [(1,-5),(2,7)])), t1, (wd 2 0 0 0 0), 1, by unfold Dev.issues; decide +kernel⟩,
   ⟨(st (th t1 (wd 12 0 0 0 0))), t1, (wd 12 0 0 0 0), 1, 2, by unfold Dev.issues; decide +kernel⟩,
   ⟨(st (th t1 (wd 3 0 0 0 0) [(1,5)])), t1, (wd 3 0 0 0 0), by unfold Dev.issues; decide +kernel⟩⟩

theorem test_meets_thread_memory_access :
    (∃ (s : State) (t : Nat) (w : Nat) (size : Nat) (rd : Nat) (ra : Nat) (off : Int) (a : Nat), t < 3088 ∧ rd < 32 ∧ a = s.dev.addrOf t ra off ∧ a % size = 0 ∧ s.dev.slots = [] ∧ s.dev.reachOf (foldOfThread t) a = Reach.served ∧ (size = 1 ∨ size = 2 ∨ size = 4 ∨ size = 8) ∧ s.dev.issues t 4 w ∧ isOwn (foldOfThread t) a = true ∧ s.dev.posted = [] ∧ s.dev.mem.sound = true) ∧
    (∃ (s : State) (t : Nat) (w : Nat) (size : Nat) (rd : Nat) (ra : Nat) (off : Int) (a : Nat), t < 3088 ∧ rd < 32 ∧ a = s.dev.addrOf t ra off ∧ a % size = 0 ∧ s.dev.slots = [] ∧ s.dev.reachOf (foldOfThread t) a = Reach.served ∧ (size = 1 ∨ size = 2 ∨ size = 4 ∨ size = 8) ∧ s.dev.issues t 4 w ∧ isOwn (foldOfThread t) a = false) ∧
    (∃ (s : State) (t : Nat) (w : Nat) (size : Nat) (rd : Nat) (ra : Nat) (off : Int) (a : Nat), t < 3088 ∧ rd < 32 ∧ a = s.dev.addrOf t ra off ∧ a % size = 0 ∧ s.dev.slots = [] ∧ s.dev.reachOf (foldOfThread t) a = Reach.served ∧ (size = 1 ∨ size = 2 ∨ size = 4 ∨ size = 8) ∧ s.dev.issues t 5 w) ∧
    (∃ (s : State) (t : Nat) (w : Nat) (size : Nat) (rd : Nat) (ra : Nat) (off : Int) (a : Nat), t < 3088 ∧ rd < 32 ∧ a = s.dev.addrOf t ra off ∧ a % size = 0 ∧ s.dev.slots = [] ∧ s.dev.reachOf (foldOfThread t) a = Reach.served ∧ (size = 4 ∨ size = 8) ∧ off = 0 ∧ s.dev.issues t 6 w) ∧
    (∃ (s : State) (t : Nat) (w : Nat) (size : Nat) (rd : Nat) (ra : Nat) (off : Int) (a : Nat), t < 3088 ∧ rd < 32 ∧ a = s.dev.addrOf t ra off ∧ a % size = 0 ∧ s.dev.slots = [] ∧ s.dev.reachOf (foldOfThread t) a = Reach.served ∧ s.dev.issues t 7 w ∧ s.dev.storesDone t = true) ∧
    (∃ (s : State) (t : Nat) (w : Nat) (size : Nat) (rd : Nat) (ra : Nat) (off : Int) (a : Nat), t < 3088 ∧ rd < 32 ∧ a = s.dev.addrOf t ra off ∧ a % size = 0 ∧ s.dev.slots = [] ∧ s.dev.reachOf (foldOfThread t) a = Reach.served ∧ s.dev.issues t 7 w ∧ s.dev.storesDone t = false) ∧
    (∃ (s : State) (i : Nat) (p : Posted), s.dev.clocked = true ∧ s.dev.posted[i]? = some p ∧ p.atomic = none ∧ (((List.take i s.dev.posted).all fun x => x.thread != p.thread || x.addr / 64 != p.addr / 64) = true) ∧ s.dev.refusesPosted p = false ∧ s.dev.reach p.addr = Reach.served ∧ (∃ n o, zoneOf p.addr = Zone.foldMem n o) ∧ p.data ≠ [] ∧ p.addr % 64 + p.data.length ≤ 64) ∧
    (∃ (s : State) (t : Nat) (a : Nat) (size : Nat) (rd : Nat), s.dev.clocked = true ∧ t < 3088 ∧ rd < 32 ∧ (s.dev.thread t).st = ThState.waiting ∧ (Option.map (fun x => x.what) (s.dev.thread t).wait = some (WaitFor.loadData a size rd)) ∧ s.dev.flock.reqs = [] ∧ s.dev.posted = [] ∧ s.dev.reach a = Reach.served ∧ (∃ o, zoneOf a = Zone.common o ∧ 8196 ≤ o) ∧ s.dev.slots = [] ∧ s.dev.mem.sound = true) :=
  ⟨⟨s4, t1, (wd 4 0 0 0 0), 8, 3, 1, (-256), (foldBase 47), by unfold Dev.issues; decide +kernel⟩,
   ⟨s4, t1, (wd 4 0 0 0 0), 1, 3, 2, (3), (commonBase + 0x4000003), by unfold Dev.issues; decide +kernel⟩,
   ⟨(st (th t1 (wd 5 0 0 0 0) [(1,own),(2,com)])), t1, (wd 5 0 0 0 0), 4, 0, 2, (4), (commonBase + 0x4000004), by unfold Dev.issues; decide +kernel⟩,
   ⟨(st (th t1 (wd 6 0 0 0 0) [(1,own),(2,com)])), t1, (wd 6 0 0 0 0), 4, 31, 2, 0, (commonBase + 0x4000000), by unfold Dev.issues; decide +kernel⟩,
   ⟨(st (th t1 (wd 7 0 0 0 0) [(1,own),(2,com)])), t1, (wd 7 0 0 0 0), 4, 31, 2, 0, (commonBase + 0x4000000), by unfold Dev.issues; decide +kernel⟩,
   ⟨(st { th t1 (wd 7 0 0 0 0) [(1,own),(2,com)] with posted := [po] }), t1, (wd 7 0 0 0 0), 4, 31, 2, 0, (commonBase + 0x4000000), by unfold Dev.issues; decide +kernel⟩,
   ⟨(st { th t1 (wd 7 0 0 0 0) with posted := [po] }), 0, po, by refine ⟨?_, ?_, ?_, ?_, ?_, ?_, ⟨_, _, rfl⟩, ?_, ?_⟩ <;> decide +kernel⟩,
   ⟨(st (wt (.loadData (commonBase + 0x4000000) 8 5))), t1, (commonBase + 0x4000000), 8, 5, by refine ⟨?_, ?_, ?_, ?_, ?_, ?_, ?_, ?_, ⟨_, rfl, by decide +kernel⟩, ?_, ?_⟩ <;> decide +kernel⟩⟩

theorem test_meets_thread_waits :
    (∃ (s : State) (t : Nat) (w : Nat) (rd : Nat) (id : Nat) (v : Nat), t < 3088 ∧ rd = fA w ∧ id = identOf (s.dev.reg t (fB w)) ∧ v = BitVec.toNat (s.dev.reg t (fC w)) ∧ s.dev.waitsOn t 0 w ∧ reached (s.dev.engine (foldOfThread t) id).completed v = true) ∧
    (∃ (s : State) (t : Nat) (w : Nat) (rd : Nat) (id : Nat) (v : Nat), t < 3088 ∧ rd = fA w ∧ id = identOf (s.dev.reg t (fB w)) ∧ v = BitVec.toNat (s.dev.reg t (fC w)) ∧ s.dev.waitsOn t 0 w ∧ reached (s.dev.engine (foldOfThread t) id).completed v = false) ∧
    (∃ (s : State) (t : Nat) (w : Nat) (rd : Nat) (id : Nat) (v : Nat) (q : FQueue), t < 3088 ∧ rd = fA w ∧ id = identOf (s.dev.reg t (fB w)) ∧ v = BitVec.toNat (s.dev.reg t (fC w)) ∧ s.dev.waitsOn t 1 w ∧ tget s.dev.queues id = some q ∧ takePos q = none ∧ v = 0) ∧
    (∃ (s : State) (t : Nat) (w : Nat) (rd : Nat) (id : Nat) (v : Nat) (q : FQueue), t < 3088 ∧ rd = fA w ∧ id = identOf (s.dev.reg t (fB w)) ∧ v = BitVec.toNat (s.dev.reg t (fC w)) ∧ s.dev.waitsOn t 1 w ∧ tget s.dev.queues id = some q ∧ (takePos q).isSome = true ∧ q.waiters = []) ∧
    (∃ (s : State) (t : Nat) (w : Nat) (rd : Nat) (id : Nat) (v : Nat) (q : FQueue) (i : Nat) (p : ProdSlot), t < 3088 ∧ rd = fA w ∧ id = identOf (s.dev.reg t (fB w)) ∧ v = BitVec.toNat (s.dev.reg t (fC w)) ∧ s.dev.waitsOn t 2 w ∧ tget s.dev.queues id = some q ∧ prodIndex q (Prod.thread t) = some i ∧ q.prods[i]? = some p ∧ p.used < p.credits) ∧
    (∃ (s : State) (t : Nat) (w : Nat) (rd : Nat) (id : Nat) (v : Nat) (q : FQueue) (i : Nat) (p : ProdSlot), t < 3088 ∧ rd = fA w ∧ id = identOf (s.dev.reg t (fB w)) ∧ v = BitVec.toNat (s.dev.reg t (fC w)) ∧ s.dev.waitsOn t 2 w ∧ tget s.dev.queues id = some q ∧ prodIndex q (Prod.thread t) = some i ∧ q.prods[i]? = some p ∧ p.credits ≤ p.used ∧ v = 0) ∧
    (∃ (s : State) (t : Nat) (w : Nat) (rd : Nat) (id : Nat) (v : Nat), t < 3088 ∧ rd = fA w ∧ id = identOf (s.dev.reg t (fB w)) ∧ v = BitVec.toNat (s.dev.reg t (fC w)) ∧ s.dev.waitsOn t 6 w ∧ ↑v ≤ s.dev.counter id s.clk.raw) ∧
    (∃ (s : State) (t : Nat) (w : Nat) (rd : Nat) (id : Nat) (v : Nat), t < 3088 ∧ rd = fA w ∧ id = identOf (s.dev.reg t (fB w)) ∧ v = BitVec.toNat (s.dev.reg t (fC w)) ∧ s.dev.waitsOn t 6 w ∧ s.dev.counter id s.clk.raw < ↑v) ∧
    (∃ (s : State) (t : Nat) (w : Nat) (rd : Nat) (id : Nat) (v : Nat) (q : FQueue), t < 3088 ∧ rd = fA w ∧ id = identOf (s.dev.reg t (fB w)) ∧ v = BitVec.toNat (s.dev.reg t (fC w)) ∧ s.dev.waitsOn t 7 w ∧ tget s.dev.queues id = some q) ∧
    (∃ (s : State) (t : Nat) (w : Nat) (rd : Nat) (id : Nat) (v : Nat), t < 3088 ∧ rd = fA w ∧ id = identOf (s.dev.reg t (fB w)) ∧ v = BitVec.toNat (s.dev.reg t (fC w)) ∧ s.dev.waitsOn t 3 w ∧ s.dev.slotState id = some SlotState.full) ∧
    (∃ (s : State) (t : Nat) (w : Nat) (rd : Nat) (id : Nat) (v : Nat), t < 3088 ∧ rd = fA w ∧ id = identOf (s.dev.reg t (fB w)) ∧ v = BitVec.toNat (s.dev.reg t (fC w)) ∧ s.dev.waitsOn t 3 w ∧ s.dev.slotState id = some SlotState.abandoned) ∧
    (∃ (s : State) (t : Nat) (w : Nat) (rd : Nat) (id : Nat) (v : Nat), t < 3088 ∧ rd = fA w ∧ id = identOf (s.dev.reg t (fB w)) ∧ v = BitVec.toNat (s.dev.reg t (fC w)) ∧ s.dev.waitsOn t 3 w ∧ s.dev.slotState id = some SlotState.empty ∧ v ≠ 0 ∧ v ≤ s.clk.raw) ∧
    (∃ (s : State) (t : Nat) (w : Nat) (rd : Nat) (id : Nat) (v : Nat), t < 3088 ∧ rd = fA w ∧ id = identOf (s.dev.reg t (fB w)) ∧ v = BitVec.toNat (s.dev.reg t (fC w)) ∧ s.dev.waitsOn t 3 w ∧ s.dev.slotState id = some SlotState.empty ∧ v = 0) ∧
    (∃ (s : State) (t : Nat) (w : Nat) (rd : Nat) (id : Nat) (v : Nat), t < 3088 ∧ rd = fA w ∧ id = identOf (s.dev.reg t (fB w)) ∧ v = BitVec.toNat (s.dev.reg t (fC w)) ∧ s.dev.waitsOn t 4 w ∧ s.dev.slotState id = some SlotState.empty) ∧
    (∃ (s : State) (t : Nat) (w : Nat) (rd : Nat) (id : Nat) (v : Nat), t < 3088 ∧ rd = fA w ∧ id = identOf (s.dev.reg t (fB w)) ∧ v = BitVec.toNat (s.dev.reg t (fC w)) ∧ s.dev.waitsOn t 4 w ∧ s.dev.slotState id = some SlotState.full ∧ v = 0) ∧
    (∃ (s : State) (t : Nat) (w : Nat) (rd : Nat) (id : Nat) (v : Nat) (h : Hurdle), t < 3088 ∧ rd = fA w ∧ id = identOf (s.dev.reg t (fB w)) ∧ v = BitVec.toNat (s.dev.reg t (fC w)) ∧ s.dev.waitsOn t 5 w ∧ tget s.dev.hurdles id = some h ∧ h.broken = none) ∧
    (∃ (s : State) (t : Nat) (w : Nat) (rd : Nat) (id : Nat) (v : Nat) (h : Hurdle), t < 3088 ∧ rd = fA w ∧ id = identOf (s.dev.reg t (fB w)) ∧ v = BitVec.toNat (s.dev.reg t (fC w)) ∧ s.dev.waitsOn t 5 w ∧ tget s.dev.hurdles id = some h ∧ h.broken = some causeAbandoned) :=
  ⟨⟨(tw 0 4 0), t1, (ww 0), 1, 4, 0, by unfold Dev.waitsOn Dev.issues; decide +kernel⟩,
   ⟨(tw 0 4 5), t1, (ww 0), 1, 4, 5, by unfold Dev.waitsOn Dev.issues; decide +kernel⟩,
   ⟨(tw 1 (BitVec.ofNat 64 Q) 0 (withQ fq)), t1, (ww 1), 1, Q, 0, fq, by unfold Dev.waitsOn Dev.issues; decide +kernel⟩,
   ⟨(tw 1 (BitVec.ofNat 64 Q) 0 (withQ fqE)), t1, (ww 1), 1, Q, 0, fqE, by unfold Dev.waitsOn Dev.issues; decide +kernel⟩,
   ⟨(tw 2 (BitVec.ofNat 64 Q) 0 (withQ fq)), t1, (ww 2), 1, Q, 0, fq, 0, ({ who := .thread t1, credits := 1 } : ProdSlot), by unfold Dev.waitsOn Dev.issues; decide +kernel⟩,
   ⟨(tw 2 (BitVec.ofNat 64 Q) 0 (withQ fqE)), t1, (ww 2), 1, Q, 0, fqE, 0, ({ who := .thread t1, credits := 1, used := 1 } : ProdSlot), by unfold Dev.waitsOn Dev.issues; decide +kernel⟩,
   ⟨(tw 6 2 (BitVec.ofNat 64 T)), t1, (ww 6), 1, 2, T, by unfold Dev.waitsOn Dev.issues; decide +kernel⟩,
   ⟨(tw 6 0 (BitVec.ofNat 64 (T+1))), t1, (ww 6), 1, 0, (T+1), by unfold Dev.waitsOn Dev.issues; decide +kernel⟩,
   ⟨(tw 7 (BitVec.ofNat 64 Q) 0 (withQ fqE)), t1, (ww 7), 1, Q, 0, fqE, by unfold Dev.waitsOn Dev.issues; decide +kernel⟩,
   ⟨(tw 3 5 0 (withS .full)), t1, (ww 3), 1, 5, 0, by unfold Dev.waitsOn Dev.issues; decide +kernel⟩,
   ⟨(tw 3 5 0 (withS .abandoned)), t1, (ww 3), 1, 5, 0, by unfold Dev.waitsOn Dev.issues; decide +kernel⟩,
   ⟨(tw 3 5 (BitVec.ofNat 64 T) (withS .empty)), t1, (ww 3), 1, 5, T, by unfold Dev.waitsOn Dev.issues; decide +kernel⟩,
   ⟨(tw 3 5 0 (withS .empty)), t1, (ww 3), 1, 5, 0, by unfold Dev.waitsOn Dev.issues; decide +kernel⟩,
   ⟨(tw 4 5 0 (withS .empty) 0), t1, (ww 4 0), 0, 5, 0, by unfold Dev.waitsOn Dev.issues; decide +kernel⟩,
   ⟨(tw 4 5 0 (withS .full)), t1, (ww 4), 1, 5, 0, by unfold Dev.waitsOn Dev.issues; decide +kernel⟩,
   ⟨(tw 5 6 0 (withH hu)), t1, (ww 5), 1, 6, 0, hu, by unfold Dev.waitsOn Dev.issues; decide +kernel⟩,
   ⟨(tw 5 6 0 (withH { hu with broken := some 1 })), t1, (ww 5), 1, 6, 0, { hu with broken := some 1 }, by unfold Dev.waitsOn Dev.issues; decide +kernel⟩⟩

theorem test_meets_thread_posts_and_end :
    (∃ (s : State) (t : Nat) (w : Nat), t < 3088 ∧ s.dev.postsOn t 0 w ∧ BitVec.toNat (s.dev.reg t (fA w)) < 2 ^ 31 ∧ identOf (s.dev.reg t (fA w)) / 256 ≠ 63) ∧
    (∃ (s : State) (t : Nat) (w : Nat), t < 3088 ∧ s.dev.postsOn t 1 w ∧ BitVec.toNat (s.dev.reg t (fA w)) < 2 ^ 31 ∧ identOf (s.dev.reg t (fA w)) / 256 ≠ 63) ∧
    (∃ (s : State) (t : Nat) (w : Nat), t < 3088 ∧ s.dev.postsOn t 2 w ∧ s.dev.storesDone t = true) ∧
    (∃ (s : State) (t : Nat) (w : Nat), t < 3088 ∧ s.dev.postsOn t 2 w ∧ s.dev.storesDone t = false) ∧
    (∃ (s : State) (t : Nat) (w : Nat), t < 3088 ∧ s.dev.postsOn t 3 w) ∧
    (∃ (s : State) (t : Nat) (w : Nat), t < 3088 ∧ s.dev.postsOn t 4 w) ∧
    (∃ (s : State) (t : Nat) (w : Nat), t < 3088 ∧ s.dev.issues t 13 w ∧ s.dev.ownerOf t = none) ∧
    (∃ (s : State) (t : Nat) (w : Nat), t < 3088 ∧ s.dev.mayIssue t = true ∧ s.dev.fetch t = (Fetched.word w, s.dev) ∧ (classOf w = 0 ∨ 13 < classOf w) ∧ s.dev.ownerOf t = none) :=
  ⟨⟨(tp 0 5 1 2), t1, (wp 0), by unfold Dev.postsOn Dev.issues; decide +kernel⟩,
   ⟨(tp 1 5 1 2), t1, (wp 1), by unfold Dev.postsOn Dev.issues; decide +kernel⟩,
   ⟨(tp 2 5 1 2), t1, (wp 2), by unfold Dev.postsOn Dev.issues; decide +kernel⟩,
   ⟨(tp 2 5 1 2 fun d => { d with posted := [po] }), t1, (wp 2), by unfold Dev.postsOn Dev.issues; decide +kernel⟩,
   ⟨(tp 3 5 1 2), t1, (wp 3), by unfold Dev.postsOn Dev.issues; decide +kernel⟩,
   ⟨(tp 4 5 1 2), t1, (wp 4), by unfold Dev.postsOn Dev.issues; decide +kernel⟩,
   ⟨(st (th t1 (wd 13 0 0 0 0) [(1,5)])), t1, (wd 13 0 0 0 0), by unfold Dev.issues; decide +kernel⟩,
   ⟨(st (th t1 (wd 14 0 0 0 0) [(1,5)])), t1, (wd 14 0 0 0 0), by decide +kernel⟩⟩

theorem test_meets_waits_end :
    (∃ (s : State) (t : Nat) (x : Wait) (id : Nat) (rd : Nat) (dl : Nat), t < 3088 ∧ (s.dev.thread t).st = ThState.waiting ∧ (s.dev.thread t).wait = some x ∧ x.what = WaitFor.slotFull id rd dl ∧ 0 < rd ∧ rd < 32 ∧ 0 < dl ∧ dl ≤ s.clk.raw) ∧
    (∃ (s : State) (t : Nat) (x : Wait) (id : Nat) (rd : Nat) (dl : Nat) (q : FQueue) (n : Nat), t < 3088 ∧ (s.dev.thread t).st = ThState.waiting ∧ (s.dev.thread t).wait = some x ∧ x.what = WaitFor.credit id rd dl ∧ 0 < rd ∧ rd < 32 ∧ tget s.dev.queues id = some q ∧ q.timeoutNs = some n ∧ x.since + n ≤ s.clk.raw) ∧
    (∃ (s : State) (t : Nat) (x : Wait) (k : Nat) (v : Nat) (rd : Nat), t < 3088 ∧ (s.dev.thread t).st = ThState.waiting ∧ (s.dev.thread t).wait = some x ∧ x.what = WaitFor.time k v rd ∧ ↑v ≤ s.dev.counter k s.clk.raw) ∧
    (∃ (s : State) (t : Nat) (x : Wait) (k : Nat) (v : Nat) (rd : Nat), t < 3088 ∧ (s.dev.thread t).st = ThState.waiting ∧ (s.dev.thread t).wait = some x ∧ x.what = WaitFor.time k v rd ∧ s.dev.counter k s.clk.raw < ↑v) :=
  ⟨⟨(st (wt (.slotFull 5 1 T))), t1, ({ what := .slotFull 5 1 T, since := 0 } : Wait), 5, 1, T, by decide +kernel⟩,
   ⟨(st (withQ fq (wt (.credit Q 31 0) (T-2000000)))), t1, ({ what := .credit Q 31 0, since := T-2000000 } : Wait), Q, 31, 0, fq, 2000000, by decide +kernel⟩,
   ⟨(st (wt (.time 0 T 1))), t1, ({ what := .time 0 T 1, since := 0 } : Wait), 0, T, 1, by decide +kernel⟩,
   ⟨(st (wt (.time 0 (T+1) 1))), t1, ({ what := .time 0 (T+1) 1, since := 0 } : Wait), 0, (T+1), 1, by decide +kernel⟩⟩

end W7

namespace W8

def T : Nat := 10000000000000
def b64 : Nat → Word := BitVec.ofNat 64
def fillD (dst pat n : Nat) (post : Nat := 0) : List Byte :=
  leBytes 1 3 ++ leBytes 1 0 ++ leBytes 2 post ++ leBytes 2 259 ++ leBytes 2 0 ++ leBytes 8 pat ++ leBytes 8 dst ++ leBytes 4 n ++ List.replicate 36 0
def copyD (src dst n : Nat) (post : Nat := 0) : List Byte :=
  leBytes 1 0 ++ leBytes 1 0 ++ leBytes 2 post ++ leBytes 2 259 ++ leBytes 2 0 ++ leBytes 8 src ++ leBytes 8 dst ++ leBytes 4 n ++ List.replicate 36 0
def vecD (n : Nat) : List Byte :=
  [8, 0x14, 0x14, 0x14, 0, 0, 0, 0] ++ leBytes 4 1 ++ leBytes 4 16 ++ leBytes 8 (foldBase n + 0x1000) ++ leBytes 8 0 ++ leBytes 8 0 ++
    leBytes 8 (foldBase n + 0x2000) ++ leBytes 4 64 ++ leBytes 4 0 ++ leBytes 4 0 ++ leBytes 4 64 ++ List.replicate 64 0
def tileD (n : Nat) : List Byte :=
  [0, 1, 1, 1, 0, 0, 0, 0] ++ leBytes 2 16 ++ leBytes 2 16 ++ leBytes 2 16 ++ leBytes 2 0 ++ leBytes 8 (foldBase n + 0x1000) ++ leBytes 8 (foldBase n + 0x2000) ++ leBytes 8 (foldBase n + 0x3000) ++ leBytes 4 64 ++ leBytes 4 64 ++ leBytes 4 64 ++ List.replicate 76 0

def t0 := 65
def dB (b : List Byte) : Dev := { dev with
  folds := [(1, { gated := false })], threads := [(t0, { st := .ready, regs := [(2, b64 (foldBase 1 + 0x100)),(3, b64 (foldBase 1 + 0x200))] })]
  mem := { bytes := mput (mput (cellsOf (foldBase 1) (leBytes 8 (0x08 * 2^58))) (foldBase 1 + 0x100) b) (foldBase 1 + 0x200) (tileD 1) } }
def wI := 0x08 * 2^58
def wG := 0x09 * 2^58
def dFull (b : List Byte) (k : Nat) : Dev := (dB b).modEngine 1 k fun g => { g with queue := List.replicate 32 { issue := 1, thread := t0, desc := b } }
def dG : Dev := { dB (vecD 1) with mem := { (dB (vecD 1)).mem with bytes := mput (dB (vecD 1)).mem.bytes (foldBase 1) (leBytes 8 wG) } }
def Q : Nat := 47*256+3
def fq : FQueue := { inst := 0, prods := [{ who := .thread t0, credits := 1 }, { who := .gate 3, credits := 1, used := 1 }] }
def dQ (f : Flight) : Dev := { dev with queues := [(Q, fq)], flights := [.mark 4 true 5, f] }
def dR : Dev := { dev with flights := [.release 3 (leBytes 8 0x200000000 ++ leBytes 8 0) 5], race := { dev.race with gates := [(3, { (dev.gate 3) with held := [0x200000000, 0x200000040] })] } }
def sl (x : SlotState) (b := false) : Slot := { inst := 0, base := foldBase 0 + 0x1000, size := 64, writer := some 0, st := x, taint := b }
def dS (x : SlotState) (f : Flight) (b := false) : Dev := { dev with slots := [(5, sl x b),(6, sl x)], flights := [f] }
def wt (w : WaitFor) (d : Dev) (since : Nat := 0) : Dev := { d with threads := [(t0, { st := .waiting, wait := some { what := w, since := since } })] }
def jC (n : Nat) : Job := { issue := 1, thread := 64*n+1, desc := copyD (foldBase 0 + 0x1000) (foldBase n + 0x5000) 64 1 }
def jCw (n : Nat) : Job := { issue := 1, thread := 64*n+1, desc := copyD (foldBase n + 0x5000) (foldBase 0 + 0x1000) 64 1 }
def dD (d : Dev) (n r : Nat) (g : Engine) : Dev := { d with folds := tset d.folds n { gated := false, engines := [(3+r, g)] } }
def hu : Hurdle := { inst := 0, members := 2 }
def dH (h : Hurdle) (f : Flight) : Dev := { dev with hurdles := [(7, h)], flights := [f] }
def jv (n : Nat) : Job := { issue := 3, thread := 64*n, desc := vecD n }
def jt (n : Nat) (m : List Nat := []) : Job := { issue := 3, thread := 64*n, desc := tileD n, mates := m }
def dJ (n : Nat) (l : List (Nat × Engine)) : Dev := { dev with folds := [(n, { gated := false, engines := l })], mem := { bytes := cellsOf (foldBase n + 0x1000) ((List.range 128).map fun i => BitVec.ofNat 8 (i+1)) } }
def jF (n : Nat) (p := 1) : Job := { issue := 1, thread := 64*n+1, desc := fillD (foldBase n + 0x5000) 77 200 p }

theorem test_meets_descriptors_are_queued :
    (∃ (s : State) (t : Nat) (w : Nat) (k : Nat) (rd : Nat) (ra : Nat), t < 3088 ∧ s.dev.posted = [] ∧ s.dev.mem.sound = true ∧ k < engineCount (foldOfThread t) ∧ rd < 32 ∧ s.dev.issues t 8 w ∧ s.dev.descriptorAt t k ra = true ∧ s.dev.engineFull (foldOfThread t) k = false) ∧
    (∃ (s : State) (t : Nat) (w : Nat) (k : Nat) (rd : Nat) (ra : Nat), t < 3088 ∧ s.dev.posted = [] ∧ s.dev.mem.sound = true ∧ k < engineCount (foldOfThread t) ∧ rd < 32 ∧ s.dev.issues t 8 w ∧ s.dev.descriptorAt t k ra = true ∧ s.dev.engineFull (foldOfThread t) k = true) ∧
    (∃ (s : State) (t : Nat) (w : Nat) (l : List (Nat × Nat × Nat)), t < 3088 ∧ s.dev.posted = [] ∧ s.dev.mem.sound = true ∧ (l.length = 2 ∨ l.length = 3) ∧ ((List.map (fun x => x.1) l).Nodup) ∧ ((List.map (fun x => x.2.1) l).Nodup) ∧ s.dev.issues t 9 w ∧ (∀ x ∈ l, x.1 < sequenced (foldOfThread t) ∧ x.2.1 < 32 ∧ x.2.2 < 32 ∧ s.dev.descriptorAt t x.1 x.2.2 = true ∧ s.dev.engineFull (foldOfThread t) x.1 = false)) :=
  ⟨⟨(st (dB (vecD 1))), t0, wI, 2, 5, 2, by unfold Dev.issues; decide +kernel⟩,
   ⟨(st (dFull (vecD 1) 2)), t0, wI, 2, 5, 2, by unfold Dev.issues; decide +kernel⟩,
   ⟨(st dG), t0, wG, [(0,4,3),(2,5,2)], by unfold Dev.issues; decide +kernel⟩⟩

theorem test_meets_entries_arrive :
    (∃ (s : State) (i : Nat) (id : Nat) (who : Machine.Prod) (data : List Byte) (atEnd : Bool) (src : Nat) (q : FQueue) (k : Nat) (p : ProdSlot), s.dev.clocked = true ∧ s.dev.flights[i]? = some (Flight.entry id who data atEnd src) ∧ (List.take i s.dev.flights).any (sameEntry id who) = false ∧ tget s.dev.queues id = some q ∧ prodIndex q who = some k ∧ q.prods[k]? = some p ∧ p.used < p.credits ∧ q.waiters = []) ∧
    (∃ (s : State) (i : Nat) (id : Nat) (who : Machine.Prod) (data : List Byte) (atEnd : Bool) (src : Nat) (q : FQueue) (k : Nat) (p : ProdSlot), s.dev.clocked = true ∧ s.dev.flights[i]? = some (Flight.entry id who data atEnd src) ∧ (List.take i s.dev.flights).any (sameEntry id who) = false ∧ tget s.dev.queues id = some q ∧ prodIndex q who = some k ∧ q.prods[k]? = some p ∧ p.credits ≤ p.used) ∧
    (∃ (s : State) (i : Nat) (data : List Byte) (src : Nat) (g : Nat), s.dev.clocked = true ∧ s.dev.flights[i]? = some (Flight.release g data src) ∧ fieldAt data 0 8 ≠ 0 ∧ (s.dev.gate g).held.contains (fieldAt data 0 8) = true) :=
  ⟨⟨(st (dQ (.entry Q (.thread t0) [1,2] true 5))), 1, Q, (Prod.thread t0), [1,2], true, 5, fq, 0, ({ who := .thread t0, credits := 1 } : ProdSlot), by decide +kernel⟩,
   ⟨(st (dQ (.entry Q (.gate 3) [1,2] true 5))), 1, Q, (Prod.gate 3), [1,2], true, 5, fq, 1, ({ who := .gate 3, credits := 1, used := 1 } : ProdSlot), by decide +kernel⟩,
   ⟨(st dR), 0, (leBytes 8 0x200000000 ++ leBytes 8 0), 5, 3, by decide +kernel⟩⟩

theorem test_meets_slots_and_hurdles_change :
    (∃ (s : State) (i : Nat) (id : Nat) (src : Nat) (x : Slot), s.dev.clocked = true ∧ id < 65536 ∧ tget s.dev.slots id = some x ∧ s.dev.flights[i]? = some (Flight.mark id true src) ∧ x.st = SlotState.empty) ∧
    (∃ (s : State) (i : Nat) (id : Nat) (src : Nat) (x : Slot), s.dev.clocked = true ∧ id < 65536 ∧ tget s.dev.slots id = some x ∧ s.dev.flights[i]? = some (Flight.mark id false src) ∧ x.st ≠ SlotState.empty) ∧
    (∃ (s : State) (i : Nat) (id : Nat) (src : Nat) (x : Slot) (full : Bool), s.dev.clocked = true ∧ id < 65536 ∧ tget s.dev.slots id = some x ∧ s.dev.flights[i]? = some (Flight.mark id full src) ∧ full = (x.st != SlotState.empty)) ∧
    (∃ (s : State) (id : Nat) (x : Slot) (k : Nat) (t : Nat) (y : Wait) (rd : Nat) (dl : Nat), s.dev.clocked = true ∧ id < 65536 ∧ tget s.dev.slots id = some x ∧ k < 3184 ∧ waiterThread k = some t ∧ 0 < rd ∧ rd < 32 ∧ s.dev.waitOf t = some y ∧ y.what = WaitFor.slotFull id rd dl ∧ x.st = SlotState.empty ∧ y.since + x.timeoutNs ≤ s.clk.raw) ∧
    (∃ (s : State) (id : Nat) (x : Slot) (k : Nat) (t : Nat) (y : Wait) (rd : Nat) (dl : Nat), s.dev.clocked = true ∧ id < 65536 ∧ tget s.dev.slots id = some x ∧ k < 3184 ∧ waiterThread k = some t ∧ 0 < rd ∧ rd < 32 ∧ s.dev.waitOf t = some y ∧ y.what = WaitFor.slotEmpty id rd dl ∧ x.st = SlotState.full ∧ y.since + x.timeoutNs ≤ s.clk.raw ∧ s.dev.posted = []) ∧
    (∃ (s : State) (id : Nat) (x : Slot) (n : Nat) (r : Nat) (j : Job) (since : Nat), s.dev.clocked = true ∧ id < 65536 ∧ tget s.dev.slots id = some x ∧ n < 48 ∧ r < 2 ∧ (s.dev.engine n (3 + r)).running = some j ∧ (s.dev.engine n (3 + r)).refusedAt = some since ∧ (s.dev.droverRefused n r j.desc).contains id = true ∧ x.st = SlotState.empty ∧ since + x.timeoutNs ≤ s.clk.raw) ∧
    (∃ (s : State) (i : Nat) (id : Nat) (src : Nat) (h : Hurdle) (w : Option Nat), s.dev.clocked = true ∧ id < 65536 ∧ tget s.dev.hurdles id = some h ∧ h.broken = none ∧ s.dev.flights[i]? = some (Flight.arrive id w src) ∧ h.count + 1 < h.members) ∧
    (∃ (s : State) (i : Nat) (id : Nat) (src : Nat) (h : Hurdle) (t : Nat), s.dev.clocked = true ∧ id < 65536 ∧ tget s.dev.hurdles id = some h ∧ h.broken = none ∧ s.dev.flights[i]? = some (Flight.arrive id (some t) src) ∧ h.count + 1 = h.members ∧ h.flock = none ∧ h.waiters = []) ∧
    (∃ (s : State) (i : Nat) (id : Nat) (h : Hurdle) (n : Nat) (ts : List Nat), s.dev.clocked = true ∧ id < 65536 ∧ tget s.dev.hurdles id = some h ∧ h.broken = none ∧ s.dev.flights[i]? = some (Flight.freed id n ts)) ∧
    (∃ (s : State) (id : Nat) (h : Hurdle), s.dev.clocked = true ∧ id < 65536 ∧ tget s.dev.hurdles id = some h ∧ h.broken = none ∧ h.flock = none ∧ 0 < h.count ∧ h.firstArrival + h.timeoutNs ≤ s.clk.raw) :=
  ⟨⟨(st (dS .empty (.mark 5 true 9))), 0, 5, 9, (sl .empty), by decide +kernel⟩,
   ⟨(st (dS .full (.mark 5 false 9) true)), 0, 5, 9, (sl .full true), by decide +kernel⟩,
   ⟨(st (dS .full (.mark 5 true 9))), 0, 5, 9, (sl .full), true, by decide +kernel⟩,
   ⟨(st (wt (.slotFull 5 31 0) (dS .empty (.mark 5 true 9)))), 5, (sl .empty), (t0+(if t0 < 3072 then 0 else 96)), t0, ({ what := .slotFull 5 31 0, since := 0 } : Wait), 31, 0, by decide +kernel⟩,
   ⟨(st (wt (.slotEmpty 5 1 0) (dS .full (.mark 5 true 9)) (T-2000000))), 5, (sl .full), (t0+(if t0 < 3072 then 0 else 96)), t0, ({ what := .slotEmpty 5 1 0, since := T-2000000 } : Wait), 1, 0, by decide +kernel⟩,
   ⟨(st (dD (dS .empty (.mark 5 true 9)) 47 1 { running := some (jC 47), refusedAt := some (T-2000000) })), 5, (sl .empty), 47, 1, (jC 47), (T-2000000), by decide +kernel⟩,
   ⟨(st (dH hu (.arrive 7 (some 9) 9))), 0, 7, 9, hu, (some 9), by decide +kernel⟩,
   ⟨(st (dH { hu with count := 1, phase := 255 } (.arrive 7 (some t0) 9))), 0, 7, 9, { hu with count := 1, phase := 255 }, t0, by decide +kernel⟩,
   ⟨(st (wt (.hurdle 7 0) (dH hu (.freed 7 1 [t0, t0+1])))), 0, 7, hu, 1, [t0,t0+1], by decide +kernel⟩,
   ⟨(st (wt (.hurdle 7 4) (dH { hu with count := 1, waiters := [t0], firstArrival := T - 2000000 } (.freed 7 1 [t0, t0+1])))), 7, { hu with count := 1, waiters := [t0], firstArrival := T - 2000000 }, by decide +kernel⟩⟩

theorem test_meets_jobs_start_and_complete :
    (∃ (s : State) (n : Nat) (k : Nat) (j : Job) (rest : List Job), n ≤ 48 ∧ k < sequenced n ∧ (s.dev.engine n k).queue = j :: rest ∧ s.dev.canStart n k = true ∧ j.mates = []) ∧
    (∃ (s : State) (n : Nat) (k : Nat) (l : List Nat), n ≤ 48 ∧ k < sequenced n ∧ s.dev.readyGroup n = some l ∧ l.Nodup) ∧
    (∃ (s : State) (n : Nat) (k : Nat) (j : Job), n ≤ 48 ∧ k < sequenced n ∧ (s.dev.engine n k).running = some j ∧ s.dev.foldAwake n = true ∧ s.dev.ownerOf j.thread = none ∧ s.dev.mbox.outst = []) :=
  ⟨⟨(st (dJ 47 [(2, { queue := [jv 47, jv 47] })])), 47, 2, (jv 47), [jv 47], by decide +kernel⟩,
   ⟨(st (dJ 47 [(1, { queue := [jt 47 [1,2]] }), (2, { queue := [{ jv 47 with mates := [1,2] }] })])), 47, 1, [1,2], by decide +kernel⟩,
   ⟨(st (dJ 47 [(2, { running := some (jv 47), completed := 2^32-1 })])), 47, 2, (jv 47), by decide +kernel⟩⟩

theorem test_meets_drovers_move :
    (∃ (s : State) (n : Nat) (r : Nat) (j : Job) (rest : List Job), n < 48 ∧ r < 2 ∧ s.dev.foldAwake n = true ∧ s.dev.peerFrom j.desc = false ∧ s.dev.peerTo j.desc = false ∧ (s.dev.engine n (3 + r)).queue = j :: rest ∧ (s.dev.engine n (3 + r)).running = none ∧ (s.dev.engine n (3 + r)).passed = []) ∧
    (∃ (s : State) (n : Nat) (r : Nat) (j : Job), n < 48 ∧ r < 2 ∧ s.dev.foldAwake n = true ∧ s.dev.peerFrom j.desc = false ∧ s.dev.peerTo j.desc = false ∧ (s.dev.engine n (3 + r)).running = some j ∧ (s.dev.engine n (3 + r)).refusedAt = none ∧ s.dev.droverOpen n r = false ∧ s.dev.droverHeld n r j.desc = [] ∧ s.dev.ownerOf j.thread = none) ∧
    (∃ (s : State) (n : Nat) (r : Nat) (j : Job) (since : Nat), n < 48 ∧ r < 2 ∧ s.dev.foldAwake n = true ∧ s.dev.peerFrom j.desc = false ∧ s.dev.peerTo j.desc = false ∧ (s.dev.engine n (3 + r)).running = some j ∧ (s.dev.engine n (3 + r)).refusedAt = some since ∧ s.dev.droverHeld n r j.desc = []) ∧
    (∃ (s : State) (n : Nat) (r : Nat) (j : Job) (since : Nat), n < 48 ∧ r < 2 ∧ s.dev.foldAwake n = true ∧ s.dev.peerFrom j.desc = false ∧ s.dev.peerTo j.desc = false ∧ (s.dev.engine n (3 + r)).running = some j ∧ (s.dev.engine n (3 + r)).refusedAt = some since ∧ s.dev.droverHeld n r j.desc ≠ []) :=
  ⟨⟨(st (dD dev 47 1 { queue := [jF 47] })), 47, 1, (jF 47), [], by decide +kernel⟩,
   ⟨(st (dD dev 47 1 { running := some (jF 47), completed := 9 })), 47, 1, (jF 47), by decide +kernel⟩,
   ⟨(st (dD dev 47 0 { running := some (jC 47), refusedAt := some 5, completed := 9 })), 47, 0, (jC 47), 5, by decide +kernel⟩,
   ⟨(st (dD (dS .empty (.mark 5 true 9)) 47 0 { running := some (jC 47), refusedAt := some 5, completed := 9 })), 47, 0, (jC 47), 5, by decide +kernel⟩⟩

end W8

namespace W9

def T : Nat := 10000000000000
def dP (p : Nat) (x : PhysFold) (n : Nat := 47) : Dev := { dev with folds := [(n, { gated := false, arrays := [(0, { loaded := some default })] })], foldMap := (List.range 48).map (fun k => (k, if k = n then p else k)), phys := [(p, x)] }
def dF (n : Nat) (f : Fold) (t : Tab Thread := []) (l : Nat := T) : Dev := { dev with folds := [(n, f)], threads := t, phys := (List.range 52).map fun p => (p, { lastPass := [(0,l),(1,l),(2,l),(3,l)] }) }
def busy8 (d : Dev) : Dev := { d with pow := { d.pow with foldWakes := [T-10,T-9,T-8,T-7,T-6,T-5,T-4,T-3] } }
def dR (p n : Nat) : Dev := { dev with folds := [(n, { gated := true, replacing := true })], foldMap := (List.range 48).map (fun k => (k, if k = n then p else k)), phys := [(p, { retired := true })] }
def dR0 : Dev := { dR 13 13 with phys := [13,48,49,50,51].map fun p => (p, { retired := true }) }
def dM : Dev := { dev with mem := { err := [(foldBase 0 / 64 + 7, .single 5), (foldBase 0 / 64 + 8, .single 0xFF)], writeback := [foldBase 0 / 64 + 7], poisonStore := [foldBase 0 / 64 + 9], poison := [(foldBase 0 / 64 + 6, true)] } }
def g0 : Nat := 0x1000000000

theorem test_meets_self_test_slices :
    (∃ (s : State) (p : Nat) (n : Nat) (sl : Nat), p < 52 ∧ sl < 4 ∧ s.dev.logicalOf p = some n ∧ s.dev.sliceRoom p n = true ∧ s.dev.dueSlice s.env p n = some sl ∧ s.dev.inGap s.env n = true) ∧
    (∃ (s : State) (p : Nat) (n : Nat) (sl : Nat), p < 52 ∧ sl < 4 ∧ s.dev.logicalOf p = some n ∧ (s.dev.physFold p).slice = some sl ∧ s.dev.clocked = true) ∧
    (∃ (s : State) (p : Nat) (n : Nat) (sl : Nat) (w : Word), p < 52 ∧ sl < 4 ∧ s.dev.logicalOf p = some n ∧ (s.dev.physFold p).slice = some sl ∧ s.dev.clocked = true ∧ w ≠ Config.sliceSignature sl ∧ s.dev.silent (256 + p) = true) ∧
    (∃ (s : State) (p : Nat) (n : Nat) (sl : Nat), p < 52 ∧ sl < 4 ∧ s.dev.logicalOf p = some n ∧ (s.dev.physFold p).retired = false ∧ s.dev.coverage n < (s.dev.physFold p).age s.clk.raw sl ∧ tgetD (s.dev.physFold p).lapsed sl false = false) :=
  ⟨⟨(st (dP 51 { lastPass := [(0,T),(1,T),(2,T),(3,T-20000000)] })), 51, 47, 3, by decide +kernel⟩,
   ⟨(st (dP 51 { lastPass := [(0,T),(1,T),(2,T),(3,T-20000000)], slice := some 3 })), 51, 47, 3, by decide +kernel⟩,
   ⟨(st (dP 51 { lastPass := [(0,T),(1,T),(2,T),(3,T-20000000)], slice := some 3 })), 51, 47, 3, (Config.sliceSignature 3 + 1), by refine ⟨?_, ?_, ?_, ?_, ?_, (by intro h; bv_omega), ?_⟩ <;> decide +kernel⟩,
   ⟨(st (dP 51 { lastPass := [(0,T),(1,T),(2,T),(3,T-40000000)] })), 51, 47, 3, by decide +kernel⟩⟩

theorem test_meets_folds_gate_and_wake :
    (∃ (s : State) (n : Nat), n < 48 ∧ s.dev.foldAwake n = true ∧ s.dev.foldQuiet n = true ∧ (s.dev.physFold (s.dev.physOf n)).slice = none ∧ (s.dev.fold n).idleSince + s.dev.gateDelay n ≤ s.clk.raw) ∧
    (∃ (s : State) (n : Nat), n < 48 ∧ s.dev.asleepFold n = true ∧ ((s.dev.pick n).isSome = true ∨ (s.dev.fold n).wakeDue = true) ∧ s.dev.mayWake s.env n = true) ∧
    (∃ (s : State) (n : Nat), n < 48 ∧ s.dev.asleepFold n = true ∧ ((s.dev.pick n).isSome = true ∨ (s.dev.fold n).wakeDue = true) ∧ 8 ≤ (s.dev.justWoken s.env).length) ∧
    (∃ (s : State) (n : Nat) (sl : Nat), n < 48 ∧ sl < 4 ∧ s.dev.asleepFold n = true ∧ 3 * s.dev.coverage n ≤ 4 * (s.dev.physFold (s.dev.physOf n)).age s.clk.raw sl ∧ s.dev.mayWake s.env n = true) ∧
    (∃ (s : State) (n : Nat), n < 48 ∧ (s.dev.fold n).gated = true ∧ (s.dev.fold n).memAwake = true ∧ (s.dev.fold n).memIdleSince + s.dev.gateDelay n ≤ s.clk.raw) :=
  ⟨⟨(st (dF 47 { gated := false, idleSince := T - 20000 })), 47, by decide +kernel⟩,
   ⟨(st (dF 47 { gated := true, idleSince := T - 20000 } [(47*64, { st := .ready })])), 47, by decide +kernel⟩,
   ⟨(st (busy8 (dF 47 { gated := true, idleSince := T - 20000 } [(47*64, { st := .ready })]))), 47, by decide +kernel⟩,
   ⟨(st (dF 47 { gated := true, idleSince := T - 20000 } [] (T - 25000000))), 47, 3, by decide +kernel⟩,
   ⟨(st (dF 47 { gated := true, memAwake := true, memIdleSince := T - 20000 })), 47, by decide +kernel⟩⟩

theorem test_meets_spares_take_over :
    (∃ (s : State) (p : Nat) (n : Nat) (sp : Nat) (rest : List Nat), p < 52 ∧ s.dev.logicalOf p = some n ∧ (s.dev.fold n).replacing = true ∧ (s.dev.physFold p).retired = true ∧ s.dev.mbox.outst = [] ∧ s.dev.spares = sp :: rest) ∧
    (∃ (s : State) (p : Nat) (n : Nat), p < 52 ∧ s.dev.logicalOf p = some n ∧ (s.dev.fold n).replacing = true ∧ (s.dev.physFold p).retired = true ∧ s.dev.mbox.outst = [] ∧ s.dev.spares = []) ∧
    (∃ (s : State) (p : Nat) (l : List Nat), p < 52 ∧ s.dev.pow.state = PState.idle ∧ p ∈ s.dev.spares ∧ (s.dev.physFold p).lastSpareTest + 3600000000000 ≤ s.clk.raw ∧ l.contains p = true) :=
  ⟨⟨(st (dR 51 47)), 51, 47, 47, [48,49,50], by decide +kernel⟩,
   ⟨(st dR0), 13, 13, by decide +kernel⟩,
   ⟨(st dev), 51, [48, 51], by decide +kernel⟩⟩

theorem test_meets_memory_upkeep :
    (∃ (s : State) (k : Nat), k < 85 ∧ s.dev.scrubs k = true) ∧
    (∃ (s : State) (line : Nat) (b : Nat), s.dev.mem.writeback.contains line = true ∧ tget s.dev.mem.err line = some (LineErr.single b)) ∧
    (∃ (s : State) (line : Nat), s.dev.mem.poisonStore.contains line = true) ∧
    (∃ (s : State) (i : Nat) (r : Int), i < 12 ∧ s.dev.clocked = true ∧ tgetD s.dev.gddr.failed i false = false ∧ -40 ≤ r ∧ r ≤ 125 ∧ tgetD s.dev.gddr.band i 0 ≠ tempBand r) ∧
    (∃ (s : State) (i : Nat) (addr : Nat) (off : Nat), i < 12 ∧ s.dev.clocked = true ∧ zoneOf addr = Zone.gddr off ∧ gddrIface off = i) ∧
    (∃ (s : State) (i : Nat) (addr : Nat) (t : Nat) (a : Nat) (size : Nat) (rd : Nat) (off : Nat) (since : Nat), i < 12 ∧ t < 3088 ∧ s.dev.clocked = true ∧ s.dev.waitOf t = some { what := WaitFor.loadData a size rd, since := since } ∧ zoneOf a = Zone.gddr off ∧ gddrIface off = i ∧ a / 64 = addr / 64 ∧ since + 20000 ≤ s.clk.raw) :=
  ⟨⟨(st dM), 0, by decide +kernel⟩,
   ⟨(st dM), (foldBase 0 / 64 + 7), 5, by decide +kernel⟩,
   ⟨(st dM), (foldBase 0 / 64 + 9), by decide +kernel⟩,
   ⟨(st dM), 11, 90, by decide +kernel⟩,
   ⟨(st dM), 0, 0x1000000000, 0x0, by decide +kernel⟩,
   ⟨(st { dM with threads := [(65, { st := .waiting, wait := some { what := .loadData 0x1000000008 8 7, since := T-20000 } })] }), 0, 0x1000000000, 65, 0x1000000008, 8, 7, 8, (T-20000), by decide +kernel⟩⟩

end W9

namespace W10

def T : Nat := 10000000000000
def rec_ (id n v : Nat) : List Byte := leBytes 2 id ++ leBytes 2 n ++ leBytes n v
def ringV : List Byte := leBytes 4 4 ++ leBytes 4 8192 ++ leBytes 8 (commonBase + 0x4000000)
def camB : List Byte := rec_ 1 4 0 ++ rec_ 3 4 0x2C ++ rec_ 4 4 64 ++ rec_ 5 4 4 ++ rec_ 0x2C 4 0x102 ++ rec_ 0x3A 4 0x103 ++ (leBytes 2 8 ++ leBytes 2 16 ++ ringV)
def camL : List (Nat × List Byte) := (parseSettings camB.length camB).getD []
def fsB : List Byte := camB ++ rec_ 6 4 15
def fsL : List (Nat × List Byte) := (parseSettings fsB.length fsB).getD []
def g0 : Nat := 47
def gd (x : Gate) : Dev := { dev with race := { ports := [(11,{cfg := some {cphy := false, lanes := 4, rate := 2500, order := 0xE4, polarity := 0}})], gates := [(47, x)] }, fsets := [(15, { cfg := some {period := 10000000, dom := 0, offset := 1000000, hold := 0, epoch := 0}, running := true})] }
def gR (l := camL) : Gate := { fn := .running, settings := l, nextCounter := 2^32-1, lastFs := some (T - 300000000), held := [commonBase + 0x4000000] }
def line : List Byte := (List.range 96).map fun i => BitVec.ofNat 8 (i+1)
def smp (l := camL) : Sample := { counter := 8, capture := 77, domB := false, slot := some 0, st := l, producer := 5 }
def fr (n := 1) (m : Nat := 7) : OpenFrame := { smp := smp, startRaw := T - 100000, number := m, lines := List.replicate n (some line), lastPacket := some (T - 300000) }
def frX : OpenFrame := { smp := smp, startRaw := T - 100000, number := 7, lines := [some line, none, some line, none], lastPacket := some (T - 300000) }
def fro : OpenFrame := { fr with startRaw := T - 50000001 }
def ethL : List (Nat × List Byte) := [(1, leBytes 4 1), (2, [3, 4] ++ leBytes 2 0xFFFF ++ [10,0,0,9] ++ List.replicate 12 0 ++ leBytes 2 2368 ++ leBytes 2 0), (8, ringV), (0x14, leBytes 4 2)]
def eth0 : List (Nat × List Byte) := ethL.filter (·.1 != 0x14) ++ [(0x14, leBytes 4 0)]
def frE (l : List (Nat × List Byte)) (n := 1) : OpenFrame := { smp := smp l, startRaw := T - 100000000, lines := List.replicate n (some line), lastPacket := none }
def withCol (d : Dev) : Dev := { d with col := { d.col with perSecond := [{ src := 0x24F, kind := 0x15, detail := 0, second := 9999, count := 77, counted := true, arg := 3 }] } }
def sf : SensorFrame := { port := 3, fcsOk := true, vlan := none, ipVersion := 4, srcAddr := [10,0,0,9], dstPort := 2368, srcPort := 5000, ipChecksumOk := true, fragment := false, udpChecksumZero := true, udpChecksumOk := false, udpPayload := List.replicate 1206 7, l2 := { (default : BridgeFrame) with length := 1252 } }
def feedL : List (Nat × List Byte) := (1, leBytes 4 2) :: camL.filter (·.1 != 1)
def fe : Feed := { q := 3, tag := 9, source := commonBase + 0x2000000, length := 96 * 4, capture := 99, counter := 4 }
def o : Outst := { q := 3, e := { ent 47 [] with tag := 9 }, opcode := 0x403, deadline := 0 }
def dFe : Dev := { gd { gR feedL with feeds := [fe] } with mbox := { (gd gR).mbox with outst := [o] } }

theorem test_meets_camera_frames :
    (∃ (s : State) (p : Nat) (vc : Nat) (g : Nat) (ecc : HeaderEcc) (st : List (Nat × List Byte)) (k : Nat), s.dev.clocked = true ∧ p < 12 ∧ vc < 32 ∧ ecc ≠ HeaderEcc.uncorrectable ∧ s.dev.gateOf p vc = some g ∧ (s.dev.gate g).fn = FnState.running ∧ st = (s.dev.gate g).settings ∧ Settings.kind st = 0 ∧ (s.dev.gate g).frame = none ∧ (s.dev.gate g).liveNext = [] ∧ (s.dev.gate g).pickSlot = some k ∧ (∀ (x : Nat), (s.dev.gate g).lastFs = some x → x + 1000 * s.dev.minIntervalUs st ≤ s.clk.raw) ∧ (s.dev.assign g (s.dev.captureNow g s.clk.raw)).1.2.2 = none) ∧
    (∃ (s : State) (p : Nat) (vc : Nat) (g : Nat) (ecc : HeaderEcc) (f : OpenFrame) (data : List Byte) (wc : Nat), s.dev.clocked = true ∧ p < 12 ∧ vc < 32 ∧ ecc ≠ HeaderEcc.uncorrectable ∧ s.dev.gateOf p vc = some g ∧ s.dev.takesCsi g = true ∧ (s.dev.gate g).frame = some f ∧ (dataTypeBits (Settings.dataType f.smp.st)).isSome = true ∧ wc = Settings.lineBytes f.smp.st ∧ data.length = wc ∧ (f.lines ≠ [] ∨ Settings.get f.smp.st 19 0 % 256 / 8 = 0) ∧ f.lines.length < Settings.height f.smp.st) ∧
    (∃ (s : State) (p : Nat) (vc : Nat) (g : Nat) (ecc : HeaderEcc) (f : OpenFrame) (num : Nat), s.dev.clocked = true ∧ p < 12 ∧ vc < 32 ∧ ecc ≠ HeaderEcc.uncorrectable ∧ s.dev.gateOf p vc = some g ∧ s.dev.takesCsi g = true ∧ (s.dev.gate g).frame = some f ∧ s.clk.raw ≤ f.startRaw + Settings.frameTimeMax f.smp.st ∧ (f.number = 0 ∨ num = f.number) ∧ f.surplus = 0 ∧ f.dropped = false ∧ f.lines.length = Settings.height f.smp.st ∧ dropDetail f.smp.st (f.sample 0 0).damage 0 = none ∧ f.smp.slot.isSome = true ∧ (∀ y ∈ (s.dev.gate g).pipe, y.slot.isSome = true)) ∧
    (∃ (s : State) (p : Nat) (vc : Nat) (g : Nat) (ecc : HeaderEcc), s.dev.clocked = true ∧ p < 12 ∧ vc < 32 ∧ ecc ≠ HeaderEcc.uncorrectable ∧ s.dev.gateOf p vc = some g ∧ s.dev.takesCsi g = true) ∧
    (∃ (s : State) (p : Nat) (vc : Nat) (ecc : HeaderEcc), s.dev.clocked = true ∧ p < 12 ∧ vc < 32 ∧ ecc ≠ HeaderEcc.uncorrectable) ∧
    (∃ (s : State) (p : Nat) (vc : Nat) (ecc : HeaderEcc), s.dev.clocked = true ∧ p < 12 ∧ vc < 32 ∧ ecc ≠ HeaderEcc.uncorrectable ∧ s.dev.gateOf p vc = none) ∧
    (∃ (s : State) (p : Nat) (vc : Nat) (ecc : HeaderEcc), s.dev.clocked = true ∧ p < 12 ∧ vc < 32 ∧ ecc ≠ HeaderEcc.uncorrectable) :=
  ⟨⟨(st (gd gR)), 11, 3, 47, HeaderEcc.good, camL, 1, by decide +kernel⟩,
   ⟨(st (gd { gR with frame := some fr })), 11, 3, 47, HeaderEcc.corrected, fr, line, 96, by decide +kernel⟩,
   ⟨(st (gd { gR with frame := some (fr 4) })), 11, 3, 47, HeaderEcc.good, (fr 4), 7, by decide +kernel⟩,
   ⟨(st (gd { gR with frame := some frX })), 11, 3, 47, HeaderEcc.good, by decide +kernel⟩,
   ⟨(st (gd { gR with frame := some frX })), 11, 31, HeaderEcc.good, by decide +kernel⟩,
   ⟨(st (gd { gR with frame := some frX })), 11, 31, HeaderEcc.good, by decide +kernel⟩,
   ⟨(st (gd { gR with frame := some frX })), 11, 31, HeaderEcc.good, by decide +kernel⟩⟩

theorem test_meets_race_timeouts :
    (∃ (s : State) (g : Nat) (f : OpenFrame) (t : Nat), g < 64 ∧ s.dev.clocked = true ∧ (s.dev.gate g).frame = some f ∧ f.lastPacket = some t ∧ Settings.kind f.smp.st = 0 ∧ t + Settings.lineTimeout f.smp.st ≤ s.clk.raw) ∧
    (∃ (s : State) (g : Nat) (f : OpenFrame), g < 64 ∧ s.dev.clocked = true ∧ (s.dev.gate g).frame = some f ∧ Settings.kind f.smp.st = 0 ∧ f.startRaw + Settings.frameTimeMax f.smp.st < s.clk.raw) ∧
    (∃ (s : State) (g : Nat), g < 64 ∧ s.dev.clocked = true ∧ (s.dev.gate g).fn = FnState.running ∧ Settings.kind (s.dev.gate g).settings = 0 ∧ (s.dev.gate g).silentSince + s.dev.silenceNs (s.dev.gate g).settings ≤ s.clk.raw ∧ (s.dev.gate g).failedRun + 1 < Settings.dropLimit (s.dev.gate g).settings) ∧
    (∃ (s : State) (g : Nat) (f : OpenFrame), g < 64 ∧ s.dev.clocked = true ∧ (s.dev.gate g).frame = some f ∧ Settings.kind f.smp.st = 1 ∧ Settings.sampleMode f.smp.st = 2 ∧ f.smp.inst = none ∧ f.startRaw + 1000 * s.dev.minIntervalUs f.smp.st + 100000 ≤ s.clk.raw) ∧
    (∃ (s : State) (g : Nat) (x : SecEvent), g < 64 ∧ s.dev.col.perSecond = [x] ∧ x.second < s.clk.raw / 1000000000) :=
  ⟨⟨(st (gd { gR with frame := some fr })), 47, fr, (T - 300000), by decide +kernel⟩,
   ⟨(st (gd { gR with frame := some fro })), 47, fro, by decide +kernel⟩,
   ⟨(st (gd { gR with silentSince := T - 250000000 })), 47, by decide +kernel⟩,
   ⟨(st (gd { gR ethL with frame := some (frE ethL) })), 47, (frE ethL), by decide +kernel⟩,
   ⟨(st (withCol dev)), 47, ({ src := 0x24F, kind := 0x15, detail := 0, second := 9999, count := 77, counted := true, arg := 3 } : SecEvent), by decide +kernel⟩⟩

theorem test_meets_packets_and_feeds :
    (∃ (s : State) (f : SensorFrame), s.dev.clocked = true ∧ f.port < 4 ∧ f.fcsOk = false) ∧
    (∃ (s : State) (g : Nat) (f : SensorFrame) (fr : OpenFrame) (st : List (Nat × List Byte)), s.dev.clocked = true ∧ f.port < 4 ∧ f.fcsOk = true ∧ frameRefused (sensorToBridge f) = false ∧ s.dev.isPtp (sensorToBridge f) = false ∧ s.dev.filterGates f = [g] ∧ (s.dev.gate g).fn = FnState.running ∧ (s.dev.gate g).frame = some fr ∧ st = (s.dev.gate g).settings ∧ fr.smp.st = st ∧ (f.ipVersion = 4 → f.ipChecksumOk = true) ∧ f.fragment = false ∧ (f.udpChecksumOk = true ∨ f.ipVersion = 4 ∧ f.udpChecksumZero = true) ∧ Settings.get st 23 0 + Settings.windowLen st ≤ f.udpPayload.length ∧ Settings.get st 25 0 % 256 / 8 = 0 ∧ Settings.sampleMode st = 0 ∧ fr.lines.length + 1 < Settings.get st 21 4096) ∧
    (∃ (s : State) (f : SensorFrame), s.dev.clocked = true ∧ f.port < 4 ∧ f.fcsOk = true ∧ frameRefused (sensorToBridge f) = true) ∧
    (∃ (s : State) (g : Nat) (f : SensorFrame), s.dev.clocked = true ∧ f.port < 4 ∧ f.fcsOk = true ∧ frameRefused (sensorToBridge f) = false ∧ s.dev.isPtp (sensorToBridge f) = false ∧ s.dev.filterGates f = [g] ∧ (s.dev.gate g).fn = FnState.stopped) ∧
    (∃ (s : State) (g : Nat) (f : Feed) (rest : List Feed) (k : Nat), s.dev.clocked = true ∧ g < 64 ∧ (s.dev.gate g).fn = FnState.running ∧ (s.dev.gate g).feeds = f :: rest ∧ (∀ y ∈ rest, y.refused = false) ∧ f.refused = false ∧ f.coded = false ∧ f.drop = none ∧ f.crc = none ∧ (s.dev.gate g).liveNext = [] ∧ (s.dev.gate g).pickSlot = some k ∧ (∀ y ∈ (s.dev.gate g).pipe, y.slot.isSome = true)) :=
  ⟨⟨(st dev), { sf with fcsOk := false }, by decide +kernel⟩,
   ⟨(st (gd { gR eth0 with frame := some (frE eth0) })), 47, sf, (frE eth0), eth0, by decide +kernel⟩,
   ⟨(st dev), { sf with l2 := { sf.l2 with etherType := 0x8808 } }, by decide +kernel⟩,
   ⟨(st (gd { gR eth0 with fn := .stopped })), 47, sf, by decide +kernel⟩,
   ⟨(st dFe), 47, fe, [], 1, by decide +kernel⟩⟩

end W10

namespace W11

def T : Nat := 10000000000000
def rec_ (id n v : Nat) : List Byte := leBytes 2 id ++ leBytes 2 n ++ leBytes n v
def ringV : List Byte := leBytes 4 4 ++ leBytes 4 8192 ++ leBytes 8 (commonBase + 0x4000000)
def camB : List Byte := rec_ 1 4 0 ++ rec_ 3 4 0x2C ++ rec_ 4 4 64 ++ rec_ 5 4 4 ++ rec_ 0x2C 4 0x102 ++ rec_ 0x3A 4 0x103 ++ (leBytes 2 8 ++ leBytes 2 16 ++ ringV)
def camL : List (Nat × List Byte) := (parseSettings camB.length camB).getD []
def fsB : List Byte := camB ++ rec_ 6 4 15
def fsL : List (Nat × List Byte) := (parseSettings fsB.length fsB).getD []
def g0 : Nat := 47
def gd (x : Gate) : Dev := { dev with race := { ports := [(11,{cfg := some {cphy := false, lanes := 4, rate := 2500, order := 0xE4, polarity := 0}})], gates := [(47, x)] }, fsets := [(15, { cfg := some {period := 10000000, dom := 0, offset := 1000000, hold := 0, epoch := 0}, running := true})] }
def gR (l := camL) : Gate := { fn := .running, settings := l, nextCounter := 2^32-1, lastFs := some (T - 300000000), held := [commonBase + 0x4000000] }
def line : List Byte := (List.range 96).map fun i => BitVec.ofNat 8 (i+1)
def smp (l := camL) : Sample := { counter := 8, capture := 77, domB := false, slot := some 0, st := l, producer := 5 }
def decB : List Byte := rec_ 1 4 2 ++ rec_ 4 4 64 ++ rec_ 5 4 64 ++ rec_ 0x20 4 1 ++ rec_ 0x22 4 10000 ++ rec_ 0x2C 4 2 ++ rec_ 0x3A 4 0x103 ++ (leBytes 2 8 ++ leBytes 2 16 ++ leBytes 4 4 ++ leBytes 4 (65536) ++ leBytes 8 (commonBase + 0x4000000))
def decL : List (Nat × List Byte) := (parseSettings decB.length decB).getD []
def cs (u : Nat := 0) : Sample := { counter := 8, capture := 77, domB := false, slot := some 0, st := decL, producer := 5, coded := true, unitKind := 2, usedUs := u, input := [List.replicate 100 3] }
def ds (x : Sample) (m : Mailbox := dev.mbox) : Dev := { gd { gR decL with core := some 7, slotUs := 800, pipe := [x] } with mbox := m }
def dsd (x : Sample) : Dev := (ds x).slotRun (st (ds x)).env 7 47
def fin : Sample := { counter := 8, capture := -77, domB := true, slot := some 1, st := camL, producer := 5, input := List.replicate 4 line }
def dfin (y : List Sample := []) : Dev := { gd { gR with pipe := fin :: y } with queues := [(0x103, { inst := 0, prods := [{ who := .gate 47, credits := 4 }] })] }
def fc : FsetCfg := { period := 10000000, dom := 0, offset := 1000000, hold := 0, epoch := 0 }
def dfs (x : FSet) : Dev := { dev with fsets := [(15, x)] }
def rule : AgreeRule := { fset := 15, equal := false, format := 0x14, count := 4, main := commonBase + 0x3000000, collie := 0x100, maxBad := 0, tolAbs := 0, tolRel := 0, offset := 5000, verdict := commonBase + 0x3000040 }
def dag (r : Tab AgreeRun := []) : Dev := { dfs { cfg := some fc } with safe := { dev.safe with rules := [{ rule with fset := 3}, rule, { rule with count := 1 }], runs := r } , tu := { doms := [(0, { fn := .running, params := [{ rs := 0, ts := 5000000000000, rho := 0 }], sync := .locked })] } }
def run1 : AgreeRun := { counter := 499, compared := 6, disagreed := 2, rules := 1, bad := 3 }
def pm : PtpMsg := { port := 3, protocol := 1, domainNumber := 20, sequenceId := 9, sourcePort := 4, twoStep := false, correction := 12, origin := 6000000000000, remote := 500, logInterval := -3, qualified := true, rank := 7, ptpTimescale := true, rateRatio := 0 }
def dc (p : Nat := 1) : DomCfg := { protocol := p, number := 20, portMask := 8, priority := 0, vlan := 0xFFFF }
def dm (x : Domain) (p : Nat := 1) : Dev := { dfs { cfg := some { fc with dom := 1 }, running := true } with tu := { doms := [(1, { x with fn := .running, cfg := some (dc p) })], delayIn := [(3, 40)] } }
def off0 (m : PtpMsg) (x : Domain) (p : Nat := 1) : Int := (dm x p).domTime 1 ((dm x p).stampIn { raw := T, fuse := {} } 3) - (m.origin + m.correction + (dm x p).pathDelay { raw := T, fuse := {} } 1 3)
def now0 (x : Domain) : Int := (dm x).domTime 1 T
abbrev gd0 (m : PtpMsg) (x : Domain) (p : Nat := 1) : Prop := ((st (dm x p)).dev.dom 1).follows m = true ∧ syncInterval m = true ∧ correctionOk m = true
def x1 : Domain := { sync := .acquiring, best := some (7, 4) }
def pm0 : PtpMsg := { pm with protocol := 0 }
def x2 : Domain := { x1 with stepped := true, params := [{ rs := 9000000000000, ts := 5000000000000, rho := 5 }], goodSyncs := 6 }
def pm2 : PtpMsg := { pm with origin := 6000000000455 }
def x3 : Domain := { x1 with pending := some ({ pm with twoStep := true }, T - 1000000000), delay := 77 }
def dr : DelayReq := { seq := 9, sent := T - 1000000000 }
def x4 : Domain := { x1 with delayReq := some dr, syncDiff := 4100, params := [{ rs := 9000000000000, ts := 5000000000000, rho := 5 }] }
def pr : PtpMsg := { pm with remote := (dm x4).domTime 1 dr.sent + 3000 }
def dpd (x : Domain) (r : Option DelayReq := some dr) : Dev := { dm x with tu := { (dm x).tu with pdelayReq := (r.map fun r => (3, r)).toList } }
def pv (m : PtpMsg) : Int := (st (dpd x4)).dev.peerDelay 1 ((st (dpd x4)).dev.stampIn (st (dpd x4)).env m.port) m dr
def dt (a b : Domain) (v : Option (Nat × Int) := none) (p := 0) : Dev := { dev with tu := { doms := [(0, { a with fn := .running}), (1, { b with fn := .running})], lastDelta := v, preferred := p }, fsets := [(15, { cfg := some { fc with dom := 1 }, running := true })] }
def xl : Domain := { x2 with sync := .locked, ptpScale := true }
def t0 : Nat := T - 1000000000
def tc (p : Bool) (l := false) : TrigCfg := { dom := 1, periodic := p, activeLow := l, width := 1000, start := 100000, period := 3000 }
def dtr (t : Trigger) : Dev := { dt xl xl with tu := { (dt xl xl).tu with trigs := [(16, t)] } }
def bf : BridgeFrame := { inPort := 4, srcMac := 5, dstMac := 6, vlan := some 0, pcp := 7, length := 64, ptpEvent := none, protocol := 0, domainNumber := 0, correction := 0, peerToPeer := false, residence := 5 }
def dbr (l : List (Nat × Nat × Nat × Nat)) (busy : Nat := 0) (q : List Waiting := []) : Dev := { dev with flock := { dev.flock with ports := [(0, { cfg := some (1,2), busyTo := busy, queue := q }), (3, { cfg := some (1,2), busyTo := busy })], learn := l } }
def wa (n : Nat) : Waiting := { pcp := 1, length := n, since := 5, frame := bf, correction := [] }
def bOwn : Dev := { dbr [] with flock := { (dbr []).flock with etherType := 0x88B5 } }

theorem test_meets_samples_are_decoded_and_posted :
    (∃ (s : State) (g : Nat) (c : Nat) (x : Sample) (used : Nat), s.dev.clocked = true ∧ g < 64 ∧ (s.dev.gate g).core = some c ∧ s.dev.slotDue s.env c g = true ∧ (List.find? (fun x => x.coded) (s.dev.gate g).pipe = some x) ∧ used ≤ (s.dev.gate g).slotUs ∧ (used = (s.dev.gate g).slotUs ∨ Settings.budgetUs x.st < x.usedUs + used)) ∧
    (∃ (s : State) (g : Nat) (c : Nat) (used : Nat), s.dev.clocked = true ∧ g < 64 ∧ (s.dev.gate g).core = some c ∧ s.dev.slotDue s.env c g = true ∧ (List.find? (fun x => x.coded) (s.dev.gate g).pipe = none) ∧ used ≤ (s.dev.gate g).slotUs) ∧
    (∃ (s : State) (g : Nat) (c : Nat), s.dev.clocked = true ∧ g < 64 ∧ (s.dev.gate g).core = some c ∧ s.dev.slotDue s.env c g = false) ∧
    (∃ (s : State) (g : Nat) (c : Nat) (x : Sample) (used : Nat), s.dev.clocked = true ∧ g < 64 ∧ (s.dev.gate g).core = some c ∧ s.dev.slotDue s.env c g = true ∧ (List.find? (fun x => x.coded) (s.dev.gate g).pipe = some x) ∧ used < (s.dev.gate g).slotUs ∧ x.usedUs + used ≤ Settings.budgetUs x.st) ∧
    (∃ (s : State) (g : Nat) (c : Nat) (x : Sample), s.dev.clocked = true ∧ g < 64 ∧ (s.dev.gate g).core = some c ∧ (List.find? (fun x => x.coded) (s.dev.gate g).pipe = some x) ∧ Settings.budgetUs x.st ≤ x.usedUs + (s.dev.gate g).slotUs ∧ x.usedUs < Settings.budgetUs x.st ∧ s.dev.slotDue s.env c g = true) ∧
    (∃ (s : State) (g : Nat) (x : Sample) (rest : List Sample) (k : Nat) (a : Nat) (o : Nat), s.dev.clocked = true ∧ g < 64 ∧ (s.dev.gate g).pipe = x :: rest ∧ x.coded = false ∧ x.slot = some k ∧ a = Settings.slotAddr x.st k ∧ zoneOf a = Zone.common o ∧ 8192 ≤ o ∧ a % 64 = 0 ∧ (s.dev.gate g).fn = FnState.running ∧ Settings.split (s.dev.gate g).settings ≠ 2 ∧ Settings.noticeQueue x.st = 0 ∧ (∀ y ∈ rest, y.slot.isSome = true)) :=
  ⟨⟨(st (ds cs)), 47, 7, cs, 800, by decide +kernel⟩,
   ⟨(st { ds cs with race := { (ds cs).race with gates := [(47, { gR decL with core := some 7, slotUs := 800 })] } }), 47, 7, 5, by decide +kernel⟩,
   ⟨(st (dsd cs)), 47, 7, by decide +kernel⟩,
   ⟨(st (ds cs)), 47, 7, cs, 799, by decide +kernel⟩,
   ⟨(st (ds (cs 9200))), 47, 7, (cs 9200), by decide +kernel⟩,
   ⟨(st dfin), 47, fin, [], 1, (commonBase + 0x4002000), 0x4002000, by decide +kernel⟩⟩

theorem test_meets_deadlines_and_agreement :
    (∃ (s : State) (f : Nat) (c : FsetCfg), f < 16 ∧ (s.dev.fset f).running = true ∧ (s.dev.fset f).rawDeadline < s.clk.raw ∧ (s.dev.fset f).cfg = some c) ∧
    (∃ (s : State) (f : Nat) (i : Int), f < 16 ∧ s.dev.clocked = true ∧ s.dev.agreeInstance s.env f = some i ∧ tget s.dev.safe.lastRun f ≠ some i ∧ tget s.dev.safe.runs f = none) ∧
    (∃ (s : State) (f : Nat) (r : AgreeRun) (k : Nat) (x : AgreeRule) (rest : List (Nat × AgreeRule)), f < 16 ∧ s.dev.clocked = true ∧ tget s.dev.safe.runs f = some r ∧ s.dev.rulesOf f = (k, x) :: rest ∧ x.verdict % 64 = 0) ∧
    (∃ (s : State) (f : Nat), f < 16 ∧ s.dev.clocked = true) :=
  ⟨⟨(st (dfs { cfg := some fc, running := true, rawDeadline := T-1, current := 2^32-1, serial := 2^32-1 })), 15, fc, by decide +kernel⟩,
   ⟨(st dag), 15, (1499999 : Int), by decide +kernel⟩,
   ⟨(st (dag [(15, run1)])), 15, run1, 1, rule, [(2, { rule with count := 1 })], by decide +kernel⟩,
   ⟨(st dag), 15, by decide +kernel⟩⟩

theorem test_meets_ptp_messages :
    (∃ (s : State) (m : PtpMsg) (k : Nat) (now : Int) (good : Prop), m.port < 4 ∧ s.dev.ptpDomains m = [k] ∧ now = s.dev.domTime k s.clk.raw ∧ good = ((s.dev.dom k).follows m = true ∧ syncInterval m = true ∧ correctionOk m = true) ∧ good ∧ m.twoStep = true) ∧
    (∃ (s : State) (m : PtpMsg) (k : Nat) (now : Int) (off : Int) (good : Prop), m.port < 4 ∧ s.dev.ptpDomains m = [k] ∧ now = s.dev.domTime k s.clk.raw ∧ good = ((s.dev.dom k).follows m = true ∧ syncInterval m = true ∧ correctionOk m = true) ∧ good ∧ m.twoStep = false ∧ (s.dev.dom k).lastOrigin ≤ m.origin ∧ ¬((s.dev.dom k).sync = SyncState.carried ∧ (s.dev.dom k).forDisagreement = true) ∧ off = s.dev.domTime k (s.dev.stampIn s.env m.port) - (↑m.origin + m.correction + ↑(s.dev.pathDelay s.env k m.port)) ∧ 0 ≤ now ∧ 0 ≤ now - off ∧ (s.dev.dom k).stepped = false ∧ (s.dev.dom k).canReplace s.clk.raw = true) ∧
    (∃ (s : State) (m : PtpMsg) (k : Nat) (now : Int) (off : Int) (good : Prop), m.port < 4 ∧ s.dev.ptpDomains m = [k] ∧ now = s.dev.domTime k s.clk.raw ∧ good = ((s.dev.dom k).follows m = true ∧ syncInterval m = true ∧ correctionOk m = true) ∧ good ∧ m.twoStep = false ∧ (s.dev.dom k).lastOrigin ≤ m.origin ∧ ¬((s.dev.dom k).sync = SyncState.carried ∧ (s.dev.dom k).forDisagreement = true) ∧ off = s.dev.domTime k (s.dev.stampIn s.env m.port) - (↑m.origin + m.correction + ↑(s.dev.pathDelay s.env k m.port)) ∧ 0 ≤ now ∧ 0 ≤ now - off ∧ (s.dev.dom k).stepped = true ∧ (s.dev.dom k).sync = SyncState.acquiring ∧ off.natAbs < 1000 ∧ (s.dev.dom k).goodSyncs + 1 < 8) ∧
    (∃ (s : State) (m : PtpMsg) (k : Nat) (now : Int) (off : Int) (good : Prop) (y : PtpMsg) (stamp : Nat), m.port < 4 ∧ s.dev.ptpDomains m = [k] ∧ now = s.dev.domTime k s.clk.raw ∧ good = ((s.dev.dom k).follows m = true ∧ syncInterval m = true ∧ correctionOk m = true) ∧ (s.dev.dom k).follows m = true ∧ (s.dev.dom k).pending = some (y, stamp) ∧ y.sequenceId = m.sequenceId ∧ y.sourcePort = m.sourcePort ∧ correctionOk m = true ∧ (s.dev.dom k).lastOrigin ≤ m.origin ∧ s.clk.raw ≤ stamp + 1000000000 ∧ (s.dev.dom k).stepped = false ∧ (s.dev.dom k).canReplace s.clk.raw = true ∧ ¬((s.dev.dom k).sync = SyncState.carried ∧ (s.dev.dom k).forDisagreement = true) ∧ off = s.dev.domTime k stamp - (↑m.origin + (y.correction + m.correction) + ↑(s.dev.pathDelay s.env k y.port)) ∧ 0 ≤ now - off) ∧
    (∃ (s : State) (m : PtpMsg) (k : Nat) (now : Int) (good : Prop) (r : DelayReq), m.port < 4 ∧ s.dev.ptpDomains m = [k] ∧ now = s.dev.domTime k s.clk.raw ∧ good = ((s.dev.dom k).follows m = true ∧ syncInterval m = true ∧ correctionOk m = true) ∧ (s.dev.dom k).delayReq = some r ∧ answersReq m s.clk.raw r = true ∧ delayIn (s.dev.respDelay k m r) = true) ∧
    (∃ (s : State) (m : PtpMsg) (k : Nat) (now : Int) (good : Prop) (r : DelayReq) (v : Int), m.port < 4 ∧ s.dev.ptpDomains m = [k] ∧ now = s.dev.domTime k s.clk.raw ∧ good = ((s.dev.dom k).follows m = true ∧ syncInterval m = true ∧ correctionOk m = true) ∧ tget s.dev.tu.pdelayReq m.port = some r ∧ v = s.dev.peerDelay k (s.dev.stampIn s.env m.port) m r ∧ answersReq m s.clk.raw r = true ∧ delayIn v = true) ∧
    (∃ (s : State) (m : PtpMsg) (k : Nat) (now : Int) (good : Prop), m.port < 4 ∧ s.dev.ptpDomains m = [k] ∧ now = s.dev.domTime k s.clk.raw ∧ good = ((s.dev.dom k).follows m = true ∧ syncInterval m = true ∧ correctionOk m = true) ∧ m.qualified = true ∧ -3 ≤ m.logInterval ∧ m.logInterval ≤ 4 ∧ (s.dev.dom k).betterMaster m = true) ∧
    (∃ (s : State) (m : PtpMsg) (k : Nat) (now : Int) (good : Prop), m.port < 4 ∧ s.dev.ptpDomains m = [k] ∧ now = s.dev.domTime k s.clk.raw ∧ good = ((s.dev.dom k).follows m = true ∧ syncInterval m = true ∧ correctionOk m = true) ∧ (m.qualified = false ∨ (s.dev.dom k).betterMaster m = false) ∧ -3 ≤ m.logInterval ∧ m.logInterval ≤ 4) ∧
    (∃ (s : State) (m : PtpMsg) (k : Nat) (now : Int) (good : Prop), m.port < 4 ∧ s.dev.ptpDomains m = [k] ∧ now = s.dev.domTime k s.clk.raw ∧ good = ((s.dev.dom k).follows m = true ∧ syncInterval m = true ∧ correctionOk m = true) ∧ ((s.dev.dom k).follows m = false ∨ syncInterval m = false)) ∧
    (∃ (s : State) (m : PtpMsg) (k : Nat) (now : Int) (good : Prop), m.port < 4 ∧ s.dev.ptpDomains m = [k] ∧ now = s.dev.domTime k s.clk.raw ∧ good = ((s.dev.dom k).follows m = true ∧ syncInterval m = true ∧ correctionOk m = true) ∧ (s.dev.dom k).follows m = true ∧ syncInterval m = true ∧ correctionOk m = false) ∧
    (∃ (s : State) (m : PtpMsg) (k : Nat) (now : Int) (good : Prop), m.port < 4 ∧ s.dev.ptpDomains m = [k] ∧ now = s.dev.domTime k s.clk.raw ∧ good = ((s.dev.dom k).follows m = true ∧ syncInterval m = true ∧ correctionOk m = true) ∧ (∀ (r : DelayReq), (s.dev.dom k).delayReq = some r → (answersReq m s.clk.raw r && delayIn (s.dev.respDelay k m r)) = false)) :=
  ⟨⟨(st (dm x1)), { pm with twoStep := true }, 1, (now0 x1), (gd0 { pm with twoStep := true } x1), by decide +kernel⟩,
   ⟨(st (dm x1)), pm, 1, (now0 x1), (off0 pm x1), (gd0 pm x1), by decide +kernel⟩,
   ⟨(st (dm x2)), pm2, 1, (now0 x2), (off0 pm2 x2), (gd0 pm2 x2), by decide +kernel⟩,
   ⟨(st (dm x3)), pm, 1, (now0 x3), ((dm x3).domTime 1 (T - 1000000000) - (pm.origin + 24 + (dm x3).pathDelay { raw := T, fuse := {} } 1 3)), (gd0 pm x3), { pm with twoStep := true }, (T - 1000000000), by decide +kernel⟩,
   ⟨(st (dm x4)), pr, 1, (now0 x4), (gd0 pr x4), dr, by decide +kernel⟩,
   ⟨(st (dpd x4)), { pm with remote := 999999500, correction := 2 }, 1, (now0 x4), (gd0 pm x4), dr, (pv { pm with remote := 999999500, correction := 2 }), by decide +kernel⟩,
   ⟨(st (dm { x3 with sync := .holdover })), pm, 1, (now0 { x3 with sync := .holdover }), (gd0 pm { x3 with sync := .holdover }), by decide +kernel⟩,
   ⟨(st (dm x3)), { pm with rank := 8, sourcePort := 5 }, 1, (now0 x3), (gd0 { pm with rank := 8, sourcePort := 5 } x3), by decide +kernel⟩,
   ⟨(st (dm x3)), { pm with logInterval := -8 }, 1, (now0 x3), (gd0 { pm with logInterval := -8 } x3), by decide +kernel⟩,
   ⟨(st (dm x3)), { pm with correction := -1 }, 1, (now0 x3), (gd0 { pm with correction := -1 } x3), by decide +kernel⟩,
   ⟨(st (dm x3)), pm, 1, (now0 x3), (gd0 pm x3), by decide +kernel⟩⟩

theorem test_meets_time_is_watched :
    (∃ (s : State) (k : Nat), k < 2 ∧ (s.dev.dom k).fn = FnState.running ∧ ((s.dev.dom k).sync = SyncState.acquiring ∨ (s.dev.dom k).sync = SyncState.locked) ∧ s.dev.clocked = true ∧ (s.dev.dom k).masterGone s.clk.raw = true) ∧
    (∃ (s : State) (tick : Nat) (delta : Int) (v : Int), s.dev.clocked = true ∧ s.dev.crossable = true ∧ tick = s.clk.raw / 1000000000 * 1000000000 ∧ delta = s.dev.domTime 0 tick - s.dev.domTime 1 tick ∧ s.dev.tu.lastDelta = some (tick - 1000000000, v) ∧ 1000000000 ≤ tick) ∧
    (∃ (s : State) (t : Nat) (v : Int), s.dev.clocked = true ∧ s.dev.crossable = true ∧ s.dev.tu.lastDelta = some (t, v) ∧ t + 1000000000 < s.clk.raw / 1000000000 * 1000000000) ∧
    (∃ (s : State), s.clk.running = true) ∧
    (∃ (s : State), s.clk.running = false ∧ s.dev.pow.sleeping = false ∧ (s.dev.pow.refclkLost = true ∨ s.dev.pow.timePllLost = true)) ∧
    (∃ (s : State), s.dev.pow.sleeping = true) ∧
    (∃ (s : State), s.clk.running = false ∧ s.dev.pow.refclkLost = false ∧ s.dev.pow.timePllLost = false ∧ s.dev.pow.state = PState.standby ∧ s.dev.pow.sleeping = false) :=
  ⟨⟨(st (dt x2 { x2 with sync := .locked })), 0, by decide +kernel⟩,
   ⟨(st (dt xl xl (some (t0, 1000)))), T, (0 : Int), (1000 : Int), by decide +kernel⟩,
   ⟨(st (dt xl xl (some (t0 - 1, 9000)))), (t0 - 1), (9000 : Int), by decide +kernel⟩,
   ⟨(st (dt xl xl)), by decide +kernel⟩,
   ⟨{ st { dev with pow := { dev.pow with refclkLost := true } } with clk := { raw := 77, running := false } }, by decide +kernel⟩,
   ⟨{ st { dev with pow := { dev.pow with refclkLost := true, state := .standby, phase := .settled } } with clk := { raw := 77, running := false } }, by decide +kernel⟩,
   ⟨{ st { dev with pow := { dev.pow with state := .standby, phase := .waking } } with clk := { raw := 77, running := false, saved := 70, asleepNs := 100 } }, by decide +kernel⟩⟩

theorem test_meets_triggers_and_bridge :
    (∃ (s : State) (n : Nat) (c : TrigCfg), n < 17 ∧ (s.dev.trig n).cfg = some c ∧ (s.dev.trig n).fn = FnState.running ∧ (s.dev.trig n).inPulse = false ∧ (s.dev.trig n).waitLock = false ∧ s.dev.clocked = true ∧ c.edgeAt (s.dev.trig n).edge ≤ s.dev.domTime c.dom s.clk.raw) ∧
    (∃ (s : State) (n : Nat) (c : TrigCfg), n < 17 ∧ (s.dev.trig n).cfg = some c ∧ (s.dev.trig n).fn = FnState.running ∧ (s.dev.trig n).inPulse = true ∧ c.edgeAt (s.dev.trig n).edge + ↑c.width ≤ s.dev.domTime c.dom s.clk.raw) ∧
    (∃ (s : State) (f : BridgeFrame) (v : Nat), f.inPort < 5 ∧ s.dev.clocked = true ∧ (v = if f.vlan.getD 0 = 0 then 1 else f.vlan.getD 1) ∧ f.ptpEvent = none ∧ f.udp = none ∧ f.fcsOk = true ∧ frameRefused f = false ∧ s.dev.ownMac f.dstMac = false ∧ s.dev.bridgeUsed = 0 ∧ (∀ p < 4, (s.dev.mac p).queue = [] ∧ (s.dev.mac p).busyTo ≤ s.clk.raw) ∧ f.dstMac ≠ f.srcMac ∧ s.dev.flock.learn.length < 4096) ∧
    (∃ (s : State) (f : BridgeFrame) (v : Nat) (p : Nat), f.inPort < 5 ∧ s.dev.clocked = true ∧ (v = if f.vlan.getD 0 = 0 then 1 else f.vlan.getD 1) ∧ f.ptpEvent = none ∧ f.udp = none ∧ f.fcsOk = true ∧ frameRefused f = false ∧ s.dev.ownMac f.dstMac = false ∧ p < 4 ∧ (∀ q < 4, (s.dev.mac q).queue = [] ∨ s.clk.raw < (s.dev.mac q).busyTo) ∧ s.clk.raw < (s.dev.mac p).busyTo ∧ f.dstMac ≠ f.srcMac ∧ s.dev.egress f v = [p]) ∧
    (∃ (s : State) (f : BridgeFrame), f.inPort < 4 ∧ s.dev.clocked = true ∧ f.fcsOk = true ∧ frameRefused f = false ∧ f.ptpEvent = none ∧ f.udp = none ∧ s.dev.ownMac f.dstMac = true ∧ f.etherType ≠ s.dev.flock.etherType) :=
  ⟨⟨(st (dtr { fn := .running, cfg := some (tc true true), edge := 4, level := true })), 16, (tc true true), by decide +kernel⟩,
   ⟨(st (dtr { fn := .running, cfg := some (tc true true), edge := 4, inPulse := true })), 16, (tc true true), by decide +kernel⟩,
   ⟨(st (dbr [(5,1,0,7),(6,2,3,7)])), bf, 1, by decide +kernel⟩,
   ⟨(st (dbr [(6,1,0,T)] (T+1))), bf, 1, 0, by decide +kernel⟩,
   ⟨(st bOwn), { bf with inPort := 3, dstMac := bOwn.portMac 3, etherType := 0x0801 }, by decide +kernel⟩⟩

end W11

namespace W12

def T : Nat := 10000000000000
def K := 511
def pc (n : Nat) : PeerCfg := { dev := n, port := 3, priority := 7, vlan := 0xFFFF, mac := [1,2,3,4,5,6] }
def fl (me other : Nat) (p : Peer) : Dev := { dev with flock := { dev.flock with dev := some me, peers := [(K, { p with cfg := some (pc other) }), (3, { fn := .running, cfg := some (pc 9) })] } }
def hd (me other : Nat) (seq : Nat := 0) (ses := 77) : NdHdr := { port := 3, fcsOk := true, dstMac := 0x02C707000000 + 3 * 65536 + me, etherType := dev.flock.etherType, crcOk := true, version := 1, lengthOk := true, srcDev := other, dstDev := me, session := ses, seq := seq, ackValid := false, ack := 0, window := 9 }
def o611 : Outst := { q := 3, e := { ent K [] with tag := 9 }, opcode := 0x611, deadline := 0 }
def o612 : Outst := { q := 3, e := { ent K [] with tag := 8 }, opcode := 0x612, deadline := 0 }
def ml (d : Dev) (l : List Outst) : Dev := { d with mbox := { d.mbox with outst := l } }
def run0 : Peer := { fn := .running, txSeq := 5, rxNext := 2^32-1, session := 77, unacked := [{ seq := 2^32-1, kind := 9, body := [1], data := [2], sentAt := T-50000 }, { seq := 2^32, kind := 9, body := [1], data := [2], sentAt := T-50000 }], lastTx := T-1000000, lastRx := T - 10000000 }
def sc : StileCfg := { base := commonBase + 0x3000000, length := 0x1000, offset := 0x8000, canRead := true, canWrite := true, lifetimeMs := 0, peers := [1] }
def flS (p : Peer) (sl : Tab Slot := []) : Dev := { fl 0 1 p with flock := { (fl 0 1 p).flock with stiles := [(7, { fn := .running, cfg := some sc })] }, slots := sl, mem := { bytes := cellsOf (commonBase + 0x3000000) ((List.range 200).map fun i => BitVec.ofNat 8 (i+1)) } }
def aw : NdAccess := { offset := 0x8008, reqId := 6, count := 0, nsize := 4, poison := 0, data := [1,2,3,4,0,0,0,0] }
def aw2 : NdAccess := { offset := 0x8040, reqId := 6, count := 1, nsize := 0, poison := 1, data := List.replicate 64 9 }
def ar : NdAccess := { offset := 0, reqId := 6, count := 0, nsize := 4, poison := 1, data := [1,2,3,0x84,0,0,0,0] }
def rq (w : Bool) : NdReq := { id := 6, peer := K, write := w, thread := some 65, drover := none, rd := 31, size := 4, addr := 0x2000000008 }
def flR (w : Bool) : Dev := { flS run0 with flock := { (flS run0).flock with reqs := [rq w] }, threads := [(65, { st := .waiting, wait := some { what := .loadData 0x2000000008 4 31, since := 5 } })] }
def sv (w : Bool) (r : Option Nat := some (T-2000000)) : NdServe := { write := w, access := if w then aw else { aw with data := [] }, refusedAt := r }
def slt (x : SlotState) : Slot := { inst := 0, base := commonBase + 0x3000000, size := 64, writer := some 0, st := x }
def flV (w : Bool) (x : SlotState) : Dev := flS { run0 with serve := [sv w] } [(5, slt x)]
def fq : FQueue := { inst := 0, prods := [{ who := .peer 1, credits := 1 }, { who := .broadcast, credits := 1 }, { who := .flockEvent, credits := 1 }] }
def flQ (me other : Nat) (nb := 0) : Dev := { fl me other run0 with queues := [(0x103, fq), (9, { fq with inst := 1 })], hurdles := [(4, { inst := 0, members := 2, flock := some 15, count := 2, phase := 255, waiters := [65] })] }
def mg (b : Bool) : NdMessage := { ident := 0x103, atEnd := true, broadcast := b, origin := 0, bseq := 5, entry := List.replicate 16 8 }
def flW : Dev := let d := flV true .full; { d with queues := (flQ 0 1).queues }
def hh : Hurdle := { inst := 0, members := 2, flock := some 15, count := 2, phase := 255, waiters := [65] }
def flH (me other : Nat) : Dev := { flQ me other with threads := [(65, { st := .waiting, wait := some { what := .hurdle 4 5, since := 0 } })], flock := { (flQ me other).flock with hurdles := [(15, { own := false, children := [2], phase := 255 })] } }
def ev : NdEvent := { kind := 0, domain := 1, origin := 1, eventId := 88, tag := 9, instant := 6000000000000 }
def o601 : Outst := { q := 3, e := { ent 0 [] with tag := 9 }, opcode := 0x601, deadline := 0 }
def flE (me other : Nat) (f : Flock → Flock := fun x => x) (w : Nat := 5000000000000) : Dev := let d := ml { flQ me other with tu := { doms := [(1, { fn := .running, params := [{ rs := T, ts := w, rho := 0 }] })] } } [o601]; { d with flock := f d.flock }
def fm (src kind d a : Nat) : BitVec 64 := faultMsg src kind d a
def dc (src kind d a : Nat) (lg : Option LogRing := some { base := commonBase + 0x3000000, capacity := 8, next := 7 }) : Dev := { dev with col := { dev.col with waiting := [fm 0x3FF 1 2 3, fm src kind d a], log := lg } }
def dI (s : Dev) (src : Nat) (v : Nat) : Dev := { s with col := { s.col with severity := tset s.col.severity src v } }
def dh (h : HaltReset) : Dev := { flE 1 0 with col := { dev.col with halts := [(h, 5), (.race, 6)] }, race := { gates := [(47, { fn := .running }), (3, { fn := .stopped, lost := 4 })] } }
abbrev pr (u : List (BitVec 64 × Bool)) (l : List ShepStep) (a b : List (BitVec 64)) : PairReport := ⟨u, l, a, b⟩
def sp : Dev := { dev with safe := { dev.safe with lastHash := T - 2500000 } }
def ops : List ShepStep := [{follower := false, op := .store 8 5},{follower := false, op := .load 8 9},{follower := false, op := .load 16 9},{follower := false, op := .interrupt},{follower := false, op := .other},{follower := true, op := .store 8 5},{follower := true, op := .load 8 9},{follower := true, op := .load 16 9},{follower := true, op := .other},{follower := true, op := .other}]
def opx : List ShepStep := [{follower := false, op := .store 8 5},{follower := true, op := .store 8 6}]
def ops1 : List ShepStep := [{follower := false, op := .store 8 5},{follower := true, op := .store 8 5}]
abbrev pp (r : PairReport) (d : Dev := sp) : ShepPair := (r.upsets.foldl ShepPair.upset d.safe.pair).run r.steps
def opc : List ShepStep := [⟨false, .entry 64 [1,2]⟩, ⟨true, .entry 64 [1,3]⟩]
def opd : List ShepStep := [⟨false, .config 64 1⟩, ⟨true, .config 72 1⟩]

theorem test_meets_links_come_up_and_down :
    (∃ (s : State) (k : Nat) (h : NdHdr), k < 512 ∧ s.dev.clocked = true ∧ s.dev.claims h = true ∧ h.crcOk = true ∧ h.version = 1 ∧ h.lengthOk = true ∧ s.dev.flock.dev = some h.dstDev ∧ s.dev.peerOf h.srcDev = some k ∧ s.dev.initiates k = false ∧ (s.dev.peer k).connecting = true) ∧
    (∃ (s : State) (k : Nat) (h : NdHdr), k < 512 ∧ s.dev.clocked = true ∧ s.dev.heard h k = true ∧ h.ackValid = false ∧ (s.dev.peer k).connecting = true ∧ s.dev.initiates k = true) ∧
    (∃ (s : State) (k : Nat) (h : NdHdr), k < 512 ∧ s.dev.clocked = true ∧ s.dev.inOrder h k = true ∧ h.ackValid = false) ∧
    (∃ (s : State) (k : Nat) (h : NdHdr) (n : Nat) (base : Nat), k < 512 ∧ s.dev.clocked = true ∧ s.dev.heard h k = true ∧ h.ackValid = true ∧ (s.dev.peer k).fn = FnState.running ∧ (base = (Option.map (fun x => x.seq) (s.dev.peer k).unacked.head?).getD (s.dev.peer k).txSeq) ∧ n = (h.ack + 2 ^ 32 - base % 2 ^ 32) % 2 ^ 32 ∧ n ≤ (s.dev.peer k).unacked.length) ∧
    (∃ (s : State) (k : Nat) (h : NdHdr), k < 512 ∧ s.dev.clocked = true ∧ s.dev.heard h k = true ∧ h.ackValid = false) ∧
    (∃ (s : State) (k : Nat), k < 512 ∧ s.dev.clocked = true ∧ (s.dev.peer k).connecting = true ∧ s.dev.initiates k = true ∧ (s.dev.peer k).lastTx + 10000000 ≤ s.clk.raw) ∧
    (∃ (s : State) (k : Nat) (x : NdTx) (rest : List NdTx), k < 512 ∧ s.dev.clocked = true ∧ (s.dev.peer k).unacked = x :: rest ∧ (s.dev.peer k).fn.active = true ∧ x.sentAt + 50000 ≤ s.clk.raw ∧ (s.dev.peer k).retries + 1 < 8 ∧ 0 < (s.dev.peer k).peerWindow) ∧
    (∃ (s : State) (k : Nat), k < 512 ∧ s.dev.clocked = true ∧ (s.dev.peer k).fn.active = true ∧ (s.dev.peer k).lastTx + 1000000 ≤ s.clk.raw) ∧
    (∃ (s : State) (k : Nat), k < 512 ∧ s.dev.clocked = true ∧ (s.dev.peer k).fn.active = true ∧ (s.dev.peer k).lastRx + 10000000 ≤ s.clk.raw) ∧
    (∃ (s : State) (k : Nat) (t : Nat), k < 512 ∧ s.dev.clocked = true ∧ (s.dev.peer k).closeAt = some t ∧ t ≤ s.clk.raw) :=
  ⟨⟨(st (ml (fl 1 0 { fn := .stopped, connecting := true, txSeq := 5, rxNext := 7, session := 4 }) [o611])), K, (hd 1 0), by decide +kernel⟩,
   ⟨(st (ml (fl 0 1 { fn := .stopped, connecting := true, txSeq := 5, rxNext := 7, session := 77 }) [o611])), K, (hd 0 1), by decide +kernel⟩,
   ⟨(st (fl 0 1 run0)), K, (hd 0 1 (2^32-1)), by decide +kernel⟩,
   ⟨(st (fl 0 1 run0)), K, { hd 0 1 with ackValid := true, ack := 0 }, 1, (2^32-1), by decide +kernel⟩,
   ⟨(st (fl 0 1 run0)), K, (hd 0 1), by decide +kernel⟩,
   ⟨(st (fl 0 1 { run0 with fn := .stopped, connecting := true, lastTx := T - 10000000 })), K, by decide +kernel⟩,
   ⟨(st (fl 0 1 { run0 with retries := 6 })), K, ({ seq := 2^32-1, kind := 9, body := [1], data := [2], sentAt := T-50000 } : NdTx), [{ seq := 2^32, kind := 9, body := [1], data := [2], sentAt := T-50000 }], by decide +kernel⟩,
   ⟨(st (fl 0 1 run0)), K, by decide +kernel⟩,
   ⟨(st (fl 0 1 run0)), K, by decide +kernel⟩,
   ⟨(st (ml (fl 0 1 { run0 with fn := .stopping, closeAt := some T }) [o612])), K, T, by decide +kernel⟩⟩

theorem test_meets_stile_requests_and_replies :
    (∃ (s : State) (h : NdHdr) (a : NdAccess) (k : Nat) (addr : Nat) (o : Nat), k < 512 ∧ s.dev.inOrder h k = true ∧ h.ackValid = false ∧ a.formOk = true ∧ s.dev.slots = [] ∧ (∀ x ∈ s.dev.flock.stiles, x.2.fn ≠ FnState.stopping) ∧ (s.dev.peer k).serve = [] ∧ zoneOf addr = Zone.common o ∧ 8196 ≤ o ∧ o + a.size ≤ 201326592 ∧ a.data.length = accessData a ∧ s.dev.stileCheck h.srcDev a.offset a.size true = (0, addr)) ∧
    (∃ (s : State) (h : NdHdr) (a : NdAccess) (k : Nat) (addr : Nat) (o : Nat), k < 512 ∧ s.dev.inOrder h k = true ∧ h.ackValid = false ∧ a.formOk = true ∧ s.dev.slots = [] ∧ (∀ x ∈ s.dev.flock.stiles, x.2.fn ≠ FnState.stopping) ∧ (s.dev.peer k).serve = [] ∧ zoneOf addr = Zone.common o ∧ 8196 ≤ o ∧ o + a.size ≤ 201326592 ∧ a.data = [] ∧ a.poison = 0 ∧ s.dev.stileCheck h.srcDev a.offset a.size false = (0, addr) ∧ s.dev.mem.sound = true) ∧
    (∃ (s : State) (h : NdHdr) (a : NdAccess) (k : Nat) (r : NdReq) (t : Nat) (x : Nat) (sz : Nat) (rd : Nat), k < 512 ∧ s.dev.inOrder h k = true ∧ h.ackValid = false ∧ a.formOk = true ∧ s.dev.slots = [] ∧ (∀ x ∈ s.dev.flock.stiles, x.2.fn ≠ FnState.stopping) ∧ (List.find? (fun r => r.peer == k && r.id == a.reqId && r.write == false) s.dev.flock.reqs = some r) ∧ r.thread = some t ∧ r.dead = false ∧ s.dev.whatOf t = some (WaitFor.loadData x sz rd) ∧ r.rd < 32 ∧ r.size ≤ 8 ∧ a.offset = 0 ∧ a.data.length = accessData a) ∧
    (∃ (s : State) (h : NdHdr) (a : NdAccess) (k : Nat) (r : NdReq) (st : Nat), k < 512 ∧ s.dev.inOrder h k = true ∧ h.ackValid = false ∧ a.formOk = true ∧ s.dev.slots = [] ∧ (∀ x ∈ s.dev.flock.stiles, x.2.fn ≠ FnState.stopping) ∧ (List.find? (fun r => r.peer == k && r.id == a.reqId && r.write == true) s.dev.flock.reqs = some r) ∧ st ≤ 5) ∧
    (∃ (s : State) (k : Nat) (dev : Nat) (x : NdServe) (rest : List NdServe), k < 512 ∧ s.dev.clocked = true ∧ (s.dev.peer k).serve = x :: rest ∧ (dev = (Option.map (fun x => x.dev) (s.dev.peer k).cfg).getD 0) ∧ x.mute = false ∧ x.message = none ∧ (s.dev.serveStatus dev x).1 = 0 ∧ s.dev.serveRefused x (s.dev.serveStatus dev x).2 = none ∧ rest = []) ∧
    (∃ (s : State) (k : Nat) (dev : Nat) (x : NdServe) (rest : List NdServe) (sl : Nat × Slot), k < 512 ∧ s.dev.clocked = true ∧ (s.dev.peer k).serve = x :: rest ∧ (dev = (Option.map (fun x => x.dev) (s.dev.peer k).cfg).getD 0) ∧ x.mute = false ∧ x.message = none ∧ (s.dev.serveStatus dev x).1 = 0 ∧ s.dev.serveRefused x (s.dev.serveStatus dev x).2 = some sl) ∧
    (∃ (s : State) (k : Nat) (dev : Nat) (x : NdServe) (rest : List NdServe) (since : Nat) (i : Nat) (sl : Slot), k < 512 ∧ s.dev.clocked = true ∧ (s.dev.peer k).serve = x :: rest ∧ (dev = (Option.map (fun x => x.dev) (s.dev.peer k).cfg).getD 0) ∧ x.mute = false ∧ x.message = none ∧ x.refusedAt = some since ∧ s.dev.serveRefused x (s.dev.serveStatus dev x).2 = some (i, sl) ∧ since + sl.timeoutNs ≤ s.clk.raw ∧ rest = []) :=
  ⟨⟨(st (flS run0)), (hd 0 1 (2^32-1)), aw, K, (commonBase + 0x3000008), 0x3000008, by decide +kernel⟩,
   ⟨(st (flS run0)), (hd 0 1 (2^32-1)), { aw with data := [] }, K, (commonBase + 0x3000008), 0x3000008, by decide +kernel⟩,
   ⟨(st (flR false)), (hd 0 1 (2^32-1)), ar, K, (rq false), 65, 0x2000000008, 4, 31, by decide +kernel⟩,
   ⟨(st (flR true)), (hd 0 1 (2^32-1)), ar, K, (rq true), 0, by decide +kernel⟩,
   ⟨(st (flV true .empty)), K, 1, (sv true), [], by decide +kernel⟩,
   ⟨(st (flV true .full)), K, 1, (sv true), [], (5, slt .full), by decide +kernel⟩,
   ⟨(st (flV true .full)), K, 1, (sv true), [], (T-2000000), 5, (slt .full), by decide +kernel⟩⟩

theorem test_meets_messages_and_flock_hurdles :
    (∃ (s : State) (h : NdHdr) (k : Nat) (m : NdMessage) (q : FQueue) (i : Nat) (p : ProdSlot), k < 512 ∧ s.dev.inOrder h k = true ∧ h.ackValid = false ∧ m.ident < 65536 ∧ m.entry.length = 16 ∧ tget s.dev.queues m.ident = some q ∧ q.waiters = [] ∧ (prodIndex q (if m.broadcast = true then Prod.broadcast else Prod.peer h.srcDev) = some i) ∧ q.prods[i]? = some p ∧ p.used < p.credits ∧ (m.broadcast = true → s.dev.treeParent = some h.srcDev) ∧ (s.dev.peer k).serve = [] ∧ (∀ x ∈ s.dev.flock.stiles, x.2.fn ≠ FnState.stopping)) ∧
    (∃ (s : State) (h : NdHdr) (k : Nat) (m : NdMessage) (x : NdServe) (rest : List NdServe) (sl : Nat × Slot) (dev : Nat), k < 512 ∧ s.dev.inOrder h k = true ∧ h.ackValid = false ∧ m.ident < 65536 ∧ m.entry.length = 16 ∧ (s.dev.peer k).serve = x :: rest ∧ x.message = none ∧ (dev = (Option.map (fun x => x.dev) (s.dev.peer k).cfg).getD 0) ∧ (s.dev.serveStatus dev x).1 = 0 ∧ s.dev.serveRefused x (s.dev.serveStatus dev x).2 = some sl) ∧
    (∃ (s : State) (h : NdHdr) (k : Nat) (num : Nat) (ident : Nat) (g : Hurdle) (x : FlockHurdle), k < 512 ∧ s.dev.inOrder h k = true ∧ h.ackValid = false ∧ num < 16 ∧ s.dev.flockHurdle num = some ident ∧ tget s.dev.hurdles ident = some g ∧ g.broken = none ∧ x = s.dev.flockState num ∧ x.phase < 256 ∧ x.own = false ∧ s.dev.treeChildren.contains h.srcDev = true) ∧
    (∃ (s : State) (h : NdHdr) (k : Nat) (num : Nat) (ident : Nat) (g : Hurdle) (ph : Nat), k < 512 ∧ s.dev.inOrder h k = true ∧ h.ackValid = false ∧ num < 16 ∧ s.dev.flockHurdle num = some ident ∧ tget s.dev.hurdles ident = some g ∧ g.broken = none ∧ ph < 256) ∧
    (∃ (s : State) (h : NdHdr) (k : Nat) (num : Nat) (ident : Nat) (g : Hurdle) (ph : Nat) (cause : Nat), k < 512 ∧ s.dev.inOrder h k = true ∧ h.ackValid = false ∧ num < 16 ∧ s.dev.flockHurdle num = some ident ∧ tget s.dev.hurdles ident = some g ∧ g.broken = none ∧ ph < 256 ∧ (cause = 1 ∨ cause = 2)) :=
  ⟨⟨(st (flQ 0 1)), (hd 0 1 (2^32-1)), K, (mg false), fq, 0, ({ who := .peer 1, credits := 1 } : ProdSlot), by decide +kernel⟩,
   ⟨(st flW), (hd 0 1 (2^32-1)), K, (mg false), (sv true), ([] : List NdServe), (5, slt .full), 1, by decide +kernel⟩,
   ⟨(st (flH 0 1)), (hd 0 1 (2^32-1)), K, 15, 4, hh, ({ own := false, children := [2], phase := 255 } : FlockHurdle), by decide +kernel⟩,
   ⟨(st (flH 1 0)), (hd 1 0 (2^32-1)), K, 15, 4, hh, 255, by decide +kernel⟩,
   ⟨(st (flH 1 0)), (hd 1 0 (2^32-1)), K, 15, 4, hh, 255, 2, by decide +kernel⟩⟩

theorem test_meets_flock_events_run :
    (∃ (s : State) (h : NdHdr) (k : Nat) (v : NdEvent), k < 512 ∧ s.dev.inOrder h k = true ∧ h.ackValid = false ∧ eventOk v = true ∧ s.dev.treeParent = none ∧ s.dev.rootPending s.env = false ∧ s.dev.eventLate s.env v = false) ∧
    (∃ (s : State) (h : NdHdr) (k : Nat) (v : NdEvent), k < 512 ∧ s.dev.inOrder h k = true ∧ h.ackValid = false ∧ eventOk v = true ∧ s.dev.eventLate s.env v = false) ∧
    (∃ (s : State) (h : NdHdr) (k : Nat) (v : NdEvent) (x : NdEvent), k < 512 ∧ s.dev.inOrder h k = true ∧ h.ackValid = false ∧ eventOk v = true ∧ s.dev.treeParent = some h.srcDev ∧ s.dev.flock.event = some x ∧ x.origin = v.origin ∧ x.tag = v.tag) ∧
    (∃ (s : State) (h : NdHdr) (k : Nat) (v : NdEvent), k < 512 ∧ s.dev.inOrder h k = true ∧ h.ackValid = false ∧ eventOk v = true ∧ s.dev.flock.dev = some v.origin) ∧
    (∃ (s : State) (h : NdHdr) (k : Nat) (v : NdEvent), k < 512 ∧ s.dev.inOrder h k = true ∧ h.ackValid = false ∧ eventOk v = true ∧ s.dev.flock.event = some v ∧ ↑v.instant ≤ s.dev.domTime v.domain s.clk.raw) :=
  ⟨⟨(st (flE 0 1)), (hd 0 1 (2^32-1)), K, ev, by decide +kernel⟩,
   ⟨(st (flE 1 0)), (hd 1 0 (2^32-1)), K, ev, by decide +kernel⟩,
   ⟨(st (flE 1 0 fun f => { f with event := some ev })), (hd 1 0 (2^32-1)), K, { ev with eventId := 3 }, ev, by decide +kernel⟩,
   ⟨(st (flE 1 0)), (hd 1 0 (2^32-1)), K, ev, by decide +kernel⟩,
   ⟨(st (flE 1 0 (fun f => { f with event := some ev }) 6000000000000)), (hd 1 0 (2^32-1)), K, ev, by decide +kernel⟩⟩

theorem test_meets_faults_are_collected :
    (∃ (s : State) (src : Nat) (sev : Nat) (m : BitVec 64) (c : BitVec 64), src < 1024 ∧ s.dev.mem.sound = true ∧ (List.find? (fun m => msgSource m == src) s.dev.col.waiting = some m) ∧ c = asCollected s.dev m ∧ sev = s.dev.severityOf (msgSource c) ∧ msgKind c ≠ 4 ∧ msgKind c ≠ 12) ∧
    (∃ (s : State) (src : Nat) (sev : Nat) (m : BitVec 64) (c : BitVec 64), src < 1024 ∧ s.dev.mem.sound = true ∧ (List.find? (fun m => msgSource m == src) s.dev.col.waiting = some m) ∧ c = asCollected s.dev m ∧ sev = s.dev.severityOf (msgSource c)) ∧
    (∃ (s : State) (src : Nat) (sev : Nat) (m : BitVec 64) (c : BitVec 64) (p : Nat), src < 1024 ∧ s.dev.mem.sound = true ∧ (List.find? (fun m => msgSource m == src) s.dev.col.waiting = some m) ∧ c = asCollected s.dev m ∧ sev = s.dev.severityOf (msgSource c) ∧ p < 52 ∧ msgSource c = 256 + p ∧ msgKind c = 12) ∧
    (∃ (s : State) (src : Nat) (sev : Nat) (m : BitVec 64) (c : BitVec 64) (p : Nat), src < 1024 ∧ s.dev.mem.sound = true ∧ (List.find? (fun m => msgSource m == src) s.dev.col.waiting = some m) ∧ c = asCollected s.dev m ∧ sev = s.dev.severityOf (msgSource c) ∧ p < 52) ∧
    (∃ (s : State) (src : Nat) (sev : Nat) (m : BitVec 64) (c : BitVec 64), src < 1024 ∧ s.dev.mem.sound = true ∧ (List.find? (fun m => msgSource m == src) s.dev.col.waiting = some m) ∧ c = asCollected s.dev m ∧ sev = s.dev.severityOf (msgSource c)) :=
  ⟨⟨(st (dc 0x21F 0x13 4 8)), 0x21F, (dev.severityOf 0x21F), (fm 0x21F 0x13 4 8), (fm 0x21F 0x13 4 8), by decide +kernel⟩,
   ⟨(st (dc 0x21F 0x13 4 8)), 0x21F, (dev.severityOf 0x21F), (fm 0x21F 0x13 4 8), (fm 0x21F 0x13 4 8), by decide +kernel⟩,
   ⟨(st (dc 0x133 0x0C 3 8)), 0x133, (dev.severityOf 0x133), (fm 0x133 0x0C 3 8), (asCollected (dc 0x133 0x0C 3 8) (fm 0x133 0x0C 3 8)), 51, by decide +kernel⟩,
   ⟨(st (dc 0x133 0x0C 3 8)), 0x133, (dev.severityOf 0x133), (fm 0x133 0x0C 3 8), (asCollected (dc 0x133 0x0C 3 8) (fm 0x133 0x0C 3 8)), 51, by decide +kernel⟩,
   ⟨(st (dc 0x133 0x0C 3 8)), 0x133, (dev.severityOf 0x133), (fm 0x133 0x0C 3 8), (asCollected (dc 0x133 0x0C 3 8) (fm 0x133 0x0C 3 8)), by decide +kernel⟩⟩

theorem test_meets_halt_resets :
    (∃ (s : State) (m : Nat) (rest : List (HaltReset × Nat)), s.dev.col.halts = (HaltReset.cold, m) :: rest) ∧
    (∃ (s : State) (m : Nat) (rest : List (HaltReset × Nat)), s.dev.col.halts = (HaltReset.warm, m) :: rest) ∧
    (∃ (s : State) (m : Nat) (rest : List (HaltReset × Nat)), s.dev.col.halts = (HaltReset.race, m) :: rest) ∧
    (∃ (s : State) (m : Nat) (rest : List (HaltReset × Nat)), s.dev.col.halts = (HaltReset.ethernet, m) :: rest) :=
  ⟨⟨(st (dh .cold)), 5, [(HaltReset.race, 6)], by decide +kernel⟩,
   ⟨(st (dh .warm)), 5, [(HaltReset.race, 6)], by decide +kernel⟩,
   ⟨(st (dh .race)), 5, [(HaltReset.race, 6)], by decide +kernel⟩,
   ⟨(st (dh .ethernet)), 5, [(HaltReset.race, 6)], by decide +kernel⟩⟩

theorem test_meets_shepherd_pair :
    (∃ (s : State) (p : ShepPair), s.dev.pairRuns = true ∧ s.dev.safe.lockstepBroken = false ∧ p.follow.count ≤ p.lead.count ∧ p.lead.count ≤ p.follow.count + 1024) ∧
    (∃ (s : State) (r : PairReport) (p : ShepPair), s.dev.pairRuns = true ∧ s.dev.safe.lockstepBroken = false ∧ p = (List.foldl ShepPair.upset s.dev.safe.pair r.upsets).run r.steps ∧ p.differs = none ∧ p.level = true ∧ r.lead = r.follow ∧ p.lead.hash = p.follow.hash) ∧
    (∃ (s : State) (r : PairReport) (p : ShepPair), s.dev.pairRuns = true ∧ s.dev.safe.lockstepBroken = false ∧ p = (List.foldl ShepPair.upset s.dev.safe.pair r.upsets).run r.steps ∧ p.differs = none ∧ p.level = true ∧ (r.lead ≠ r.follow ∨ p.lead.hash ≠ p.follow.hash)) ∧
    (∃ (s : State) (r : PairReport) (p : ShepPair), s.dev.pairRuns = true ∧ s.dev.safe.lockstepBroken = false ∧ p = (List.foldl ShepPair.upset s.dev.safe.pair r.upsets).run r.steps ∧ p.differs = none ∧ p.level = false) ∧
    (∃ (s : State) (r : PairReport) (p : ShepPair) (k : Nat), s.dev.pairRuns = true ∧ s.dev.safe.lockstepBroken = false ∧ p = (List.foldl ShepPair.upset s.dev.safe.pair r.upsets).run r.steps ∧ p.differs = some k) ∧
    (∃ (s : State) (c : Nat), s.dev.pairRuns = true ∧ s.dev.safe.lockstepBroken = false ∧ c < 3) ∧
    (∃ (s : State), s.dev.pairRuns = true ∧ s.dev.safe.lockstepBroken = false ∧ s.dev.safe.lastHash + 2500000 ≤ s.clk.raw) ∧
    (∃ (s : State), s.dev.pairRuns = true ∧ s.dev.safe.lockstepBroken = false) :=
  ⟨⟨(st sp), sp.safe.pair, by decide +kernel⟩,
   ⟨(st sp), (pr [] ops1 [5] [5]), (pp (pr [] ops1 [5] [5])), by refine ⟨?_, ?_, rfl, ?_, ?_, ?_, rfl⟩ <;> decide +kernel⟩,
   ⟨(st sp), (pr [] ops [5] [6]), (pp (pr [] ops [5] [6])), by refine ⟨?_, ?_, rfl, ?_, ?_, ?_⟩ <;> decide +kernel⟩,
   ⟨(st sp), (pr [] (ops.take 6) [5] [5]), (pp (pr [] (ops.take 6) [5] [5])), by refine ⟨?_, ?_, rfl, ?_, ?_⟩ <;> decide +kernel⟩,
   ⟨(st sp), (pr [] opc [5] [5]), (pp (pr [] opc [5] [5])), ((pp (pr [] opc [5] [5])).differs.getD 77), by refine ⟨?_, ?_, rfl, ?_⟩ <;> decide +kernel⟩,
   ⟨(st sp), 2, by decide +kernel⟩,
   ⟨(st sp), by decide +kernel⟩,
   ⟨(st sp), by decide +kernel⟩⟩

end W12

namespace W13

def T : Nat := 10000000000000
def dM (f : Safety → Safety := fun x => x) (p : PowerUnit → PowerUnit := fun x => x) : Dev := { dev with safe := f dev.safe, pow := p dev.pow, tu := { doms := [(0, { fn := .running })] }, fsets := [(3, { cfg := some { period := 10000000, dom := 0, offset := 0, hold := 0, epoch := 0 }, running := true })] }
def camL : List (Nat × List Byte) := [(1, leBytes 4 0), (4, leBytes 4 64), (5, leBytes 4 4), (8, leBytes 4 4 ++ leBytes 4 8192 ++ leBytes 8 (commonBase + 0x4000000))]
def dG (f : PowerUnit → PowerUnit := fun x => x) (m : Mailbox → Mailbox := fun x => x) : Dev := { dM with pow := f dev.pow, mbox := m dev.mbox, race := { gates := [(47, { fn := .running, settings := camL, frame := some { smp := { counter := 8, capture := 77, domB := false, slot := some 0, st := camL }, startRaw := 0 } }), (3, { fn := .stopped, lost := 4 }), (4, { fn := .stopping, settings := camL })] } }
def bt : StartUp := { bootSel := true, failedItems := [], failedFolds := [3], failedInterfaces := [] }
def bt0 : StartUp := { bootSel := false, failedItems := [0,1], failedFolds := [3], failedInterfaces := [1] }
def sx : Session := { level := 2, until_ := T + 5 }
def dS (l : Nat) : Dev := { dG with sec := { dG.sec with session := some { sx with level := l }, granted := true, boundary := [false] } }
def mq : MQueue := { (default : MQueue) with cqBase := 0x3000000, cqEntries := 4, cqTail := 3, sqHead := 2, phase := true }
def dQ (m : MQueue) : Dev := { dev with mbox := { dev.mbox with queues := [(15, m), (3, m)] } }
def dC (l : List (BitVec 64)) (p : PowerUnit → PowerUnit := fun x => x) : Dev := { dG p with col := { dev.col with waiting := l }, phys := [(51, { retired := true })] }
def dE (x : LineErr) : Dev := { dev with mem := { err := [(foldBase 0 / 64 + 7, x)], poison := [(foldBase 0 / 64 + 6, true)], poisonStore := [foldBase 0 / 64 + 7] } }
def L7 := foldBase 0 / 64 + 7
def dX (k : Nat) : Dev := { dE .checkMismatch with mem := { edc := [(0, k)] } }
def dSg (p : Bool) : Dev := { dev with mem := { err := [(foldBase 0 / 64 + 7, .single 3)], poison := if p then [(foldBase 0 / 64 + 7, true)] else [] } }

theorem test_meets_monitors_act :
    (∃ (s : State) (n : Nat) (i : Nat), n < 61 ∧ (i = if n < 9 then n else n - 9) ∧ s.dev.pow.state = PState.idle) ∧
    (∃ (s : State) (c : Nat) (ppm : Int), c < 8 ∧ s.dev.clockOn c = true ∧ ppm.natAbs ≤ clockLimit c) ∧
    (∃ (s : State) (c : Nat) (ppm : Int), c < 8 ∧ s.dev.clockOn c = true ∧ clockLimit c < ppm.natAbs) ∧
    (∃ (s : State) (c : Nat), c < 8 ∧ s.dev.clockOn c = true) ∧
    (∃ (s : State) (ppm : Int) (lost : Bool), (lost = true ∨ 20000 < ppm.natAbs) ∧ s.clk.running = true) ∧
    (∃ (s : State) (ppm : Int), 1000 < ppm.natAbs ∧ ppm.natAbs ≤ 20000 ∧ s.dev.clockOn 8 = true) ∧
    (∃ (s : State) (l : List Int), l.length = 24 ∧ s.dev.pow.state = PState.idle ∧ (∀ r ∈ l, r ≤ (tempLimits s.fuse).2.2.2)) ∧
    (∃ (s : State) (l : List Int), l.length = 24 ∧ s.dev.pow.state = PState.idle ∧ (∀ r ∈ l, (tempLimits s.fuse).2.2.2 < r) ∧ 1 ≤ tgetD s.dev.safe.tempCount 3 0) ∧
    (∃ (s : State), s.dev.pow.state ≠ PState.off ∧ tgetD s.dev.safe.clockBad 7 false = false) ∧
    (∃ (s : State) (r : Nat), r < 9 ∧ (tgetD s.dev.safe.rails r { }).armed = true ∧ s.dev.railOn r = true ∧ s.dev.pow.state = PState.idle) ∧
    (∃ (s : State) (p : Nat), p < 52 ∧ s.dev.foldPowered p = true ∧ (∀ x ∈ s.dev.col.halts, x.1 ≠ HaltReset.foldEngines) ∧ s.dev.silent 950 = true) ∧
    (∃ (s : State) (r : Nat), r < 9 ∧ (tgetD s.dev.safe.rails r { }).inWindow = false ∧ s.dev.railOn r = true ∧ s.dev.pow.state = PState.standby) ∧
    (∃ (s : State) (r : Nat), r < 9 ∧ s.dev.railOn r = true) :=
  ⟨⟨(st dM), 60, 51, by decide +kernel⟩,
   ⟨(st dM), 0, (-20000), by decide +kernel⟩,
   ⟨(st dM), 0, (20001), by decide +kernel⟩,
   ⟨(st dM), 5, by decide +kernel⟩,
   ⟨(st dM), (30001 : Int), false, by decide +kernel⟩,
   ⟨(st dM), (-20000 : Int), by decide +kernel⟩,
   ⟨(st dM), (List.replicate 24 115), by decide +kernel⟩,
   ⟨(st (dM fun x => { x with tempCount := [(3,1)] })), ((List.replicate 23 136) ++ [500]), by decide +kernel⟩,
   ⟨(st dM), by decide +kernel⟩,
   ⟨(st (dM fun x => { x with rails := [(8, { inWindow := true, armed := true })] })), 8, by decide +kernel⟩,
   ⟨(st dM), 0, by decide +kernel⟩,
   ⟨(st (dM (fun x => { x with rails := [(4, { inWindow := false, armed := false })] }) fun p => { p with state := .standby, phase := .bringUp })), 4, by decide +kernel⟩,
   ⟨(st (dM (fun x => x) fun p => { p with state := .standby, phase := .bringUp })), 8, by decide +kernel⟩⟩

theorem test_meets_power_and_reset_act :
    (∃ (s : State), s.dev.pow.holdup = false ∧ s.dev.pow.state = PState.idle) ∧
    (∃ (s : State), s.dev.pow.wakeWaiting = false) ∧
    (∃ (s : State), s.dev.pow.wakeWaiting = true ∧ s.dev.pow.sleeping = true) ∧
    (∃ (s : State), s.dev.pow.sleeping = true ∧ s.dev.pow.holdup = false) ∧
    (∃ (s : State), s.dev.pow.state = PState.hibernate ∧ s.dev.pow.holdup = false) ∧
    (∃ (s : State), s.dev.pow.phase = Phase.bringUp ∧ s.dev.mbox.ready = true ∧ s.dev.sec.respWaiting = none) ∧
    (∃ (s : State), s.dev.pow.phase = Phase.waking ∧ s.clk.running = true ∧ s.dev.sec.respWaiting = none) ∧
    (∃ (s : State), s.dev.pow.retryDue = true ∧ s.dev.pow.porstLow = false) ∧
    (∃ (s : State), s.dev.pow.porstLow = true) ∧
    (∃ (s : State), s.dev.pow.firstIdle = true ∧ (s.dev.pow.state = PState.idle ∨ s.dev.pow.state = PState.standby)) ∧
    (∃ (s : State), s.dev.pow.warmLow = true ∧ s.dev.pow.state = PState.standby ∧ s.dev.pow.phase = Phase.inReset) ∧
    (∃ (s : State), (s.dev.pow.phase = Phase.rom ∨ s.dev.pow.phase = Phase.awaitPush) ∧ s.dev.mbox.ready = false) :=
  ⟨⟨(st dG), by decide +kernel⟩,
   ⟨(st (dG fun p => { p with holdup := true, supplyLow := true })), by decide +kernel⟩,
   ⟨(st (dG fun p => { p with holdup := true, supplyLow := true, wakeWaiting := true, state := .standby })), by decide +kernel⟩,
   ⟨(st (dG fun p => { p with state := .standby })), by decide +kernel⟩,
   ⟨(st (dG fun p => { p with state := .hibernate })), by decide +kernel⟩,
   ⟨(st (dG (fun p => { p with state := .standby, phase := .bringUp }) )), by decide +kernel⟩,
   ⟨{ st (dG (fun p => { p with state := .standby, phase := .waking }) ) with clk := { raw := 77, running := true } }, by decide +kernel⟩,
   ⟨(st (dG (fun p => { p with state := .off, retryDue := true }) )), by decide +kernel⟩,
   ⟨(st (dG (fun p => { p with porstLow := true, state := .off }))), by decide +kernel⟩,
   ⟨(st dG), by decide +kernel⟩,
   ⟨(st (dG (fun p => { p with warmLow := true, state := .standby, phase := .inReset}))), by decide +kernel⟩,
   ⟨(st (dG (fun p => { p with state := .standby, phase := .rom}) fun m => { m with ready := false })), by decide +kernel⟩⟩

theorem test_meets_tap_instructions :
    (∃ (s : State), s.dev.tapFull = true ∧ s.dev.mbox.ready = true ∧ s.dev.sec.session = none) ∧
    (∃ (s : State), s.dev.tapFull = true ∧ s.dev.mbox.ready = true) ∧
    (∃ (s : State) (x : Session) (a : Nat) (o : Nat), s.dev.sec.session = some x ∧ s.dev.sec.granted = true ∧ s.dev.pow.state = PState.idle ∧ zoneOf a = Zone.common o ∧ 8196 ≤ o ∧ s.dev.mem.sound = true) ∧
    (∃ (s : State) (x : Session) (a : Nat) (o : Nat), s.dev.sec.session = some x ∧ s.dev.sec.granted = true ∧ s.dev.pow.state = PState.idle ∧ zoneOf a = Zone.common o ∧ 8196 ≤ o ∧ s.dev.mem.sound = true ∧ x.level = 2) ∧
    (∃ (s : State), s.dev.scanLive s.env = true) ∧
    (∃ (s : State), s.dev.tapFull = true) :=
  ⟨⟨(st dG), by decide +kernel⟩,
   ⟨(st dG), by decide +kernel⟩,
   ⟨(st (dS 2)), sx, (commonBase + 0x2000000), 0x2000000, by decide +kernel⟩,
   ⟨(st (dS 2)), sx, (commonBase + 0x2000000), 0x2000000, by decide +kernel⟩,
   ⟨(st { dS 2 with pow := { dev.pow with warmLow := true, state := .standby } }), by decide +kernel⟩,
   ⟨(st dG), by decide +kernel⟩⟩

theorem test_meets_idle_step_passes_time :
    (∃ (s : State), s.pending = [] ∧ s.clk.running = true) ∧
    (∃ (s : State), s.pending = [] ∧ s.clk.running = false ∧ s.dev.pow.state = PState.standby) ∧
    (∃ (s : State), s.pending = [] ∧ s.clk.running = false ∧ s.dev.pow.state ≠ PState.standby) :=
  ⟨⟨(st dG), by decide +kernel⟩,
   ⟨{ st (dG fun p => { p with state := .standby }) with clk := { raw := 2^64-1, running := false } }, by decide +kernel⟩,
   ⟨{ st dG with clk := { raw := 2^64-1, running := false } }, by decide +kernel⟩⟩

theorem test_meets_completions_enter_the_ring :
    (∃ (d : Dev) (q : Nat) (m : MQueue), d.queue q = some m ∧ m.error = false ∧ m.cqTail < m.cqEntries ∧ m.cqBase % 64 = 0 ∧ 8196 ≤ m.cqBase) ∧
    (∃ (d : Dev) (q : Nat), (d.queue q = none ∨ ∃ m, d.queue q = some m ∧ m.error = true)) :=
  ⟨⟨(dQ mq), 15, mq, by decide +kernel⟩,
   ⟨(dQ { mq with error := true }), 15, by decide +kernel⟩⟩

theorem test_meets_messages_are_collected :
    (∃ (s : State) (src : Nat) (m : BitVec 64) (c : BitVec 64), src < 1024 ∧ (List.find? (fun x => msgSource x == src) s.dev.col.waiting = some m) ∧ c = asCollected s.dev m ∧ (sourceRow src = none ∨ kindListed (msgKind m) = false)) ∧
    (∃ (s : State) (src : Nat) (m : BitVec 64) (c : BitVec 64) (p : Nat), src < 1024 ∧ (List.find? (fun x => msgSource x == src) s.dev.col.waiting = some m) ∧ c = asCollected s.dev m ∧ sourceFold src = some p ∧ (s.dev.physFold p).retired = true ∧ kindListed (msgKind m) = true) ∧
    (∃ (s : State) (src : Nat) (m : BitVec 64) (c : BitVec 64), src < 1024 ∧ (List.find? (fun x => msgSource x == src) s.dev.col.waiting = some m) ∧ c = asCollected s.dev m) :=
  ⟨⟨(st (dC [faultMsg 0x3FF 0x13 1 2])), 0x3FF, (faultMsg 0x3FF 0x13 1 2), (asCollected (dC [faultMsg 0x3FF 0x13 1 2]) (faultMsg 0x3FF 0x13 1 2)), by decide +kernel⟩,
   ⟨(st (dC [faultMsg 0x133 0xC 1 2] fun p => { p with state := .standby })), 0x133, (faultMsg 0x133 0xC 1 2), (asCollected (dC [faultMsg 0x133 0xC 1 2] fun p => { p with state := .standby }) (faultMsg 0x133 0xC 1 2)), 51, by decide +kernel⟩,
   ⟨(st (dC [faultMsg 0x133 0xC 1 2] fun p => { p with state := .standby })), 0x133, (faultMsg 0x133 0xC 1 2), (asCollected (dC [faultMsg 0x133 0xC 1 2] fun p => { p with state := .standby }) (faultMsg 0x133 0xC 1 2)), by decide +kernel⟩⟩

theorem test_meets_bad_lines_are_delivered_poisoned :
    (∃ (d : Dev) (line : Nat) (x : LineErr), d.mem.late.contains line = false ∧ d.mem.edc = [] ∧ d.lineFix line = none ∧ tget d.mem.err line = some x ∧ (x = LineErr.uncorrectable ∨ x = LineErr.checkMismatch) ∧ d.isPoisoned line = false ∧ d.isLost line = false) ∧
    (∃ (d : Dev) (line : Nat), d.mem.late.contains line = false ∧ d.mem.edc = [] ∧ d.lineFix line = none ∧ d.isLost line = true ∧ d.isPoisoned line = false) ∧
    (∃ (d : Dev) (line : Nat), d.mem.late.contains line = false ∧ d.mem.edc = [] ∧ d.lineFix line = none ∧ d.checkBad line = true ∧ tget d.mem.err line = none ∧ d.isPoisoned line = false ∧ d.isLost line = false) ∧
    (∃ (d : Dev) (line : Nat), d.mem.late.contains line = false ∧ d.mem.edc = [] ∧ d.lineFix line = none ∧ d.isPoisoned line = true) ∧
    (∃ (d : Dev) (line : Nat) (off : Nat) (k : Nat), d.mem.late.contains line = false ∧ zoneOf (64 * line) = Zone.gddr off ∧ tget d.mem.edc (gddrIface off) = some k ∧ 4 ≤ k) ∧
    (∃ (d : Dev) (line : Nat) (off : Nat) (k : Nat), d.mem.late.contains line = false ∧ zoneOf (64 * line) = Zone.gddr off ∧ tget d.mem.edc (gddrIface off) = some k ∧ 0 < k ∧ k < 4) ∧
    (∃ (d : Dev) (line : Nat) (s : State), d.mem.late.contains line = false ∧ s.dev.mem.poisonStore.contains line = true) ∧
    (∃ (d : Dev) (line : Nat) (holds : Bool) (b : Nat), d.mem.late.contains line = false ∧ d.mem.edc = [] ∧ d.lineFix line = some b ∧ holds = false) ∧
    (∃ (d : Dev) (line : Nat) (holds : Bool) (b : Nat), d.mem.late.contains line = false ∧ d.mem.edc = [] ∧ d.lineFix line = some b ∧ holds = false ∧ d.isPoisoned line = false ∧ d.lineFault line = none) ∧
    (∃ (d : Dev) (line : Nat) (holds : Bool) (b : Nat), d.mem.late.contains line = false ∧ d.mem.edc = [] ∧ d.lineFix line = some b ∧ holds = false ∧ d.isPoisoned line = true) :=
  ⟨⟨(dE .uncorrectable), L7, LineErr.uncorrectable, by decide +kernel⟩,
   ⟨({ dE .checkMismatch with mem := { lost := [(foldBase 0, 0x800000)] } }), L7, by decide +kernel⟩,
   ⟨({ dE .checkMismatch with mem := { check := [(L7, 5)] } }), L7, by decide +kernel⟩,
   ⟨(dE .checkMismatch), (foldBase 0 / 64 + 6), by decide +kernel⟩,
   ⟨(dX 4), (0x1000000000 / 64), 0, 4, by decide +kernel⟩,
   ⟨(dX 3), (0x1000000000 / 64), 0, 3, by decide +kernel⟩,
   ⟨(dE .checkMismatch), (foldBase 0 / 64 + 7), (st (dE .checkMismatch)), by decide +kernel⟩,
   ⟨(dSg true), (foldBase 0 / 64 + 7), false, 3, by decide +kernel⟩,
   ⟨(dSg false), (foldBase 0 / 64 + 7), false, 3, by decide +kernel⟩,
   ⟨(dSg true), (foldBase 0 / 64 + 7), false, 3, by decide +kernel⟩⟩

end W13

namespace W14

def T : Nat := 10000000000000
def th (t w : Nat) (regs : Tab Word := []) : Dev :=
  { dev with
    folds := [(t/64, { gated := false })]
    threads := [(t, { st := .ready, regs := regs })]
    mem := { bytes := cellsOf (foldBase (t/64)) (leBytes 8 w) } }
def wd (cls : Nat) (k a b c : Nat) : Nat := cls * 2^58 + k * 2^54 + a * 2^49 + b * 2^44 + c * 2^39
def t1 := 3071
def e1 : Word := 0x2004
def s4 (w : Nat) : State := st (th t1 w [(1,e1)])
def Q := 0x102
def dU (f : Flight) : Dev := { dev with flights := [f, .mark 4 true 5] }
def tw (kind : Nat) : State := st (th t1 (wd 10 kind 1 2 3) [(2,Q),(3,0)])
def ww (kind : Nat) := wd 10 kind 1 2 3
def camL : List (Nat × List Byte) := [(1, leBytes 4 0), (4, leBytes 4 64), (5, leBytes 4 4), (8, leBytes 4 4 ++ leBytes 4 8192 ++ leBytes 8 (commonBase + 0x4000000))]
def fr : OpenFrame := { smp := { counter := 8, capture := 77, domB := false, slot := some 0, st := camL }, startRaw := T - 5, number := 0, lines := [some (List.replicate 96 5)] }
def dG : Dev := { dev with race := { gates := [(47, { fn := .running, settings := camL, frame := some fr })] } }
def ls : List (Nat × Nat × Nat) := [(0,0x40,0xFF),(1,0x80,3),(2,0x7F,0x80),(3,0xFF,0xFF)]
def c2 (code w rnd : Nat) (sat n : Bool) (t : Rat) : Bool :=
  match ffmt code, decodeVal code w, decodeVal code (w+1) with
  | some f, .fin lo _, .fin hi _ =>
    if w + 1 ≤ maxFinite f then
      let y := lo + (hi - lo) * t
      encodeVal code rnd sat (.fin y n) ==
        (if rnd = 1 ∨ rnd = 3 then w else if rnd = 2 then w + 1 else if y - lo < hi - y then w else if hi - y < y - lo then w + 1
          else if rnd = 4 then w + 1 else if w % 2 = 0 then w else w + 1) &&
      encodeVal code rnd sat (.fin (-y) n) == signBit f true +
        (if rnd = 1 ∨ rnd = 2 then w else if rnd = 3 then w + 1 else if y - lo < hi - y then w else if hi - y < y - lo then w + 1
          else if rnd = 4 then w + 1 else if w % 2 = 0 then w else w + 1)
    else true
  | _, _, _ => true
def ts : List Rat := [1/100, 1/3, 1/2, 2/3, 99/100]
def c3 (code rnd : Nat) (sat n : Bool) (k : Int) (t : Rat) : Bool :=
  match ifmt code with
  | some (b, sgn) => if (intRange b sgn).1 ≤ k ∧ k + 1 ≤ (intRange b sgn).2 then
      let y : Rat := k + t
      encodeVal code rnd sat (.fin y n) == patternOf
        (if rnd = 2 then k + 1 else if rnd = 3 then k else if rnd = 1 then (if y < 0 then k + 1 else k)
          else if y - k < 1 / 2 then k else if 1 / 2 < y - k then k + 1
          else if rnd = 4 then (if y < 0 then k else k + 1) else if k % 2 = 0 then k else k + 1) b
    else true
  | none => true

theorem test_meets_control_space_is_out_of_reach :
    (∃ (s : State) (t : Nat) (w : Nat) (size : Nat) (rd : Nat) (ra : Nat) (off : Int) (a : Nat), t < 3088 ∧ rd < 32 ∧ a = s.dev.addrOf t ra off ∧ a % size = 0 ∧ s.dev.slotAt a size = none ∧ a < 268435456 ∧ (size = 1 ∨ size = 2 ∨ size = 4 ∨ size = 8) ∧ s.dev.issues t 4 w ∧ s.dev.posted = []) ∧
    (∃ (s : State) (t : Nat) (w : Nat) (size : Nat) (rd : Nat) (ra : Nat) (off : Int) (a : Nat), t < 3088 ∧ rd < 32 ∧ a = s.dev.addrOf t ra off ∧ a % size = 0 ∧ s.dev.slotAt a size = none ∧ a < 268435456 ∧ (size = 1 ∨ size = 2 ∨ size = 4 ∨ size = 8) ∧ s.dev.issues t 5 w) ∧
    (∃ (s : State) (t : Nat) (w : Nat) (size : Nat) (rd : Nat) (ra : Nat) (off : Int) (a : Nat), t < 3088 ∧ rd < 32 ∧ a = s.dev.addrOf t ra off ∧ a % size = 0 ∧ s.dev.slotAt a size = none ∧ a < 268435456 ∧ (size = 4 ∨ size = 8) ∧ off = 0 ∧ s.dev.issues t 6 w) :=
  ⟨⟨(s4 (wd 4 0 0 0 0)), t1, (wd 4 0 0 0 0), 8, 31, 1, 4, 0x2008, by unfold Dev.issues; decide +kernel⟩,
   ⟨(s4 (wd 5 0 0 0 0)), t1, (wd 5 0 0 0 0), 8, 0, 1, 4, 0x2008, by unfold Dev.issues; decide +kernel⟩,
   ⟨(s4 (wd 6 0 0 0 0)), t1, (wd 6 0 0 0 0), 4, 31, 1, 0, 0x2004, by unfold Dev.issues; decide +kernel⟩⟩

theorem test_meets_undeclared_objects_are_refused :
    (∃ (s : State) (id : Nat) (i : Nat) (who : Machine.Prod) (data : List Byte) (atEnd : Bool) (src : Nat), s.dev.clocked = true ∧ id < 65536 ∧ s.dev.flights[i]? = some (Flight.entry id who data atEnd src) ∧ (List.take i s.dev.flights).any (sameEntry id who) = false ∧ tget s.dev.queues id = none) ∧
    (∃ (s : State) (id : Nat) (i : Nat) (full : Bool) (src : Nat), s.dev.clocked = true ∧ id < 65536 ∧ s.dev.flights[i]? = some (Flight.mark id full src) ∧ tget s.dev.slots id = none) ∧
    (∃ (s : State) (id : Nat) (i : Nat) (w : Option Nat) (src : Nat), s.dev.clocked = true ∧ id < 65536 ∧ s.dev.flights[i]? = some (Flight.arrive id w src) ∧ tget s.dev.hurdles id = none) ∧
    (∃ (s : State) (id : Nat) (t : Nat) (w : Nat), s.dev.clocked = true ∧ id < 65536 ∧ t < 3088 ∧ s.dev.issues t 10 w ∧ waitFormOk w = true ∧ id = identOf (s.dev.reg t (fB w)) ∧ fKind w = 1 ∧ tget s.dev.queues id = none) ∧
    (∃ (s : State) (id : Nat) (t : Nat) (w : Nat), s.dev.clocked = true ∧ id < 65536 ∧ t < 3088 ∧ s.dev.issues t 10 w ∧ waitFormOk w = true ∧ id = identOf (s.dev.reg t (fB w)) ∧ fKind w = 2 ∧ tget s.dev.queues id = none) ∧
    (∃ (s : State) (id : Nat) (t : Nat) (w : Nat), s.dev.clocked = true ∧ id < 65536 ∧ t < 3088 ∧ s.dev.issues t 10 w ∧ waitFormOk w = true ∧ id = identOf (s.dev.reg t (fB w)) ∧ fKind w = 3 ∧ tget s.dev.slots id = none) ∧
    (∃ (s : State) (id : Nat) (t : Nat) (w : Nat), s.dev.clocked = true ∧ id < 65536 ∧ t < 3088 ∧ s.dev.issues t 10 w ∧ waitFormOk w = true ∧ id = identOf (s.dev.reg t (fB w)) ∧ fKind w = 4 ∧ tget s.dev.slots id = none) ∧
    (∃ (s : State) (id : Nat) (t : Nat) (w : Nat), s.dev.clocked = true ∧ id < 65536 ∧ t < 3088 ∧ s.dev.issues t 10 w ∧ waitFormOk w = true ∧ id = identOf (s.dev.reg t (fB w)) ∧ fKind w = 5 ∧ tget s.dev.hurdles id = none) ∧
    (∃ (s : State) (id : Nat) (t : Nat) (w : Nat), s.dev.clocked = true ∧ id < 65536 ∧ t < 3088 ∧ s.dev.issues t 10 w ∧ waitFormOk w = true ∧ id = identOf (s.dev.reg t (fB w)) ∧ fKind w = 7 ∧ tget s.dev.queues id = none) ∧
    (∃ (s : State) (id : Nat) (t : Nat) (w : Nat), s.dev.clocked = true ∧ id < 65536 ∧ t < 3088 ∧ s.dev.issues t 10 w ∧ waitFormOk w = true ∧ id = identOf (s.dev.reg t (fB w)) ∧ s.dev.ownerOf t = none) :=
  ⟨⟨(st (dU (.entry Q (.gate 4) [1] true 0x204))), Q, 0, (Prod.gate 4), [1], true, 0x204, by decide +kernel⟩,
   ⟨(st (dU (.mark Q true 0x204))), Q, 0, true, 0x204, by decide +kernel⟩,
   ⟨(st (dU (.arrive Q none 0x204))), Q, 0, (none : Option Nat), 0x204, by decide +kernel⟩,
   ⟨(tw 1), Q, t1, (ww 1), by unfold Dev.issues; decide +kernel⟩,
   ⟨(tw 2), Q, t1, (ww 2), by unfold Dev.issues; decide +kernel⟩,
   ⟨(tw 3), Q, t1, (ww 3), by unfold Dev.issues; decide +kernel⟩,
   ⟨(tw 4), Q, t1, (ww 4), by unfold Dev.issues; decide +kernel⟩,
   ⟨(tw 5), Q, t1, (ww 5), by unfold Dev.issues; decide +kernel⟩,
   ⟨(tw 7), Q, t1, (ww 7), by unfold Dev.issues; decide +kernel⟩,
   ⟨(tw 7), Q, t1, (ww 7), by unfold Dev.issues; decide +kernel⟩⟩

theorem test_meets_frame_number_zero_is_not_checked :
    (∃ (s : State) (p : Nat) (vc : Nat) (g : Nat) (f : OpenFrame), p < 12 ∧ vc < 32 ∧ s.dev.gateOf p vc = some g ∧ (s.dev.gate g).frame = some f ∧ f.number = 0) ∧
    (∃ (s : State) (p : Nat) (vc : Nat) (g : Nat) (ecc : HeaderEcc) (f : OpenFrame), p < 12 ∧ vc < 32 ∧ s.dev.gateOf p vc = some g ∧ (s.dev.gate g).frame = some f ∧ f.number = 0 ∧ s.dev.clocked = true ∧ ecc ≠ HeaderEcc.uncorrectable ∧ s.dev.takesCsi g = true ∧ s.clk.raw ≤ f.startRaw + Settings.frameTimeMax f.smp.st) :=
  ⟨⟨(st dG), 11, 3, 47, fr, by decide +kernel⟩,
   ⟨(st dG), 11, 3, 47, HeaderEcc.good, fr, by decide +kernel⟩⟩

end W14

end Sys2Proof.Tests
end

section
/-! SUPPORT. Control space and the threads (R33): what issuing an instruction changes, what the parts of a thread instruction
leave alone, and what a load, a store and an atomic at a control-space address do. -/

namespace Sys2Proof.Machine

open Sys2Proof

/-! ## What a thread instruction's parts leave of the threads and the collector -/

@[simp] theorem Dev.thread_raise (d : Dev) (src kind detail arg k : Nat) :
    (d.raise src kind detail arg).thread k = d.thread k := by
  simp [Dev.thread]

@[simp] theorem Dev.thread_spend (d : Dev) (k : Nat) : d.spend.thread k = d.thread k := rfl

@[simp] theorem Dev.issued_posted (d : Dev) (e : Env) (t : Nat) : (d.issued e t).posted = d.posted := rfl
@[simp] theorem Dev.thread_issued (d : Dev) (e : Env) (t k : Nat) : (d.issued e t).thread k = d.thread k := rfl
@[simp] theorem Dev.addrOf_issued (d : Dev) (e : Env) (t k ra : Nat) (off : Int) :
    (d.issued e t).addrOf k ra off = d.addrOf k ra off := rfl
@[simp] theorem Dev.slotAt_issued (d : Dev) (e : Env) (t a n : Nat) : (d.issued e t).slotAt a n = d.slotAt a n := rfl

theorem Dev.fold_issued_other (d : Dev) (e : Env) {t n : Nat} (hn : n ≠ foldOfThread t) : (d.issued e t).fold n = d.fold n := by
  simp [Dev.issued, Dev.fold_modFold, hn]

@[simp] theorem Thread.setReg_pc (th : Thread) (r : Nat) (v : Word) : (th.setReg r v).pc = th.pc := by
  unfold Thread.setReg
  split <;> rfl

theorem Dev.thread_advance (d : Dev) (t k : Nat) :
    (d.advance t).thread k = if k = t then { d.thread t with pc := (d.thread t).pc + 8 } else d.thread k :=
  Dev.thread_modThread ..

/-- A poisoned result sets the mark of R168 beside the register. -/
theorem Dev.thread_loadResult_poisoned (d : Dev) (t rd : Nat) (bs : List Byte) :
    (d.loadResult t rd bs true).thread t =
      { (d.thread t).setReg rd (BitVec.ofNat 64 (leNat bs)) with poisonMark := true } := by
  simp [Dev.loadResult, Dev.thread_modThread]

theorem asCollected_congr {d d' : Dev} (hphys : d.phys = d'.phys) (m : BitVec 64) : asCollected d m = asCollected d' m := by
  unfold asCollected Dev.physFold
  rw [hphys]

theorem Dev.react_col_congr {d d' : Dev} (hcol : d.col = d'.col) (c : BitVec 64) (sev : Nat) :
    (d.react c sev).col = (d'.react c sev).col := by
  simp only [Dev.react, Dev.pins_col, hcol]

theorem Dev.unsentFault_col_congr {d d' : Dev} (hcol : d.col = d'.col) (c : BitVec 64) :
    (d.unsentFault c).col = (d'.unsentFault c).col := by
  simp only [Dev.unsentFault, Dev.severityOf, hcol]
  exact Dev.react_col_congr rfl _ _

/-- What a raised fault leaves in the collector rests on the collector and on which physical folds are retired. -/
theorem Dev.raise_col_congr {d d' : Dev} (hphys : d.phys = d'.phys) (hcol : d.col = d'.col) (src kind detail arg : Nat) :
    (d.raise src kind detail arg).col = (d'.raise src kind detail arg).col := by
  simp only [Dev.raise, asCollected_congr hphys, hcol]
  split
  · exact Dev.unsentFault_col_congr hcol _
  · rfl

/-! ## Frames of a thread instruction, one for each of its parts -/

theorem Part.same_trans {p : Part} {a b c : Dev} (hab : p.same a b) (hbc : p.same b c) : p.same a c := by
  cases p <;> exact Eq.trans hab hbc

/-- What changes listed parts only, after what changes listed parts only, does so too. -/
theorem threadActs.extend {s : State} {d d' : Dev} {t : Nat} {l : List Part} (h : threadActs s (s.put d) t l)
    (hsame : ∀ p, p ∉ [.threads, .folds] ++ l → p.same d d') (hthread : ∀ k, k ≠ t → d'.thread k = d.thread k)
    (hfold : ∀ n, n ≠ foldOfThread t → d'.fold n = d.fold n) : threadActs s (s.put d') t l := by
  obtain ⟨⟨-, -, -, hparts⟩, hthreads, hfolds⟩ := h
  refine ⟨⟨rfl, rfl, rfl, fun p hp => Part.same_trans (hparts p hp) (hsame p hp)⟩,
    fun k hk => (hthread k hk).trans (hthreads k hk), fun n hn => (hfold n hn).trans (hfolds n hn)⟩

/-- The issue of a thread moves its fold's issue pointers. -/
theorem threadActs_issued (s : State) (t : Nat) (l : List Part) : threadActs s (s.put (s.dev.issued s.env t)) t l := by
  refine ⟨⟨rfl, rfl, rfl, fun p hp => ?_⟩, fun _ _ => rfl, fun _ hn => Dev.fold_issued_other _ _ hn⟩
  cases p with
  | folds => simp at hp
  | _ => rfl

theorem threadActs.modThread {s : State} {d : Dev} {t : Nat} {l : List Part} (h : threadActs s (s.put d) t l)
    (f : Thread → Thread) : threadActs s (s.put (d.modThread t f)) t l := by
  refine h.extend (fun p hp => ?_) (fun k hk => ?_) fun _ _ => rfl
  · cases p with
    | threads => simp at hp
    | _ => rfl
  · simp [Dev.thread_modThread, hk]

theorem threadActs.spend {s : State} {d : Dev} {t : Nat} {l : List Part} (h : threadActs s (s.put d) t l)
    (hl : .free ∈ l) : threadActs s (s.put d.spend) t l := by
  refine h.extend (fun p hp => ?_) (fun _ _ => rfl) fun _ _ => rfl
  cases p with
  | free => simp [hl] at hp
  | _ => rfl

theorem threadActs.raise {s : State} {d : Dev} {t : Nat} {l : List Part} (h : threadActs s (s.put d) t l)
    (hl : faultParts ⊆ l) (src kind detail arg : Nat) : threadActs s (s.put (d.raise src kind detail arg)) t l := by
  refine h.extend (fun p hp => ?_) (fun _ _ => by simp) fun _ _ => by simp [Dev.fold]
  rw [Dev.raise_frame]
  cases p with
  | col => simp [hl (show Part.col ∈ faultParts by decide)] at hp
  | safe => simp [hl (show Part.safe ∈ faultParts by decide)] at hp
  | _ => rfl

theorem threadActs.loadResult {s : State} {d : Dev} {t : Nat} {l : List Part} (h : threadActs s (s.put d) t l)
    (rd : Nat) (bs : List Byte) (poison : Bool) : threadActs s (s.put (d.loadResult t rd bs poison)) t l := by
  unfold Dev.loadResult
  cases poison with
  | true => exact (h.modThread _).modThread _
  | false => exact h.modThread _

theorem threadActs.advance {s : State} {d : Dev} {t : Nat} {l : List Part} (h : threadActs s (s.put d) t l) :
    threadActs s (s.put (d.advance t)) t l :=
  h.modThread _

/-! ## Where an address of control space leads (R33, R41) -/

theorem zoneOf_control {a : Nat} (ha : a < 0x10000000) : zoneOf a = .control := by
  simp [zoneOf, ha]

theorem Dev.reachOf_control {a : Nat} (ha : a < 0x10000000) (d : Dev) (n : Nat) : d.reachOf n a = .control := by
  simp [Dev.reachOf, Dev.reach, isOwn, zoneOf_control ha]

/-- No slot's guard holds back an access of control space that no slot covers. -/
theorem Dev.guardOf_control {d : Dev} {a size : Nat} (ha : a < 0x10000000) (hslot : d.slotAt a size = none) (write : Bool) :
    d.guardOf a size write = none := by
  have hin : d.slotsIn a size = [] := by
    rw [Dev.slotsIn, List.filter_eq_nil_iff]
    exact List.find?_eq_none.mp hslot
  simp [Dev.guardOf, Dev.servedAt, zoneOf_control ha, hin]

/-- No EDC mismatch is met outside GDDR6. -/
theorem Dev.meetEdc_control {a : Nat} (ha : a < 0x10000000) (d : Dev) (k : Nat) : d.meetEdc a k = d := by
  simp [Dev.meetEdc, zoneOf_control ha]

/-! ## A thread's read and write of control space (R33) -/

/-- A read of control space: the ADDRESS fault at the fold's second-level source, free bytes delivered poisoned, and the thread
goes on. -/
def Dev.refusedRead (d : Dev) (t size rd a : Nat) : Dev :=
  ((d.spend.raise (d.threadSrc t) 5 1 a).loadResult t rd (d.freeBytes size).1 true).advance t

/-- A write to control space: the same fault, the data dropped, and the thread goes on. -/
def Dev.refusedWrite (d : Dev) (t a : Nat) : Dev := (d.raise (d.threadSrc t) 5 1 a).advance t

theorem Dev.readFrom_control {a : Nat} (ha : a < 0x10000000) (d : Dev) (e : Env) (src acc n : Nat) :
    d.readFrom e src acc a n = ((d.freeBytes n).1, true, d.spend.raise src 5 1 a) := by
  simp [Dev.readFrom, Dev.reachOf_control ha, Dev.missed, Dev.freeBytes]

section

variable {d : Dev} {a size : Nat} (ha : a < 0x10000000) (halign : a % size = 0) (hslot : d.slotAt a size = none)
include ha halign hslot

theorem Dev.load_control (e : Env) (t rd : Nat) : d.load e t size rd a = d.refusedRead t size rd a := by
  simp [Dev.load, halign, Dev.guardOf_control ha hslot, Dev.reachOf_control ha, Dev.readFrom_control ha, Dev.refusedRead]

theorem Dev.store_control (e : Env) (t : Nat) (v : Word) : d.store e t size a v = d.refusedWrite t a := by
  simp [Dev.store, halign, Dev.guardOf_control ha hslot, Dev.reachOf_control ha, Dev.missed, Dev.refusedWrite]

theorem Dev.atomic_control (e : Env) (t rd : Nat) (op : AtomicOp) (v swap : Word) :
    d.atomic e t op size rd a v swap = d.refusedRead t size rd a := by
  simp [Dev.atomic, halign, Dev.guardOf_control ha hslot, Dev.reachOf_control ha, Dev.readFrom_control ha, Dev.refusedRead]

end

/-- What a thread that has been issued finds after its read of control space. -/
theorem refusedRead_spec {s u : State} {t size rd a : Nat}
    (hu : u = s.put ((s.dev.issued s.env t).refusedRead t size rd a)) :
    threadActs s u t (.free :: faultParts) ∧
      (u.dev.thread t).poisonMark = true ∧ (u.dev.thread t).pc = (s.dev.thread t).pc + 8 ∧
      u.dev.col = (s.dev.raise (s.dev.threadSrc t) 5 1 a).col := by
  subst hu
  refine ⟨?_, ?_, ?_, ?_⟩
  · exact ((((threadActs_issued s t _).spend (by decide)).raise (by decide) _ _ _ _).loadResult _ _ _).advance
  · simp [Dev.refusedRead, Dev.thread_advance, Dev.thread_loadResult_poisoned]
  · simp [Dev.refusedRead, Dev.thread_advance, Dev.thread_loadResult_poisoned]
  · exact Dev.raise_col_congr (d := (s.dev.issued s.env t).spend) (d' := s.dev) rfl rfl _ _ _ _

/-- What a thread that has been issued finds after its write to control space. -/
theorem refusedWrite_spec {s u : State} {t a : Nat}
    (hu : u = s.put ((s.dev.issued s.env t).refusedWrite t a)) :
    threadActs s u t faultParts ∧
      (u.dev.thread t).regs = (s.dev.thread t).regs ∧ (u.dev.thread t).pc = (s.dev.thread t).pc + 8 ∧
      u.dev.col = (s.dev.raise (s.dev.threadSrc t) 5 1 a).col := by
  subst hu
  refine ⟨?_, ?_, ?_, ?_⟩
  · exact ((threadActs_issued s t _).raise (by decide) _ _ _ _).advance
  · simp [Dev.refusedWrite, Dev.thread_advance]
  · simp [Dev.refusedWrite, Dev.thread_advance]
  · exact Dev.raise_col_congr (d := s.dev.issued s.env t) (d' := s.dev) rfl rfl _ _ _ _

/-! ## The rows -/

/-- A thread row whose one unit is its thread names nothing missing. -/
theorem missingUnit_thread {i : Instr} {t : Nat} (hi : i.units = [(t, 3088)]) (ht : t < 3088) : missingUnit i = none := by
  simp [missingUnit, hi, ht]

/-- A thread row whose thread issues a word of the row's class runs its effect after the issue. -/
theorem Dev.instr_issues {d : Dev} {t cls w : Nat} (h : d.issues t cls w) (e : Env) (f : Nat → Dev → Dev) :
    d.instr e t cls f = f w (d.issued e t) := by
  obtain ⟨hmay, hfetch, hclass⟩ := h
  simp [Dev.instr, hmay, hfetch, hclass]

theorem run_instr {i : Instr} {s : State} {t cls w : Nat} (hi : i.units = [(t, 3088)]) (ht : t < 3088)
    (h : s.dev.issues t cls w) (f : Env → Nat → Dev → Dev) :
    run i (fun e d => d.instr e t cls (f e)) s = .next (s.put (f s.env w (s.dev.issued s.env t))) := by
  rw [run_next (missingUnit_thread hi ht), Dev.instr_issues h]
  rfl

/-- Where no store is posted, no own store is refused at its slot. -/
theorem Dev.unlessParked_of_posted_nil {d : Dev} (h : d.posted = []) (e : Env) (f : Posted → Bool) (go : Dev) :
    d.unlessParked e f go = go := by
  simp [Dev.unlessParked, h]

section

variable {s : State} {t size w a : Nat} (ht : t < 3088) (halign : a % size = 0) (hslot : s.dev.slotAt a size = none)
  (ha : a < 0x10000000)
include ht halign hslot ha

theorem exec_threadLoad_control {ra : Nat} {off : Int} (haddr : s.dev.addrOf t ra off = a)
    (hsize : size = 1 ∨ size = 2 ∨ size = 4 ∨ size = 8) (hissue : s.dev.issues t 0x04 w) (hposted : s.dev.posted = [])
    (rd edc : Nat) :
    exec (.threadLoad t size rd ra ⟨off, edc⟩) s = .next (s.put ((s.dev.issued s.env t).refusedRead t size rd a)) := by
  have hmem : accessSizes.contains size = true := by simpa [accessSizes] using hsize
  rw [exec_threadLoad, execThreadLoad, run_instr rfl ht hissue, if_pos hmem,
    Dev.unlessParked_of_posted_nil ((Dev.issued_posted ..).trans hposted), Dev.addrOf_issued, haddr,
    Dev.meetEdc_control ha, Dev.load_control ha halign ((Dev.slotAt_issued ..).trans hslot)]

theorem exec_threadStore_control {ra : Nat} {off : Int} (haddr : s.dev.addrOf t ra off = a)
    (hsize : size = 1 ∨ size = 2 ∨ size = 4 ∨ size = 8) (hissue : s.dev.issues t 0x05 w) (rs : Nat) :
    exec (.threadStore t size ra off rs) s = .next (s.put ((s.dev.issued s.env t).refusedWrite t a)) := by
  have hmem : accessSizes.contains size = true := by simpa [accessSizes] using hsize
  rw [exec_threadStore, execThreadStore, run_instr rfl ht hissue, if_pos hmem, Dev.addrOf_issued, haddr,
    Dev.store_control ha halign ((Dev.slotAt_issued ..).trans hslot)]

theorem exec_threadAtomic_control {ra : Nat} (haddr : s.dev.addrOf t ra 0 = a) (hsize : size = 4 ∨ size = 8)
    (hissue : s.dev.issues t 0x06 w) (op : AtomicOp) (rd rb rc : Nat) :
    exec (.threadAtomic t op size rd ra rb rc) s =
      .next (s.put ((s.dev.issued s.env t).refusedRead t size rd a)) := by
  rw [exec_threadAtomic, execThreadAtomic, run_instr rfl ht hissue, if_pos hsize, Dev.addrOf_issued, haddr,
    Dev.atomic_control ha halign ((Dev.slotAt_issued ..).trans hslot)]

end

/-- Settles O55: each of the three accesses is the refused read or the refused write of the thread that has been issued. -/
theorem controlSpaceIsOutOfReach : Obligations.control_space_is_out_of_reach := by
  unfold Obligations.control_space_is_out_of_reach
  intro s t w size rd ra off a ht _ haddr halign hslot ha
  refine ⟨fun edc hsize hissue hposted => ?_, fun rs hsize hissue => ?_, fun op rb rc hsize hoff hissue => ?_⟩
  · exact ⟨_, exec_threadLoad_control ht halign hslot ha haddr.symm hsize hissue hposted rd edc, refusedRead_spec rfl⟩
  · exact ⟨_, exec_threadStore_control ht halign hslot ha haddr.symm hsize hissue rs, refusedWrite_spec rfl⟩
  · subst hoff
    exact ⟨_, exec_threadAtomic_control ht halign hslot ha haddr.symm hsize hissue op rd rb rc, refusedRead_spec rfl⟩

end Sys2Proof.Machine
end

section
/-! SUPPORT. Frame End (R55, R56): what a clocked row does while the clocks run and while they stand, what counting a header
leaves of a gate, and a Frame End at a mapped gate with an open frame, one lemma for each way it is received. -/

namespace Sys2Proof.Machine

open Sys2Proof

/-! ## Rows that act only while the clocks run (R37, R38) -/

theorem runClocked_running {i : Instr} {f : Env → Dev → Dev} {s : State} (hunit : missingUnit i = none)
    (hclk : s.dev.clocked = true) : runClocked i f s = .next (s.put (f s.env s.dev)) := by
  rw [runClocked, run_next hunit, if_pos hclk]
  rfl

theorem runClocked_stopped {i : Instr} {f : Env → Dev → Dev} {s : State} (hunit : missingUnit i = none)
    (hclk : ¬ s.dev.clocked = true) : runClocked i f s = .next s := by
  rw [runClocked, run_next hunit, if_neg hclk]

/-! ## Counting a header moves the port's counter alone (R55) -/

@[simp] theorem Dev.gate_countHeader (d : Dev) (p : Nat) (ecc : HeaderEcc) (g : Nat) :
    (d.countHeader p ecc).gate g = d.gate g := by
  cases ecc <;> rfl

@[simp] theorem Dev.gateOf_countHeader (d : Dev) (p : Nat) (ecc : HeaderEcc) (port vc : Nat) :
    (d.countHeader p ecc).gateOf port vc = d.gateOf port vc := by
  cases ecc <;> rfl

@[simp] theorem Dev.takesCsi_countHeader (d : Dev) (p : Nat) (ecc : HeaderEcc) (g : Nat) :
    (d.countHeader p ecc).takesCsi g = d.takesCsi g := by
  simp [Dev.takesCsi]

/-! ## A Frame End at a gate with an open frame (R55, R56) -/

/-- The port and the channel of a Frame End exist. -/
theorem missingUnit_csiFrameEnd {p vc : Nat} (hp : p < 12) (hvc : vc < 32) (ecc : HeaderEcc) (num : Nat) :
    missingUnit (.csiFrameEnd p vc ecc num) = none := by
  simp [missingUnit, Instr.units, hp, hvc]

section

variable {s : State} {p vc : Nat} (hp : p < 12) (hvc : vc < 32)
include hp hvc

theorem exec_csiFrameEnd_stopped (hclk : ¬ s.dev.clocked = true) (ecc : HeaderEcc) (num : Nat) :
    exec (.csiFrameEnd p vc ecc num) s = .next s := by
  rw [exec_csiFrameEnd, execCsiFrameEnd, runClocked_stopped (missingUnit_csiFrameEnd hp hvc ecc num) hclk]

variable (hclk : s.dev.clocked = true)
include hclk

theorem exec_csiFrameEnd_badHeader (num : Nat) :
    exec (.csiFrameEnd p vc .uncorrectable num) s = .next (s.put (s.dev.badHeader p)) := by
  rw [exec_csiFrameEnd, execCsiFrameEnd, runClocked_running (missingUnit_csiFrameEnd hp hvc _ num) hclk, if_pos rfl]

variable {ecc : HeaderEcc} {g : Nat} (hecc : ecc ≠ .uncorrectable) (hgate : s.dev.gateOf p vc = some g)
include hecc hgate

theorem exec_csiFrameEnd_notTaken (htakes : ¬ s.dev.takesCsi g = true) (num : Nat) :
    exec (.csiFrameEnd p vc ecc num) s =
      .next (s.put ((s.dev.countHeader p ecc).discardPacket s.env p (some g))) := by
  rw [exec_csiFrameEnd, execCsiFrameEnd, runClocked_running (missingUnit_csiFrameEnd hp hvc ecc num) hclk]
  simp [hecc, hgate, htakes]

variable {f : OpenFrame} (htakes : s.dev.takesCsi g = true) (hframe : (s.dev.gate g).frame = some f)
include htakes hframe

/-- Past frame_time_max the frame closes with the timeout's fault, whatever its numbers. -/
theorem exec_csiFrameEnd_late (hlate : f.startRaw + Settings.frameTimeMax f.smp.st < s.clk.raw) (num : Nat) :
    exec (.csiFrameEnd p vc ecc num) s = .next (s.put ((s.dev.countHeader p ecc).timeOut s.env g 4)) := by
  rw [exec_csiFrameEnd, execCsiFrameEnd, runClocked_running (missingUnit_csiFrameEnd hp hvc ecc num) hclk]
  simp [hecc, hgate, htakes, hframe, State.env, hlate]

/-- In time, the frame closes with the outcome of the frame-number check. -/
theorem exec_csiFrameEnd_closes (htime : s.clk.raw ≤ f.startRaw + Settings.frameTimeMax f.smp.st) (num : Nat) :
    exec (.csiFrameEnd p vc ecc num) s =
      .next (s.put ((s.dev.countHeader p ecc).closeCamera s.env g (f.number ≠ 0 && num ≠ f.number))) := by
  rw [exec_csiFrameEnd, execCsiFrameEnd, runClocked_running (missingUnit_csiFrameEnd hp hvc ecc num) hclk]
  simp [hecc, hgate, htakes, hframe, State.env, Nat.not_lt.mpr htime]

/-- A frame that its Frame Start does not number closes with no frame-number check (R56). -/
theorem exec_csiFrameEnd_unnumbered (hnumber : f.number = 0)
    (htime : s.clk.raw ≤ f.startRaw + Settings.frameTimeMax f.smp.st) (num : Nat) :
    exec (.csiFrameEnd p vc ecc num) s = .next (s.put ((s.dev.countHeader p ecc).closeCamera s.env g false)) := by
  rw [exec_csiFrameEnd_closes hp hvc hclk hecc hgate htakes hframe htime num]
  simp [hnumber]

end

/-- Only the close of a frame in time meets the numbers, and there an unnumbered frame skips the check (R56). -/
theorem exec_csiFrameEnd_unnumbered_congr {s : State} {p vc g : Nat} {f : OpenFrame} (hp : p < 12) (hvc : vc < 32)
    (hgate : s.dev.gateOf p vc = some g) (hframe : (s.dev.gate g).frame = some f) (hnumber : f.number = 0)
    (ecc : HeaderEcc) (num num' : Nat) :
    exec (.csiFrameEnd p vc ecc num) s = exec (.csiFrameEnd p vc ecc num') s := by
  by_cases hclk : s.dev.clocked = true
  case neg => rw [exec_csiFrameEnd_stopped hp hvc hclk, exec_csiFrameEnd_stopped hp hvc hclk]
  by_cases hecc : ecc = .uncorrectable
  case pos =>
    subst hecc
    rw [exec_csiFrameEnd_badHeader hp hvc hclk, exec_csiFrameEnd_badHeader hp hvc hclk]
  by_cases htakes : s.dev.takesCsi g = true
  case neg =>
    rw [exec_csiFrameEnd_notTaken hp hvc hclk hecc hgate htakes, exec_csiFrameEnd_notTaken hp hvc hclk hecc hgate htakes]
  rcases Nat.lt_or_ge (f.startRaw + Settings.frameTimeMax f.smp.st) s.clk.raw with hlate | htime
  · have hend := exec_csiFrameEnd_late hp hvc hclk hecc hgate htakes hframe hlate
    exact (hend num).trans (hend num').symm
  · have hend := exec_csiFrameEnd_unnumbered hp hvc hclk hecc hgate htakes hframe hnumber htime
    exact (hend num).trans (hend num').symm

/-- Settles O56: of the ways a Frame End is received, the close in time alone compares the numbers, and it skips the comparison
for a frame numbered 0. -/
theorem frameNumberZeroIsNotChecked : Obligations.frame_number_zero_is_not_checked := by
  unfold Obligations.frame_number_zero_is_not_checked
  intro s p vc g num num' ecc f hp hvc hgate hframe hnumber
  refine ⟨exec_csiFrameEnd_unnumbered_congr hp hvc hgate hframe hnumber ecc num num', fun hclk hecc htakes htime => ?_⟩
  exact exec_csiFrameEnd_unnumbered hp hvc hclk hecc hgate htakes hframe hnumber htime num

end Sys2Proof.Machine
end

section
/-! SUPPORT. The single rounding (R221, R222, R235, R236, R238): the binary logarithm, the choice between two neighbours, the
finite encodings of a float format in binades and quanta, and the whole numbers of an integer format. -/

namespace Sys2Proof.Machine

open Sys2Proof

/-! ## Powers of two and the binary logarithm -/

theorem pow2_eq_zpow (e : Int) : pow2 e = (2 : Rat) ^ e := by
  unfold pow2
  split
  case isTrue he =>
    lift e to Nat using he
    simp
  case isFalse he =>
    obtain ⟨k, rfl⟩ : ∃ k : Nat, e = -k := ⟨(-e).toNat, by omega⟩
    simp

/-- The numerator and the denominator place a positive value within one power of two of the quotient of theirs. -/
theorem ilog2_eq_log {q : Rat} (hq : 0 < q) : ilog2 q = Int.log 2 q := by
  have hnum : q.num.natAbs ≠ 0 := by simpa using hq.ne'
  have hval : (q.num.natAbs : Rat) / q.den = q := by
    rw [Nat.cast_natAbs, abs_of_pos (Rat.num_pos.mpr hq), Rat.num_div_den]
  have hden : (0 : Rat) < q.den := by exact_mod_cast q.pos
  have hnlo : (2 : Rat) ^ Nat.log2 q.num.natAbs ≤ q.num.natAbs := by exact_mod_cast Nat.log2_self_le hnum
  have hnhi : (q.num.natAbs : Rat) < 2 ^ (Nat.log2 q.num.natAbs + 1) := by exact_mod_cast Nat.lt_log2_self
  have hdlo : (2 : Rat) ^ Nat.log2 q.den ≤ q.den := by exact_mod_cast Nat.log2_self_le q.den_nz
  have hdhi : (q.den : Rat) < 2 ^ (Nat.log2 q.den + 1) := by exact_mod_cast Nat.lt_log2_self
  unfold ilog2
  generalize Nat.log2 q.num.natAbs = i at *
  generalize Nat.log2 q.den = j at *
  have hlo : (2 : Rat) ^ ((i : Int) - j - 1) ≤ q := by
    calc (2 : Rat) ^ ((i : Int) - j - 1) = 2 ^ i / 2 ^ (j + 1) := by
          rw [sub_sub, zpow_sub₀ two_ne_zero]; norm_cast
      _ ≤ q.num.natAbs / q.den := by gcongr
      _ = q := hval
  have hhi : q < (2 : Rat) ^ ((i : Int) - j + 1) := by
    calc q = q.num.natAbs / q.den := hval.symm
      _ < 2 ^ (i + 1) / 2 ^ j := by gcongr
      _ = (2 : Rat) ^ ((i : Int) - j + 1) := by
          rw [sub_add_eq_add_sub, zpow_sub₀ two_ne_zero]; norm_cast
  have hle : ∀ e : Int, pow2 e ≤ q ↔ e ≤ Int.log 2 q := fun e => by
    rw [pow2_eq_zpow, ← Int.zpow_le_iff_le_log one_lt_two hq, Nat.cast_ofNat]
  have hlog : (i : Int) - j - 1 ≤ Int.log 2 q := (hle _).mp (by rwa [pow2_eq_zpow])
  have hlog' : Int.log 2 q < (i : Int) - j + 1 := (Int.lt_zpow_iff_log_lt one_lt_two hq).mp (by exact_mod_cast hhi)
  simp only [hle]
  split_ifs <;> omega

/-! ## The choice between two neighbours (R235) -/

/-- R235: of the neighbours `w` and `w + 1` in magnitude of a value at the distances `dlo` and `dhi` from them, the one that
a mode chooses for a value of the given sign. -/
def neighbourOf (rnd : Nat) (neg : Bool) (dlo dhi : Rat) (w : Nat) : Nat :=
  if rnd = 1 ∨ rnd = (if neg then 2 else 3) then w
  else if rnd = (if neg then 3 else 2) then w + 1
  else if dlo < dhi then w
  else if dhi < dlo then w + 1
  else if rnd = 4 then w + 1
  else if w % 2 = 0 then w else w + 1

theorem neighbourOf_le (rnd : Nat) (neg : Bool) (dlo dhi : Rat) (w : Nat) : neighbourOf rnd neg dlo dhi w ≤ w + 1 := by
  unfold neighbourOf
  split_ifs <;> omega

theorem neighbourOf_add_even {j : Nat} (hj : Even j) (rnd : Nat) (neg : Bool) (dlo dhi : Rat) (w : Nat) :
    neighbourOf rnd neg dlo dhi (j + w) = j + neighbourOf rnd neg dlo dhi w := by
  have hparity : (j + w) % 2 = w % 2 := by
    have := Nat.even_iff.mp hj
    omega
  simp only [neighbourOf, hparity]
  split_ifs <;> rfl

theorem neighbourOf_div {u : Rat} (hu : 0 < u) (rnd : Nat) (neg : Bool) (dlo dhi : Rat) (w : Nat) :
    neighbourOf rnd neg (dlo / u) (dhi / u) w = neighbourOf rnd neg dlo dhi w := by
  simp only [neighbourOf, div_lt_div_iff_of_pos_right hu]

theorem ratFloor_eq {q : Rat} {m : Nat} (hlo : (m : Rat) ≤ q) (hhi : q < m + 1) : q.floor = m :=
  (Int.floor_eq_iff (R := Rat)).mpr ⟨by exact_mod_cast hlo, by exact_mod_cast hhi⟩

theorem roundMag_natCast (rnd : Nat) (neg : Bool) (m : Nat) : roundMag rnd neg (m : Rat) = m := by
  simp [roundMag, ratFloor_eq (le_refl (m : Rat)) (by linarith)]

theorem roundMag_between {m : Nat} {q : Rat} (hlo : (m : Rat) < q) (hhi : q < m + 1) (rnd : Nat) (neg : Bool) :
    roundMag rnd neg q = neighbourOf rnd neg (q - m) (m + 1 - q) m := by
  have hfrac : q - m ≠ 0 := by linarith
  have hnear : q - m < 1 / 2 ↔ q - m < m + 1 - q := by constructor <;> intro h <;> linarith
  have hfar : 1 / 2 < q - m ↔ m + 1 - q < q - m := by constructor <;> intro h <;> linarith
  simp only [roundMag, ratFloor_eq hlo.le hhi, Int.toNat_natCast, Int.cast_natCast, hfrac, hnear, hfar, neighbourOf,
    if_false]
  cases neg <;> simp only [if_true, Bool.false_eq_true, if_false] <;> split_ifs <;> omega

/-! ## The finite encodings of a float format (R222, R223) -/

theorem ffmt_cases {code : Nat} {f : FFmt} (hf : ffmt code = some f) :
    (code = 0x10 ∧ f = { eb := 4, bias := 7, mb := 3, noInf := true }) ∨ (code = 0x11 ∧ f = { eb := 5, bias := 15, mb := 2 }) ∨
    (code = 0x12 ∧ f = { eb := 5, bias := 15, mb := 10 }) ∨ (code = 0x13 ∧ f = { eb := 8, bias := 127, mb := 7 }) ∨
    (code = 0x14 ∧ f = { eb := 8, bias := 127, mb := 23 }) := by
  unfold ffmt at hf
  split_ifs at hf <;> simp_all

theorem two_pow_mb_even {code : Nat} {f : FFmt} (hf : ffmt code = some f) : Even (2 ^ f.mb) := by
  rcases ffmt_cases hf with ⟨-, rfl⟩ | ⟨-, rfl⟩ | ⟨-, rfl⟩ | ⟨-, rfl⟩ | ⟨-, rfl⟩ <;> decide

theorem fmtBits_of_ffmt {code : Nat} {f : FFmt} (hf : ffmt code = some f) : 8 * fmtBytes code = f.eb + f.mb + 1 := by
  rcases ffmt_cases hf with ⟨rfl, rfl⟩ | ⟨rfl, rfl⟩ | ⟨rfl, rfl⟩ | ⟨rfl, rfl⟩ | ⟨rfl, rfl⟩ <;> rfl

/-- How many binades above the lowest an encoding lies; the subnormals share the lowest. -/
def binadeOf (f : FFmt) (w : Nat) : Nat := w / 2 ^ f.mb - 1

/-- The significand of a magnitude's encoding, the hidden bit with it. -/
def significandOf (f : FFmt) (w : Nat) : Nat := w - binadeOf f w * 2 ^ f.mb

/-- The weight of the last bit of a magnitude's encoding. -/
def quantumOf (f : FFmt) (w : Nat) : Rat := 2 ^ ((binadeOf f w : Int) + (1 - f.bias) - f.mb)

/-- The magnitude that an encoding without its sign bit stands for. -/
def magnitudeOf (f : FFmt) (w : Nat) : Rat := significandOf f w * quantumOf f w

theorem quantumOf_pos (f : FFmt) (w : Nat) : 0 < quantumOf f w := zpow_pos two_pos _

theorem magnitudeOf_nonneg (f : FFmt) (w : Nat) : 0 ≤ magnitudeOf f w :=
  mul_nonneg (Nat.cast_nonneg _) (quantumOf_pos f w).le

theorem binadeOf_add_significandOf (f : FFmt) (w : Nat) : binadeOf f w * 2 ^ f.mb + significandOf f w = w := by
  have hle : binadeOf f w * 2 ^ f.mb ≤ w :=
    (Nat.mul_le_mul_right _ (Nat.sub_le _ 1)).trans (Nat.div_mul_le_self w _)
  unfold significandOf
  omega

theorem significandOf_subnormal {f : FFmt} {w : Nat} (hx : w / 2 ^ f.mb = 0) : significandOf f w = w % 2 ^ f.mb := by
  have hw := Nat.div_add_mod' w (2 ^ f.mb)
  simp only [hx, Nat.zero_mul] at hw
  simp only [significandOf, binadeOf, hx, Nat.zero_sub, Nat.zero_mul]
  omega

theorem significandOf_normal {f : FFmt} {w : Nat} (hx : w / 2 ^ f.mb ≠ 0) :
    significandOf f w = w % 2 ^ f.mb + 2 ^ f.mb := by
  obtain ⟨x, hx'⟩ := Nat.exists_eq_succ_of_ne_zero hx
  have hw := Nat.div_add_mod' w (2 ^ f.mb)
  simp only [hx', Nat.succ_mul] at hw
  simp only [significandOf, binadeOf, hx', Nat.succ_sub_one]
  omega

theorem significandOf_lt (f : FFmt) (w : Nat) : significandOf f w + 1 ≤ 2 * 2 ^ f.mb := by
  have hm := Nat.mod_lt w (Nat.two_pow_pos f.mb)
  by_cases hx : w / 2 ^ f.mb = 0
  · rw [significandOf_subnormal hx]; omega
  · rw [significandOf_normal hx]; omega

theorem two_pow_mul_quantumOf (f : FFmt) (w : Nat) :
    (2 : Rat) ^ f.mb * quantumOf f w = 2 ^ ((binadeOf f w : Int) + (1 - f.bias)) := by
  rw [quantumOf, ← zpow_natCast, ← zpow_add₀ two_ne_zero, add_sub_cancel]

/-- The next encoding lies in the same binade, except above the largest significand. -/
theorem binadeOf_succ (f : FFmt) (w : Nat) : binadeOf f (w + 1) = binadeOf f w ∨
    (binadeOf f (w + 1) = binadeOf f w + 1 ∧ significandOf f w + 1 = 2 * 2 ^ f.mb) := by
  by_cases hcarry : 2 ^ f.mb ∣ w + 1 ∧ w / 2 ^ f.mb ≠ 0
  case neg =>
    left
    simp only [binadeOf, Nat.succ_div]
    split_ifs with hdvd
    · have hx : w / 2 ^ f.mb = 0 := by tauto
      omega
    · rfl
  case pos =>
    obtain ⟨hdvd, hx⟩ := hcarry
    have hlast : w % 2 ^ f.mb + 1 = 2 ^ f.mb := by
      refine (Nat.succ_le_of_lt (Nat.mod_lt w (Nat.two_pow_pos _))).antisymm (Nat.le_of_dvd (Nat.succ_pos _) ?_)
      rwa [Nat.dvd_iff_mod_eq_zero, Nat.succ_eq_add_one, Nat.mod_add_mod, ← Nat.dvd_iff_mod_eq_zero]
    right
    rw [significandOf_normal hx]
    have hpos := Nat.pos_of_ne_zero hx
    simp only [binadeOf, Nat.succ_div, if_pos hdvd]
    omega

/-- The next encoding stands for one quantum more, past the end of a binade too. -/
theorem magnitudeOf_succ (f : FFmt) (w : Nat) : magnitudeOf f (w + 1) = (significandOf f w + 1) * quantumOf f w := by
  have hw := binadeOf_add_significandOf f w
  have hw' := binadeOf_add_significandOf f (w + 1)
  rcases binadeOf_succ f w with hsame | ⟨hnext, hlast⟩
  · have hsig : significandOf f (w + 1) = significandOf f w + 1 := by rw [hsame] at hw'; omega
    rw [magnitudeOf, hsig, quantumOf, hsame, quantumOf]
    push_cast
    rfl
  · have hsig : significandOf f (w + 1) = 2 ^ f.mb := by rw [hnext, Nat.succ_mul] at hw'; omega
    calc magnitudeOf f (w + 1) = (2 : Rat) ^ ((binadeOf f w : Int) + (1 - f.bias) + 1) := by
          rw [magnitudeOf, hsig, Nat.cast_pow, Nat.cast_ofNat, two_pow_mul_quantumOf, hnext]
          push_cast
          congr 1
          ring
      _ = (2 * 2 ^ f.mb) * quantumOf f w := by
          rw [zpow_add_one₀ two_ne_zero, ← two_pow_mul_quantumOf]
          ring
      _ = (significandOf f w + 1) * quantumOf f w := by
          congr 1
          exact_mod_cast hlast.symm

/-- A value from an encoding's up to the next one's lies in the binade of the encoding. -/
theorem max_ilog2_eq {f : FFmt} {w : Nat} {a : Rat} (ha : 0 < a) (hlo : magnitudeOf f w ≤ a)
    (hhi : a < magnitudeOf f (w + 1)) : max (ilog2 a) (1 - (f.bias : Int)) = binadeOf f w + (1 - f.bias) := by
  have hu := quantumOf_pos f w
  have hupper : Int.log 2 a < (binadeOf f w : Int) + (1 - f.bias) + 1 := by
    rw [← Int.lt_zpow_iff_log_lt one_lt_two ha]
    calc a < (significandOf f w + 1) * quantumOf f w := by rwa [← magnitudeOf_succ]
      _ ≤ (2 * 2 ^ f.mb) * quantumOf f w := by
          gcongr
          exact_mod_cast significandOf_lt f w
      _ = ((2 : Nat) : Rat) ^ ((binadeOf f w : Int) + (1 - f.bias) + 1) := by
          rw [Nat.cast_ofNat, zpow_add_one₀ two_ne_zero, ← two_pow_mul_quantumOf]
          ring
  rw [ilog2_eq_log ha]
  by_cases hx : w / 2 ^ f.mb = 0
  · have hzero : binadeOf f w = 0 := by simp only [binadeOf, hx, Nat.zero_sub]
    omega
  · have hlower : (binadeOf f w : Int) + (1 - f.bias) ≤ Int.log 2 a := by
      rw [← Int.zpow_le_iff_le_log one_lt_two ha]
      calc ((2 : Nat) : Rat) ^ ((binadeOf f w : Int) + (1 - f.bias)) = 2 ^ f.mb * quantumOf f w := by
            rw [two_pow_mul_quantumOf, Nat.cast_ofNat]
        _ ≤ significandOf f w * quantumOf f w := by
            gcongr
            rw [significandOf_normal hx]
            exact_mod_cast Nat.le_add_left _ _
        _ ≤ a := hlo
    omega

/-- A magnitude is rounded as a whole number of quanta of the encoding below it. -/
theorem roundFloat_eq {f : FFmt} {w rnd r : Nat} {neg : Bool} {a : Rat} (ha : 0 < a) (hlo : magnitudeOf f w ≤ a)
    (hhi : a < magnitudeOf f (w + 1)) (hr : binadeOf f w * 2 ^ f.mb + roundMag rnd neg (a / quantumOf f w) = r)
    (hmax : r ≤ maxFinite f) (sat : Bool) : roundFloat f rnd sat (if neg then -a else a) = signBit f neg + r := by
  have hsign : decide ((if neg then -a else a) < 0) = neg := by
    cases neg <;> simp [ha, ha.le]
  have habs : (if neg then -(if neg then -a else a) else (if neg then -a else a)) = a := by
    cases neg <;> simp
  have hexp : pow2 ((binadeOf f w : Int) + (1 - f.bias) - f.mb) = quantumOf f w := pow2_eq_zpow _
  simp only [roundFloat, roundFloatAs, hsign, habs, max_ilog2_eq ha hlo hhi, hexp, add_sub_cancel_right, Int.toNat_natCast, hr,
    if_neg hmax.not_gt]

theorem roundFloat_magnitudeOf {f : FFmt} {w : Nat} (hw : w ≤ maxFinite f) (hpos : magnitudeOf f w ≠ 0) (rnd : Nat)
    (sat neg : Bool) : roundFloat f rnd sat (if neg then -magnitudeOf f w else magnitudeOf f w) = signBit f neg + w := by
  have hu := quantumOf_pos f w
  refine roundFloat_eq ((magnitudeOf_nonneg f w).lt_of_ne' hpos) le_rfl ?_ ?_ hw sat
  · rw [magnitudeOf_succ, magnitudeOf]
    gcongr
    exact lt_add_one _
  · rw [magnitudeOf, mul_div_cancel_right₀ _ hu.ne', roundMag_natCast, binadeOf_add_significandOf]

theorem roundFloat_between {f : FFmt} (heven : Even (2 ^ f.mb)) {w : Nat} (hw : w + 1 ≤ maxFinite f) {a : Rat}
    (hlo : magnitudeOf f w < a) (hhi : a < magnitudeOf f (w + 1)) (rnd : Nat) (sat neg : Bool) :
    roundFloat f rnd sat (if neg then -a else a) =
      signBit f neg + neighbourOf rnd neg (a - magnitudeOf f w) (magnitudeOf f (w + 1) - a) w := by
  have hu := quantumOf_pos f w
  have hlo' : (significandOf f w : Rat) < a / quantumOf f w := by rwa [lt_div_iff₀ hu]
  have hhi' : a / quantumOf f w < significandOf f w + 1 := by rwa [div_lt_iff₀ hu, ← magnitudeOf_succ]
  have hdlo : a / quantumOf f w - significandOf f w = (a - magnitudeOf f w) / quantumOf f w := by
    rw [magnitudeOf, sub_div, mul_div_cancel_right₀ _ hu.ne']
  have hdhi : significandOf f w + 1 - a / quantumOf f w = (magnitudeOf f (w + 1) - a) / quantumOf f w := by
    rw [magnitudeOf_succ, sub_div, mul_div_cancel_right₀ _ hu.ne']
  refine roundFloat_eq ((magnitudeOf_nonneg f w).trans_lt hlo) hlo.le hhi ?_ ((neighbourOf_le ..).trans hw) sat
  rw [roundMag_between hlo' hhi', hdlo, hdhi, neighbourOf_div hu, ← neighbourOf_add_even (heven.mul_left _),
    binadeOf_add_significandOf]

/-! ## What an encoding of a float format decodes to (R222) -/

/-- The fraction, the exponent and the sign of an encoding. -/
theorem encoding_fields (f : FFmt) {w : Nat} (hw : w < 2 ^ (f.eb + f.mb)) (neg : Bool) :
    (signBit f neg + w) % 2 ^ f.mb = w % 2 ^ f.mb ∧ (signBit f neg + w) / 2 ^ f.mb % 2 ^ f.eb = w / 2 ^ f.mb ∧
      ((signBit f neg + w) / 2 ^ (f.mb + f.eb) % 2 = 1 ↔ neg = true) := by
  have hx : w / 2 ^ f.mb % 2 ^ f.eb = w / 2 ^ f.mb :=
    Nat.mod_eq_of_lt (Nat.div_lt_of_lt_mul (by rwa [← pow_add, add_comm]))
  have hsign : w / 2 ^ (f.mb + f.eb) = 0 := Nat.div_eq_of_lt (by rwa [add_comm])
  cases neg with
  | false => simp [signBit, hx, hsign]
  | true =>
    have hbit : signBit f true = 2 ^ f.mb * 2 ^ f.eb := by rw [signBit, if_pos rfl, pow_add, mul_comm]
    refine ⟨?_, ?_, ?_⟩
    · rw [hbit, Nat.mul_add_mod]
    · rw [hbit, Nat.mul_add_div (Nat.two_pow_pos _), Nat.add_mod_left, hx]
    · rw [hbit, ← pow_add, Nat.add_div_left _ (Nat.two_pow_pos _), hsign]
      simp

/-- The encodings up to the largest finite one are those that are neither a NaN nor an infinity. -/
theorem le_maxFinite_iff {code : Nat} {f : FFmt} (hf : ffmt code = some f) {w : Nat} (hw : w < 2 ^ (f.eb + f.mb)) :
    w ≤ maxFinite f ↔ ¬ (w / 2 ^ f.mb = 2 ^ f.eb - 1 ∧ (f.noInf = true → w % 2 ^ f.mb = 2 ^ f.mb - 1)) := by
  rcases ffmt_cases hf with ⟨-, rfl⟩ | ⟨-, rfl⟩ | ⟨-, rfl⟩ | ⟨-, rfl⟩ | ⟨-, rfl⟩ <;> simp [maxFinite] at hw ⊢ <;> omega

theorem magnitudeOf_eq (f : FFmt) (w : Nat) : magnitudeOf f w =
    if w / 2 ^ f.mb = 0 then ((w % 2 ^ f.mb : Nat) : Rat) * pow2 (1 - (f.bias : Int) - f.mb)
    else ((w % 2 ^ f.mb + 2 ^ f.mb : Nat) : Rat) * pow2 (((w / 2 ^ f.mb : Nat) : Int) - f.bias - f.mb) := by
  split_ifs with hx
  · rw [magnitudeOf, significandOf_subnormal hx, quantumOf, pow2_eq_zpow]
    simp [binadeOf, hx]
  · rw [magnitudeOf, significandOf_normal hx, quantumOf, pow2_eq_zpow, binadeOf, Nat.cast_sub (Nat.pos_of_ne_zero hx)]
    push_cast
    congr 2
    ring

/-- R222: a sign bit and a magnitude's encoding decode to that finite value, to an infinity or to a NaN. -/
theorem decodeVal_signBit_add {code : Nat} {f : FFmt} (hf : ffmt code = some f) {w : Nat} (hw : w < 2 ^ (f.eb + f.mb))
    (neg : Bool) : decodeVal code (signBit f neg + w) =
      if w ≤ maxFinite f then .fin (if neg then -magnitudeOf f w else magnitudeOf f w) neg
      else if f.noInf = false ∧ w % 2 ^ f.mb = 0 then .inf neg else .nan := by
  obtain ⟨hm, hx, hneg⟩ := encoding_fields f hw neg
  simp only [decodeVal, hf, hm, hx, hneg, le_maxFinite_iff hf hw, ← magnitudeOf_eq, Bool.decide_eq_true]
  by_cases htop : w / 2 ^ f.mb = 2 ^ f.eb - 1 <;> cases f.noInf <;> simp [htop]

theorem maxFinite_lt {code : Nat} {f : FFmt} (hf : ffmt code = some f) : maxFinite f < 2 ^ (f.eb + f.mb) := by
  rcases ffmt_cases hf with ⟨-, rfl⟩ | ⟨-, rfl⟩ | ⟨-, rfl⟩ | ⟨-, rfl⟩ | ⟨-, rfl⟩ <;> decide

theorem decodeVal_of_le_maxFinite {code : Nat} {f : FFmt} (hf : ffmt code = some f) {w : Nat} (hw : w ≤ maxFinite f) :
    decodeVal code w = .fin (magnitudeOf f w) false := by
  simpa [signBit, hw] using decodeVal_signBit_add hf (hw.trans_lt (maxFinite_lt hf)) false

theorem decodeVal_fin_inv {code : Nat} {f : FFmt} (hf : ffmt code = some f) {w : Nat} (hw : w < 2 ^ (8 * fmtBytes code)) {q : Rat}
    {n : Bool} (hq : decodeVal code w = .fin q n) :
    ∃ m, m ≤ maxFinite f ∧ w = signBit f n + m ∧ q = if n then -magnitudeOf f m else magnitudeOf f m := by
  obtain ⟨neg, m, hm, rfl⟩ : ∃ neg m, m < 2 ^ (f.eb + f.mb) ∧ w = signBit f neg + m := by
    rw [fmtBits_of_ffmt hf, pow_succ] at hw
    by_cases hneg : w < 2 ^ (f.eb + f.mb)
    · exact ⟨false, w, hneg, by simp [signBit]⟩
    · exact ⟨true, w - 2 ^ (f.eb + f.mb), by omega, by simp [signBit]; omega⟩
  rw [decodeVal_signBit_add hf hm] at hq
  split_ifs at hq with hmax hinf
  all_goals
    obtain ⟨rfl, rfl⟩ := Val.fin.inj hq
    exact ⟨m, hmax, rfl, by simp [*]⟩

theorem encodeVal_zero_of_ffmt {code : Nat} {f : FFmt} (hf : ffmt code = some f) (rnd : Nat) (sat n : Bool) :
    encodeVal code rnd sat (.fin 0 n) = 0 := by
  simp [encodeVal, hf]

theorem encodeVal_of_ffmt {code : Nat} {f : FFmt} (hf : ffmt code = some f) {q : Rat} (hq : q ≠ 0) (rnd : Nat) (sat n : Bool) :
    encodeVal code rnd sat (.fin q n) = roundFloat f rnd sat q := by
  simp [encodeVal, hf, hq]

theorem encodeVal_decodeVal_float {code : Nat} {f : FFmt} (hf : ffmt code = some f) {w : Nat} (hw : w < 2 ^ (8 * fmtBytes code))
    {q : Rat} {n : Bool} (hdec : decodeVal code w = .fin q n) (hq : q ≠ 0) (rnd : Nat) (sat : Bool) :
    encodeVal code rnd sat (.fin q n) = w := by
  obtain ⟨m, hm, rfl, rfl⟩ := decodeVal_fin_inv hf hw hdec
  have hmag : magnitudeOf f m ≠ 0 := by
    intro hzero
    simp [hzero] at hq
  rw [encodeVal_of_ffmt hf hq, roundFloat_magnitudeOf hm hmag]

theorem encodeVal_float_between {code : Nat} {f : FFmt} (hf : ffmt code = some f) {w : Nat} (hw : w + 1 ≤ maxFinite f)
    {lo hi y : Rat} {a b : Bool} (hdlo : decodeVal code w = .fin lo a) (hdhi : decodeVal code (w + 1) = .fin hi b) (hlo : lo < y)
    (hhi : y < hi) (rnd : Nat) (sat n neg : Bool) : encodeVal code rnd sat (.fin (if neg then -y else y) n) =
      signBit f neg + neighbourOf rnd neg (y - lo) (hi - y) w := by
  rw [decodeVal_of_le_maxFinite hf (Nat.le_of_succ_le hw)] at hdlo
  rw [decodeVal_of_le_maxFinite hf hw] at hdhi
  obtain ⟨rfl, -⟩ := Val.fin.inj hdlo
  obtain ⟨rfl, -⟩ := Val.fin.inj hdhi
  have hy : y ≠ 0 := ((magnitudeOf_nonneg f w).trans_lt hlo).ne'
  have hsigned : (if neg then -y else y) ≠ 0 := by cases neg <;> simpa using hy
  rw [encodeVal_of_ffmt hf hsigned, roundFloat_between (two_pow_mb_even hf) hw hlo hhi]

/-! ## Rounding into an integer format (R238) -/

theorem ifmt_cases {code b : Nat} {sgn : Bool} (h : ifmt code = some (b, sgn)) :
    (code = 0x01 ∧ b = 8 ∧ sgn = true) ∨ (code = 0x02 ∧ b = 8 ∧ sgn = false) ∨ (code = 0x03 ∧ b = 16 ∧ sgn = true) ∨
    (code = 0x04 ∧ b = 32 ∧ sgn = true) := by
  unfold ifmt at h
  split_ifs at h <;> simp_all

theorem fmtDefined_cases {code : Nat} (h : fmtDefined code = true) :
    (∃ f, ffmt code = some f) ∨ ∃ b sgn, ifmt code = some (b, sgn) := by
  simp only [fmtDefined, fmtBytes] at h
  split_ifs at h with h1 h2 h4
  · rcases h1 with rfl | rfl | rfl | rfl <;> simp [ffmt, ifmt]
  · rcases h2 with rfl | rfl | rfl <;> simp [ffmt, ifmt]
  · rcases h4 with rfl | rfl <;> simp [ffmt, ifmt]
  · simp at h

theorem roundInt_intCast (rnd : Nat) (k : Int) : roundInt rnd k = k := by
  unfold roundInt
  split_ifs with hk
  · obtain ⟨m, rfl⟩ : ∃ m : Nat, k = -m := ⟨k.natAbs, by rw [Rat.intCast_neg_iff] at hk; omega⟩
    simp [roundMag_natCast]
  · lift k to Nat using by exact_mod_cast not_lt.mp hk
    simp [roundMag_natCast]

/-- R235: of the whole numbers `k` and `k + 1` around a value, the one that a mode chooses. -/
def wholeNeighbourOf (rnd : Nat) (k : Int) (y : Rat) : Int :=
  if rnd = 2 then k + 1 else if rnd = 3 then k else if rnd = 1 then (if y < 0 then k + 1 else k)
  else if y - k < 1 / 2 then k else if 1 / 2 < y - k then k + 1
  else if rnd = 4 then (if y < 0 then k else k + 1) else if k % 2 = 0 then k else k + 1

theorem wholeNeighbourOf_bounds (rnd : Nat) (k : Int) (y : Rat) :
    k ≤ wholeNeighbourOf rnd k y ∧ wholeNeighbourOf rnd k y ≤ k + 1 := by
  unfold wholeNeighbourOf
  split_ifs <;> omega

theorem roundInt_between {k : Int} {y : Rat} (hlo : (k : Rat) < y) (hhi : y < k + 1) (rnd : Nat) :
    roundInt rnd y = wholeNeighbourOf rnd k y := by
  by_cases hy : y < 0
  · have hk : k < 0 := by exact_mod_cast hlo.trans hy
    obtain ⟨m, rfl⟩ : ∃ m : Nat, k = -m - 1 := ⟨(-(k + 1)).toNat, by omega⟩
    push_cast at hlo hhi
    have hnear : y - (-m - 1) < 1 / 2 ↔ m + 1 - -y < -y - m := by constructor <;> intro h <;> linarith
    have hfar : 1 / 2 < y - (-m - 1) ↔ -y - m < m + 1 - -y := by constructor <;> intro h <;> linarith
    rw [roundInt, if_pos hy, roundMag_between (by linarith) (by linarith)]
    simp only [neighbourOf, wholeNeighbourOf, hy, if_true]
    push_cast
    simp only [hnear, hfar]
    rcases lt_trichotomy (-y - m) (m + 1 - -y) with hlt | htie | hgt
    · simp only [hlt, hlt.not_gt, if_true, if_false]
      split_ifs <;> omega
    · simp only [htie, lt_irrefl, if_false]
      split_ifs <;> omega
    · simp only [hgt, hgt.not_gt, if_true, if_false]
      split_ifs <;> omega
  · have hk : 0 ≤ k := by
      have hpos : 0 < k + 1 := by exact_mod_cast (not_lt.mp hy).trans_lt hhi
      omega
    lift k to Nat using hk
    push_cast at hlo hhi
    have hnear : y - k < 1 / 2 ↔ y - k < k + 1 - y := by constructor <;> intro h <;> linarith
    have hfar : 1 / 2 < y - k ↔ k + 1 - y < y - k := by constructor <;> intro h <;> linarith
    rw [roundInt, if_neg hy, roundMag_between hlo hhi]
    simp only [neighbourOf, wholeNeighbourOf, hy, Bool.false_eq_true, if_false, Int.cast_natCast, hnear, hfar]
    split_ifs <;> omega

theorem encodeVal_of_ifmt {code b : Nat} {sgn : Bool} (h : ifmt code = some (b, sgn)) {rnd : Nat} {v : Int} {y : Rat}
    (hv : roundInt rnd y = v) (hlo : (intRange b sgn).1 ≤ v) (hhi : v ≤ (intRange b sgn).2) (sat n : Bool) :
    encodeVal code rnd sat (.fin y n) = patternOf v b := by
  have hf : ffmt code = none := by
    rcases ifmt_cases h with ⟨rfl, -⟩ | ⟨rfl, -⟩ | ⟨rfl, -⟩ | ⟨rfl, -⟩ <;> rfl
  simp [encodeVal, hf, h, hv, max_eq_left hlo, min_eq_left hhi]

/-- R221: an encoding of an integer format decodes to the number of the format's range whose pattern it is. -/
theorem decodeVal_of_ifmt {code b : Nat} {sgn : Bool} (h : ifmt code = some (b, sgn)) {w : Nat} (hw : w < 2 ^ (8 * fmtBytes code)) :
    ∃ v : Int, decodeVal code w = .fin v (decide (v < 0)) ∧ (intRange b sgn).1 ≤ v ∧ v ≤ (intRange b sgn).2 ∧
      patternOf v b = w := by
  rcases ifmt_cases h with ⟨rfl, rfl, rfl⟩ | ⟨rfl, rfl, rfl⟩ | ⟨rfl, rfl, rfl⟩ | ⟨rfl, rfl, rfl⟩
  all_goals
    refine ⟨_, rfl, ?_⟩
    simp [fmtBytes, intRange, patternOf, signedOf] at hw ⊢
    omega

theorem encodeVal_decodeVal_int {code b : Nat} {sgn : Bool} (h : ifmt code = some (b, sgn)) {w : Nat}
    (hw : w < 2 ^ (8 * fmtBytes code)) {q : Rat} {n : Bool} (hdec : decodeVal code w = .fin q n) (rnd : Nat) (sat : Bool) :
    encodeVal code rnd sat (.fin q n) = w := by
  obtain ⟨v, hv, hlo, hhi, hpat⟩ := decodeVal_of_ifmt h hw
  obtain ⟨rfl, -⟩ := Val.fin.inj (hdec.symm.trans hv)
  rw [encodeVal_of_ifmt h (roundInt_intCast rnd v) hlo hhi, hpat]

theorem encodeVal_int_between {code b : Nat} {sgn : Bool} (h : ifmt code = some (b, sgn)) {k : Int} {y : Rat}
    (hk : (intRange b sgn).1 ≤ k) (hk' : k + 1 ≤ (intRange b sgn).2) (hlo : (k : Rat) < y) (hhi : y < k + 1) (rnd : Nat)
    (sat n : Bool) : encodeVal code rnd sat (.fin y n) = patternOf (wholeNeighbourOf rnd k y) b := by
  obtain ⟨hge, hle⟩ := wholeNeighbourOf_bounds rnd k y
  exact encodeVal_of_ifmt h (roundInt_between hlo hhi rnd) (hk.trans hge) (hle.trans hk') sat n

/-! ## Exact zeros (R236) -/

theorem encodeVal_zero {code : Nat} (h : fmtDefined code = true) (rnd : Nat) (sat n : Bool) :
    encodeVal code rnd sat (.fin 0 n) = 0 := by
  rcases fmtDefined_cases h with ⟨f, hf⟩ | ⟨b, sgn, hi⟩
  · exact encodeVal_zero_of_ffmt hf rnd sat n
  · obtain ⟨hlo, hhi⟩ : (intRange b sgn).1 ≤ 0 ∧ 0 ≤ (intRange b sgn).2 := by
      rcases ifmt_cases hi with ⟨-, rfl, rfl⟩ | ⟨-, rfl, rfl⟩ | ⟨-, rfl, rfl⟩ | ⟨-, rfl, rfl⟩ <;> decide
    rw [encodeVal_of_ifmt hi (by exact_mod_cast roundInt_intCast rnd 0) hlo hhi]
    simp [patternOf]

theorem decodeVal_zero {code : Nat} (h : fmtDefined code = true) : decodeVal code 0 = .fin 0 false := by
  rcases fmtDefined_cases h with ⟨f, hf⟩ | ⟨b, sgn, hi⟩
  · rw [decodeVal_of_le_maxFinite hf (Nat.zero_le _)]
    simp [magnitudeOf_eq]
  · rcases ifmt_cases hi with ⟨rfl, -⟩ | ⟨rfl, -⟩ | ⟨rfl, -⟩ | ⟨rfl, -⟩ <;> rfl

/-- Settles O59: in units of the last place of the encoding below it, a magnitude is rounded to that encoding's significand or
to the next one, and adding the binade back makes these the encoding and its successor; a whole number is rounded within the
integer range. -/
theorem roundingChoosesANeighbour : Obligations.rounding_chooses_a_neighbour := by
  unfold Obligations.rounding_chooses_a_neighbour
  intro code rnd sat _
  refine ⟨fun w q n hdef hw hdec hq => ?_, fun f w lo hi y a b n hf hw hdlo hdhi hlo hhi => ⟨?_, ?_⟩,
    fun b sgn k y n hi hk hk' hlo hhi => encodeVal_int_between hi hk hk' hlo hhi rnd sat n,
    fun n hdef => ⟨false, by rw [encodeVal_zero hdef, decodeVal_zero hdef]⟩⟩
  · rcases fmtDefined_cases hdef with ⟨f, hf⟩ | ⟨b, sgn, hi⟩
    · exact encodeVal_decodeVal_float hf hw hdec hq rnd sat
    · exact encodeVal_decodeVal_int hi hw hdec rnd sat
  · simpa [signBit, neighbourOf] using encodeVal_float_between hf hw hdlo hdhi hlo hhi rnd sat n false
  · simpa [neighbourOf] using encodeVal_float_between hf hw hdlo hdhi hlo hhi rnd sat n true

end Sys2Proof.Machine
end

section
/-! SUPPORT. Hand-offs and WAITs to undeclared identifiers (R290): what a flight that is dropped with a bad-object fault leaves,
why a WAIT on such an identifier is illegal, and what a thread fault leaves of a thread without an owner. -/

namespace Sys2Proof.Machine

open Sys2Proof

/-! ## An arrival at an undeclared identifier (R290) -/

theorem Dev.deliver_undeclared {d : Dev} {id : Nat} (h : tget d.queues id = none) (who : Prod) (data : List Byte)
    (atEnd : Bool) (src : Nat) : d.deliver id who data atEnd src = d.objFault src 0 id := by
  simp [Dev.deliver, h]

theorem Dev.slotMark_undeclared {d : Dev} {id : Nat} (h : tget d.slots id = none) (full : Bool) (src : Nat) :
    d.slotMark id full src = d.objFault src 0 id := by
  simp [Dev.slotMark, h]

theorem Dev.hurdleArrive_undeclared {d : Dev} {id : Nat} (h : tget d.hurdles id = none) (e : Env) (waiter : Option Nat)
    (src : Nat) : d.hurdleArrive e id waiter src = d.objFault src 0 id := by
  simp [Dev.hurdleArrive, h]

/-- Flight `i` is dropped with a bad-object fault at the block that issued it. -/
def Dev.refuseFlight (d : Dev) (i src id : Nat) : Dev := (d.dropFlight i).objFault src 0 id

/-- A refused flight leaves the list, and what else differs is the fault's. -/
theorem refuseFlight_spec {s u : State} {i src id : Nat} (hid : id < 65536) (hu : u = s.put (s.dev.refuseFlight i src id)) :
    s.touches u (.flights :: faultParts) ∧ u.dev.flights = s.dev.flights.eraseIdx i ∧
      u.dev.col = (s.dev.raise src 8 0 id).col := by
  have hraise : s.dev.refuseFlight i src id = (s.dev.dropFlight i).raise src 8 0 id := by
    rw [Dev.refuseFlight, Dev.objFault, Nat.mod_eq_of_lt hid]
  subst hu
  rw [hraise]
  refine ⟨⟨rfl, rfl, rfl, fun p hp => ?_⟩, Dev.raise_flights ..,
    Dev.raise_col_congr (d := s.dev.dropFlight i) (d' := s.dev) rfl rfl _ _ _ _⟩
  rw [State.put, Dev.raise_frame]
  cases p with
  | flights | col | safe => simp [faultParts] at hp
  | _ => rfl

section

variable {s : State} {i id src : Nat} (hclk : s.dev.clocked = true)
include hclk

theorem exec_queueEntryArrival_undeclared {who : Prod} {data : List Byte} {atEnd : Bool}
    (hflight : s.dev.flights[i]? = some (.entry id who data atEnd src))
    (hfirst : (s.dev.flights.take i).any (sameEntry id who) = false) (hnone : tget s.dev.queues id = none) :
    exec (.queueEntryArrival i) s = .next (s.put (s.dev.refuseFlight i src id)) := by
  have hdeliver := Dev.deliver_undeclared (d := s.dev.dropFlight i) hnone who data atEnd src
  rw [exec_queueEntryArrival, execQueueEntryArrival, runClocked_running rfl hclk]
  simp [hflight, hfirst, hdeliver, Dev.refuseFlight]

theorem exec_slotMarkArrival_undeclared {full : Bool} (hflight : s.dev.flights[i]? = some (.mark id full src))
    (hnone : tget s.dev.slots id = none) :
    exec (.slotMarkArrival i) s = .next (s.put (s.dev.refuseFlight i src id)) := by
  have hmark := Dev.slotMark_undeclared (d := s.dev.dropFlight i) hnone full src
  rw [exec_slotMarkArrival, execSlotMarkArrival, runClocked_running rfl hclk]
  simp [hflight, hmark, Dev.refuseFlight]

theorem exec_hurdleArrival_undeclared {waiter : Option Nat} (hflight : s.dev.flights[i]? = some (.arrive id waiter src))
    (hnone : tget s.dev.hurdles id = none) :
    exec (.hurdleArrival i) s = .next (s.put (s.dev.refuseFlight i src id)) := by
  have harrive := Dev.hurdleArrive_undeclared (d := s.dev.dropFlight i) hnone s.env waiter src
  rw [exec_hurdleArrival, execHurdleArrival, runClocked_running rfl hclk]
  simp [hflight, harrive, Dev.refuseFlight]

end

/-! ## A WAIT on an undeclared identifier (R290, R292) -/

@[simp] theorem Dev.waitIllegal_issued (d : Dev) (e : Env) (t k w : Nat) :
    (d.issued e t).waitIllegal k w = d.waitIllegal k w := rfl

section

variable {d : Dev} {t w : Nat} (hform : waitFormOk w = true)
include hform

/-- QUEUE, CREDIT and QSTAT name a queue. -/
theorem Dev.waitIllegal_of_no_queue (hkind : fKind w = 1 ∨ fKind w = 2 ∨ fKind w = 7)
    (hnone : tget d.queues (identOf (d.reg t (fB w))) = none) : d.waitIllegal t w = true := by
  rcases hkind with hkind | hkind | hkind <;> simp [Dev.waitIllegal, hform, hkind, hnone]

/-- SLOT_FULL and SLOT_EMPTY name a slot. -/
theorem Dev.waitIllegal_of_no_slot (hkind : fKind w = 3 ∨ fKind w = 4)
    (hnone : tget d.slots (identOf (d.reg t (fB w))) = none) : d.waitIllegal t w = true := by
  rcases hkind with hkind | hkind <;> simp [Dev.waitIllegal, hform, hkind, hnone]

/-- HURDLE names a hurdle. -/
theorem Dev.waitIllegal_of_no_hurdle (hkind : fKind w = 5)
    (hnone : tget d.hurdles (identOf (d.reg t (fB w))) = none) : d.waitIllegal t w = true := by
  simp [Dev.waitIllegal, hform, hkind, hnone]

end

/-- A WAIT row of the word's kind faults its thread with an illegal instruction when the word is illegal. -/
theorem run_waitRow_illegal {i : Instr} {s : State} {t kind w : Nat} (hi : i.units = [(t, 3088)]) (ht : t < 3088)
    (hissue : s.dev.issues t 0x0A w) (hkind : fKind w = kind) (hill : s.dev.waitIllegal t w = true)
    (f : Env → Nat → Nat → Nat → Dev → Dev) :
    run i (fun e d => d.waitRow e t kind (f e)) s =
      .next (s.put ((s.dev.issued s.env t).faultThread s.env t 1)) := by
  simp only [Dev.waitRow]
  rw [run_instr hi ht hissue]
  simp [hkind, hill]

/-! ## The fault of a thread without an owner (R138) -/

@[simp] theorem Dev.thread_unqueue (d : Dev) (t k : Nat) : (d.unqueue t).thread k = d.thread k := rfl

theorem Dev.ownerOf_congr {d d' : Dev} (h : d.insts = d'.insts) (t : Nat) : d.ownerOf t = d'.ownerOf t := by
  rw [Dev.ownerOf, Dev.ownerOf, h]

/-- The thread's own part of its fault: it is FAULTED with a code, waits no more, and its fold's source raises the fault. -/
def Dev.threadFaulted (d : Dev) (t code : Nat) : Dev :=
  let x := d.modThread t fun th => { th with st := .faulted, wait := none, faultCode := code }
  (x.unqueue t).raise (x.threadSrc t) 6 code (t % 4096 * 2 ^ 28 + (x.thread t).pc.toNat % 2 ^ 23)

/-- Without an owner that would follow the thread, its own part is the whole fault. -/
theorem Dev.faultThread_of_no_owner {d : Dev} {t : Nat} (h : d.ownerOf t = none) (e : Env) (code : Nat) :
    d.faultThread e t code = d.threadFaulted t code := by
  have howner : (d.threadFaulted t code).ownerOf t = none := (Dev.ownerOf_congr (Dev.raise_insts ..) t).trans h
  simp only [Dev.faultThread]
  split
  next k hk => exact absurd (hk.symm.trans howner) (Option.some_ne_none k)
  next => rfl

theorem Dev.thread_threadFaulted (d : Dev) (t code : Nat) :
    (d.threadFaulted t code).thread t = { d.thread t with st := .faulted, wait := none, faultCode := code } := by
  simp [Dev.threadFaulted, Dev.thread_modThread]

/-- Nothing that the collector takes of the fault has changed since before the issue. -/
theorem Dev.threadFaulted_issued_col (d : Dev) (e : Env) {t : Nat} (ht : t < 3088) (code : Nat) :
    ((d.issued e t).threadFaulted t code).col =
      (d.raise (d.threadSrc t) 6 code (t * 2 ^ 28 + (d.thread t).pc.toNat % 2 ^ 23)).col := by
  simp only [Dev.threadFaulted, Dev.thread_modThread, if_true, Dev.thread_issued, Nat.mod_eq_of_lt (by omega : t < 4096)]
  exact Dev.raise_col_congr (d := ((d.issued e t).modThread t _).unqueue t) (d' := d) rfl rfl _ _ _ _

/-- Settles O57: each arrival at an undeclared identifier is the refused flight, and each WAIT on one is an illegal word, which
faults its thread. -/
theorem undeclaredObjectsAreRefused : Obligations.undeclared_objects_are_refused := by
  unfold Obligations.undeclared_objects_are_refused
  intro s id hclk hid
  refine ⟨fun i who data atEnd src hflight hfirst hnone => ?entry, fun i full src hflight hnone => ?mark,
    fun i waiter src hflight hnone => ?arrival, fun t w ht hissue hform hname => ?wait⟩
  case entry =>
    exact ⟨_, exec_queueEntryArrival_undeclared hclk hflight hfirst hnone, refuseFlight_spec hid rfl⟩
  case mark => exact ⟨_, exec_slotMarkArrival_undeclared hclk hflight hnone, refuseFlight_spec hid rfl⟩
  case arrival => exact ⟨_, exec_hurdleArrival_undeclared hclk hflight hnone, refuseFlight_spec hid rfl⟩
  case wait =>
    subst hname
    have hqueue := Dev.waitIllegal_of_no_queue (d := s.dev) (t := t) hform
    have hslot := Dev.waitIllegal_of_no_slot (d := s.dev) (t := t) hform
    have hhurdle := Dev.waitIllegal_of_no_hurdle (d := s.dev) (t := t) hform
    refine ⟨fun hkind hnone => ?_, fun hkind hnone => ?_, fun hkind hnone => ?_, fun hkind hnone => ?_,
      fun hkind hnone => ?_, fun hkind hnone => ?_, fun howner => ?_⟩
    · rw [exec_waitQueue, execWaitQueue, run_waitRow_illegal rfl ht hissue hkind (hqueue (.inl hkind) hnone)]
    · rw [exec_waitCredit, execWaitCredit, run_waitRow_illegal rfl ht hissue hkind (hqueue (.inr (.inl hkind)) hnone)]
    · rw [exec_waitSlotFull, execWaitSlotFull, run_waitRow_illegal rfl ht hissue hkind (hslot (.inl hkind) hnone)]
    · rw [exec_waitSlotEmpty, execWaitSlotEmpty, run_waitRow_illegal rfl ht hissue hkind (hslot (.inr hkind) hnone)]
    · rw [exec_waitHurdle, execWaitHurdle, run_waitRow_illegal rfl ht hissue hkind (hhurdle hkind hnone)]
    · rw [exec_waitQstat, execWaitQstat, run_waitRow_illegal rfl ht hissue hkind (hqueue (.inr (.inr hkind)) hnone)]
    · have hfault : (s.dev.issued s.env t).faultThread s.env t 1 = (s.dev.issued s.env t).threadFaulted t 1 :=
        Dev.faultThread_of_no_owner (d := s.dev.issued s.env t) howner s.env 1
      rw [hfault]
      simp only [Dev.thread_threadFaulted, Dev.threadFaulted_issued_col _ _ ht, and_self]

end Sys2Proof.Machine
end

section
/-! SUPPORT. The block as a whole: what every command keeps of the queue, the fuses and the raw counter (R8, R411, R534, R535),
and the steps that follow. -/

namespace Sys2Proof.Machine

open Sys2Proof

/-! ## Fuses are only ever set (R534, R535) -/

@[simp] theorem bitsKept_refl {n : Nat} (a : BitVec n) : bitsKept a a = true := by
  simp [bitsKept]

@[simp] theorem bitsKept_or {n : Nat} (a b : BitVec n) : bitsKept a (a ||| b) = true := by
  rw [bitsKept, beq_iff_eq]
  ext i
  simp +contextual

theorem bitsKept_trans {n : Nat} {a b c : BitVec n} (hab : bitsKept a b = true) (hbc : bitsKept b c = true) :
    bitsKept a c = true := by
  simp only [bitsKept, beq_iff_eq] at *
  rw [← hab, BitVec.and_assoc, hbc]

@[simp] theorem Fuses.kept_refl (f : Fuses) : f.kept f = true := by
  simp [Fuses.kept]

theorem Fuses.kept_trans {a b c : Fuses} (hab : a.kept b = true) (hbc : b.kept c = true) : a.kept c = true := by
  simp only [Fuses.kept, Bool.and_eq_true, beq_iff_eq, and_assoc] at *
  obtain ⟨life, fw, prog, valid, revoked, boot, o0, o1, grade, h0, h1, uds, serial⟩ := hab
  obtain ⟨life', fw', prog', valid', revoked', boot', o0', o1', grade', h0', h1', uds', serial'⟩ := hbc
  exact ⟨bitsKept_trans life life', bitsKept_trans fw fw', bitsKept_trans prog prog', bitsKept_trans valid valid',
    bitsKept_trans revoked revoked', bitsKept_trans boot boot', bitsKept_trans o0 o0', bitsKept_trans o1 o1',
    grade.trans grade', h0.trans h0', h1.trans h1', uds.trans uds', serial.trans serial'⟩

theorem Fuses.kept_setBit (f : Fuses) (x : FuseBit) : f.kept (f.setBit x) = true := by
  cases x with
  | hash slot bit =>
    unfold Fuses.setBit
    dsimp only
    split_ifs <;> simp [Fuses.kept]
  | valid bit => simp [Fuses.kept, Fuses.setBit]
  | boot bit => simp [Fuses.kept, Fuses.setBit]
  | revoked bit => simp [Fuses.kept, Fuses.setBit]
  | lifecycle bit => simp [Fuses.kept, Fuses.setBit]

theorem Fuses.kept_burnBits (f : Fuses) (l : List FuseBit) : f.kept (f.burnBits l) = true := by
  induction l generalizing f with
  | nil => exact f.kept_refl
  | cons x l ih => exact Fuses.kept_trans (f.kept_setBit x) (ih (f.setBit x))

theorem State.kept_fuseNow (s : State) : s.fuse.kept s.fuseNow = true := by
  unfold State.fuseNow Security.burnt
  split
  · exact Fuses.kept_burnBits _ _
  · exact Fuses.kept_refl _

theorem Fuses.kept_mended (f : Fuses) : f.kept f.mended = true := by
  unfold Fuses.mended
  split
  · split_ifs <;> simp [Fuses.kept]
  · exact f.kept_refl

theorem Fuses.kept_raiseFw (f : Fuses) (svn : Nat) : f.kept (f.raiseFw svn) = true := by
  unfold Fuses.raiseFw
  split_ifs <;> simp [Fuses.kept]

theorem Fuses.kept_afterWork (f : Fuses) (o : Outst) : f.kept (f.afterWork o) = true := by
  unfold Fuses.afterWork
  split_ifs
  · split
    · split_ifs <;> simp [Fuses.kept]
    · exact f.kept_refl
  · exact f.kept_refl

/-! ## What a command keeps -/

/-- What a state that a command leaves has of the one before: its queue, its fuses, and its raw counter where that was not
reset. -/
structure State.Follows (s t : State) : Prop where
  pending : t.pending = s.pending
  fuse : s.fuse.kept t.fuse = true
  raw : s.clk.running = true → t.clk.raw = s.clk.raw ∨ t.clk.raw = 0

/-- A new device, counter and fuses as they were. -/
theorem State.follows_dev (s : State) (d : Dev) : s.Follows { s with dev := d } :=
  ⟨rfl, s.fuse.kept_refl, fun _ => .inl rfl⟩

/-- A new device and fuses that gained, counter as it was. -/
theorem State.follows_fuse (s : State) (d : Dev) {f : Fuses} (hf : s.fuse.kept f = true) :
    s.Follows { s with dev := d, fuse := f } :=
  ⟨rfl, hf, fun _ => .inl rfl⟩

/-- A reset takes the counter, and the fuses gained. -/
theorem State.follows_reset (s : State) (d : Dev) {f : Fuses} {c : Clock} (hc : c.raw = 0) (hf : s.fuse.kept f = true) :
    s.Follows { s with dev := d, clk := c, fuse := f } :=
  ⟨rfl, hf, fun _ => .inr hc⟩

theorem State.follows_coldStarted (s : State) (d : Dev) (b : StartUp) : s.Follows (coldStarted s d b) :=
  ⟨rfl, s.fuse.kept_mended, fun _ => .inr rfl⟩

theorem clockAfter_raw (was now : PowerUnit) (c : Clock) : (clockAfter was now c).raw = c.raw ∨ (clockAfter was now c).raw = 0 := by
  unfold clockAfter
  split_ifs
  · exact .inl rfl
  · exact .inr rfl
  · exact .inl rfl
  · exact .inl rfl

theorem State.follows_railTripped (s : State) (rail detail : Nat) : s.Follows (railTripped s rail detail) := by
  unfold railTripped
  dsimp only
  split_ifs
  · exact s.follows_dev _
  · exact s.follows_reset _ rfl s.kept_fuseNow
  · exact s.follows_dev _

theorem State.follows_transition (s : State) (o : Outst) : s.Follows (s.transition o) := by
  unfold State.transition
  split
  · dsimp only
    split_ifs
    · exact s.follows_dev s.dev
    · exact s.follows_fuse _ (Fuses.kept_burnBits _ _)
  · split_ifs
    · exact s.follows_dev s.dev
    · exact s.follows_dev _

/-- R8: a command on existing units answers a state that follows, and one that names a missing unit stops with its fault. -/
def Answers (i : Instr) (s : State) (o : Host.Outcome State Fault Refusal) : Prop :=
  (i.wf = true → ∃ t, o = .next t ∧ s.Follows t) ∧ (i.wf = false → ∃ n, o = .fault (.noSuchUnit n))

theorem missingUnit_eq_none_iff (i : Instr) : missingUnit i = none ↔ i.wf = true := by
  simp [missingUnit, Instr.wf]

theorem missingUnit_of_not_wf {i : Instr} (h : i.wf = false) : ∃ n, missingUnit i = some n := by
  refine Option.ne_none_iff_exists'.mp fun hn => ?_
  rw [(missingUnit_eq_none_iff i).mp hn] at h
  cases h

theorem run_answers (i : Instr) (f : Env → Dev → Dev) (s : State) : Answers i s (run i f s) := by
  refine ⟨fun h => ⟨_, run_next ((missingUnit_eq_none_iff i).mpr h), s.follows_dev _⟩, fun h => ?_⟩
  obtain ⟨n, hn⟩ := missingUnit_of_not_wf h
  exact ⟨n, run_fault hn⟩

theorem runClocked_answers (i : Instr) (f : Env → Dev → Dev) (s : State) : Answers i s (runClocked i f s) :=
  run_answers i _ s

theorem runPower_answers (i : Instr) (f : Env → Dev → Dev) (s : State) : Answers i s (runPower i f s) := by
  refine ⟨fun h => ⟨_, runPower_next ((missingUnit_eq_none_iff i).mpr h), rfl, s.fuse.kept_refl, fun _ => clockAfter_raw ..⟩,
    fun h => ?_⟩
  obtain ⟨n, hn⟩ := missingUnit_of_not_wf h
  exact ⟨n, by simp [runPower, hn]⟩

/-- An answer of a command on existing units. -/
theorem answers_next {i : Instr} {s t : State} (hi : i.wf = true) (ht : s.Follows t) : Answers i s (.next t) :=
  ⟨fun _ => ⟨t, rfl, ht⟩, fun h => absurd (hi.symm.trans h) (by decide)⟩

theorem answers_fault {i : Instr} {s : State} (n : Nat) (hi : i.wf = false) : Answers i s (.fault (.noSuchUnit n)) :=
  ⟨fun h => absurd (hi.symm.trans h) (by decide), fun _ => ⟨n, rfl⟩⟩

/-! ## The rows that act on more than the device -/

theorem execLifecycleReset_answers (s : State) : Answers Instr.lifecycleReset s (execLifecycleReset s) := by
  unfold execLifecycleReset
  split_ifs
  · exact answers_next rfl (s.follows_coldStarted _ _)
  · exact run_answers ..

theorem execFirmwareReady_answers (s : State) : Answers Instr.firmwareReady s (execFirmwareReady s) := by
  unfold execFirmwareReady
  dsimp only
  split_ifs
  · exact answers_next rfl (s.follows_fuse _ (Fuses.kept_raiseFw _ _))
  · exact run_answers ..

/-- A loss of the counter's clock stops it at its value. -/
theorem State.follows_stopped (s : State) (d : Dev) : s.Follows { s with dev := d, clk := { s.clk with running := false } } :=
  ⟨rfl, s.fuse.kept_refl, fun _ => .inl rfl⟩

theorem execRefclkLoss_answers (s : State) : Answers Instr.refclkLoss s (execRefclkLoss s) := by
  unfold execRefclkLoss
  split_ifs
  · exact answers_next rfl (s.follows_stopped _)
  · exact answers_next rfl (s.follows_stopped _)
  · exact run_answers ..

theorem execRefclkTimeout_answers (s : State) : Answers Instr.refclkTimeout s (execRefclkTimeout s) := by
  unfold execRefclkTimeout
  dsimp only
  split_ifs
  · exact answers_next rfl (s.follows_stopped _)
  · exact run_answers ..

/-- A running counter does not resume; a stopped one may take any value. -/
theorem execCounterResume_answers (s : State) : Answers Instr.counterResume s (execCounterResume s) := by
  unfold execCounterResume
  dsimp only
  split_ifs with hrun
  · exact run_answers ..
  · exact run_answers ..
  · exact answers_next rfl ⟨rfl, s.fuse.kept_refl, fun h => absurd h hrun⟩
  · exact answers_next rfl ⟨rfl, s.fuse.kept_refl, fun h => absurd h hrun⟩
  · exact run_answers ..

theorem execDomainReset_answers (s : State) : Answers Instr.domainReset s (execDomainReset s) := by
  unfold execDomainReset
  split
  · exact run_answers ..
  next h m rest _ =>
    dsimp only
    split
    · exact answers_next rfl (s.follows_reset _ rfl s.kept_fuseNow)
    · exact answers_next rfl (s.follows_fuse _ (Fuses.kept_trans s.kept_fuseNow (Fuses.kept_mended _)))
    · exact answers_next rfl (s.follows_fuse _ (Fuses.kept_trans s.kept_fuseNow (Fuses.kept_mended _)))
    · exact answers_next rfl (s.follows_dev _)

theorem execRailTrip_answers (rail : Nat) (high : Bool) (s : State) :
    Answers (Instr.railTrip rail high) s (execRailTrip rail high s) := by
  unfold execRailTrip
  split
  next h =>
    have hwf : (Instr.railTrip rail high).wf = true := by simp [Instr.wf, Instr.units]; omega
    exact answers_next hwf (s.follows_railTripped _ _)
  next => exact run_answers ..

theorem execRailRampTimeout_answers (rail : Nat) (s : State) :
    Answers (Instr.railRampTimeout rail) s (execRailRampTimeout rail s) := by
  unfold execRailRampTimeout
  split_ifs with h
  · have hwf : (Instr.railRampTimeout rail).wf = true := by simpa [Instr.wf, Instr.units] using h.1
    exact answers_next hwf (s.follows_railTripped _ _)
  · exact run_answers ..

theorem execRailRetry_answers (s : State) : Answers Instr.railRetry s (execRailRetry s) := by
  unfold execRailRetry
  split_ifs
  · exact answers_next rfl (s.follows_coldStarted _ _)
  · exact run_answers ..

theorem execRailEntersWindow_answers (rail : Nat) (s : State) :
    Answers (Instr.railEntersWindow rail) s (execRailEntersWindow rail s) := by
  unfold execRailEntersWindow
  split_ifs with h
  · exact answers_fault rail (by simpa [Instr.wf, Instr.units] using h)
  · exact answers_next (by simpa [Instr.wf, Instr.units] using h) (s.follows_dev _)
  · exact answers_next (by simpa [Instr.wf, Instr.units] using h) (s.follows_dev _)

theorem execClockMonitorTrip_answers (clk : Nat) (ppm : Int) (lost : Bool) (s : State) :
    Answers (Instr.clockMonitorTrip clk ppm lost) s (execClockMonitorTrip clk ppm lost s) := by
  unfold execClockMonitorTrip
  split
  next h =>
    have hwf : (Instr.clockMonitorTrip clk ppm lost).wf = true := by simp [Instr.wf, Instr.units, h.1]
    exact answers_next hwf (s.follows_stopped _)
  next => exact run_answers ..

theorem execTemperatureSample_answers (readings : List Int) (s : State) :
    Answers (Instr.temperatureSample readings) s (execTemperatureSample readings s) := by
  unfold execTemperatureSample
  dsimp only
  split_ifs
  · exact answers_next rfl (s.follows_reset _ rfl s.kept_fuseNow)
  · exact answers_next rfl (s.follows_dev _)
  · exact run_answers ..

theorem execHoldupStart_answers (s : State) : Answers Instr.holdupStart s (execHoldupStart s) :=
  answers_next rfl (s.follows_fuse _ s.kept_fuseNow)

theorem execHoldupEnd_answers (s : State) : Answers Instr.holdupEnd s (execHoldupEnd s) := by
  unfold execHoldupEnd
  dsimp only
  split_ifs
  · exact answers_next rfl (s.follows_coldStarted _ _)
  · exact answers_next rfl (s.follows_dev _)
  · exact answers_next rfl (s.follows_dev _)
  · exact answers_next rfl (s.follows_dev _)

theorem execWakeN_answers (s : State) : Answers Instr.wakeN s (execWakeN s) := by
  unfold execWakeN
  split_ifs
  · exact run_answers ..
  · exact answers_next rfl (s.follows_coldStarted _ _)
  · exact run_answers ..

theorem execPorstN_answers (s : State) : Answers Instr.porstN s (execPorstN s) :=
  answers_next rfl (s.follows_reset _ rfl s.kept_fuseNow)

theorem execPorstNRelease_answers (b : StartUp) (s : State) :
    Answers (Instr.porstNRelease b) s (execPorstNRelease b s) := by
  unfold execPorstNRelease
  split_ifs
  · exact answers_next rfl (s.follows_coldStarted _ _)
  · exact run_answers ..

theorem execWarmRstN_answers (s : State) : Answers Instr.warmRstN s (execWarmRstN s) := by
  unfold execWarmRstN
  dsimp only
  split_ifs
  · exact answers_next rfl (s.follows_dev _)
  · exact answers_next rfl (s.follows_reset _ rfl s.kept_fuseNow)
  · exact answers_next rfl (s.follows_fuse _ s.kept_fuseNow)

theorem execWarmRstNRelease_answers (b : StartUp) (s : State) :
    Answers (Instr.warmRstNRelease b) s (execWarmRstNRelease b s) := by
  unfold execWarmRstNRelease
  dsimp only
  split_ifs
  · exact run_answers ..
  · exact answers_next rfl (s.follows_coldStarted _ _)
  · exact answers_next rfl (s.follows_fuse _ (Fuses.kept_mended _))
  · exact answers_next rfl (s.follows_dev _)

theorem execCommandWorkComplete_answers (q tag : Nat) (s : State) :
    Answers (Instr.commandWorkComplete q tag) s (execCommandWorkComplete q tag s) := by
  have hwf : (Instr.commandWorkComplete q tag).wf = decide (q < 32) := by simp [Instr.wf, Instr.units]
  unfold execCommandWorkComplete
  split
  · split_ifs with h901 hq
    · exact answers_next (by simpa [hwf] using h901.1) (s.follows_transition _)
    · exact answers_next (by simpa [hwf] using hq) (s.follows_fuse _ (Fuses.kept_afterWork _ _))
    · exact answers_fault q (by simpa [hwf] using hq)
  · exact run_answers ..

/-! ## Every command -/

/-- Every row answers: most act on the device alone, the rest are the rows above. -/
theorem exec_answers (i : Instr) (s : State) : Answers i s (exec i s) := by
  cases i <;> simp only [exec]
  case power q e => exact runPower_answers ..
  case submissionTake => exact runPower_answers ..
  case deepSleepEntry ch => exact runPower_answers ..
  case lifecycleReset => exact execLifecycleReset_answers s
  case firmwareReady => exact execFirmwareReady_answers s
  case refclkLoss => exact execRefclkLoss_answers s
  case counterResume => exact execCounterResume_answers s
  case domainReset => exact execDomainReset_answers s
  case railTrip rail high => exact execRailTrip_answers rail high s
  case railRampTimeout rail => exact execRailRampTimeout_answers rail s
  case railRetry => exact execRailRetry_answers s
  case clockMonitorTrip clk ppm lost => exact execClockMonitorTrip_answers clk ppm lost s
  case temperatureSample readings => exact execTemperatureSample_answers readings s
  case holdupStart => exact execHoldupStart_answers s
  case holdupEnd => exact execHoldupEnd_answers s
  case wakeN => exact execWakeN_answers s
  case porstN => exact execPorstN_answers s
  case porstNRelease b => exact execPorstNRelease_answers b s
  case warmRstN => exact execWarmRstN_answers s
  case warmRstNRelease b => exact execWarmRstNRelease_answers b s
  case refclkTimeout => exact execRefclkTimeout_answers s
  case commandWorkComplete q tag => exact execCommandWorkComplete_answers q tag s
  case railEntersWindow rail => exact execRailEntersWindow_answers rail s
  case narrowStoreMerge | queueEntryArrival | raceReleaseEntry | slotMarkArrival | hurdleArrival | hurdleReleaseArrival |
      sliceEnd | gddr6ReadTimeout | csiFrameStart | csiFrameEnd | csiLongPacket | csiLineMarker | lineTimeout | frameTimeMax
      | silenceTimeout | ethSensorFrame | periodSampleClose | feedRead | decodeSlot | decodeBudgetExhausted |
      readinessNotice | verdictWrite | crossCheck | bridgeForward | loadDataReturn =>
    exact runClocked_answers ..
  all_goals exact run_answers ..

/-- What a command that answers a next state keeps. -/
theorem exec_follows {i : Instr} {s t : State} (h : exec i s = .next t) : s.Follows t := by
  obtain ⟨hnext, hfault⟩ := exec_answers i s
  cases hwf : i.wf with
  | true =>
    obtain ⟨u, hu, hfollows⟩ := hnext hwf
    rw [h] at hu
    cases hu
    exact hfollows
  | false =>
    obtain ⟨n, hn⟩ := hfault hwf
    rw [h] at hn
    cases hn

/-! ## What a step can do -/

theorem step_nil {s : State} (h : s.pending = []) : step s = .next (idle s) := by
  unfold step
  rw [h]

theorem step_cons {s : State} {c : Instr} {rest : List Instr} (h : s.pending = c :: rest) :
    step s = exec c { s with pending := rest } := by
  unfold step
  rw [h]

/-- Settles O46: by the definition of a step on a queue with a front. -/
theorem stepRunsFrontCommand : Obligations.step_runs_front_command :=
  fun _ _ _ => step_cons rfl

/-- Settles O47: the three cases of an idle step. -/
theorem idleStepPassesTime : Obligations.idle_step_passes_time := by
  intro s hs
  rw [step_nil hs]
  refine ⟨fun hrun => ?_, fun hrun hstandby => ?_, fun hrun hstandby => ?_⟩
  · simp [idle, hrun]
  · simp [idle, hrun, hstandby]
  · simp [idle, hrun, hstandby]

/-- Settles O48, row by row. -/
theorem everyCommandAnswers : Obligations.every_command_answers := by
  intro c s
  obtain ⟨hnext, hfault⟩ := exec_answers c s
  refine ⟨fun hwf => ?_, hfault⟩
  obtain ⟨t, ht, hfollows⟩ := hnext hwf
  exact ⟨t, ht, hfollows.pending⟩

theorem idle_fuse (s : State) : (idle s).fuse = s.fuse := by
  unfold idle
  split_ifs <;> rfl

/-- Settles O49: an idle step leaves the fuses, and every command only sets some. -/
theorem fusesOnlyGain : Obligations.fuses_only_gain := by
  intro f s t hf hstep
  cases hs : s.pending with
  | nil =>
    rw [step_nil hs] at hstep
    cases hstep
    rwa [idle_fuse]
  | cons c rest =>
    rw [step_cons hs] at hstep
    exact Fuses.kept_trans hf (exec_follows hstep).fuse

/-- Settles O50: only an idle step advances the counter, and a command keeps it or leaves it at 0. -/
theorem rawCounterOnlyAdvances : Obligations.raw_counter_only_advances := by
  intro s t hrun hlt hstep
  cases hs : s.pending with
  | nil =>
    rw [step_nil hs] at hstep
    cases hstep
    have hraw : (idle s).clk.raw = (s.clk.raw + 1) % 2 ^ 64 := by simp [idle, hrun]
    rw [hraw]
    exact ⟨by omega, fun h => absurd rfl h, Nat.mod_lt _ (by decide)⟩
  | cons c rest =>
    rw [step_cons hs] at hstep
    have hraw : t.clk.raw = s.clk.raw ∨ t.clk.raw = 0 := (exec_follows hstep).raw hrun
    exact ⟨hraw.elim .inl fun h => .inr (.inr h), fun _ => hraw, by omega⟩

end Sys2Proof.Machine
end

section
/-! SUPPORT. The state right after reset (R13, R575, R576): every table and list is empty, so each reader gives its default. -/

namespace Sys2Proof.Machine

open Sys2Proof

/-- At reset no cell of memory is listed, so every byte reads zero (R193). -/
theorem reset_mget (a : Nat) : mget State.reset.dev.mem.bytes a = 0 :=
  mget_absent _ a fun _ hc => absurd hc List.not_mem_nil

/-- Settles O51: the device after reset has empty tables and default units, and its memory is canonical. -/
theorem resetLeavesTheDeviceOff : Obligations.reset_leaves_the_device_off := by
  have hpins : State.reset.dev.safe.safe0 = true ∧ State.reset.dev.safe.safe1 = true ∧ State.reset.dev.safe.pulse = false :=
    ⟨rfl, rfl, rfl⟩
  have hpower : State.reset.dev.pow.state = .off ∧ State.reset.dev.pow.porstLow = true := ⟨rfl, rfl⟩
  have hlines : ∀ l, State.reset.dev.isPoisoned l = false ∧ tget State.reset.dev.mem.err l = none := fun _ => ⟨rfl, rfl⟩
  exact ⟨rfl, rfl, rfl, hpower.1, hpower.2, hpins.1, hpins.2.1, hpins.2.2, rfl, fun _ => rfl, rfl, rfl, rfl, rfl, reset_memOk, rfl,
    rfl, reset_mget, hlines, fun _ => rfl, fun _ => rfl, fun _ => rfl, fun _ => rfl, fun _ => rfl, fun _ => rfl, fun _ => rfl,
    fun _ => rfl, Fuses.kept_refl _⟩

end Sys2Proof.Machine
end

section
/-! SUPPORT. Entry to STANDBY counts a hold (R162, R320, R560): the copy-back of a write-back region reads fold memory, and a corrected
line extends the hold counter of its physical fold, which O1 says stays as it was. -/

namespace Sys2Proof.Machine

open Sys2Proof

/-- A device in IDLE with one STOPPED instance, whose write-back region of one line in fold 0's memory holds a wrong bit. -/
def copyBackDev : Dev := {
  foldMap := [(0, 0)]
  insts := [(0, { fn := .stopped, image := some { regions := [{ kind := 1, base := foldBase 0, size := 64 }] } })]
  mem := { err := [(foldBase 0 / 64, .single 0)] }
  mbox := { ready := true, queues := [(0, {})] }
  pow := { state := .idle, phase := .settled, firstIdle := true } }

def copyBackState : State := { pending := [], clk := {}, fuse := {}, dev := copyBackDev }

/-- POWER for STANDBY, its other fields zero. -/
def standbyEntry : Sub := { flags := 0, tag := 7, target := 0, timeoutUs := 0, args := 2 :: List.replicate 47 0 }

/-- The hold counter of physical fold 0 in the state that a command leaves. -/
def heldAfter (o : Host.Outcome State Fault Refusal) : Nat :=
  match o with
  | .next t => (t.dev.physFold 0).holdCycles
  | _ => 0

/-- The read that copies the line back corrects it and holds the fold for three cycles. -/
theorem heldAfter_standby : heldAfter (exec (.power 0 standbyEntry) copyBackState) = 3 := by
  decide +kernel

/-- Refutes O1: POWER for STANDBY with nothing active or outstanding, where an instance's write-back region has a line to correct,
changes the physical folds' part. -/
theorem not_adminCommandsComplete : ¬ Obligations.admin_commands_complete := by
  unfold Obligations.admin_commands_complete
  rintro ⟨-, -, hpower⟩
  obtain ⟨hstandby, -⟩ := hpower copyBackState (copyBackState.taken 0) 0 standbyEntry rfl (by decide) (by decide +kernel) rfl
    (by decide +kernel) (by decide +kernel) (by decide +kernel) (by decide +kernel)
  obtain ⟨t, ht, -, -, -, -, hsame⟩ := hstandby (by decide +kernel) (by decide +kernel)
  have hphys : copyBackDev.phys = t.dev.phys := hsame .phys (by decide)
  have hheld := heldAfter_standby
  rw [ht] at hheld
  have hzero : (t.dev.physFold 0).holdCycles = 0 := by rw [Dev.physFold, ← hphys]; rfl
  exact absurd (hzero.symm.trans hheld) (by decide)

end Sys2Proof.Machine
end

section
/-! SUPPORT. Program instances and images (R128, R133, R152, R153, R291, R315, R378, R379, R392, R398, R399): how the handlers answer
an entry that the state admits. -/

namespace Sys2Proof.Machine

open Sys2Proof

section

variable {v : Env} {q : Nat} {e : Sub} {d : Dev} {b : List Byte}

/-- A source that is read with no poison, of an image whose checks fail, is reported with the first failing check (R399). -/
theorem hLoad_refused (hzero : e.zero 0x1C 36 = true) (hok : sourceOk (e.field 0x10 8) (e.field 0x18 4) = true)
    (hsource : d.source (e.field 0x10 8) (e.field 0x18 4) = (b, false, d)) (hfn : (d.inst e.target).fn.canConfigure = true)
    (hopen : d.loadOpen e.target = false) (hcheck : checkImage v.fuse 1 (e.field 0x18 4) b ≠ stOk) :
    hLoad v q e d = refuse (checkImage v.fuse 1 (e.field 0x18 4) b) (d.refusedImage b) := by
  simp [hLoad, hzero, hok, hfn, hopen, hsource, hcheck]

/-- A good image frees the instance's old objects and becomes outstanding (R398). -/
theorem hLoad_taken (hzero : e.zero 0x1C 36 = true) (hok : sourceOk (e.field 0x10 8) (e.field 0x18 4) = true)
    (hsource : d.source (e.field 0x10 8) (e.field 0x18 4) = (b, false, d)) (hfn : (d.inst e.target).fn.canConfigure = true)
    (hopen : d.loadOpen e.target = false) (hcheck : checkImage v.fuse 1 (e.field 0x18 4) b = stOk)
    (himage : (d.clearInst e.target).imageOk e.target (imageOf b) = true)
    (hsched : (d.clearInst e.target).loadSchedulable e.target (imageOf b) = true)
    (hmapped : ((imageOf b).folds.all fun n => 48 ≤ n || d.physOf n != 0xFF) = true) :
    hLoad v q e d = (.long (some (imageOf b)) [(Config.imageSections (ctBody b)).threads.length], d.clearInst e.target) := by
  have hnone : ((imageOf b).folds.any fun n => decide (n < 48) && d.physOf n == 0xFF) = false := by
    rw [List.any_eq_false]
    intro n hn
    have := List.all_eq_true.mp hmapped n hn
    simp only [Bool.or_eq_true, decide_eq_true_eq, bne_iff_ne] at this
    simp only [Bool.and_eq_true, decide_eq_true_eq, beq_iff_eq]
    omega
  simp only [hLoad, hzero, hok, hfn, hopen, hsource, hcheck, himage, hsched, hnone, Bool.not_true, Bool.false_eq_true, or_self,
    Bool.or_self, if_false, ne_eq, not_true_eq_false]

theorem hFirmwareStage_refused (hzero : e.zero 0x1C 36 = true) (hok : sourceOk (e.field 0x10 8) (e.field 0x18 4) = true)
    (hsource : d.source (e.field 0x10 8) (e.field 0x18 4) = (b, false, d)) (hlen : e.field 0x18 4 ≤ 0x2000000)
    (hone : (d.mbox.outst.all fun o => o.opcode != 0x205) = true) (hcheck : checkImage v.fuse 0 (e.field 0x18 4) b ≠ stOk) :
    hFirmwareStage v q e d = refuse (checkImage v.fuse 0 (e.field 0x18 4) b) (d.refusedImage b) := by
  have hnone : (d.mbox.outst.any fun o => o.opcode == 0x205) = false := by simpa using hone
  simp [hFirmwareStage, hzero, hok, hsource, hnone, hcheck, Nat.not_lt.mpr hlen]

theorem hFirmwareStage_taken (hzero : e.zero 0x1C 36 = true) (hok : sourceOk (e.field 0x10 8) (e.field 0x18 4) = true)
    (hsource : d.source (e.field 0x10 8) (e.field 0x18 4) = (b, false, d)) (hlen : e.field 0x18 4 ≤ 0x2000000)
    (hone : (d.mbox.outst.all fun o => o.opcode != 0x205) = true) (hcheck : checkImage v.fuse 0 (e.field 0x18 4) b = stOk) :
    hFirmwareStage v q e d = (.long none (b.map (·.toNat)), d.setInactive { container := [], valid := false }) := by
  have hnone : (d.mbox.outst.any fun o => o.opcode == 0x205) = false := by simpa using hone
  simp [hFirmwareStage, hzero, hok, hsource, hnone, hcheck, Nat.not_lt.mpr hlen]

end

/-- Settles O2: each command's handler, evaluated where the state admits the entry. -/
theorem programCommandsComplete : Obligations.program_commands_complete := by
  unfold Obligations.program_commands_complete
  refine ⟨fun s₀ s q e hs hq => ?instances, fun s₀ s q e b hs hq hzero hok hsource => ?images⟩
  case instances =>
    subst hs
    refine ⟨fun hadm hzero hopen hfn hheld => ?unload, fun hadm hzero hopen hfn hmapped => ?start,
      fun hadm hzero hopen halign hlo hhi hfn hmode hinvoc => ?invoke, fun hadm hzero hopen hmode hfn => ?discard,
      fun hadm hzero hopen hmode hfn => ?rest, fun hadm hzero hopen hmode hfn hdone => ?drain⟩
    case unload =>
      exact row_answered (missingUnit_queue rfl hq) hadm rfl
        (by simp [hUnload, ok, hzero, hopen, hfn, hheld, FnState.release])
    case start =>
      exact row_answered (missingUnit_queue rfl hq) hadm rfl
        (by simp [hStart, ok, hzero, hopen, hfn, hmapped, FnState.canStart])
    case invoke =>
      exact row_opened (missingUnit_queue rfl hq) hadm rfl
        (by simp [hInvoke, hzero, hopen, halign, hfn, hmode, hinvoc, Nat.not_lt.mpr hlo, Nat.not_lt.mpr hhi]; rfl)
    case discard =>
      exact row_answered (missingUnit_queue rfl hq) hadm rfl
        (by simp [hStop, ok, Sub.stopForm, hzero, hopen, hmode, hfn, FnState.stopPath]; rfl)
    case rest =>
      exact row_answered (missingUnit_queue rfl hq) hadm rfl
        (by simp [hStop, ok, Sub.stopForm, hzero, hopen, hmode, hfn, FnState.stopPath]; rfl)
    case drain =>
      exact row_opened (missingUnit_queue rfl hq) hadm rfl
        (by simp [hStop, Sub.stopForm, hzero, hopen, hmode, hfn, hdone, FnState.stopPath])
  case images =>
    subst hs
    refine ⟨fun hadm hfn hopen => ?load, fun hadm hlen hone => ?stage⟩
    case load =>
      by_cases hcheck : checkImage s₀.fuse 1 (e.field 0x18 4) b = stOk
      · by_cases hgood : ((s₀.taken q).dev.clearInst e.target).imageOk e.target (imageOf b) = true ∧
            ((s₀.taken q).dev.clearInst e.target).loadSchedulable e.target (imageOf b) = true ∧
            ((imageOf b).folds.all fun n => 48 ≤ n || (s₀.taken q).dev.physOf n != 0xFF) = true
        · obtain ⟨himage, hsched, hmapped⟩ := hgood
          exact ⟨_, row_opened (missingUnit_queue rfl hq) hadm rfl
            (hLoad_taken hzero hok hsource hfn hopen hcheck himage hsched hmapped), fun _ _ _ _ => rfl, fun h => absurd hcheck h⟩
        · obtain ⟨t, ht, -⟩ := (exec_answers (.load q e) s₀).1 (by simp [Instr.wf, Instr.units, hq])
          exact ⟨t, ht, fun _ himage hsched hmapped => absurd ⟨himage, hsched, hmapped⟩ hgood, fun h => absurd hcheck h⟩
      · exact ⟨_, row_answered (missingUnit_queue rfl hq) hadm rfl (hLoad_refused hzero hok hsource hfn hopen hcheck),
          fun h => absurd h hcheck, fun _ => ⟨rfl, by simp [State.answered, Dev.refusedImage]⟩⟩
    case stage =>
      by_cases hcheck : checkImage s₀.fuse 0 (e.field 0x18 4) b = stOk
      · exact ⟨_, row_opened (missingUnit_queue rfl hq) hadm rfl (hFirmwareStage_taken hzero hok hsource hlen hone hcheck),
          fun _ => rfl, fun h => absurd hcheck h⟩
      · exact ⟨_, row_answered (missingUnit_queue rfl hq) hadm rfl (hFirmwareStage_refused hzero hok hsource hlen hone hcheck),
          fun h => absurd h hcheck, fun _ => ⟨rfl, by simp [State.answered, Dev.refusedImage]⟩⟩

end Sys2Proof.Machine
end

section
/-! SUPPORT. Frames that compose: two devices agree beside a list of parts, and what each shared operation leaves alone, so that a
chain of operations has its frame by transitivity. -/

namespace Sys2Proof.Machine

open Sys2Proof

/-- Two devices agree in every part that is not listed. -/
def Dev.agrees (l : List Part) (a b : Dev) : Prop := ∀ p, p ∉ l → p.same a b

theorem Part.same_refl (p : Part) (d : Dev) : p.same d d := by
  cases p <;> rfl

@[refl] theorem Dev.agrees_refl (l : List Part) (d : Dev) : d.agrees l d := fun p _ => p.same_refl d

theorem Dev.agrees.trans {l : List Part} {a b c : Dev} (hab : a.agrees l b) (hbc : b.agrees l c) : a.agrees l c :=
  fun p hp => Part.same_trans (hab p hp) (hbc p hp)

theorem Dev.agrees.mono {l m : List Part} {a b : Dev} (h : a.agrees m b) (hm : m ⊆ l) : a.agrees l b :=
  fun p hp => h p fun hin => hp (hm hin)

/-- What touches listed parts only, followed by what touches some of them. -/
theorem Dev.agrees.andThen {l m : List Part} {a b c : Dev} (hab : a.agrees l b) (hbc : b.agrees m c) (hm : m ⊆ l) :
    a.agrees l c :=
  hab.trans (hbc.mono hm)

theorem Dev.agrees_foldl {α : Type} {l : List Part} {f : Dev → α → Dev} (h : ∀ (d : Dev) x, d.agrees l (f d x)) (xs : List α) (d : Dev) :
    d.agrees l (xs.foldl f d) := by
  induction xs generalizing d with
  | nil => exact d.agrees_refl l
  | cons x xs ih => exact (h d x).trans (ih (f d x))

/-- A state with another device touches what the devices do not agree in. -/
theorem State.touches_of_agrees {s : State} {d : Dev} {l : List Part} (h : s.dev.agrees l d) : s.touches (s.put d) l :=
  ⟨rfl, rfl, rfl, h⟩

/-- Taking an entry changes nothing that an effect reads beside the device. -/
@[simp] theorem State.env_taken (s : State) (q : Nat) : (s.taken q).env = s.env := rfl

/-- No outstanding command has the tag of an entry that firmware takes (R373). -/
theorem outstBy_taken_of_admits {s : State} {q op : Nat} {e : Sub} (h : s.dev.admits q op e = true) :
    (s.taken q).dev.outstBy q e.tag = none := by
  obtain ⟨-, -, -, -, hnone, -⟩ := admits_facts h
  exact Option.isSome_eq_false_iff.mp hnone |> Option.isNone_iff_eq_none.mp

/-- A command that becomes outstanding under a free tag is the outstanding command of that tag. -/
theorem outstBy_opened {s : State} {d : Dev} {q op : Nat} {e : Sub} (h : d.outstBy q e.tag = none) (img : Option Image)
    (aux : List Nat) : ((s.opened d q op e img aux).dev.outstBy q e.tag).map (·.opcode) = some op := by
  simp only [Dev.outstBy, State.opened, Dev.open, List.find?_append] at h ⊢
  simp [h]

/-! ## One part replaced -/

section

variable (d : Dev)

theorem Dev.agrees_mem (x : Mem) : d.agrees [.mem] { d with mem := x } := by
  intro p hp; cases p <;> simp_all [Part.same]

theorem Dev.agrees_gddr (x : Gddr) : d.agrees [.gddr] { d with gddr := x } := by
  intro p hp; cases p <;> simp_all [Part.same]

theorem Dev.agrees_folds (x : Tab Fold) : d.agrees [.folds] { d with folds := x } := by
  intro p hp; cases p <;> simp_all [Part.same]

theorem Dev.agrees_phys (x : Tab PhysFold) : d.agrees [.phys] { d with phys := x } := by
  intro p hp; cases p <;> simp_all [Part.same]

theorem Dev.agrees_foldMap (x : Tab Nat) : d.agrees [.foldMap] { d with foldMap := x } := by
  intro p hp; cases p <;> simp_all [Part.same]

theorem Dev.agrees_threads (x : Tab Thread) : d.agrees [.threads] { d with threads := x } := by
  intro p hp; cases p <;> simp_all [Part.same]

theorem Dev.agrees_posted (x : List Posted) : d.agrees [.posted] { d with posted := x } := by
  intro p hp; cases p <;> simp_all [Part.same]

theorem Dev.agrees_insts (x : Tab Inst) : d.agrees [.insts] { d with insts := x } := by
  intro p hp; cases p <;> simp_all [Part.same]

theorem Dev.agrees_queues (x : Tab FQueue) : d.agrees [.queues] { d with queues := x } := by
  intro p hp; cases p <;> simp_all [Part.same]

theorem Dev.agrees_slots (x : Tab Slot) : d.agrees [.slots] { d with slots := x } := by
  intro p hp; cases p <;> simp_all [Part.same]

theorem Dev.agrees_hurdles (x : Tab Hurdle) : d.agrees [.hurdles] { d with hurdles := x } := by
  intro p hp; cases p <;> simp_all [Part.same]

theorem Dev.agrees_flights (x : List Flight) : d.agrees [.flights] { d with flights := x } := by
  intro p hp; cases p <;> simp_all [Part.same]

theorem Dev.agrees_host (x : HostPort) : d.agrees [.host] { d with host := x } := by
  intro p hp; cases p <;> simp_all [Part.same]

theorem Dev.agrees_mbox (x : Mailbox) : d.agrees [.mbox] { d with mbox := x } := by
  intro p hp; cases p <;> simp_all [Part.same]

theorem Dev.agrees_race (x : Race) : d.agrees [.race] { d with race := x } := by
  intro p hp; cases p <;> simp_all [Part.same]

theorem Dev.agrees_fsets (x : Tab FSet) : d.agrees [.fsets] { d with fsets := x } := by
  intro p hp; cases p <;> simp_all [Part.same]

theorem Dev.agrees_tu (x : TimeUnit) : d.agrees [.tu] { d with tu := x } := by
  intro p hp; cases p <;> simp_all [Part.same]

theorem Dev.agrees_flock (x : Flock) : d.agrees [.flock] { d with flock := x } := by
  intro p hp; cases p <;> simp_all [Part.same]

theorem Dev.agrees_col (x : Collector) : d.agrees [.col] { d with col := x } := by
  intro p hp; cases p <;> simp_all [Part.same]

theorem Dev.agrees_safe (x : Safety) : d.agrees [.safe] { d with safe := x } := by
  intro p hp; cases p <;> simp_all [Part.same]

theorem Dev.agrees_sec (x : Security) : d.agrees [.sec] { d with sec := x } := by
  intro p hp; cases p <;> simp_all [Part.same]

theorem Dev.agrees_pow (x : PowerUnit) : d.agrees [.pow] { d with pow := x } := by
  intro p hp; cases p <;> simp_all [Part.same]

theorem Dev.agrees_free (x : Nat) : d.agrees [.free] { d with free := x } := by
  intro p hp; cases p <;> simp_all [Part.same]

/-- The collector and the pins. -/
theorem Dev.agrees_fault (c : Collector) (x : Safety) : d.agrees faultParts { d with col := c, safe := x } :=
  ((d.agrees_col c).mono (by decide)).andThen (Dev.agrees_safe _ x) (by decide)

/-- The parts that posting touches. -/
theorem Dev.agrees_post (m : Mem) (b : Mailbox) (f : Flock) (c : Collector) (x : Safety) :
    d.agrees postParts { d with mem := m, mbox := b, flock := f, col := c, safe := x } :=
  (((((d.agrees_mem m).mono (by decide)).andThen (Dev.agrees_mbox _ b) (by decide)).andThen (Dev.agrees_flock _ f) (by decide)).andThen (Dev.agrees_col _ c) (by decide)).andThen
    (Dev.agrees_safe _ x) (by decide)

/-! ## The shared operations -/

theorem Dev.agrees_modMem (f : Mem → Mem) : d.agrees [.mem] (d.modMem f) := d.agrees_mem _
theorem Dev.agrees_modFold (n : Nat) (f : Fold → Fold) : d.agrees [.folds] (d.modFold n f) := d.agrees_folds _
theorem Dev.agrees_modPhys (p : Nat) (f : PhysFold → PhysFold) : d.agrees [.phys] (d.modPhys p f) := d.agrees_phys _
theorem Dev.agrees_modThread (t : Nat) (f : Thread → Thread) : d.agrees [.threads] (d.modThread t f) := d.agrees_threads _
theorem Dev.agrees_modInst (k : Nat) (f : Inst → Inst) : d.agrees [.insts] (d.modInst k f) := d.agrees_insts _
theorem Dev.agrees_modGate (g : Nat) (f : Gate → Gate) : d.agrees [.race] (d.modGate g f) := d.agrees_race _
theorem Dev.agrees_modFset (n : Nat) (f : FSet → FSet) : d.agrees [.fsets] (d.modFset n f) := d.agrees_fsets _
theorem Dev.agrees_modDom (k : Nat) (f : Domain → Domain) : d.agrees [.tu] (d.modDom k f) := d.agrees_tu _
theorem Dev.agrees_modTrig (k : Nat) (f : Trigger → Trigger) : d.agrees [.tu] (d.modTrig k f) := d.agrees_tu _
theorem Dev.agrees_modPeer (k : Nat) (f : Peer → Peer) : d.agrees [.flock] (d.modPeer k f) := d.agrees_flock _
theorem Dev.agrees_modStile (k : Nat) (f : Stile → Stile) : d.agrees [.flock] (d.modStile k f) := d.agrees_flock _
theorem Dev.agrees_modMac (m : Nat) (f : MacPort → MacPort) : d.agrees [.flock] (d.modMac m f) := d.agrees_flock _
theorem Dev.agrees_modQueue (q : Nat) (f : MQueue → MQueue) : d.agrees [.mbox] (d.modQueue q f) := d.agrees_mbox _
theorem Dev.agrees_spend : d.agrees [.free] d.spend := d.agrees_free _
theorem Dev.agrees_open (o : Outst) : d.agrees [.mbox] (d.open o) := d.agrees_mbox _
theorem Dev.agrees_poke (a : Nat) (bs : List Byte) : d.agrees [.mem] (d.poke a bs) := d.agrees_mem _
theorem Dev.agrees_zeroRange (a n : Nat) : d.agrees [.mem] (d.zeroRange a n) := d.agrees_mem _
theorem Dev.agrees_pins : d.agrees [.safe] d.pins := d.agrees_safe _

theorem Dev.agrees_raise (src kind detail arg : Nat) : d.agrees faultParts (d.raise src kind detail arg) := by
  rw [Dev.raise_frame]; exact d.agrees_fault _ _

theorem Dev.agrees_raiseSecond (e : Env) (src kind detail arg : Nat) (b : Bool) :
    d.agrees [.col] (d.raiseSecond e src kind detail arg b) := by
  rw [Dev.raiseSecond_frame]; exact d.agrees_col _

theorem Dev.agrees_write (a : Nat) (bs : List Byte) (p : Bool) : d.agrees [.mem, .col, .safe] (d.write a bs p) := by
  rw [Dev.write_frame]; exact ((d.agrees_mem _).mono (by decide)).andThen (Dev.agrees_fault _ _ _) (by decide)

theorem Dev.agrees_readLine (src : Nat) (holds : Bool) (line : Nat) :
    d.agrees [.mem, .phys, .col, .safe] (d.readLine src holds line).2 := by
  rw [Dev.readLine_frame]; exact (((d.agrees_mem _).mono (by decide)).andThen (Dev.agrees_phys _ _) (by decide)).andThen (Dev.agrees_fault _ _ _) (by decide)

theorem Dev.agrees_readLines (src : Nat) (holds : Bool) (a n : Nat) :
    d.agrees [.mem, .phys, .col, .safe] (d.readLines src holds a n).2 := by
  rw [Dev.readLines_frame]; exact (((d.agrees_mem _).mono (by decide)).andThen (Dev.agrees_phys _ _) (by decide)).andThen (Dev.agrees_fault _ _ _) (by decide)

theorem Dev.agrees_complete (e : Env) (q opcode : Nat) (s : Sub) (r : Reply) : d.agrees postParts (d.complete e q opcode s r) := by
  rw [Dev.complete_frame]; exact d.agrees_post _ _ _ _ _

theorem Dev.agrees_finish (e : Env) (o : Outst) (r : Reply) : d.agrees postParts (d.finish e o r) := by
  rw [Dev.finish_frame]; exact d.agrees_post _ _ _ _ _

theorem Dev.agrees_finishAll (e : Env) (f : Outst → Bool) (r : Reply) : d.agrees postParts (d.finishAll e f r) := by
  rw [Dev.finishAll_frame]; exact d.agrees_post _ _ _ _ _

theorem Dev.agrees_notify (e : Env) (kind r0 r1 r2 : Nat) (u : Bool) : d.agrees postParts (d.notify e kind r0 r1 r2 u) := by
  rw [Dev.notify_frame]; exact d.agrees_post _ _ _ _ _

theorem Dev.agrees_noteState (e : Env) (kind : Nat) (st : FnState) (n m : Nat) :
    d.agrees postParts (d.noteState e kind st n m) := by
  rw [Dev.noteState_frame]; exact d.agrees_post _ _ _ _ _

end

end Sys2Proof.Machine
end

section
/-! SUPPORT. The gate commands (R48, R49, R61, R63, R81, R105, R107, R378, R379, R392, R394, R401 to R405): what a good block hands to its
handler, what a start leaves of its gate, and what the assignment of a counter leaves. -/

namespace Sys2Proof.Machine

open Sys2Proof

/-- A block that firmware has read and found good is handed on as it is (R388). -/
theorem Dev.withBlock_of_blockIs {d : Dev} {e : Sub} {b : List Byte} (h : d.blockIs e b) (f : List Byte → Dev → Answer × Dev) :
    d.withBlock e f = f b d := by
  obtain ⟨hzero, hblock⟩ := h
  simp [Dev.withBlock, hzero, hblock]

theorem Dev.gate_of_race {d d' : Dev} (h : d.race = d'.race) (g : Nat) : d.gate g = d'.gate g := by
  rw [Dev.gate, h]; rfl

@[simp] theorem Dev.gate_open (d : Dev) (o : Outst) (g : Nat) : (d.open o).gate g = d.gate g := rfl

theorem Dev.agrees_recover (d : Dev) (e : Env) : d.agrees [.folds, .phys] (d.recover e) := by
  refine Dev.agrees_foldl (fun d n => ?_) _ d
  dsimp only
  split_ifs
  · rfl
  · exact ((Dev.agrees_modPhys _ _ _).mono (by decide)).andThen (Dev.agrees_modFold _ _ _) (by decide)

/-- A start leaves its gate RUNNING with its core, its counter at 0 and its settings as they were. -/
theorem Dev.gate_startGate (d : Dev) (e : Env) (g : Nat) (c : Option Nat) :
    ((d.startGate e g c).gate g).fn = .running ∧ ((d.startGate e g c).gate g).core = c ∧
      ((d.startGate e g c).gate g).nextCounter = 0 ∧ ((d.startGate e g c).gate g).settings = (d.gate g).settings := by
  unfold Dev.startGate
  dsimp only
  rw [← Dev.gate_of_race (Dev.agrees_recover _ e .race (by decide)), Dev.gate_modGate, if_pos rfl]
  exact ⟨rfl, rfl, rfl, rfl⟩

/-- The assignment of a counter changes its gate alone (R69 to R71). -/
theorem Dev.assign_eq_modGate (d : Dev) (g : Nat) (capture : Int) : ∃ f, (d.assign g capture).2 = d.modGate g f := by
  unfold Dev.assign
  dsimp only
  split
  · exact ⟨_, rfl⟩
  · exact ⟨_, rfl⟩

/-- A feed of an acceptable length and later capture time joins the feeds of its uncoded gate (R61 to R63, R403). -/
theorem hGateFeed_taken {v : Env} {q : Nat} {e : Sub} {d : Dev} (hflags : e.field 0x28 2 < 4) (hzero : e.zero 0x2A 22 = true)
    (hfn : (d.gate e.target).fn = .running) (hkind : Settings.kind (d.gate e.target).settings = 2)
    (hroom : ((d.gate e.target).feeds.filter fun f => !f.refused).length < 4)
    (hsource : d.feedSource (e.field 0x10 8) (e.field 0x20 4) = true) (hdec : Settings.decoder (d.gate e.target).settings = 0)
    (hlen : feedLengthOk (d.gate e.target).settings false (e.field 0x20 4) = true)
    (hlast : ∀ c, (d.gate e.target).lastCapture = some c → c < e.field 0x18 8) :
    ∃ f : Feed, hGateFeed v q e d = (.long none [], (d.assign e.target (e.field 0x18 8)).2.modGate e.target fun y => { y with
      feeds := y.feeds ++ [f], lastCapture := some (e.field 0x18 8) }) := by
  have hlater : ((d.gate e.target).lastCapture.map fun c => decide (c < e.field 0x18 8)).getD true = true := by
    cases hc : (d.gate e.target).lastCapture with
    | none => rfl
    | some c => simpa using hlast c hc
  unfold hGateFeed
  simp only [Nat.not_le.mpr hflags, hzero, hfn, hkind, Nat.not_le.mpr hroom, hsource, hdec, hlen, hlater, Bool.not_true,
    Bool.false_eq_true, or_self, ne_eq, not_true_eq_false, if_false, decide_false, Bool.false_and, Bool.and_self, if_true]
  exact ⟨_, rfl⟩

/-- A DRAIN stop of a gate with an open frame leaves it STOPPING, its refused feeds dropped (R49, R379). -/
theorem hGateStop_drain {v : Env} {q : Nat} {e : Sub} {d d' : Dev} (hzero : e.zero 0x11 47 = true) (hmode : e.field 0x10 1 = 0)
    (hfn : (d.gate e.target).fn = .running)
    (hd : d' = Dev.flushRefused (((d.modGate e.target fun x => { x with fn := .stopping }).cancelShift v
        e.target).gate e.target).feeds.length v e.target
        ((d.modGate e.target fun x => { x with fn := .stopping }).cancelShift v e.target))
    (hstop : (d'.gate e.target).fn = .stopping) (hframe : (d'.gate e.target).frame.isSome = true) :
    hGateStop v q e d = (.long none [], d') := by
  have hopen : (d'.gate e.target).frame.isNone = false := by simpa using hframe
  simp only [hGateStop, Sub.stopForm, hzero, hmode, hfn, FnState.stopPath, ← hd, hstop, hopen]
  rfl

/-- Settles O3: each command's handler, evaluated where the gate's state admits the entry. -/
theorem gateCommandsComplete : Obligations.gate_commands_complete := by
  unfold Obligations.gate_commands_complete
  refine ⟨fun s₀ s q e hs hq => ?settings, fun s₀ s q e hs hq => ?feeds⟩
  case settings =>
    subst hs
    refine ⟨fun b l hadm hzero hfn hblock hparse hok => ?configure, fun now v hadm hlen hzero hlive hfn hnow hv hok => ?setLive,
      fun now v hadm hlen hzero hfn hnow hv hok => ?setStopped, fun c hadm hzero hfn hok hcore => ?start,
      fun hadm hzero hmode hfn => ?discard, fun d hadm hzero hmode hfn hd hstop hframe => ?drain,
      fun hadm hzero hfn => ?release⟩
    case configure =>
      exact row_answered (missingUnit_queue rfl hq) hadm rfl
        (by simp [hGateConfigure, ok, hzero, hfn, Dev.withBlock_of_blockIs hblock, hparse, hok])
    case setLive =>
      subst hnow hv
      exact row_answered (missingUnit_queue rfl hq) hadm rfl
        (by simp [hGateSet, ok, hlen, hzero, hlive, hfn, hok, FnState.live])
    case setStopped =>
      subst hnow hv
      exact row_answered (missingUnit_queue rfl hq) hadm rfl
        (by simp [hGateSet, ok, hlen, hzero, hfn, hok, FnState.live])
    case start =>
      refine ⟨_, row_answered (missingUnit_queue rfl hq) hadm rfl
        (by simp [hGateStart, ok, hzero, hfn, hok, hcore, FnState.canStart]), rfl, ?_⟩
      simpa only [State.answered, Dev.gate_of_race (Dev.complete_race ..)] using Dev.gate_startGate _ (s₀.taken q).env e.target c
    case discard =>
      exact row_answered (missingUnit_queue rfl hq) hadm rfl
        (by simp [hGateStop, ok, Sub.stopForm, hzero, hmode, hfn, FnState.stopPath])
    case drain =>
      exact row_opened (missingUnit_queue rfl hq) hadm rfl (hGateStop_drain hzero hmode hfn hd hstop hframe)
    case release =>
      exact row_answered (missingUnit_queue rfl hq) hadm rfl (by simp [hGateRelease, ok, hzero, hfn, FnState.release])
  case feeds =>
    subst hs
    refine ⟨fun hadm hflags hzero hfn hkind hroom hsource hdec hlen hlast => ?feed,
      fun b hadm hk hbank hzero hfn hidle hpending hblock hok => ?tableLoad, fun hadm hk hzero hfn hpending hfresh => ?tableSwitch⟩
    case feed =>
      obtain ⟨f, hf⟩ := hGateFeed_taken (v := s₀.env) (q := q) hflags hzero hfn hkind hroom hsource hdec hlen hlast
      obtain ⟨k, hk⟩ := Dev.assign_eq_modGate (s₀.taken q).dev e.target (e.field 0x18 8)
      rw [hk] at hf
      have hnew : (s₀.taken q).dev.outstBy q e.tag = none := by
        exact outstBy_taken_of_admits hadm
      refine ⟨_, row_opened (missingUnit_queue rfl hq) hadm rfl hf, ?_, ?_, ?_, rfl, fun g hg => ?_⟩
      · simp [State.opened, Dev.gate_modGate]
      · exact outstBy_opened hnew _ _
      · exact State.touches_of_agrees ((((Dev.agrees_modGate _ _ _).mono (by decide)).andThen (Dev.agrees_modGate _ _ _) (by decide)).andThen (Dev.agrees_open _ _) (by decide))
      · simp [State.opened, Dev.gate_modGate, hg]
    case tableLoad =>
      exact row_answered (missingUnit_queue rfl hq) hadm rfl
        (by simp [hGateTableLoad, ok, hzero, hfn, hpending, Dev.withBlock_of_blockIs hblock, hok, Nat.not_lt.mpr hk,
          Nat.not_lt.mpr hbank, hidle.symm])
    case tableSwitch =>
      exact row_opened (missingUnit_queue rfl hq) hadm rfl
        (by simp [hGateTableSwitch, hzero, hfn, hpending, hfresh, Nat.not_lt.mpr hk])

end Sys2Proof.Machine
end

section
/-! SUPPORT. Port, frame-set, window and lookup-table commands (R45, R46, R51, R69, R262, R263, R320, R321, R342, R343, R400, R404): how
their handlers answer an entry that the state admits. -/

namespace Sys2Proof.Machine

open Sys2Proof

/-! ## GATE_MAP (R46, R400) -/

theorem Dev.unmapGate_eq (d : Dev) (g : Nat) : ∃ m, d.unmapGate g = { d with race := { d.race with portMap := m } } := by
  unfold Dev.unmapGate
  split
  · exact ⟨_, rfl⟩
  · exact ⟨d.race.portMap, rfl⟩

/-- A port and channel whose gate, if any, is at rest goes to a gate at rest: only the port map changes, and it names the gate there. -/
theorem hGateMap_maps {v : Env} {q : Nat} {e : Sub} {d : Dev} (hzero : e.zero 0x12 46 = true) (hp : e.field 0x10 1 ≤ 11)
    (hc : e.field 0x11 1 ≤ 3) (hgate : (d.gate e.target).fn.active = false)
    (hloser : ∀ g, d.gateOf (e.field 0x10 1) (e.field 0x11 1) = some g → (d.gate g).fn.active = false) :
    ∃ m, hGateMap v q e d = ok { d with race := { d.race with
      portMap := tset m (4 * e.field 0x10 1 + e.field 0x11 1) (some e.target) } } := by
  obtain ⟨m, hm⟩ := d.unmapGate_eq e.target
  have hnot : ((d.gateOf (e.field 0x10 1) (e.field 0x11 1)).map fun l => (d.gate l).fn.active).getD false = false := by
    cases hg : d.gateOf (e.field 0x10 1) (e.field 0x11 1) with
    | none => rfl
    | some g => exact hloser g hg
  have hne : e.field 0x10 1 ≠ 0xFF := by omega
  refine ⟨m, ?_⟩
  simp [hGateMap, hzero, hne, hgate, hnot, hm, Nat.not_lt.mpr hp, Nat.not_lt.mpr hc]

/-! ## Lookup tables (R262, R263) -/

theorem any_eq_false_of_all {α : Type} {l : List α} {p r : α → Bool} (h : l.all p = true) (hpr : ∀ x, p x = true → r x = false) :
    l.any r = false :=
  List.any_eq_false.mpr fun x hx => by simp [hpr x (List.all_eq_true.mp h x hx)]

section

variable {v : Env} {q : Nat} {e : Sub} {d : Dev}

/-- A good block is loaded into the bank of every fold named, where none of them is unmapped, uses that bank or waits (R404). -/
theorem hTableLoad_loads {b : List Byte} (hmask : e.field 0x10 8 < 2 ^ 49) (hslot : e.field 0x18 1 ≤ 3) (hbank : e.field 0x19 1 ≤ 1)
    (hzero : e.zero 0x1A 2 = true) (hzero' : e.zero 0x24 12 = true) (hrange : lutRangeOk (e.field 0x1C 4) (e.field 0x20 4) = true)
    (hfree : (maskFolds (e.field 0x10 8)).all (fun n => !(n < 48 && d.physOf n == 0xFF) &&
      (d.lut n (e.field 0x18 1)).active != some (e.field 0x19 1) && !(d.lut n (e.field 0x18 1)).pending) = true)
    (hblock : d.blockIs e b) (hlen : b.length = 4096) :
    hTableLoad v q e d = ok ((maskFolds (e.field 0x10 8)).foldl (fun d n => d.modLut n (e.field 0x18 1) fun t => {
      t.setBank (e.field 0x19 1) (some { lo := e.field 0x1C 4, hi := e.field 0x20 4, entries := words32 1024 b }) with
        loadedBank := some (e.field 0x19 1) }) d) := by
  have hmapped : ((maskFolds (e.field 0x10 8)).any fun n => n < 48 && d.physOf n == 0xFF) = false := by
    refine any_eq_false_of_all hfree fun n hn => ?_
    simp only [Bool.and_eq_true, Bool.not_eq_true'] at hn
    exact hn.1.1
  have hidle : ((maskFolds (e.field 0x10 8)).any fun n =>
      (d.lut n (e.field 0x18 1)).active == some (e.field 0x19 1) || (d.lut n (e.field 0x18 1)).pending) = false :=
    any_eq_false_of_all hfree fun n hn => by simp_all
  simp only [hTableLoad, Nat.not_le.mpr hmask, Nat.not_lt.mpr hslot, Nat.not_lt.mpr hbank, hzero, hzero', hrange, hmapped, hidle,
    Dev.withBlock_of_blockIs hblock, hlen, Bool.not_true, Bool.false_eq_true, or_self, if_false, ne_eq, not_true_eq_false]

/-- A switch marks every fold named; those whose vector engine is idle have switched, and the command waits for the others (R263). -/
theorem hTableSwitch_marks {d' : Dev} (hmask : e.field 0x10 8 < 2 ^ 49) (hslot : e.field 0x18 1 ≤ 3) (hzero : e.zero 0x19 39 = true)
    (hready : (maskFolds (e.field 0x10 8)).all (fun n => (d.lut n (e.field 0x18 1)).loadedBank.isSome &&
      !(d.lut n (e.field 0x18 1)).pending) = true)
    (hd : d' = ((maskFolds (e.field 0x10 8)).foldl (fun d n => d.modLut n (e.field 0x18 1) fun t => { t with pending := true })
      d).switchIdle v (maskFolds (e.field 0x10 8))) :
    hTableSwitch v q e d = if (maskFolds (e.field 0x10 8)).filter (fun n => (d'.lut n (e.field 0x18 1)).pending) = [] then
        (.done { r1 := e.field 0x10 8 }, d')
      else (.long none (e.field 0x18 1 :: (maskFolds (e.field 0x10 8)).filter fun n => (d'.lut n (e.field 0x18 1)).pending), d') := by
  have hpending : ((maskFolds (e.field 0x10 8)).any fun n => (d.lut n (e.field 0x18 1)).pending) = false :=
    any_eq_false_of_all hready fun n hn => by simp_all
  have hloaded : ((maskFolds (e.field 0x10 8)).any fun n => (d.lut n (e.field 0x18 1)).loadedBank.isNone) = false :=
    any_eq_false_of_all hready fun n hn => by simp_all [Option.isSome_iff_ne_none]
  simp only [hTableSwitch, Nat.not_le.mpr hmask, Nat.not_lt.mpr hslot, hzero, hpending, hloaded, Bool.not_true, Bool.false_eq_true,
    or_self, if_false, ← hd]
  split
  next hnil => rw [if_pos hnil]
  next hne => rw [if_neg fun hnil => hne hnil]

end

/-- Settles O4: each command's handler, evaluated where the state admits the entry. -/
theorem portAndWindowCommandsComplete : Obligations.port_and_window_commands_complete := by
  unfold Obligations.port_and_window_commands_complete
  refine ⟨fun s₀ s q e hs hq => ?ports, fun s₀ s q e hs hq => ?windows⟩
  case ports =>
    subst hs
    refine ⟨fun hadm hzero hp hc hgate hloser => ?map, fun hadm hphy hzero hzero' hok hgates => ?port,
      fun hadm hzero hzero' hlo hhi hdom hoff hoff' hhold hmembers => ?fset, fun hadm hzero hhold hcfg => ?hold⟩
    case map =>
      obtain ⟨m, hm⟩ := hGateMap_maps (v := s₀.env) (q := q) hzero hp hc hgate hloser
      refine ⟨_, row_answered (missingUnit_queue rfl hq) hadm rfl hm, ?_, ?_, ?_, ?_⟩
      · simp [State.answered, Dev.gateOf, Nat.not_lt.mpr hc]
      · exact State.touches_of_agrees (((Dev.agrees_race _ _).mono (by decide)).andThen (Dev.agrees_complete _ _ _ _ _ _) (by decide))
      · simp [State.answered]
      · simp [State.answered]
    case port =>
      exact row_answered (missingUnit_queue rfl hq) hadm rfl
        (by simp [hPortConfigure, ok, hzero, hzero', hok, hgates, Nat.not_lt.mpr hphy])
    case fset =>
      exact row_answered (missingUnit_queue rfl hq) hadm rfl
        (by simp [hFsetConfigure, ok, hzero, hzero', hmembers, Nat.not_lt.mpr hlo, Nat.not_lt.mpr hhi, Nat.not_lt.mpr hdom,
          Nat.not_lt.mpr hoff, Nat.not_lt.mpr hoff', Nat.not_lt.mpr hhold])
    case hold =>
      exact row_answered (missingUnit_queue rfl hq) hadm rfl
        (by simp [hFsetHold, ok, hzero, Nat.not_lt.mpr hhold, Option.isSome_iff_ne_none.mp hcfg])
  case windows =>
    subst hs
    refine ⟨fun hadm hw hzero hok hlen howes => ?window, fun b hadm hmask hslot hbank hzero hzero' hrange hfree hblock hlen => ?load,
      fun d wait hadm hmask hslot hzero hready hd hwait => ?switch⟩
    case window =>
      exact row_answered (missingUnit_queue rfl hq) hadm rfl (by simp [hWindowMap, ok, hw, hzero, hok, hlen, howes])
    case load =>
      exact row_answered (missingUnit_queue rfl hq) hadm rfl
        (hTableLoad_loads hmask hslot hbank hzero hzero' hrange hfree hblock hlen)
    case switch =>
      have hmarks := hTableSwitch_marks (v := s₀.env) (q := q) hmask hslot hzero hready hd
      rw [← hwait] at hmarks
      split_ifs at hmarks ⊢
      · exact row_answered (missingUnit_queue rfl hq) hadm rfl hmarks
      · exact row_opened (missingUnit_queue rfl hq) hadm rfl hmarks

end Sys2Proof.Machine
end

section
/-! SUPPORT. Time-domain and trigger commands (R378, R379, R392, R394, R406, R413, R417, R421, R423, R426): how their handlers answer an
entry that the state admits. -/

namespace Sys2Proof.Machine

open Sys2Proof

@[simp] theorem State.clk_taken (s : State) (q : Nat) : (s.taken q).clk = s.clk := rfl

/-- Domain time is read from the parameter sets alone, which a release leaves (R417). -/
theorem Dev.domTime_of_params {d d' : Dev} {k : Nat} (h : (d'.dom k).params = (d.dom k).params) (r : Nat) :
    d'.domTime k r = d.domTime k r := by
  rw [Dev.domTime, h, Dev.domTime]

/-- A running or FAULTED domain has no accepted work: a stop under either mode frees it at once (R378, R379). -/
theorem hDomainStop_frees {v : Env} {q : Nat} {e : Sub} {d : Dev} (hzero : e.zero 0x11 47 = true) (hmode : e.field 0x10 1 < 2)
    (hfn : (d.dom e.target).fn = .running ∨ (d.dom e.target).fn = .faulted) :
    hDomainStop v q e d = ok (d.domFree v e.target .stopped) := by
  have hform : e.stopForm = true := by simp [Sub.stopForm, hmode, hzero]
  rcases hfn with hfn | hfn
  · by_cases hdrain : e.field 0x10 1 = 0
    · simp [hDomainStop, hform, hfn, FnState.stopPath, hdrain]
    · simp [hDomainStop, hform, hfn, FnState.stopPath, hdrain]
  · simp [hDomainStop, hform, hfn, FnState.stopPath]

/-- Settles O5: each command's handler, evaluated where the function's state admits the entry. -/
theorem timeCommandsComplete : Obligations.time_commands_complete := by
  unfold Obligations.time_commands_complete
  refine ⟨fun s₀ s q e hs hq => ?domains, fun s₀ s q e hs hq => ?triggers⟩
  case domains =>
    subst hs
    refine ⟨fun hadm hproto hnum hports hprio hvlan hzero hfn => ?configure, fun hadm hzero hfn hready href hpll => ?start,
      fun hadm hzero hfn hready hlost => ?startStopped, fun hadm hzero hmode hfn => ?stop, fun hadm hzero hfn => ?release,
      fun hadm hzero => ?select, fun hadm hzero hzero' hdelay => ⟨fun hin => ?delayIn, fun hout => ?delayOut⟩, fun hadm hzero => ?read⟩
    case configure =>
      exact row_answered (missingUnit_queue rfl hq) hadm rfl
        (by simp [hDomainConfigure, ok, hvlan, hzero, hfn, Nat.not_lt.mpr hproto, Nat.not_lt.mpr hnum, Nat.not_lt.mpr hports,
          Nat.not_lt.mpr hprio])
    case start =>
      exact row_answered (missingUnit_queue rfl hq) hadm rfl
        (by simp [hDomainStart, ok, hzero, hfn, hready, href, hpll, FnState.canStart, Dev.startDomain])
    case startStopped =>
      exact row_answered (missingUnit_queue rfl hq) hadm rfl
        (by simp [hDomainStart, ok, hzero, hfn, hready, hlost, FnState.canStart, Dev.startDomain])
    case stop =>
      exact row_answered (missingUnit_queue rfl hq) hadm rfl (hDomainStop_frees hzero hmode hfn)
    case release =>
      refine ⟨_, row_answered (missingUnit_queue rfl hq) hadm rfl (by simp [hDomainRelease, ok, hzero, hfn, FnState.release]),
        fun r => ⟨Dev.domTime_of_params ?_ r, rfl⟩⟩
      simp [State.answered, Dev.dom, Dev.modDom, tgetD_tmod]
    case select => exact row_answered (missingUnit_queue rfl hq) hadm rfl (by simp [hTimeSelect, ok, hzero])
    case delayIn =>
      exact row_answered (missingUnit_queue rfl hq) hadm rfl
        (by simp [hPortDelay, ok, hin, hzero, hzero', Nat.not_lt.mpr hdelay])
    case delayOut =>
      exact row_answered (missingUnit_queue rfl hq) hadm rfl
        (by simp [hPortDelay, ok, hout, hzero, hzero', Nat.not_lt.mpr hdelay])
    case read => exact row_answered (missingUnit_queue rfl hq) hadm rfl (by simp [hTimeRead, hzero, State.env])
  case triggers =>
    subst hs
    refine ⟨fun hadm hper hlow hzero hzero' hok hfn => ?configure, fun c hadm hzero hfn hcfg hahead => ?start,
      fun hadm hzero hmode hfn => ?discard, fun hadm hzero hmode hfn hpulse => ?drain, fun hadm hzero hfn => ?release⟩
    case configure =>
      exact row_answered (missingUnit_queue rfl hq) hadm rfl
        (by simp [hTrigConfigure, ok, hzero, hzero', hok, hfn, Nat.not_lt.mpr hper, Nat.not_lt.mpr hlow])
    case start =>
      have hlate : ¬ (c.start : Int) < (s₀.taken q).dev.domTime c.dom s₀.clk.raw := Int.not_lt.mpr hahead
      exact row_answered (missingUnit_queue rfl hq) hadm rfl
        (by simp [hTrigStart, ok, hzero, hfn, hcfg, hlate, FnState.canStart, State.env])
    case discard =>
      exact row_answered (missingUnit_queue rfl hq) hadm rfl
        (by simp [hTrigStop, ok, Sub.stopForm, hzero, hmode, hfn, FnState.stopPath])
    case drain =>
      exact row_opened (missingUnit_queue rfl hq) hadm rfl
        (by simp [hTrigStop, Sub.stopForm, hzero, hmode, hfn, hpulse, FnState.stopPath])
    case release =>
      exact row_answered (missingUnit_queue rfl hq) hadm rfl (by simp [hTrigRelease, ok, hzero, hfn, FnState.release])

end Sys2Proof.Machine
end

section
/-! SUPPORT. Flock, MAC port, peer and stile commands (R378, R379, R394, R407, R433, R434, R441, R442, R445, R451, R458): how their handlers
answer an entry that the state admits. -/

namespace Sys2Proof.Machine

open Sys2Proof

theorem any_eq_false_of_all_not {α : Type} {l : List α} {p r : α → Bool} (h : l.all p = true) (hpr : ∀ x, r x = !p x) :
    l.any r = false :=
  any_eq_false_of_all h fun x hx => by simp [hpr, hx]

section

variable {v : Env} {q : Nat} {e : Sub} {d : Dev}

/-- At device 0 an event with enough lead is ordered at once, where none is held and none asked for (R458). -/
theorem hFlockEvent_orders (hkind : e.field 0x10 1 ≤ 1) (hdom : e.field 0x11 1 ≤ 1) (hzero : e.zero 0x12 6 = true)
    (hzero' : e.zero 0x20 32 = true) (hdev : d.flock.dev = some 0) (hroot : d.treeParent = none)
    (hlead : d.domTime (e.field 0x11 1) v.raw + 31000 ≤ e.field 0x18 8) (hnone : d.flock.event = none)
    (hone : (d.mbox.outst.all fun o => o.opcode != 0x0601) = true) (hidle : d.rootPending v = false) :
    hFlockEvent v q e d = (.done { r1 := e.field 0x18 8 }, (d.rootOrder v {
      kind := e.field 0x10 1, domain := e.field 0x11 1, origin := 0, eventId := 0, tag := e.tag, instant := e.field 0x18 8 }).2) := by
  have hone' : (d.mbox.outst.any fun o => o.opcode == 0x0601) = false := any_eq_false_of_all_not hone fun _ => (Bool.not_not _).symm
  simp [hFlockEvent, hzero, hzero', hdev, hroot, hnone, hone', hidle, Nat.not_lt.mpr hkind, Nat.not_lt.mpr hdom, Int.not_lt.mpr hlead]

theorem Dev.initiates_modPeer (d : Dev) (k : Nat) {f : Peer → Peer} (hf : ∀ p, (f p).cfg = p.cfg) :
    (d.modPeer k f).initiates k = d.initiates k := by
  simp only [Dev.initiates, Dev.peer_modPeer, if_true, hf]
  rfl

/-- The initiator of a link opens a session and sends its first CONNECT (R442). -/
theorem hPeerStart_initiates (hzero : e.zero 0x10 48 = true) (hfn : (d.peer e.target).fn = .stopped)
    (hdev : d.flock.dev.isSome = true) (hidle : (d.peer e.target).connecting = false) (hfirst : d.initiates e.target = true) :
    hPeerStart v q e d = (.long none [], (d.modPeer e.target fun p => { p with
      connecting := true, session := sessionOf v.raw, lastRx := v.raw, lastTx := v.raw }).putFrame v e.target 1 0 [] []) := by
  have hsame := d.initiates_modPeer e.target (f := fun p => { p with
    connecting := true, session := sessionOf v.raw, lastRx := v.raw, lastTx := v.raw }) fun _ => rfl
  simp [hPeerStart, hzero, hfn, Option.isSome_iff_ne_none.mp hdev, hidle, hfirst, hsame, FnState.canStart]

end

/-- Settles O6: each command's handler, evaluated where the function's state admits the entry. -/
theorem flockCommandsComplete : Obligations.flock_commands_complete := by
  unfold Obligations.flock_commands_complete
  refine ⟨fun s₀ s q e hs hq => ?links, fun s₀ s q e hs hq => ?stiles⟩
  case links =>
    subst hs
    refine ⟨fun hadm hdev htype hmask hzero hpeers hstiles => ?identity,
      fun hadm hkind hdom hzero hzero' hdev hroot hlead hnone hone hidle => ?event,
      fun hadm hrate hvar hzeroRate hzero hfree hone => ?port,
      fun hadm hdev hport hprio hvlan hzero hzero' hfn hidle hapart => ?peerConfigure,
      fun hadm hzero hfn hdev hidle hfirst => ?peerStart, fun hadm hzero hmode hfn => ?peerStop,
      fun hadm hzero hfn hidle => ?peerRelease⟩
    case identity =>
      have hpeers' := any_eq_false_of_all_not (r := fun x => x.2.fn != .unconfigured) hpeers fun _ => rfl
      have hstiles' := any_eq_false_of_all_not (r := fun x => x.2.fn != .unconfigured) hstiles fun _ => rfl
      have hdev' : ¬ (511 < e.field 0x10 2 ∧ e.field 0x10 2 ≠ 0xFFFF) := by omega
      have htype' : ¬ (e.field 0x12 2 ≠ 0 ∧ e.field 0x12 2 < 0x600) := by omega
      exact row_answered (missingUnit_queue rfl hq) hadm rfl
        (by simp only [hFlockIdentity, ok, hdev', htype', hzero, hpeers', hstiles', Nat.not_lt.mpr hmask, Bool.not_true,
          Bool.false_eq_true, or_self, Bool.or_self, if_false])
    case event =>
      exact row_answered (missingUnit_queue rfl hq) hadm rfl
        (hFlockEvent_orders hkind hdom hzero hzero' hdev hroot hlead hnone hone hidle)
    case port =>
      have hone' := any_eq_false_of_all_not (r := fun (o : Outst) => o.opcode == 0x602 && o.e.target == e.target) hone fun _ => (Bool.not_not _).symm
      have hvar' : ¬ (e.field 0x10 1 < 2 ∧ e.field 0x11 1 ≠ 0) := by omega
      exact row_opened (missingUnit_queue rfl hq) hadm rfl
        (by simp only [hEthPort, hvar', hzero, hfree, hone', Nat.not_lt.mpr hrate, Nat.not_lt.mpr hvar, Bool.not_true,
          Bool.false_eq_true, or_self, if_false])
    case peerConfigure =>
      have hapart' := any_eq_false_of_all_not (r := fun x => x.1 != e.target && x.2.fn != .unconfigured &&
        (x.2.cfg.map (·.dev)) == some (e.field 0x10 2)) hapart fun x => by simp [bne, Bool.not_or, Bool.and_assoc]
      exact row_answered (missingUnit_queue rfl hq) hadm rfl
        (by simp only [hPeerConfigure, ok, hvlan, hzero, hzero', hfn, hidle, hapart', Nat.not_lt.mpr hdev, Nat.not_lt.mpr hport,
          Nat.not_lt.mpr hprio, Bool.not_true, Bool.false_eq_true, or_self, if_false])
    case peerStart =>
      exact row_opened (missingUnit_queue rfl hq) hadm rfl (hPeerStart_initiates hzero hfn hdev hidle hfirst)
    case peerStop =>
      exact row_answered (missingUnit_queue rfl hq) hadm rfl
        (by simp [hPeerStop, ok, Sub.stopForm, hzero, hmode, hfn, FnState.stopPath])
    case peerRelease =>
      exact row_answered (missingUnit_queue rfl hq) hadm rfl (by simp [hPeerRelease, ok, hzero, hfn, hidle, FnState.release])
  case stiles =>
    subst hs
    refine ⟨fun b hadm hflags hzero hzero' hrange hfn hblock heven hlen hpeers => ?configure, fun hadm hzero hfn hdev => ?start,
      fun hadm hzero hmode hfn hidle => ?stop, fun hadm hzero hfn => ?release, fun i c hi hcfg hlife hfn hover => ?lifetime⟩
    case configure =>
      have hpeers' : ((stileOf e b).peers.any fun n => 511 < n) = false :=
        any_eq_false_of_all hpeers fun n hn => by simpa using hn
      exact row_answered (missingUnit_queue rfl hq) hadm rfl
        (by simp only [hStileConfigure, ok, hzero, hzero', hrange, hfn, Dev.withBlock_of_blockIs hblock, heven, hpeers',
          Nat.not_lt.mpr hflags, Nat.not_lt.mpr hlen, Bool.not_true, Bool.false_eq_true, or_self, ne_eq, not_true_eq_false, if_false])
    case start =>
      exact row_answered (missingUnit_queue rfl hq) hadm rfl
        (by simp [hStileStart, ok, hzero, hfn, Option.isSome_iff_ne_none.mp hdev, FnState.canStart, State.env])
    case stop =>
      exact row_answered (missingUnit_queue rfl hq) hadm rfl
        (by simp [hStileStop, ok, Sub.stopForm, hzero, hmode, hfn, hidle, FnState.stopPath])
    case release =>
      exact row_answered (missingUnit_queue rfl hq) hadm rfl (by simp [hStileRelease, ok, hzero, hfn, FnState.release])
    case lifetime =>
      rw [exec_stileLifetime, execStileLifetime, run_next (by simp [missingUnit, Instr.units, hi])]
      simp [hcfg, hlife, hfn, hover, State.put, State.env]

end Sys2Proof.Machine
end

section
/-! SUPPORT. Safety, fault and security commands (R408 to R410, R476, R489, R511, R516, R518, R532 to R534, R546, R550 to R552): how their
handlers answer an entry that the state admits. -/

namespace Sys2Proof.Machine

open Sys2Proof

section

variable {v : Env} {q : Nat} {e : Sub} {d : Dev} {b : List Byte}

/-- Rules that are in range and agree replace those before, and the judged runs are forgotten (R489). -/
theorem hAgreeConfigure_replaces {recs : List (List Byte)} (hk : 1 ≤ e.field 0x10 1) (hkn : e.field 0x10 1 ≤ e.field 0x11 1)
    (hn : e.field 0x11 1 ≤ 64) (hzero : e.zero 0x12 30 = true)
    (hfeeds : (d.race.gates.all fun x => !(x.2.fn.active && Settings.collieFeed x.2.settings)) = true) (hblock : d.blockIs e b)
    (hwhole : b.length % 64 = 0) (hlen : b.length ≤ 1024)
    (hrecs : recs = (List.range (b.length / 64)).map fun i => (b.drop (64 * i)).take 64) (hok : recs.all (ruleOk d) = true)
    (hagree : rulesAgree (recs.map ruleOf) = true) :
    hAgreeConfigure v q e d = ok { d with safe := { d.safe with
      rules := recs.map ruleOf, k := e.field 0x10 1, n := e.field 0x11 1, history := [], runs := [] } } := by
  have hidle : (d.race.gates.any fun x => x.2.fn.active && Settings.collieFeed x.2.settings) = false :=
    any_eq_false_of_all_not hfeeds fun _ => (Bool.not_not _).symm
  simp only [hAgreeConfigure, Nat.pos_iff_ne_zero.mp hk, Nat.not_lt.mpr hkn, Nat.not_lt.mpr hn, hzero, hidle,
    Dev.withBlock_of_blockIs hblock, ← hrecs, hwhole, Nat.not_lt.mpr hlen, hok, hagree, Bool.not_true, Bool.false_eq_true, or_self,
    ne_eq, not_true_eq_false, if_false]

/-- A severity at or above the source's fixed minimum is set; that of source 0 in LC_DEVELOP only (R511). -/
theorem hSeveritySet_sets (hsource : (sourceRow (e.field 0x10 2)).isSome = true) (hsrc : e.field 0x10 2 ≤ 1023)
    (hsev : e.field 0x12 1 ≤ 3) (hzero : e.zero 0x13 45 = true) (hmin : minimumOf v (e.field 0x10 2) ≤ e.field 0x12 1)
    (hdev : e.field 0x10 2 = 0 → lifecycleOf v.fuse = lcDevelop) :
    hSeveritySet v q e d = ok { d with col := { d.col with
      severity := tset d.col.severity (e.field 0x10 2) (e.field 0x12 1) } } := by
  have hallowed : ¬ (e.field 0x12 1 < minimumOf v (e.field 0x10 2) ∨ (e.field 0x10 2 = 0 ∧ lifecycleOf v.fuse ≠ lcDevelop)) :=
    not_or.mpr ⟨Nat.not_lt.mpr hmin, fun h => h.2 (hdev h.1)⟩
  have hknown : (sourceRow (e.field 0x10 2)).isNone = false := by simpa using hsource
  simp only [hSeveritySet, Nat.not_lt.mpr hsrc, Nat.not_lt.mpr hsev, hzero, hknown, hallowed, Bool.not_true, Bool.false_eq_true,
    or_self, if_false]

/-- The named sticky bits whose condition does not persist are cleared (R516). -/
theorem hStickyClear_clears {named keep : Nat × Nat → Bool} (hzero : e.zero 0x10 32 = true) (hblock : d.blockIs e b)
    (hlen : b.length = 128) (hnamed : named = fun x => bitOf (fieldAt b (x.1 / 8) 1) (x.1 % 8))
    (hkeep : keep = fun x => !named x || d.persists v x.1) :
    hStickyClear v q e d = (.done { r0 := ((d.col.held.filter keep).filter named).length },
      { d with col := { d.col with held := d.col.held.filter keep } }.pins) := by
  subst hkeep hnamed
  simp [hStickyClear, hzero, Dev.withBlock_of_blockIs hblock, hlen]

/-- A log ring in the Common, of a whole number of pages, begins empty (R518). -/
theorem hLogConfigure_begins (halign : e.field 0x10 8 % 64 = 0) (hlo : commonBase ≤ e.field 0x10 8)
    (hhi : e.field 0x10 8 + e.field 0x18 4 ≤ commonBase + 0xC000000) (hwhole : e.field 0x18 4 % 4096 = 0)
    (hmin : 4096 ≤ e.field 0x18 4) (hmax : e.field 0x18 4 ≤ 2 ^ 20) (hzero : e.zero 0x1C 36 = true) :
    hLogConfigure v q e d = ok ({ d with col := { d.col with
      log := some { base := e.field 0x10 8, capacity := (e.field 0x18 4 - 64) / 32 } } }.logHeader
        { base := e.field 0x10 8, capacity := (e.field 0x18 4 - 64) / 32 }) := by
  simp only [hLogConfigure, halign, hwhole, hzero, Nat.not_lt.mpr hlo, Nat.not_lt.mpr hhi, Nat.not_lt.mpr hmin, Nat.not_lt.mpr hmax,
    ne_eq, not_true_eq_false, Bool.not_true, Bool.false_eq_true, or_self, if_false]

end

/-- Settles O7: each command's handler, evaluated where the state admits the entry. -/
theorem safetyCommandsComplete : Obligations.safety_commands_complete := by
  unfold Obligations.safety_commands_complete
  refine ⟨fun s₀ s q e hs hq => ?safety, fun s₀ s q e hs hq => ?faults⟩
  case safety =>
    subst hs
    refine ⟨fun hadm hzero hreply => ?plan, fun b recs hadm hk hkn hn hzero hfeeds hblock hwhole hlen hrecs hok hagree => ?agree,
      fun hadm hzero hidle => ?spare⟩
    case plan => exact row_answered (missingUnit_queue rfl hq) hadm rfl (by simp [hSelftestPlan, ok, hzero, hreply])
    case agree =>
      exact row_answered (missingUnit_queue rfl hq) hadm rfl
        (hAgreeConfigure_replaces hk hkn hn hzero hfeeds hblock hwhole hlen hrecs hok hagree)
    case spare =>
      have hnone : ((List.range 48).any fun n => ((s₀.taken q).dev.fold n).replacing) = false :=
        List.any_eq_false.mpr fun n hn => by simp [hidle n (List.mem_range.mp hn)]
      exact row_opened (missingUnit_queue rfl hq) hadm rfl
        (by simp only [hSpareTest, hzero, hnone, Bool.not_true, Bool.false_eq_true, if_false])
  case faults =>
    subst hs
    refine ⟨fun hadm hsource hsrc hsev hzero hmin hdev => ?set, fun hadm hzero hreply => ?read, fun hadm hzero hreply => ?sticky,
      fun b named keep hadm hzero hblock hlen hnamed hkeep => ?clear,
      fun hadm halign hlo hhi hwhole hmin hmax hzero => ?log, fun hadm hzero hdev => ?inject⟩
    case set => exact row_answered (missingUnit_queue rfl hq) hadm rfl (hSeveritySet_sets hsource hsrc hsev hzero hmin hdev)
    case read => exact row_answered (missingUnit_queue rfl hq) hadm rfl (by simp [hSeverityRead, ok, hzero, hreply])
    case sticky => exact row_answered (missingUnit_queue rfl hq) hadm rfl (by simp [hStickyRead, ok, hzero, hreply])
    case clear => exact row_answered (missingUnit_queue rfl hq) hadm rfl (hStickyClear_clears hzero hblock hlen hnamed hkeep)
    case log =>
      exact row_answered (missingUnit_queue rfl hq) hadm rfl (hLogConfigure_begins halign hlo hhi hwhole hmin hmax hzero)
    case inject =>
      have hdev' : lifecycleOf s₀.fuse = lcDevelop := hdev
      exact row_answered (missingUnit_queue rfl hq) hadm rfl (by simp [hFaultInject, ok, hzero, hdev'])

end Sys2Proof.Machine
end

section
/-! SUPPORT. Security commands and what follows them (R410, R532 to R534, R546, R550 to R552): the judgement of a response and of a lifecycle
authorisation, and the rows of a session's end. -/

namespace Sys2Proof.Machine

open Sys2Proof

@[simp] theorem State.fuse_taken (s : State) (q : Nat) : (s.taken q).fuse = s.fuse := rfl

/-- Any judged response, right or wrong, spends the challenge (R550; log entry 76). -/
theorem Dev.openSession_challenge (d : Dev) (e : Env) (b : List Byte) : (d.openSession e b).2.2.sec.challenge = none := by
  unfold Dev.openSession
  dsimp only
  split_ifs <;> simp [Dev.refusedImage]

/-- A new challenge has 16 bytes, is stored with its time, and takes two free values. -/
theorem Dev.newChallenge_spec (d : Dev) (e : Env) : ∃ c, c.length = 16 ∧
    (d.newChallenge e).2.2.sec = { d.sec with challenge := some (c, e.raw) } ∧ (d.newChallenge e).2.2.free = d.free + 2 ∧
    d.agrees [.sec, .free] (d.newChallenge e).2.2 := by
  refine ⟨leBytes 8 (Config.freeWord d.free).toNat ++ leBytes 8 (Config.freeWord (d.free + 1)).toNat, by simp [leBytes], rfl, rfl, ?_⟩
  exact ((d.agrees_free (d.free + 2)).mono (by decide)).andThen (Dev.agrees_sec _ _) (by decide)

section

variable {v : Env} {q : Nat} {e : Sub} {d : Dev} {b : List Byte}

/-- A lifecycle authorisation is judged by its container's checks, then by what it asks to burn (R410, R532, R533). -/
theorem hLifecycleSet_judges {signer : Option (Nat → Bool)} {st : Nat} (htarget : e.field 0x10 1 ≤ 4) (hzero : e.zero 0x11 31 = true)
    (hidle : d.allUnconfigured = true) (hblock : d.blockIs e b)
    (hsigner : transitionSigner (lifecycleOf v.fuse) (e.field 0x10 1) = some signer)
    (hst : st = checkContainer v.fuse 2 (signer.getD fun _ => false) signer.isNone (lifecycleOf v.fuse = lcBlank) b.length b) :
    (st ≠ stOk → hLifecycleSet v q e d = refuse st (d.refusedImage b)) ∧
      (st = stOk → authBurn v.fuse b (e.field 0x10 1) = none → hLifecycleSet v q e d = refuse stBadArg d) ∧
      ∀ x, st = stOk → authBurn v.fuse b (e.field 0x10 1) = some x → hLifecycleSet v q e d = (.long none x.pack, d) := by
  have heval : hLifecycleSet v q e d = if st ≠ stOk then refuse st (d.refusedImage b) else
      match authBurn v.fuse b (e.field 0x10 1) with
      | none => refuse stBadArg d
      | some x => (.long none x.pack, d) := by
    simp only [hLifecycleSet, Nat.not_lt.mpr htarget, hzero, hidle, Dev.withBlock_of_blockIs hblock, hsigner, ← hst, Bool.not_true,
      Bool.false_eq_true, or_self, if_false] <;> rfl
  refine ⟨fun hbad => ?_, fun hgood hburn => ?_, fun x hgood hburn => ?_⟩
  · rw [heval, if_pos hbad]
  · rw [heval, if_neg (not_not.mpr hgood), hburn]
  · rw [heval, if_neg (not_not.mpr hgood), hburn]

end

/-- Settles O8: each command's handler, evaluated where the state admits the entry, and the rows of a session. -/
theorem securityCommandsAct : Obligations.security_commands_act := by
  unfold Obligations.security_commands_act
  refine ⟨fun s₀ s q e hs hq => ?commands, fun s => ?rows⟩
  case commands =>
    subst hs
    refine ⟨fun hadm hreply => ?attest, fun b signer st hadm htarget hzero hidle hblock hsigner hst => ?lifecycle,
      fun hadm hzero hnone => ?challenge, fun b hadm hzero hblock => ⟨?unlock, Dev.openSession_challenge _ _ _⟩,
      fun hadm hzero => ?lock⟩
    case attest => exact row_opened (missingUnit_queue rfl hq) hadm rfl (by simp [hAttest, hreply])
    case lifecycle =>
      obtain ⟨hbad, hnoBurn, hburns⟩ :=
        hLifecycleSet_judges (v := s₀.env) (q := q) (d := (s₀.taken q).dev) htarget hzero hidle hblock hsigner hst
      by_cases hgood : st = stOk
      · cases hburn : authBurn s₀.fuse b (e.field 0x10 1) with
        | none =>
          exact ⟨_, row_answered (missingUnit_queue rfl hq) hadm rfl (hnoBurn hgood hburn), fun x _ hx => by simp [hburn] at hx,
            fun h => absurd hgood h, fun _ _ => rfl⟩
        | some x =>
          refine ⟨_, row_opened (missingUnit_queue rfl hq) hadm rfl (hburns x hgood hburn), fun y _ hy => ?_,
            fun h => absurd hgood h, fun _ hx => by simp [hburn] at hx⟩
          cases hburn.symm.trans hy
          rfl
      · exact ⟨_, row_answered (missingUnit_queue rfl hq) hadm rfl (hbad hgood), fun _ h => absurd h hgood, fun _ => rfl,
          fun h => absurd h hgood⟩
    case challenge =>
      obtain ⟨c, hlen, hsec, hfree, hagrees⟩ := (s₀.taken q).dev.newChallenge_spec s₀.env
      refine ⟨_, c, row_answered (missingUnit_queue rfl hq) hadm rfl (by simp [hDebugChallenge, hzero, hnone]; exact ⟨rfl, rfl⟩), ?_, hlen,
        ?_, ?_⟩
      · simpa [State.answered] using hsec
      · simpa [State.answered] using hfree
      · exact State.touches_of_agrees ((hagrees.mono (by decide)).andThen (Dev.agrees_complete _ _ _ _ _ _) (by decide))
    case unlock =>
      exact row_answered (missingUnit_queue rfl hq) hadm rfl
        (by simp [hDebugUnlock, hzero, Dev.withBlock_of_blockIs hblock])
    case lock => exact row_answered (missingUnit_queue rfl hq) hadm rfl (by simp [hDebugLock, ok, hzero, Dev.endSession])
  case rows =>
    refine ⟨fun hdue => ?due, fun hdue => ?idle, fun hopen => ?grant, fun x hopen hover => ?expired, fun x hopen hearly => ?early⟩
    case due => rw [exec_lifecycleReset, execLifecycleReset, if_pos hdue]
    case idle => rw [exec_lifecycleReset, execLifecycleReset, if_neg (by simp [hdue]), run_next rfl]
    case grant => rw [exec_debugAccessGrant, execDebugAccessGrant, run_next rfl]; simp [hopen, State.put]
    case expired =>
      rw [exec_debugSessionExpiry, execDebugSessionExpiry, run_next rfl]
      simp [hopen, hover, State.put, State.env, Dev.endSession]
    case early =>
      rw [exec_debugSessionExpiry, execDebugSessionExpiry, run_next rfl]
      simp [hopen, Nat.not_le.mpr hearly, State.env]

end Sys2Proof.Machine
end

section
/-! SUPPORT. How an outstanding command ends (R374, R377, R398, R399, R410, R534): by its timeout, by its work, and a lifecycle transition by
its last fuse. -/

namespace Sys2Proof.Machine

open Sys2Proof

/-- The outstanding command of a queue and tag has both. -/
theorem Dev.outstBy_facts {d : Dev} {q tag : Nat} {o : Outst} (h : d.outstBy q tag = some o) : o.q = q ∧ o.e.tag = tag := by
  simpa using List.find?_some h

/-- A command that is finished is no longer outstanding. -/
theorem Dev.outstBy_finish (d : Dev) (e : Env) (o : Outst) (r : Reply) : (d.finish e o r).outstBy o.q o.e.tag = none := by
  rw [Dev.outstBy, Dev.finish_outst, List.find?_eq_none]
  intro x hx
  simpa [or_iff_not_imp_left] using (List.mem_filter.mp hx).2

section

variable {s : State} {q tag : Nat} {o : Outst}

theorem exec_commandTimeout_of_outst (hq : q < 32) (ho : s.dev.outstBy q tag = some o) :
    exec (.commandTimeout q tag) s =
      .next (s.put (if o.deadline ≤ s.clk.raw then s.dev.closeCmd s.env stTimeout o else s.dev)) := by
  rw [exec_commandTimeout, execCommandTimeout, run_next (by simp [missingUnit, Instr.units, hq])]
  simp only [ho]
  rfl

/-- The end of the work of any command but a lifecycle transition. -/
theorem exec_commandWorkComplete_of_outst (hq : q < 32) (ho : s.dev.outstBy q tag = some o) (hop : o.opcode ≠ 0x901) :
    exec (.commandWorkComplete q tag) s =
      .next { s with dev := s.dev.workDone s.env o, fuse := s.fuse.afterWork o } := by
  simp [execCommandWorkComplete, ho, hq, hop]

/-- A lifecycle transition goes on by its own steps. -/
theorem exec_commandWorkComplete_transition (hq : q < 32) (ho : s.dev.outstBy q tag = some o) (hop : o.opcode = 0x901) :
    exec (.commandWorkComplete q tag) s = .next (s.transition o) := by
  simp [execCommandWorkComplete, ho, hq, hop]

end

/-- The end of the burning touches the security part, the free values' number, and what a completion and a fault touch. -/
theorem Dev.burnEnds_agrees (d : Dev) (e : Env) (o : Outst) : d.agrees ([.sec, .free] ++ postParts) (d.burnEnds e o) :=
  (((d.agrees_spend.mono (by decide)).andThen (Dev.agrees_finish _ _ _ _) (by decide)).andThen (Dev.agrees_raise _ _ _ _ _) (by decide)).andThen (Dev.agrees_sec _ _) (by decide)

theorem Dev.burnEnds_sec (d : Dev) (e : Env) (o : Outst) :
    (d.burnEnds e o).sec = { d.sec with lifecycleDue := true, burning := none } := by
  simp [Dev.burnEnds, Dev.spend]

/-- Settles O9: the timeout row, the end of a LOAD's and a DELETE_QUEUE's work, and the two steps of a transition. -/
theorem outstandingCommandsFinish : Obligations.outstanding_commands_finish := by
  unfold Obligations.outstanding_commands_finish
  intro s q tag o hq ho
  refine ⟨fun hover => ?timeout, fun hearly => ?early, fun im hop himage => ?load, fun hop => ?deleteQueue,
    fun hop hburn hfrozen hidle => ?burns, fun t₀ l hop hburn hover => ?burnt, fun hop hfrozen => ?frozen⟩
  case timeout => rw [exec_commandTimeout_of_outst hq ho, if_pos hover]
  case early => rw [exec_commandTimeout_of_outst hq ho, if_neg (Nat.not_le.mpr hearly)]; rfl
  case load =>
    have hwork : s.dev.workDone s.env o = (s.dev.loadImage s.env o.e.target im).finish s.env o { r0 := o.aux.headD 0 } := by
      simp [Dev.workDone, hop, himage]
    obtain ⟨rfl, rfl⟩ := Dev.outstBy_facts ho
    refine ⟨_, exec_commandWorkComplete_of_outst hq ho (by simp [hop]), by rw [hwork], ?_⟩
    simpa only [hwork] using Dev.outstBy_finish _ _ _ _
  case deleteQueue =>
    refine ⟨_, exec_commandWorkComplete_of_outst hq ho (by simp [hop]), ?_⟩
    simp [Dev.workDone, Fuses.afterWork, hop, State.put]
  case burns =>
    rw [exec_commandWorkComplete_transition hq ho hop]
    simp [State.transition, Dev.burnStart, hburn, hfrozen, hidle, State.put, State.env]
  case burnt =>
    have hend : s.transition o = { s with
        dev := s.dev.burnEnds s.env o, fuse := s.fuse.burnBits (s.dev.burntBits ((Burn.unpack l).bits s.fuse)) } := by
      simp [State.transition, hburn, Nat.not_lt.mpr hover]
    refine ⟨_, exec_commandWorkComplete_transition hq ho hop, ?_⟩
    rw [hend]
    refine ⟨rfl, fun hread => ?_, rfl, Dev.burnEnds_sec .., s.dev.burnEnds_agrees s.env o⟩
    simp [Dev.burntBits, hread, Fuses.burn]
  case frozen =>
    rw [exec_commandTimeout_of_outst hq ho]
    simp [Dev.closeCmd, Dev.burns, hop, hfrozen, State.put]

end Sys2Proof.Machine
end

section
/-! SUPPORT. Doorbells and control words (R323, R324, R361 to R364, R369, R382, R386), and firmware's own acts (R355, R362, R373, R383). -/

namespace Sys2Proof.Machine

open Sys2Proof

/-- Only what a queue's change makes of the queue counts. -/
theorem Dev.modQueue_congr {d : Dev} {q : Nat} {m : MQueue} {f g : MQueue → MQueue} (hm : d.queue q = some m) (h : f m = g m) :
    d.modQueue q f = d.modQueue q g := by
  have hget : tget d.mbox.queues q = some m := hm
  simp [Dev.modQueue, tupd, hget, h]

/-! ## A word that the host writes in one go -/

/-- A byte of the word of a 4-byte write. -/
theorem cellAt_wordWrite (e : Env) (off v no : Nat) :
    ((cellAt (wordWrite e off v no).cells off = some (BitVec.ofNat 8 v) ∧
      cellAt (wordWrite e off v no).cells (off + 1) = some (BitVec.ofNat 8 (v / 256))) ∧
      cellAt (wordWrite e off v no).cells (off + 2) = some (BitVec.ofNat 8 (v / 256 / 256))) ∧
      cellAt (wordWrite e off v no).cells (off + 3) = some (BitVec.ofNat 8 (v / 256 / 256 / 256)) := by
  have hne : ∀ i j, i ≠ j → (off + i == off + j) = false := fun i j h => by simpa using h
  have hzero : ∀ j, 0 ≠ j → (off == off + j) = false := fun j h => hne 0 j h
  simp [wordWrite, leBytes, cellAt, List.find?, hne, hzero]

/-- Four bytes written over a word replace it. -/
theorem wordWith_wordWrite (e : Env) {off v : Nat} (hv : v < 2 ^ 32) (old no : Nat) :
    wordWith (wordWrite e off v no).cells off old = some v := by
  have hbytes : leNat (leBytes 4 v) = v := by rw [leNat_leBytes, Nat.mod_eq_of_lt hv]
  obtain ⟨⟨⟨h0, h1⟩, h2⟩, h3⟩ := cellAt_wordWrite e off v no
  simpa [wordWith, h0, h1, h2, h3, leBytes] using hbytes

/-- A byte leaves a word alone that it lies outside of. -/
theorem wordWith_singleton_of_outside {a off : Nat} {b : Byte} (h : a < off ∨ off + 4 ≤ a) (old : Nat) :
    wordWith [(a, b)] off old = none := by
  have hcell : ∀ i, i < 4 → cellAt [(a, b)] (off + i) = none := by
    intro i hi
    simp [cellAt, show a ≠ off + i by omega]
  have hfirst := hcell 0 (by omega)
  rw [Nat.add_zero] at hfirst
  simp [wordWith, hcell, hfirst]

/-! ## Doorbells -/

/-- With no WINDOW_MAP outstanding no landing completes one. -/
theorem Dev.settleWindows_of_none {d : Dev} (h : ∀ o ∈ d.mbox.outst, o.opcode ≠ 0x0400) (e : Env) : d.settleWindows e = d := by
  have hnone : (d.mbox.outst.filter fun o => o.opcode == 0x400 && !d.windowOwes o.e.target (o.aux.headD 0)) = [] :=
    List.filter_eq_nil_iff.mpr fun o ho => by simp [h o ho]
  rw [Dev.settleWindows, Dev.finishAll, hnone]
  rfl

theorem Dev.landMine_of_none {d : Dev} (h : d.host.penWrites = []) (e : Env) (line : Nat) : d.landMine e line = d := by
  simp [Dev.landMine, h]

theorem HostPort.noWrites {x : HostPort} (hwin : x.winWrites = []) (hpen : x.penWrites = []) :
    { x with winWrites := [], penWrites := [] } = x := by
  cases x
  simp_all

theorem Dev.landBefore_of_none {d : Dev} (hwin : d.host.winWrites = []) (hpen : d.host.penWrites = []) (e : Env) (w : PenWrite) :
    d.landBefore e w = d := by
  simp [Dev.landBefore, takeWrites, hwin, hpen, HostPort.noWrites hwin hpen]

/-- A sound write of a doorbell word lands as the new value of its queue's tail or head. -/
theorem Dev.landPen_doorbell {d : Dev} {e : Env} {w : PenWrite} {off v : Nat} (hline : 64 * w.line = off) (hlo : 0x1000 ≤ off)
    (hhi : off < 0x2000) (hsound : w.poison = false) (hheed : w.heeded = true) (hready : d.mbox.ready = true)
    (hword : ∀ old, wordWith w.cells off old = some v) :
    d.landPen e w = if off % 0x80 = 0 then d.sqTailWrite ((off - 0x1000) / 0x80) v else d.cqHeadWrite e ((off - 0x1000) / 0x80) v := by
  simp [Dev.landPen, Dev.doorbell, hline, hhi, Nat.not_lt.mpr hlo, Dev.markBurst, hsound, hword, hready, hheed]

/-- What a doorbell word does when no earlier write is on its way and firmware serves. -/
theorem Dev.doorbellWrite_of_serving {d : Dev} {e : Env} {off v : Nat} (hopen : d.penOpen e = true) (hready : d.mbox.ready = true)
    (hserving : d.serving = true) (hwin : d.host.winWrites = []) (hpen : d.host.penWrites = []) (hv : v < 2 ^ 32)
    (hlo : 0x1000 ≤ off) (hhi : off < 0x2000) (halign : off % 64 = 0) :
    d.doorbellWrite e off v =
      (if off % 0x80 = 0 then d.sqTailWrite ((off - 0x1000) / 0x80) v else d.cqHeadWrite e ((off - 0x1000) / 0x80) v).settleWindows e := by
  have hfree : ∀ w, d.heldBack w = false := by simp [Dev.heldBack, hwin, hserving]
  obtain ⟨w, hw⟩ : ∃ w, w = { wordWrite e off v d.host.nextWrite with heeded := d.mbox.ready } := ⟨_, rfl⟩
  have hline : 64 * w.line = off := by
    have hhead : w.line = off / 64 := by simp [hw, PenWrite.line, wordWrite, leBytes]
    omega
  have hland := Dev.landPen_doorbell (d := d) (e := e) hline hlo hhi (by rw [hw]; rfl) (by rw [hw]; exact hready) hready
    (fun old => by rw [hw]; exact wordWith_wordWrite e hv old d.host.nextWrite)
  simp only [Dev.doorbellWrite, hopen, hfree, ← hw, Dev.landMine_of_none hpen, Dev.landNow, Dev.landBefore_of_none hwin hpen, hland, hline, hlo, hhi]
  simp

section

variable {s : State} {q : Nat} {v : Word32} {m : MQueue}

/-- The tail doorbell of a queue, with nothing on its way. -/
theorem exec_hpcSqTail_of_serving (hq : q < 32) (hopen : s.dev.penOpen s.env = true) (hready : s.dev.mbox.ready = true)
    (hserving : s.dev.serving = true) (hwin : s.dev.host.winWrites = []) (hpen : s.dev.host.penWrites = []) :
    exec (.hpcSqTail q v) s = .next (s.put ((s.dev.sqTailWrite q v.toNat).settleWindows s.env)) := by
  have hdoor := Dev.doorbellWrite_of_serving (off := 0x1000 + 0x80 * q) hopen hready hserving hwin hpen v.isLt
    (by omega) (by omega) (by omega)
  rw [if_pos (by omega), show (0x1000 + 0x80 * q - 0x1000) / 0x80 = q by omega] at hdoor
  rw [exec_hpcSqTail, execHpcSqTail, run_next (by simp [missingUnit, Instr.units, hq])]
  rw [hdoor]
  rfl

/-- The head doorbell of a queue, with nothing on its way. -/
theorem exec_hpcCqHead_of_serving (hq : q < 32) (hopen : s.dev.penOpen s.env = true) (hready : s.dev.mbox.ready = true)
    (hserving : s.dev.serving = true) (hwin : s.dev.host.winWrites = []) (hpen : s.dev.host.penWrites = []) :
    exec (.hpcCqHead q v) s = .next (s.put ((s.dev.cqHeadWrite s.env q v.toNat).settleWindows s.env)) := by
  have hdoor := Dev.doorbellWrite_of_serving (off := 0x1040 + 0x80 * q) hopen hready hserving hwin hpen v.isLt
    (by omega) (by omega) (by omega)
  rw [if_neg (by omega), show (0x1040 + 0x80 * q - 0x1000) / 0x80 = q by omega] at hdoor
  rw [exec_hpcCqHead, execHpcCqHead, run_next (by simp [missingUnit, Instr.units, hq])]
  rw [hdoor]
  rfl

end

theorem Dev.evalIrq_outst (d : Dev) (e : Env) (q : Nat) : (d.evalIrq e q).mbox.outst = d.mbox.outst := by
  rw [Dev.evalIrq_mbox]

theorem Dev.postNote_outst (d : Dev) (e : Env) (q kind r0 r1 r2 : Nat) (u : Bool) :
    (d.postNote e q kind r0 r1 r2 u).mbox.outst = d.mbox.outst := by
  unfold Dev.postNote
  split
  · rfl
  · rw [Dev.modQueue, Dev.post_mbox]

theorem Dev.postLost_outst (d : Dev) (e : Env) (q : Nat) : (d.postLost e q).mbox.outst = d.mbox.outst := by
  unfold Dev.postLost
  split
  · rfl
  · split
    · simp [Dev.modQueue, Dev.postNote_outst]
    · rfl

/-! ## Control words -/

theorem bitOf_zero_toNat (v : Word32) : bitOf v.toNat 0 = v.getLsbD 0 := by simp [bitOf, BitVec.getLsbD, Nat.testBit_zero]

/-- A byte of the status block that no control word has lands without effect. -/
theorem Dev.statusLand_of_outside {off : Nat} {b : Byte} (hctrl : off / 4 ≠ 0x0C0 / 4) (halive : off / 4 ≠ 0x0C4 / 4) (hlow : off < 0x800)
    (d : Dev) (e : Env) (heeded : Bool) : d.statusLand e [(off, b)] heeded = d := by
  have hdone : ∀ (l : List Nat) (d : Dev), l.foldl (fun d f =>
      match wordWith [(off, b)] (0x800 + 64 * f + 0x28) (d.fset f).doneValue with
      | some v => d.fsetDone e f .hostPort v
      | none => d) d = d := by
    intro l d
    induction l with
    | nil => rfl
    | cons f l ih => rw [List.foldl_cons, wordWith_singleton_of_outside (by omega)]; exact ih
  rw [Dev.statusLand, wordWith_singleton_of_outside (by omega), wordWith_singleton_of_outside (by omega)]
  exact hdone _ d

/-! ## Done words -/

/-- What judging changes: the frame set, and what a fault changes. -/
theorem Dev.agrees_rewriteDeadline (d : Dev) (f : Nat) : d.agrees [.fsets] (d.rewriteDeadline f) := by
  unfold Dev.rewriteDeadline
  split
  · rfl
  · exact d.agrees_modFset _ _

theorem Dev.agrees_checkHolds (d : Dev) (f : Nat) : d.agrees (.fsets :: faultParts) (d.checkHolds f) := by
  refine Dev.agrees_foldl (fun d p => ?_) _ d
  have hset := (d.agrees_modFset f fun s => { s with holdSeen := tset s.holdSeen p (d.physFold p).holdCycles }).mono
    (l := .fsets :: faultParts) (by decide)
  dsimp only
  split
  · split
    · exact hset.andThen (Dev.agrees_raise _ _ _ _ _) (by decide)
    · exact hset
  · exact hset

theorem Dev.agrees_judge (d : Dev) (f : Nat) : d.agrees (.fsets :: faultParts) (d.judge f) := by
  have hlate : d.agrees (.fsets :: faultParts) (if (d.fset f).doneBits.contains (d.fset f).current then d
      else (d.modFset f fun s => { s with late := (s.late + 1) % 2 ^ 32 }).raise 0x304 0x24 f (d.fset f).current) := by
    split
    · rfl
    · exact ((d.agrees_modFset _ _).mono (by decide)).andThen (Dev.agrees_raise _ _ _ _ _) (by decide)
  exact ((hlate.andThen (Dev.agrees_modFset _ _ _) (by decide)).andThen (Dev.agrees_rewriteDeadline _ _) (by decide)).andThen (Dev.agrees_checkHolds _ _) (by decide)

theorem Dev.agrees_judgeTo (d : Dev) (f r n : Nat) : d.agrees (.fsets :: faultParts) (d.judgeTo f r n) := by
  induction n generalizing d with
  | zero => rfl
  | succ n ih =>
    unfold Dev.judgeTo
    split
    · exact (d.agrees_judge f).trans (ih _)
    · rfl

/-- A function of the device that leaves every frame set but `f` as it was. -/
def KeepsOtherSets (f : Nat) (d d' : Dev) : Prop := ∀ k, k ≠ f → d'.fset k = d.fset k

theorem Dev.fset_congr {a b : Dev} (h : a.fsets = b.fsets) (k : Nat) : a.fset k = b.fset k := by rw [Dev.fset, h]; rfl

theorem Dev.fset_raise (d : Dev) (src kind detail arg k : Nat) : (d.raise src kind detail arg).fset k = d.fset k :=
  Dev.fset_congr (by simp) k

theorem Dev.modFset_keepsOthers (d : Dev) (f : Nat) (g : FSet → FSet) : KeepsOtherSets f d (d.modFset f g) := by
  intro k hk
  rw [Dev.fset_modFset, if_neg hk]

theorem KeepsOtherSets.trans {f : Nat} {a b c : Dev} (hab : KeepsOtherSets f a b) (hbc : KeepsOtherSets f b c) : KeepsOtherSets f a c :=
  fun k hk => (hbc k hk).trans (hab k hk)

theorem KeepsOtherSets.raise {f : Nat} {a b : Dev} (h : KeepsOtherSets f a b) (src kind detail arg : Nat) :
    KeepsOtherSets f a (b.raise src kind detail arg) := fun k hk => (Dev.fset_raise ..).trans (h k hk)

theorem Dev.checkHolds_keepsOthers (d : Dev) (f : Nat) : KeepsOtherSets f d (d.checkHolds f) := by
  unfold Dev.checkHolds
  dsimp only
  generalize d.pathFolds f = l
  generalize ((d.fset f).cfg.map (·.hold)).getD 600 = h
  induction l generalizing d with
  | nil => exact fun _ _ => rfl
  | cons p l ih =>
    refine KeepsOtherSets.trans ?_ (ih _)
    have hset := d.modFset_keepsOthers f fun s => { s with holdSeen := tset s.holdSeen p (d.physFold p).holdCycles }
    dsimp only
    split
    · split
      · exact hset.raise _ _ _ _
      · exact hset
    · exact hset

theorem Dev.judge_keepsOthers (d : Dev) (f : Nat) : KeepsOtherSets f d (d.judge f) := by
  have hlate : KeepsOtherSets f d (if (d.fset f).doneBits.contains (d.fset f).current then d
      else (d.modFset f fun s => { s with late := (s.late + 1) % 2 ^ 32 }).raise 0x304 0x24 f (d.fset f).current) := by
    split
    · exact fun _ _ => rfl
    · exact (d.modFset_keepsOthers _ _).raise _ _ _ _
  have hdeadline : ∀ x : Dev, KeepsOtherSets f x (x.rewriteDeadline f) := by
    intro x
    unfold Dev.rewriteDeadline
    split
    · exact fun _ _ => rfl
    · exact x.modFset_keepsOthers _ _
  exact ((hlate.trans (Dev.modFset_keepsOthers _ _ _)).trans (hdeadline _)).trans (Dev.checkHolds_keepsOthers _ _)

theorem Dev.judgeTo_keepsOthers (d : Dev) (f r n : Nat) : KeepsOtherSets f d (d.judgeTo f r n) := by
  induction n generalizing d with
  | zero => exact fun _ _ => rfl
  | succ n ih =>
    unfold Dev.judgeTo
    split
    · exact (d.judge_keepsOthers f).trans (ih _)
    · exact fun _ _ => rfl

/-- Before the deadline nothing is judged. -/
theorem Dev.judgeTo_of_early {d : Dev} {f r : Nat} (h : r ≤ (d.fset f).rawDeadline) (n : Nat) : d.judgeTo f r n = d := by
  cases n with
  | zero => rfl
  | succ n => rw [Dev.judgeTo, if_neg (by omega)]

/-- What a frame set takes from an in-step done word `v` at raw time `r`. -/
def FSet.done (v r : Nat) (x : FSet) : FSet :=
  { x with doneValue := v, doneTime := r, doneBits := if x.doneBits.contains v then x.doneBits else x.doneBits ++ [v] }

theorem FSet.done_contains (v r : Nat) (x : FSet) : (x.done v r).doneBits.contains v = true := by
  unfold FSet.done
  split
  · assumption
  · simp

/-- A thread's in-step done word, once what lies before it is judged. -/
theorem Dev.fsetDone_of_inStep {d : Dev} {e : Env} {f t v : Nat} {x : FSet} (hv : v < 2 ^ 32) (hx : x = (d.judgeTo f e.raw e.raw).fset f)
    (hrun : x.running = true) (hstep : (v + 2 ^ 32 - x.current) % 2 ^ 32 < 4) :
    d.fsetDone e f (.thread t) v = (d.judgeTo f e.raw e.raw).modFset f (FSet.done v e.raw) := by
  subst hx
  simp only [Dev.fsetDone, Nat.mod_eq_of_lt hv, hrun, hstep]
  rfl

/-- Settles O10: the doorbells through one rule for a doorbell word with nothing on its way; the control words row by row. -/
theorem doorbellsAndControlWordsAct : Obligations.doorbells_and_control_words_act := by
  unfold Obligations.doorbells_and_control_words_act
  refine ⟨fun s q v m hq hopen hready hserving hwin hpen hm herr => ⟨fun hlt hsize hne htail hroom hmap => ?tail,
      fun hge hne htail hmap => ?tailError, fun hlt hsize hhead hunread hmap => ?head⟩,
    fun s hopen hpen => ⟨fun v hv => ?alive, fun v hbit hready => ?reset, fun v hbit => ?noReset, fun off b hoff hctrl halive hlow => ?dropped,
      fun off b hlo hhi hfault => ?reserved, fun f v hf => ?hostDone, fun f t v x hf hx hrun hstep => ?done⟩⟩
  case tail =>
    rw [exec_hpcSqTail_of_serving hq hopen hready hserving hwin hpen]
    have hwrite : s.dev.sqTailWrite q v.toNat = s.dev.modQueue q fun m => { m with sqTail := v.toNat } := by
      simp [Dev.sqTailWrite, hm, herr, hne, show ¬ 65536 ≤ v.toNat by omega, Nat.not_le.mpr hlt, Nat.not_le.mpr hroom]
    rw [hwrite, Dev.settleWindows_of_none (by simpa [Dev.modQueue] using hmap)]
  case tailError =>
    rw [exec_hpcSqTail_of_serving hq hopen hready hserving hwin hpen]
    have hwrite : s.dev.sqTailWrite q v.toNat = s.dev.queueError q v.toNat := by simp [Dev.sqTailWrite, hm, herr, hne, hge]
    rw [hwrite, Dev.settleWindows_of_none (by simpa [Dev.queueError, Dev.modQueue] using hmap)]
    rfl
  case head =>
    rw [exec_hpcCqHead_of_serving hq hopen hready hserving hwin hpen]
    have hsrv : ∀ g : MQueue → MQueue, (s.dev.modQueue q g).serving = true := fun g => hserving
    have hwrite : s.dev.cqHeadWrite s.env q v.toNat = ((s.dev.modQueue q fun m => { m with
        cqHead := v.toNat, unread := m.unread.drop ((v.toNat + m.cqEntries - m.cqHead) % m.cqEntries) }).evalIrq s.env q).postLost s.env q := by
      simp only [Dev.cqHeadWrite, hm]
      rw [if_neg (by omega), if_pos (hsrv _)]
      congr 2
      exact Dev.modQueue_congr hm rfl
    rw [hwrite, Dev.settleWindows_of_none (by simpa [Dev.postLost_outst, Dev.evalIrq_outst, Dev.modQueue] using hmap)]
  case alive =>
    rw [exec_hpcHostAlive, execHpcHostAlive, run_next rfl]
    have hne : v.toNat ≠ 0xB007 := fun h => hv (BitVec.eq_of_toNat_eq h)
    simp [hopen, Dev.landMine_of_none hpen, Dev.aliveWrite, hne]
  case reset =>
    rw [exec_adminReset, execAdminReset, run_next rfl]
    have hb : bitOf v.toNat 0 = true := by rw [bitOf_zero_toNat, hbit]
    simp [hopen, Dev.landMine_of_none hpen, Dev.ctrlWrite, hb, hready, State.put]
  case noReset =>
    rw [exec_adminReset, execAdminReset, run_next rfl]
    have hb : bitOf v.toNat 0 = false := by rw [bitOf_zero_toNat, hbit]
    simp [hopen, Dev.landMine_of_none hpen, Dev.ctrlWrite, hb]
  case dropped =>
    rw [exec_statusBlockWrite, execStatusBlockWrite, run_next (by simp [missingUnit, Instr.units])]
    have hland : s.dev.statusLand s.env [(off, b)] s.dev.mbox.ready = s.dev :=
      Dev.statusLand_of_outside hctrl halive hlow _ _ _
    simp [hopen, hoff, Dev.landMine_of_none hpen, hland]
  case reserved =>
    rw [exec_statusBlockWrite, execStatusBlockWrite, run_next (by simp [missingUnit, Instr.units])]
    simp [hopen, hlo, hhi, show ¬ off < 0x1000 by omega, Dev.landMine_of_none hpen, Dev.hostFaultOnce, hfault, Dev.hostFault]
    rfl
  case hostDone =>
    rw [exec_hpcFsetDone, execHpcFsetDone, run_next (by simp [missingUnit, Instr.units, hf])]
    simp only [Dev.landMine_of_none hpen, Dev.fsetDone, Nat.mod_eq_of_lt v.isLt]
    rfl
  case done =>
    refine ⟨s.put ((s.dev.judgeTo f s.clk.raw s.clk.raw).modFset f (FSet.done v.toNat s.clk.raw)), ?_, ?_, ?_, ?_, ?_, ?_, ?_⟩
    · rw [exec_hpcFsetDone, execHpcFsetDone, run_next (by simp [missingUnit, Instr.units, hf])]
      dsimp only
      rw [Dev.fsetDone_of_inStep (x := x) v.isLt hx hrun hstep]
      rfl
    · exact State.touches_of_agrees ((s.dev.agrees_judgeTo f s.clk.raw s.clk.raw).andThen (Dev.agrees_modFset _ _ _) (by decide))
    · intro hearly
      rw [Dev.judgeTo_of_early hearly] at hx ⊢
      exact ⟨State.touches_of_agrees (Dev.agrees_modFset _ _ _), hx⟩
    · exact (s.dev.judgeTo_keepsOthers f _ _).trans (Dev.modFset_keepsOthers _ _ _)
    all_goals simp only [State.put, Dev.fset_modFset, if_true]
    · exact FSet.done_contains _ _ _
    · rfl
    · rfl

end Sys2Proof.Machine
end

section
/-! SUPPORT. Firmware takes entries in turn, and comes up (R355, R373, R541, R543). -/

namespace Sys2Proof.Machine

open Sys2Proof

/-- A poisoned entry, which no ABORT marked, completes with INTEGRITY. -/
theorem Dev.takeSubmission_of_poisoned {d : Dev} {e : Env} {q : Nat} {m : MQueue} (hm : d.queue q = some m) (hmark : d.mbox.marked = [])
    (hbad : (d.readLines 0x003 false (commonBase + m.sqBase + 64 * m.sqHead) 64).1 = true) :
    d.takeSubmission e q =
      (((d.readLines 0x003 false (commonBase + m.sqBase + 64 * m.sqHead) 64).2.modQueue q fun m =>
        { m with sqHead := (m.sqHead + 1) % m.sqEntries }).complete e q
          (entryOf (d.raw (commonBase + m.sqBase + 64 * m.sqHead) 64)).1
          (entryOf (d.raw (commonBase + m.sqBase + 64 * m.sqHead) 64)).2 { status := stIntegrity }) := by
  simp [Dev.takeSubmission, hm, hbad, Dev.modQueue, hmark]

/-- The device as firmware brings it up, before it reports what the start found. -/
def Dev.freshStart (d : Dev) (e : Env) : Dev :=
  { d.blank (commonBase + 0x10000) (0x2000000 - 0x10000) with
    mbox := { d.mbox with ready := true, queues := [(0, {})], outst := [], marked := [], boot := { d.mbox.boot with stage := 3 } }
    safe := { d.safe with lastHash := e.raw }
    pow := { d.pow with phase := .bringUp, pwrFold := true } }

/-- The images that ROM refused and a torn fuse are reported. -/
def Dev.startReports (d : Dev) : Dev :=
  let d := d.sec.refused.foldl (fun d v => d.raise 0x3C0 0x3C 0 v) d
  if d.sec.fuseAlarm then d.raise 0x3C2 0x3C 2 0 else d

theorem Dev.firmwareUp_eq (d : Dev) (e : Env) : d.firmwareUp e =
    { (d.freshStart e).startReports with
      sec := { (d.freshStart e).startReports.sec with refused := [], fuseAlarm := false } } := rfl

theorem Dev.agrees_freshStart (d : Dev) (e : Env) : d.agrees [.mem, .mbox, .safe, .pow] (d.freshStart e) := by
  intro p hp
  cases p <;> simp_all [Part.same, Dev.freshStart]

theorem Dev.agrees_startReports (d : Dev) : d.agrees faultParts d.startReports := by
  have hrefused : d.agrees faultParts (d.sec.refused.foldl (fun d v => d.raise 0x3C0 0x3C 0 v) d) :=
    Dev.agrees_foldl (fun d _ => d.agrees_raise _ _ _ _) _ d
  unfold Dev.startReports
  dsimp only
  split
  · exact hrefused.andThen (Dev.agrees_raise _ _ _ _ _) (by decide)
  · exact hrefused

theorem Dev.agrees_firmwareUp (d : Dev) (e : Env) : d.agrees [.mem, .mbox, .col, .safe, .sec, .pow] (d.firmwareUp e) :=
  (((d.agrees_freshStart e).mono (by decide)).andThen (Dev.agrees_startReports _) (by decide)).andThen (Dev.agrees_sec _ _) (by decide)

theorem Dev.firmwareUp_mbox (d : Dev) (e : Env) : (d.firmwareUp e).mbox = (d.freshStart e).mbox :=
  ((d.freshStart e).agrees_startReports .mbox (by decide)).symm

theorem Dev.firmwareUp_pow (d : Dev) (e : Env) : (d.firmwareUp e).pow = (d.freshStart e).pow :=
  ((d.freshStart e).agrees_startReports .pow (by decide)).symm

/-- Settles O11: the taking of an entry, firmware's own acts while it serves, and its coming up. -/
theorem firmwareActs : Obligations.firmware_acts := by
  unfold Obligations.firmware_acts
  refine ⟨fun s q n m hserving hfrozen hnext hm => ?take,
    fun s => ⟨fun hserving => ?heartbeat, fun q hq hserving => ?coalesce, fun q m hq hserving hm hirq heth hdue => ?resend,
      fun ms hserving hms halive hraised hsilent => ?silent, fun hphase hrom hstage => ?ready⟩⟩
  case take =>
    obtain ⟨d, hd⟩ : ∃ d : Dev, d = { s.dev with mbox := { s.dev.mbox with turn := q, taken := n } } := ⟨_, rfl⟩
    refine ⟨_, (exec_submissionTake s).trans (runPower_next rfl), ?_⟩
    simp only [hnext, ← hd]
    rw [if_neg (by simp [hserving, hfrozen])]
    refine ⟨rfl, ?_⟩
    rintro r rfl hbad hmark
    rw [Dev.takeSubmission_of_poisoned (by rw [hd]; exact hm) (by rw [hd]; exact hmark) hbad, hd]
    rfl
  case heartbeat =>
    rw [exec_hpcHeartbeat, execHpcHeartbeat, run_next rfl]
    simp [hserving, State.put, State.env]
  case coalesce =>
    rw [exec_coalesceTimeout, execCoalesceTimeout, run_next (by simp [missingUnit, Instr.units, hq])]
    simp [hserving, State.put]
  case resend =>
    rw [exec_irqMessageResend, execIrqMessageResend, run_next (by simp [missingUnit, Instr.units, hq])]
    simp [hserving, hm, hirq, heth, hdue, State.put]
  case silent =>
    rw [exec_hostSilentCheck, execHostSilentCheck, run_next rfl]
    have hover : decide (s.env.raw < s.dev.mbox.aliveAt + 1000000 * ms) = false := decide_eq_false (Nat.not_lt.mpr hsilent)
    simp [hserving, Dev.silentCheck, hms, halive, hraised, hover, -State.env_raw]
  case ready =>
    refine ⟨{ s with dev := s.dev.firmwareUp s.env, fuse := s.fuse.raiseFw s.dev.sec.fwSvn }, ?_, ?_⟩
    · simp [execFirmwareReady, hphase, hrom, hstage]
    · rw [Dev.firmwareUp_mbox, Dev.firmwareUp_pow]
      exact ⟨rfl, rfl, rfl, rfl, rfl, rfl, rfl, s.dev.agrees_firmwareUp s.env⟩

end Sys2Proof.Machine
end

section
/-! SUPPORT. Entry to STANDBY on a host-sleep event counts a hold as well (R162, R320, R356, R560): the same copy-back that refutes O1
extends a hold counter, which O12 says stays as it was. -/

namespace Sys2Proof.Machine

open Sys2Proof

/-- The device of `copyBackDev`, with the host asleep on every channel but the first. -/
def lastAwakeState : State := { copyBackState with dev := { copyBackDev with
  host := { low := [(1, 3), (2, 3), (3, 3)] }
  mbox := { ready := true, hostSleep := true, queues := [(0, {})] } } }

/-- The last channel's deep-sleep moves the device to STANDBY; the copy-back corrects the line and holds the fold. -/
theorem heldAfter_deepSleep : heldAfter (exec (.deepSleepEntry 0) lastAwakeState) = 3 := by
  decide +kernel

/-- Refutes O12: the deep-sleep of the last channel, where an instance's write-back region has a line to correct, changes the
physical folds' part. -/
theorem not_portCommandsAct : ¬ Obligations.port_commands_act := by
  unfold Obligations.port_commands_act
  rintro ⟨-, hlow⟩
  obtain ⟨-, -, hsleep, -⟩ := hlow lastAwakeState 0 (by decide) (by decide +kernel) (by decide)
  obtain ⟨t, ht, -, -, -, hsame⟩ := hsleep (by decide) rfl rfl rfl (by decide +kernel) (by decide)
  have hphys : copyBackDev.phys = t.dev.phys := hsame .phys (by decide)
  have hheld := heldAfter_deepSleep
  rw [ht] at hheld
  have hzero : (t.dev.physFold 0).holdCycles = 0 := by rw [Dev.physFold, ← hphys]; rfl
  exact absurd (hzero.symm.trans hheld) (by decide)

end Sys2Proof.Machine
end

section
/-! SUPPORT. Commands at the pins of a channel that is powered, in CK's range and awake (R333 to R335, R350, R355). -/

namespace Sys2Proof.Machine

open Sys2Proof

/-- A channel of a powered port, CK in range and no low-power state, takes the command. -/
theorem Dev.portCmd_of_awake {d : Dev} {e : Env} {ch : Nat} (hon : d.portOn e = true) (hck : tgetD d.host.ckBad ch false = false)
    (hlow : d.lowOf ch = 0) (arg : Nat) (f : Dev → Dev) : d.portCmd e ch arg f = f (d.setLow ch 0) := by
  simp [Dev.portCmd, hon, hck, hlow]

theorem Dev.agrees_setLow (d : Dev) (ch k : Nat) : d.agrees [.host] (d.setLow ch k) := d.agrees_host _

/-! ## Mode registers -/

/-- A register as it is accessed does not depend on the low-power states. -/
theorem Dev.mrValue_setLow (d : Dev) (ch k c n : Nat) : (d.setLow ch k).mrValue c n = d.mrValue c n := rfl

/-- The write of a register that is accepted, before it may end a training step. -/
def Dev.keepMr (d : Dev) (ch n : Nat) (v : Byte) : Dev :=
  { d with host := { d.host with mr := tset d.host.mr (mrKey ch n (mrField Config.fspWrite 16 (d.mr16 ch))) v } }

theorem Dev.mrWrite_of_accepted {d : Dev} {ch n : Nat} {v : Byte} (hw : mrWritable n = true) (hok : mrRefused n v = false) :
    d.mrWrite ch n v = (d.keepMr ch n v).leaveTraining ch n v := by
  simp [Dev.mrWrite, hw, hok, Dev.keepMr]

/-- No other register's key is that of MR16. -/
theorem mrKey_ne_mr16 {ch n : Nat} (hn : n < 256) (h : n ≠ 16) (b : Bool) : 256 * ch + 16 ≠ mrKey ch n b := by
  unfold mrKey
  split <;> omega

/-- Writing a register moves no set point but for MR16, which has one key. -/
theorem Dev.mrKey_keepMr {ch n : Nat} (hn : n < 256) (d : Dev) (v : Byte) :
    mrKey ch n (mrField Config.fspWrite 16 ((d.keepMr ch n v).mr16 ch)) = mrKey ch n (mrField Config.fspWrite 16 (d.mr16 ch)) := by
  by_cases h : n = 16
  · simp [h, mrKey]
  · rw [Dev.mr16, Dev.keepMr, tgetD_tset, if_neg (mrKey_ne_mr16 hn h _)]
    rfl

theorem Dev.mrValue_keepMr {ch n : Nat} (hn : n < 256) (d : Dev) (v : Byte) : (d.keepMr ch n v).mrValue ch n = v := by
  rw [Dev.mrValue, Dev.mrKey_keepMr hn, Dev.keepMr, tgetD_tset, if_pos rfl]

/-- What the end of a training step leaves: everything but the port's training. -/
theorem Dev.leaveTraining_eq (d : Dev) (ch n : Nat) (v : Byte) : d.leaveTraining ch n v =
    { d with host := { d.host with training := (d.leaveTraining ch n v).host.training } } := by
  unfold Dev.leaveTraining
  split
  · split <;> rfl
  · rfl

theorem Dev.leaveTraining_training (d : Dev) (ch n : Nat) (v : Byte) :
    (∀ k, tget d.host.training ch = some k → (d.leaveTraining ch n v).host.training =
      if Config.exitsTraining k n v then terase d.host.training ch else d.host.training) ∧
    (tget d.host.training ch = none → (d.leaveTraining ch n v).host.training = d.host.training) := by
  refine ⟨fun k hk => ?_, fun hnone => ?_⟩
  · simp only [Dev.leaveTraining, hk]
    split <;> rfl
  · simp only [Dev.leaveTraining, hnone]

/-- A write of a mode register changes the port, and what its refusal raises. -/
theorem Dev.agrees_mrWrite (d : Dev) (ch n : Nat) (v : Byte) : d.agrees (.host :: faultParts) (d.mrWrite ch n v) := by
  unfold Dev.mrWrite
  split
  · rfl
  · split
    · exact ((d.agrees_raise _ _ _ _).mono (by decide))
    · rw [Dev.leaveTraining_eq]
      exact (((d.agrees_host _).trans (Dev.agrees_host _ _)).mono (by decide))

theorem Dev.mrWrite_pages (d : Dev) (ch n : Nat) (v : Byte) : (d.mrWrite ch n v).host.pages = d.host.pages := by
  unfold Dev.mrWrite
  split
  · rfl
  · split
    · rw [Dev.raise_host]
    · rw [Dev.leaveTraining_eq]

/-- A field of a register at its reset value is off. -/
theorem mrField_reset (f : Byte → Bool) (n : Nat) : mrField f n (mrReset n) = false := by simp [mrField]

theorem Dev.mrInForce_of_none {d : Dev} (h : d.host.mr = []) (ch n : Nat) : d.mrInForce ch n = mrReset n := by
  simp [Dev.mrInForce, h, tgetD, tget]

/-! ## Training -/

theorem Dev.trainData_eq (d : Dev) (ch : Nat) (k : TrainStep) : d.trainData ch k =
    { d with host := { d.host with
      dq := (d.trainData ch k).host.dq, dqEcc := (d.trainData ch k).host.dqEcc, fifo := (d.trainData ch k).host.fifo } } := by
  unfold Dev.trainData
  split <;> rfl

/-- Settles O60: each row at an awake channel, the write by the register's answer. -/
theorem modeRegistersAct : Obligations.mode_registers_act := by
  unfold Obligations.mode_registers_act
  intro s ch mr v key hch hmr hon hck hlow hkey
  have hread : exec (.modeRegisterRead ch mr) s = .next (s.put { s.dev.setLow ch 0 with host := { (s.dev.setLow ch 0).host with
      mrData := s.dev.mrValue ch mr } }) := by
    rw [exec_modeRegisterRead, execModeRegisterRead, run_next (by simp [missingUnit, Instr.units, hch, hmr]),
      Dev.portCmd_of_awake hon hck hlow]
    rfl
  have hwrite : exec (.modeRegisterWrite ch mr v) s = .next (s.put ((s.dev.setLow ch 0).mrWrite ch mr v)) := by
    rw [exec_modeRegisterWrite, execModeRegisterWrite, run_next (by simp [missingUnit, Instr.units, hch, hmr]),
      Dev.portCmd_of_awake hon hck hlow]
    rfl
  have hstep : ∀ k, exec (.trainingStep ch k) s = .next (s.put ({ s.dev.setLow ch 0 with
      host := { (s.dev.setLow ch 0).host with training := tset s.dev.host.training ch k.kind } }.trainData ch k)) := by
    intro k
    rw [exec_trainingStep, execTrainingStep, run_next (by simp [missingUnit, Instr.units, hch]), Dev.portCmd_of_awake hon hck hlow]
    rfl
  refine ⟨⟨_, hread, rfl, State.touches_of_agrees (Dev.agrees_host _ _), rfl, rfl, fun h5 hnone => ?factory⟩,
    fun hw => ⟨_, hwrite, ?touches, ?pages, fun haccept => ?kept, fun h23 hrefused => ?refused⟩,
    fun hw => ⟨_, hwrite, ?readOnly⟩, fun k data => ⟨_, hstep ⟨k, data⟩, ?train⟩, fun hnone => ?reset, ?refresh⟩
  case factory =>
    subst h5
    rw [hkey] at hnone
    exact congrArg (Option.getD · (mrReset 5)) hnone
  case touches => exact State.touches_of_agrees (((s.dev.agrees_setLow ch 0).mono (by decide)).andThen (Dev.agrees_mrWrite _ _ _ _) (by decide))
  case pages => exact Dev.mrWrite_pages _ _ _ _
  case kept =>
    have hok : mrRefused mr v = false := haccept.elim (fun h => by simp [h, mrRefused]) id
    rw [Dev.mrWrite_of_accepted hw hok]
    obtain ⟨d, hd⟩ : ∃ d, d = (s.dev.setLow ch 0).keepMr ch mr v := ⟨_, rfl⟩
    have hagrees : s.dev.agrees [.host] d := by rw [hd]; exact (s.dev.agrees_setLow ch 0).trans (Dev.agrees_host _ _)
    have htrain : d.host.training = s.dev.host.training := by rw [hd]; rfl
    obtain ⟨hexit, hstay⟩ := d.leaveTraining_training ch mr v
    rw [htrain] at hexit hstay
    rw [← hd]
    refine ⟨?_, State.touches_of_agrees (by rw [Dev.leaveTraining_eq]; exact hagrees.trans (Dev.agrees_host _ _)), fun k hk => ?_, hexit, hstay⟩
    · rw [Dev.leaveTraining_eq]
      exact (congrArg (Dev.mrValue · ch mr) hd).trans (Dev.mrValue_keepMr hmr _ v)
    · rw [Dev.leaveTraining_eq, hd]
      exact (tget_tset _ _ _ _).trans (if_neg (hkey ▸ hk))
  case refused =>
    have hraise : (s.dev.setLow ch 0).mrWrite ch mr v = (s.dev.setLow ch 0).raise 0x280 0x19 mr v.toNat := by
      simp [Dev.mrWrite, hw, hrefused]
    rw [hraise]
    have hhost := Dev.raise_host (s.dev.setLow ch 0) 0x280 0x19 mr v.toNat
    exact ⟨(congrArg HostPort.mr hhost).trans rfl, (congrArg HostPort.training hhost).trans rfl,
      Dev.raise_col_congr (d := s.dev.setLow ch 0) (d' := s.dev) rfl rfl _ _ _ _⟩
  case readOnly =>
    have hdrop : (s.dev.setLow ch 0).mrWrite ch mr v = s.dev.setLow ch 0 := by simp [Dev.mrWrite, hw]
    rw [hdrop]
    exact ⟨rfl, rfl, State.touches_of_agrees (Dev.agrees_setLow _ _ _)⟩
  case train =>
    refine ⟨?_, State.touches_of_agrees ?_, ?_, ?_, ?_, ?_⟩
    · rw [Dev.trainData_eq]
      exact (tget_tset _ _ _ _).trans (if_pos rfl)
    · rw [Dev.trainData_eq]
      exact (s.dev.agrees_setLow ch 0).trans ((Dev.agrees_host _ _).trans (Dev.agrees_host _ _))
    · rw [Dev.trainData_eq]; rfl
    · rw [Dev.trainData_eq]; rfl
    · rintro rfl
      rw [show ∀ x : Dev, x.trainData ch ⟨.wff, data⟩ =
        { x with host := { x.host with fifo := tset x.host.fifo ch (tgetD x.host.fifo ch [] ++ [data]) } } from fun _ => rfl]
      exact (tgetD_tset _ _ _ _ _).trans (if_pos rfl)
    · rintro rfl
      rfl
  case reset =>
    simp [Dev.bankGroups, Dev.maskOff, Dev.writeEccOn, Dev.readEccOn, Dev.mrInForce_of_none hnone, mrField_reset]
  case refresh =>
    rw [exec_refresh, execRefresh, run_next (by simp [missingUnit, Instr.units, hch]), Dev.portCmd_of_awake hon hck hlow]
    rfl

end Sys2Proof.Machine
end

section
/-! SUPPORT. Reads and writes of the host port, and the landing of posted writes (R336, R339 to R349). -/

namespace Sys2Proof.Machine

open Sys2Proof

/-! ## Landing in memory -/

theorem Dev.agrees_readLine_unheld (d : Dev) (src line : Nat) : d.agrees [.mem, .col, .safe] (d.readLine src false line).2 := by
  intro p hp
  by_cases hphys : p = .phys
  · subst hphys
    exact (Dev.readLine_false_phys d src line).symm
  · exact d.agrees_readLine src false line p (by simp_all)

theorem Dev.agrees_transfer (d : Dev) (line : Nat) : d.agrees [.mem, .col, .safe] (d.transfer line).2 := by
  rw [Dev.transfer_frame]
  exact ((d.agrees_mem _).mono (by decide)).andThen (Dev.agrees_fault _ _ _) (by decide)

theorem Dev.agrees_freshLine (d : Dev) (line : Nat) (p : Bool) : d.agrees [.mem] (d.freshLine line p) := d.agrees_mem _

/-- The bytes of a write are stored one by one. -/
def Dev.pokeCells (d : Dev) (base : Nat) (cells : List Host.Cell) : Dev := cells.foldl (fun d c => d.poke (base + c.1) [c.2]) d

theorem Dev.agrees_pokeCells (d : Dev) (base : Nat) (cells : List Host.Cell) : d.agrees [.mem] (d.pokeCells base cells) :=
  Dev.agrees_foldl (fun d _ => d.agrees_poke _ _) _ d

theorem Dev.mget_poke_one (d : Dev) (a k : Nat) (b : Byte) :
    mget (d.poke a [b]).mem.bytes k = if k = a then b else mget d.mem.bytes k := by
  rw [show (d.poke a [b]).mem.bytes = mput d.mem.bytes a [b] from rfl, mget_mput]
  by_cases h : k = a
  · simp [h]
  · rw [if_neg h, if_neg (by simp; omega)]

theorem Dev.pokeCells_other (base a : Nat) (cells : List Host.Cell) (h : ∀ c ∈ cells, base + c.1 ≠ a) (d : Dev) :
    mget (d.pokeCells base cells).mem.bytes a = mget d.mem.bytes a := by
  induction cells generalizing d with
  | nil => rfl
  | cons c cells ih =>
    rw [Dev.pokeCells, List.foldl_cons]
    refine (ih (fun x hx => h x (List.mem_cons_of_mem _ hx)) _).trans ?_
    rw [Dev.mget_poke_one, if_neg (h c List.mem_cons_self).symm]

theorem Dev.pokeCells_own (base : Nat) (cells : List Host.Cell) (hdup : (cells.map (·.1)).Nodup) (d : Dev) :
    ∀ c ∈ cells, mget (d.pokeCells base cells).mem.bytes (base + c.1) = c.2 := by
  induction cells generalizing d with
  | nil => simp
  | cons x cells ih =>
    rw [List.map_cons, List.nodup_cons] at hdup
    obtain ⟨hfresh, hdup⟩ := hdup
    intro c hc
    rw [Dev.pokeCells, List.foldl_cons]
    rcases List.mem_cons.mp hc with rfl | htail
    · have hlater : ∀ y ∈ cells, base + y.1 ≠ base + c.1 := fun y hy he =>
        hfresh (by rw [show c.1 = y.1 by omega]; exact List.mem_map_of_mem hy)
      refine (Dev.pokeCells_other _ _ _ hlater _).trans ?_
      rw [Dev.mget_poke_one, if_pos rfl]
    · exact ih hdup _ c htail

/-- What the landing of a write does to memory: its bytes are stored, and no other byte changes. -/
structure Landed (d d' : Dev) (base : Nat) (cells : List Host.Cell) : Prop where
  agrees : d.agrees [.mem, .col, .safe] d'
  other : ∀ a, (∀ c ∈ cells, base + c.1 ≠ a) → mget d'.mem.bytes a = mget d.mem.bytes a
  own : ∀ c ∈ cells, mget d'.mem.bytes (base + c.1) = c.2

theorem Dev.landCells_landed {w : PenWrite} (hdup : (w.cells.map (·.1)).Nodup) (d : Dev) (base : Nat) :
    Landed d (d.landCells base w) base w.cells := by
  by_cases hempty : w.cells = []
  · simp only [Dev.landCells, hempty, if_true]
    exact ⟨by rfl, fun _ _ => rfl, by simp⟩
  · obtain ⟨r, hr, hbytes⟩ : ∃ r : Bool × Dev, d.agrees [.mem, .col, .safe] r.2 ∧ r.2.mem.bytes = d.mem.bytes ∧
        r = if w.cells.length = 64 then (false, d) else d.readLine (d.memSource (64 * (base / 64 + w.line))) false (base / 64 + w.line) := by
      refine ⟨_, ?_, ?_, rfl⟩
      · split
        · rfl
        · exact d.agrees_readLine_unheld _ _
      · split
        · rfl
        · exact d.readLine_bytes _ _ _
    obtain ⟨hbytes, hdef⟩ := hbytes
    simp only [Dev.landCells, hempty, if_false, ← hdef]
    have hline : ((r.2.transfer (base / 64 + w.line)).2.freshLine (base / 64 + w.line)
        (w.poison || r.1 || (r.2.transfer (base / 64 + w.line)).1)).mem.bytes = d.mem.bytes := by
      rw [Dev.freshLine_bytes, Dev.transfer_bytes, hbytes]
    refine ⟨?_, fun a ha => ?_, fun c hc => Dev.pokeCells_own base w.cells hdup _ c hc⟩
    · exact (((hr.andThen (Dev.agrees_transfer _ _) (by decide)).andThen (Dev.agrees_freshLine _ _ _) (by decide)).andThen (Dev.agrees_pokeCells _ base w.cells) (by decide)).andThen
        (Dev.agrees_modMem _ _) (by decide)
    · exact (Dev.pokeCells_other base a w.cells ha _).trans (congrArg (mget · a) hline)

theorem Dev.agrees_meetEdc (d : Dev) (a k : Nat) : d.agrees [.mem] (d.meetEdc a k) := by
  unfold Dev.meetEdc
  split
  · split
    · rfl
    · exact d.agrees_modMem _
  · rfl

theorem Dev.meetEdc_bytes (d : Dev) (a k : Nat) : (d.meetEdc a k).mem.bytes = d.mem.bytes := by
  unfold Dev.meetEdc
  split
  · split <;> rfl
  · rfl

/-! ## Bursts -/

/-- A burst that starts on its own boundary lies on end in its page. -/
theorem hostOffset_burst {ch bank row page len i : Nat} (hlen : len = 32 ∨ len = 64) (halign : page % len = 0) (hi : i < len) :
    hostOffset ch bank row (page / len * len + (page % len + i) % len) = hostOffset ch bank row page + i := by
  rcases hlen with rfl | rfl <;> simp only [hostOffset] <;> omega

theorem Dev.pageByte_unbuffered {d : Dev} {off : Nat} (hbuf : d.mem.buffered = []) (hoff : 0x10000 ≤ off) :
    d.pageByte off = mget d.mem.bytes (commonBase + off) := by
  simp [Dev.pageByte, hbuf, cellAt, Dev.penByte, show ¬ off < 0x10000 by omega, show ¬ off < 0x1000 by omega,
    show ¬ off < 0x2000 by omega, show ¬ (0x2000 ≤ off ∧ off < 0x2004) by omega]

theorem burstOk_of_length {n : Nat} (h : n = 32 ∨ n = 64) : burstOk n = true := by
  simpa [burstOk] using h

theorem penRow_of_lt {row : Nat} (h : row < 512) : penRow row = true := by simpa [penRow] using h

theorem penRow_of_ge {row : Nat} (h : 512 ≤ row) : penRow row = false := by simpa [penRow] using h

/-- A fault of a kind is counted, or raised and its time noted. -/
theorem Dev.hostFaultOnce_cases (d : Dev) (e : Env) (detail win arg : Nat) :
    d.hostFaultOnce e detail win arg = { d with host := { d.host with suppressed := d.host.suppressed + 1 } } ∨
    d.hostFaultOnce e detail win arg =
      { d with host := { d.host with faultAt := tset d.host.faultAt (128 * detail + win) e.raw } }.raise 0x280 0x18 detail arg := by
  cases hlast : tget d.host.faultAt (128 * detail + win) with
  | none => right; simp [Dev.hostFaultOnce, hlast, Dev.hostFault]
  | some t =>
    by_cases hsoon : e.raw < t + 1000000
    · left; simp [Dev.hostFaultOnce, hlast, hsoon]
    · right; simp [Dev.hostFaultOnce, hlast, hsoon, Dev.hostFault]

theorem Dev.agrees_hostFaultOnce (d : Dev) (e : Env) (detail win arg : Nat) :
    d.agrees (.host :: faultParts) (d.hostFaultOnce e detail win arg) := by
  rcases d.hostFaultOnce_cases e detail win arg with h | h <;> rw [h]
  · exact ((d.agrees_host _).mono (by decide))
  · exact ((d.agrees_host _).mono (l := .host :: faultParts) (by decide)).andThen (Dev.agrees_raise _ _ _ _ _) (by decide)

/-- Such a fault changes the counters of the port alone. -/
theorem Dev.hostFaultOnce_host (d : Dev) (e : Env) (detail win arg : Nat) :
    ∃ f n, (d.hostFaultOnce e detail win arg).host = { d.host with faultAt := f, suppressed := n } := by
  rcases d.hostFaultOnce_cases e detail win arg with h | h <;> rw [h]
  · exact ⟨_, _, rfl⟩
  · exact ⟨_, _, by rw [Dev.raise_host]⟩

/-! ## Writes -/

theorem Dev.agrees_postPen (d : Dev) (e : Env) (ch : Nat) (cells : List Host.Cell) (p : Bool) :
    d.agrees [.mem, .host] (d.postPen e ch cells p) := ((d.agrees_host _).mono (by decide)).andThen (Dev.agrees_modMem _ _) (by decide)

theorem Dev.agrees_windowWrite (d : Dev) (e : Env) (ch off : Nat) (cells : List Host.Cell) (p : Bool) :
    d.agrees (.host :: faultParts) (d.windowWrite e ch off cells p) := by
  unfold Dev.windowWrite
  dsimp only
  split
  · exact d.agrees_hostFaultOnce _ _ _ _
  · split
    · exact d.agrees_hostFaultOnce _ _ _ _
    · split
      · exact ((d.agrees_raise _ _ _ _).mono (by decide))
      · exact ((d.agrees_host _).mono (by decide))

/-- A write at a window row leaves the pages, the mode registers and the writes to the host pen. -/
theorem Dev.windowWrite_host (d : Dev) (e : Env) (ch off : Nat) (cells : List Host.Cell) (p : Bool) :
    (d.windowWrite e ch off cells p).host.pages = d.host.pages ∧ (d.windowWrite e ch off cells p).host.mr = d.host.mr := by
  have honce : ∀ win, (d.hostFaultOnce e 2 win off).host.pages = d.host.pages ∧ (d.hostFaultOnce e 2 win off).host.mr = d.host.mr := by
    intro win
    obtain ⟨f, n, h⟩ := d.hostFaultOnce_host e 2 win off
    rw [h]
    exact ⟨rfl, rfl⟩
  unfold Dev.windowWrite
  dsimp only
  split
  · exact honce _
  · split
    · exact honce _
    · split
      · rw [Dev.hostFault, Dev.raise_host]; exact ⟨rfl, rfl⟩
      · exact ⟨rfl, rfl⟩

/-- The device after the check of a burst's Link ECC: a double-bit error is raised. -/
def Dev.burstChecked (d : Dev) (bad : Bool) (off : Nat) : Dev := if bad then d.raise 0x280 3 4 off else d

theorem Dev.burstChecked_host (d : Dev) (bad : Bool) (off : Nat) : (d.burstChecked bad off).host = d.host := by
  unfold Dev.burstChecked
  split
  · rw [Dev.raise_host]
  · rfl

theorem Dev.agrees_burstChecked (d : Dev) (bad : Bool) (off : Nat) : d.agrees faultParts (d.burstChecked bad off) := by
  unfold Dev.burstChecked
  split
  · exact d.agrees_raise _ _ _ _
  · rfl

section

variable {s : State} {ch page : Nat} {b : BankAddr} {p : Page}

/-- A READ at an awake channel whose bank has page `p` open. -/
theorem exec_hostRead_of_open {len : Nat} (hch : ch < 4) (hbg : b.bg < 4) (hba : b.ba < 16) (hpage : page < 2048)
    (hlen : len = 32 ∨ len = 64) (hon : s.dev.portOn s.env = true) (hck : tgetD s.dev.host.ckBad ch false = false)
    (hlow : s.dev.lowOf ch = 0) (hpen : s.dev.penAnswers s.env = true) (hopen : s.dev.page ch (s.dev.bankOf ch b) = some p) :
    exec (.hostRead ch b page len true) s = .next (s.put (
      let d := s.dev.setLow ch 0
      let off := hostOffset ch (s.dev.bankOf ch b) p.row page
      if !penRow p.row then (d.drive ch (List.replicate len 0)).hostFaultOnce s.env 1 (off / 0x4000000) off
      else if !p.fetched then (d.drive ch (List.replicate len 0)).hostFault 0 off
      else d.drive ch ((burstOffsets ch (s.dev.bankOf ch b) p.row page len).map d.pageByte))) := by
  rw [exec_hostRead, execHostRead, run_next (by simp [missingUnit, Instr.units, hch, hbg, hba, hpage]),
    Dev.portCmd_of_awake hon hck hlow]
  obtain ⟨d, hd⟩ : ∃ d, d = s.dev.setLow ch 0 := ⟨_, rfl⟩
  have hbank : d.bankOf ch b = s.dev.bankOf ch b := by rw [hd]; rfl
  have hpage : d.page ch (s.dev.bankOf ch b) = some p := by rw [hd]; exact hopen
  have hans : d.penAnswers s.env = true := by rw [hd]; exact hpen
  simp only [← hd, Dev.hostRead, hans, hbank, hpage, burstOk_of_length hlen, Bool.not_true, Bool.false_eq_true, if_false]
  rfl

/-- A WRITE at an awake channel whose bank has page `p` open. -/
theorem exec_hostWrite_of_open {data : List Byte} {mask : List Bool} {ecc : LinkEcc} {cells : List Host.Cell} {bad : Bool}
    (hch : ch < 4) (hbg : b.bg < 4) (hba : b.ba < 16) (hpage : page < 2048)
    (hlen : data.length = 32 ∨ data.length = 64) (hon : s.dev.portOn s.env = true) (hck : tgetD s.dev.host.ckBad ch false = false)
    (hlow : s.dev.lowOf ch = 0) (hpen : s.dev.penAnswers s.env = true) (hopen : s.dev.page ch (s.dev.bankOf ch b) = some p)
    (hcells : cells = burstCells (burstOffsets ch (s.dev.bankOf ch b) p.row page data.length) data (if s.dev.maskOff ch then [] else mask))
    (hbad : bad = (s.dev.writeEccOn ch && ecc == .double)) :
    exec (.hostWrite ch b page data mask ecc true) s = .next (s.put (
      let off := hostOffset ch (s.dev.bankOf ch b) p.row page
      let d := (s.dev.setLow ch 0).burstChecked bad off
      if penRow p.row then d.postPen s.env ch cells bad else d.windowWrite s.env ch off cells bad)) := by
  rw [exec_hostWrite, execHostWrite, run_next (by simp [missingUnit, Instr.units, hch, hbg, hba, hpage]),
    Dev.portCmd_of_awake hon hck hlow]
  obtain ⟨d, hd⟩ : ∃ d, d = s.dev.setLow ch 0 := ⟨_, rfl⟩
  have hbank : d.bankOf ch b = s.dev.bankOf ch b := by rw [hd]; rfl
  have hpage : d.page ch (s.dev.bankOf ch b) = some p := by rw [hd]; exact hopen
  have hans : d.penAnswers s.env = true := by rw [hd]; exact hpen
  have hmask : d.maskOff ch = s.dev.maskOff ch := by rw [hd]; rfl
  have hecc : d.writeEccOn ch = s.dev.writeEccOn ch := by rw [hd]; rfl
  simp only [← hd, Dev.hostWrite, hans, hbank, hpage, burstOk_of_length hlen, Bool.not_true, Bool.false_eq_true, if_false, hmask, hecc,
    ← hcells, ← hbad]
  rfl

end

/-- Settles O13: a READ and a WRITE at an open page, and the landing of a posted write. -/
theorem hostTransfersAct : Obligations.host_transfers_act := by
  unfold Obligations.host_transfers_act
  refine ⟨?read, ?write, fun s w hdup => ⟨fun i hw hfirst hline hans => ?landPen, fun ch i edc hch hw hfirst hself hmap hfail => ?landWin⟩⟩
  case read =>
    rintro s ch bank page len b p d hch hbg hba rfl hpage hlen hon hck hlow hans hopen rfl
    have hexec := exec_hostRead_of_open hch hbg hba hpage hlen hon hck hlow hans hopen
    refine ⟨fun hrow hfetch => ?_, fun hrow hfetch halign hbuf hoff => ⟨_, hexec, ?_⟩, fun hrow hfetch => ⟨_, hexec, ?_⟩,
      fun hrow => ⟨_, hexec, ?_⟩⟩
    · rw [hexec, penRow_of_lt hrow, hfetch]
      rfl
    · simp only [penRow_of_lt hrow, hfetch]
      refine ⟨State.touches_of_agrees ((s.dev.agrees_setLow ch 0).trans (Dev.agrees_host _ _)), ?_⟩
      refine (List.map_map ..).trans (List.map_congr_left fun i hi => ?_)
      rw [Function.comp_apply, hostOffset_burst hlen halign (List.mem_range.mp hi)]
      exact Dev.pageByte_unbuffered hbuf (by omega)
    · simp only [penRow_of_lt hrow, hfetch]
      have hzeros : s.dev.agrees (.host :: faultParts) ((s.dev.setLow ch 0).drive ch (List.replicate len 0)) :=
        (((s.dev.agrees_setLow ch 0).trans (Dev.agrees_host _ _)).mono (by decide))
      refine ⟨State.touches_of_agrees (hzeros.andThen (Dev.agrees_raise _ _ _ _ _) (by decide)), ?_, ?_⟩
      · exact congrArg HostPort.dq (Dev.raise_host ((s.dev.setLow ch 0).drive ch (List.replicate len 0)) 0x280 0x18 0 _)
      · exact Dev.raise_col_congr (d := (s.dev.setLow ch 0).drive ch (List.replicate len 0)) (d' := s.dev) rfl rfl _ _ _ _
    · simp only [penRow_of_ge hrow]
      have hzeros : s.dev.agrees (.host :: faultParts) ((s.dev.setLow ch 0).drive ch (List.replicate len 0)) :=
        (((s.dev.agrees_setLow ch 0).trans (Dev.agrees_host _ _)).mono (by decide))
      obtain ⟨f, n, hhost⟩ := ((s.dev.setLow ch 0).drive ch (List.replicate len 0)).hostFaultOnce_host s.env 1
        (hostOffset ch (s.dev.bankOf ch b) p.row page / 0x4000000) (hostOffset ch (s.dev.bankOf ch b) p.row page)
      exact ⟨State.touches_of_agrees (hzeros.andThen (Dev.agrees_hostFaultOnce _ _ _ _ _) (by decide)), congrArg HostPort.dq hhost⟩
  case write =>
    rintro s ch bank page b data mask ecc p cells bad d hch hbg hba rfl hpage hlen hon hck hlow hans hopen hcells hbad hd
    have hexec := exec_hostWrite_of_open hch hbg hba hpage hlen hon hck hlow hans hopen hcells hbad
    have hchecked : (s.dev.setLow ch 0).burstChecked bad (hostOffset ch (s.dev.bankOf ch b) p.row page) = d := hd.symm
    have hagrees : s.dev.agrees (.host :: faultParts) d := by
      rw [← hchecked]
      exact ((s.dev.agrees_setLow ch 0).mono (l := .host :: faultParts) (by decide)).andThen (Dev.agrees_burstChecked _ _ _) (by decide)
    have hhost : d.host = (s.dev.setLow ch 0).host := by rw [← hchecked, Dev.burstChecked_host]
    have hmem : d.mem.bytes = s.dev.mem.bytes := congrArg Mem.bytes (hagrees .mem (by decide)).symm
    have hpages : d.host.pages = s.dev.host.pages := by rw [hhost]; rfl
    have hmr : d.host.mr = s.dev.host.mr := by rw [hhost]; rfl
    have hpenWrites : d.host.penWrites = s.dev.host.penWrites := by rw [hhost]; rfl
    have hwinWrites : d.host.winWrites = s.dev.host.winWrites := by rw [hhost]; rfl
    have hnext : d.host.nextWrite = s.dev.host.nextWrite := by rw [hhost]; rfl
    have hready : d.mbox.ready = s.dev.mbox.ready := congrArg Mailbox.ready (hagrees .mbox (by decide)).symm
    simp only [hchecked] at hexec
    refine ⟨fun hrow => ?_, fun base length hrow hwin hin hroom => ?_, _, hexec, ?_⟩
    · rw [hexec, penRow_of_lt hrow, if_pos rfl]
    · rw [hexec, penRow_of_ge hrow, if_neg (by decide)]
      have hwin' : tget d.host.windows (hostOffset ch (s.dev.bankOf ch b) p.row page / 0x4000000) = some (base, length) := by
        rw [hhost]; exact hwin
      have hroom' : ¬ 0x100000 < d.host.winHeld ch + cells.length := by rw [hhost]; exact Nat.not_lt.mpr hroom
      simp [Dev.windowWrite, hwin', Nat.not_le.mpr hin, hroom']
    · by_cases hrow : p.row < 512
      · simp only [penRow_of_lt hrow, if_true, Nat.not_le.mpr hrow, false_imp_iff, and_true]
        refine ⟨State.touches_of_agrees ((hagrees.mono (l := [.mem, .host] ++ faultParts) (by decide)).andThen (Dev.agrees_postPen _ _ _ _ _) (by decide)),
          hmem, hpages, hmr, fun _ => ⟨?_, hwinWrites⟩⟩
        rw [← hpenWrites, ← hnext, ← hready]
        rfl
      · have hrow' := Nat.not_lt.mp hrow
        simp only [penRow_of_ge hrow', hrow, false_imp_iff, true_and]
        obtain ⟨hwpages, hwmr⟩ := d.windowWrite_host s.env ch (hostOffset ch (s.dev.bankOf ch b) p.row page) cells bad
        have hwin := Dev.agrees_windowWrite d s.env ch (hostOffset ch (s.dev.bankOf ch b) p.row page) cells bad
        refine ⟨State.touches_of_agrees ((hagrees.andThen hwin (by decide)).mono (by decide)), ?_, hwpages.trans hpages, hwmr.trans hmr, fun _ hnone => ?_⟩
        · exact (congrArg Mem.bytes (hwin .mem (by decide)).symm).trans hmem
        · have hnone' : tget d.host.windows (hostOffset ch (s.dev.bankOf ch b) p.row page / 0x4000000) = none := by
            rw [hhost]; exact hnone
          obtain ⟨f, n, honce⟩ := d.hostFaultOnce_host s.env 2 (hostOffset ch (s.dev.bankOf ch b) p.row page / 0x4000000)
            (hostOffset ch (s.dev.bankOf ch b) p.row page)
          simp only [Dev.windowWrite, hnone', Bool.false_eq_true, if_false, State.put_dev, honce]
          exact ⟨hwinWrites, hpenWrites⟩
  case landPen =>
    have hnext : nextOnLine s.dev.host.penWrites i = some w := by
      have hany : ((s.dev.host.penWrites.take i).any fun x => x.line == w.line) = false := any_eq_false_of_all_not hfirst fun _ => (Bool.not_not _).symm
      simp only [nextOnLine, hw, hany, Bool.false_eq_true, if_false]
    obtain ⟨d, hd⟩ : ∃ d, d = { s.dev with host := { s.dev.host with penWrites := s.dev.host.penWrites.eraseIdx i } } := ⟨_, rfl⟩
    have hbytes : d.mem = s.dev.mem := by rw [hd]
    obtain ⟨hagrees, hother, hown⟩ := Dev.landCells_landed hdup d commonBase
    have hland : d.landNow s.env w = d.landCells commonBase w := by
      simp only [Dev.landNow, Dev.landPen]
      rw [if_neg (by omega), if_neg (by omega), if_neg (by omega), if_neg (by omega), if_neg (by omega)]
    refine ⟨s.put (d.landCells commonBase w), ?_, ?_, State.touches_of_agrees ?_, fun a ha => ?_, hown⟩
    · rw [exec_hostPenWriteLand, execHostPenWriteLand, run_next rfl]
      simp only [hans, hnext, Bool.not_true, Bool.false_eq_true, if_false]
      rw [if_neg (by omega), ← hd, hland]
      rfl
    · exact (congrArg HostPort.penWrites (hagrees .host (by decide)).symm).trans (by rw [hd])
    · have hhost : s.dev.agrees [.host] d := by rw [hd]; exact s.dev.agrees_host _
      exact (hhost.mono (l := [.mem, .host] ++ faultParts) (by decide)).andThen hagrees (by decide)
    · exact (hother a ha).trans (by rw [hbytes])
  case landWin =>
    obtain ⟨d, hd⟩ : ∃ d, d = ({ s.dev with host := { s.dev.host with
      winWrites := s.dev.host.winWrites.filter fun x => x.no != w.no } }).meetEdc (64 * w.line) edc := ⟨_, rfl⟩
    have hhost : s.dev.agrees [.mem, .host] d := by
      rw [hd]
      exact ((s.dev.agrees_host _).mono (l := [.mem, .host]) (by decide)).andThen (Dev.agrees_meetEdc _ _ _) (by decide)
    have hbytes : d.mem.bytes = s.dev.mem.bytes := by rw [hd, Dev.meetEdc_bytes]
    have hwrites : d.host.winWrites = s.dev.host.winWrites.filter fun x => x.no != w.no := by
      rw [hd]
      exact congrArg HostPort.winWrites (Dev.agrees_meetEdc _ _ _ .host (by decide)).symm
    have hok : d.gddrFailed (64 * w.line) = false := by
      rw [← hfail, Dev.gddrFailed, ← hhost .gddr (by decide)]
      rfl
    obtain ⟨hagrees, hother, hown⟩ := Dev.landCells_landed hdup d 0
    have hall : s.dev.agrees ([.mem, .host] ++ faultParts) (d.landCells 0 w) := (hhost.mono (by decide)).andThen hagrees (by decide)
    have hsettled : ((d.landCells 0 w)).settleWindows s.env = d.landCells 0 w :=
      Dev.settleWindows_of_none (by rw [← hall .mbox (by decide)]; exact hmap) _
    have hany : ((s.dev.host.winWrites.takeWhile (·.no != w.no)).any fun y => y.line == w.line) = false :=
      any_eq_false_of_all_not hfirst fun _ => (Bool.not_not _).symm
    refine ⟨s.put (d.landCells 0 w), ?_, ?_, State.touches_of_agrees hall, fun a ha => ?_, fun c hc => ?_⟩
    · rw [exec_windowWriteLand, execWindowWriteLand, run_next (by simp [missingUnit, Instr.units, hch])]
      simp only [hw, hself, hany, Bool.or_self, Bool.false_eq_true, if_false, ← hd, Dev.landWin, hok, hsettled]
      rfl
    · exact (congrArg HostPort.winWrites (hagrees .host (by decide)).symm).trans hwrites
    · exact (hother a (by simpa using ha)).trans (by rw [hbytes])
    · simpa using hown c hc

end Sys2Proof.Machine
end

section
/-! SUPPORT. What the parts of a thread instruction leave (R128 to R131): a register written and read, a thread that goes on or waits,
and the frame of an instruction that changes its own thread alone. -/

namespace Sys2Proof.Machine

open Sys2Proof

/-! ## Registers -/

theorem Thread.reg_setReg (th : Thread) {r : Nat} (hr : r < 32) (v : Word) (k : Nat) :
    (th.setReg r v).reg k = if k = r then (if r = 0 then 0 else v) else th.reg k := by
  have hsmall : ¬ 31 < r := by omega
  by_cases h0 : r = 0
  · by_cases hk : k = 0 <;> simp [h0, hk, Thread.setReg, Thread.reg]
  · by_cases hv : v = 0#64
    · by_cases hk : k = r <;> simp [hv, hk, h0, hsmall, Thread.setReg, Thread.reg, tgetD, tget_terase]
    · by_cases hk : k = r <;> simp [hv, hk, h0, hsmall, Thread.setReg, Thread.reg, tgetD_tset]

@[simp] theorem Thread.setReg_st (th : Thread) (r : Nat) (v : Word) : (th.setReg r v).st = th.st := by
  unfold Thread.setReg
  split <;> rfl

@[simp] theorem Thread.setReg_wait (th : Thread) (r : Nat) (v : Word) : (th.setReg r v).wait = th.wait := by
  unfold Thread.setReg
  split <;> rfl

/-! ## Frames -/

theorem Part.same_symm {p : Part} {a b : Dev} (h : p.same a b) : p.same b a := by
  cases p <;> exact Eq.symm h

/-- Devices that agree in every part are equal. -/
theorem Dev.eq_of_agrees {a b : Dev} (h : a.agrees [] b) : a = b := by
  have hpart : ∀ p : Part, p.same a b := fun p => h p (by simp)
  obtain ⟨⟩ := a
  obtain ⟨⟩ := b
  rw [Dev.mk.injEq]
  exact ⟨hpart .mem, hpart .gddr, hpart .folds, hpart .phys, hpart .foldMap, hpart .threads, hpart .posted, hpart .insts, hpart .queues,
    hpart .slots, hpart .hurdles, hpart .flights, hpart .host, hpart .mbox, hpart .race, hpart .fsets, hpart .tu, hpart .flock, hpart .col,
    hpart .safe, hpart .sec, hpart .pow, hpart .free⟩

/-- An instruction that touches its thread, its fold's issue pointers and the free values' number only keeps the frame of O14. -/
theorem threadActs.frame {s : State} {d : Dev} {t : Nat} (h : threadActs s (s.put d) t [.free]) : threadFrame s (s.put d) t := by
  obtain ⟨⟨-, -, -, hparts⟩, hthreads, hfolds⟩ := h
  refine ⟨congrArg s.put (Dev.eq_of_agrees fun p _ => ?_), hthreads, hfolds⟩
  by_cases hp : p ∈ [Part.threads, .folds] ++ [.free]
  · simp only [List.cons_append, List.nil_append, List.mem_cons, List.not_mem_nil, or_false] at hp
    rcases hp with rfl | rfl | rfl <;> rfl
  · refine Part.same_trans (Part.same_symm (hparts p hp)) ?_
    cases p <;> simp_all [Part.same]

theorem threadActs.result {s : State} {d : Dev} {t : Nat} {l : List Part} (h : threadActs s (s.put d) t l) (rd : Nat) (v : Word) :
    threadActs s (s.put (d.result t rd v)) t l := (h.modThread _).advance

theorem threadActs.park {s : State} {d : Dev} {t : Nat} {l : List Part} (h : threadActs s (s.put d) t l) (e : Env) (w : WaitFor) :
    threadActs s (s.put (d.park e t w)) t l := h.modThread _

/-- More parts may be listed. -/
theorem threadActs.widen {s u : State} {t : Nat} {l m : List Part} (h : threadActs s u t l) (hl : l ⊆ m) : threadActs s u t m := by
  obtain ⟨⟨hpending, hclk, hfuse, hparts⟩, hrest⟩ := h
  refine ⟨⟨hpending, hclk, hfuse, fun p hp => hparts p fun hin => hp ?_⟩, hrest⟩
  rcases List.mem_append.mp hin with h | h
  · exact List.mem_append_left _ h
  · exact List.mem_append_right _ (hl h)

/-! ## A thread that goes on, or waits -/

section

variable {s : State} {d : Dev} {t : Nat} (hth : d.thread t = s.dev.thread t)
include hth

theorem wrote_result {rd : Nat} (hrd : rd < 32) (v : Word) : wrote s (s.put (d.result t rd v)) t rd v := by
  simp only [wrote, State.put_dev, Dev.result, Dev.thread_advance, Dev.thread_modThread, if_true, hth]
  refine ⟨?_, fun r hr => ?_, ?_, ?_⟩
  · exact (Thread.reg_setReg _ hrd v rd).trans (if_pos rfl)
  · exact (Thread.reg_setReg _ hrd v r).trans (if_neg hr)
  · rw [Thread.setReg_pc]
  · rw [Thread.setReg_st]

theorem waits_park (w : WaitFor) : waits s (s.put ((d.advance t).park s.env t w)) t w := by
  simp [waits, Dev.park, Dev.thread_advance, Dev.thread_modThread, hth]

end

/-- A result that is not poisoned sets the register alone. -/
theorem Dev.loadResult_clean (d : Dev) (t rd : Nat) (bs : List Byte) :
    (d.loadResult t rd bs false).advance t = d.result t rd (BitVec.ofNat 64 (leNat bs)) := rfl

@[simp] theorem Dev.reg_issued (d : Dev) (e : Env) (t k r : Nat) : (d.issued e t).reg k r = d.reg k r := rfl

theorem aluResult_issued (d : Dev) (e : Env) (t : Nat) (op : AluOp) (a b c : Word) :
    aluResult (d.issued e t) op a b c = aluResult d op a b c := by
  cases op <;> rfl

theorem wrote_spend {s : State} {d : Dev} {t rd : Nat} {v : Word} (h : wrote s (s.put d) t rd v) : wrote s (s.put d.spend) t rd v := h

/-- A thread that may issue is READY. -/
theorem Dev.ready_of_mayIssue {d : Dev} {t : Nat} (h : d.mayIssue t = true) : (d.thread t).st = .ready := by
  have hpicked : ∀ n last high, d.pickOf n last high = some t → (d.thread t).st = .ready := by
    intro n last high hp
    have hfound := List.find?_some hp
    simp only [Bool.and_eq_true, beq_iff_eq] at hfound
    exact hfound.1
  simp only [Dev.mayIssue, Bool.and_eq_true, beq_iff_eq, Dev.pick] at h
  obtain ⟨-, hpick⟩ := h
  split at hpick
  · next k hk => exact hpicked _ _ _ (hk.trans hpick)
  · exact hpicked _ _ _ hpick

/-- Settles O14: each row is the result of the issued thread. -/
theorem threadArithmetic : Obligations.thread_arithmetic := by
  unfold Obligations.thread_arithmetic
  intro s t w ht
  refine ⟨fun op rd ra rb rc hrd h => ?alu, fun rd ra rb hrd h => ?mul, fun rd k hrd hk h => ?time, fun c ra rb target h => ?branch⟩
  case alu =>
    refine ⟨_, (exec_alu ..).trans (run_instr rfl ht h _), ((threadActs_issued s t _).result _ _ |>.spend (by decide)).frame, ?_⟩
    simp only [aluResult_issued, Dev.reg_issued]
    exact wrote_spend (wrote_result rfl hrd _)
  case mul => exact ⟨_, (exec_mul ..).trans (run_instr rfl ht h _), ((threadActs_issued s t _).result _ _).frame, wrote_result rfl hrd _⟩
  case time =>
    refine ⟨s.put ((s.dev.issued s.env t).result t rd (BitVec.ofInt 64 (s.dev.counter k s.clk.raw))), ?_,
      ((threadActs_issued s t _).result _ _).frame, wrote_result rfl hrd _⟩
    rw [exec_time, execTime, run_instr rfl ht h, if_pos hk]
    rfl
  case branch =>
    by_cases htaken : branchTaken c (s.dev.reg t ra) (s.dev.reg t rb) = true
    · refine ⟨s.put ((s.dev.issued s.env t).modThread t fun th => { th with pc := BitVec.ofNat 32 target }), ?_,
        ((threadActs_issued s t _).modThread _).frame, ?_⟩
      · rw [exec_branch, execBranch, run_instr rfl ht h, Dev.reg_issued, Dev.reg_issued, if_pos htaken]
      · simp [Dev.thread_modThread, htaken]
    · refine ⟨s.put ((s.dev.issued s.env t).advance t), ?_, ((threadActs_issued s t _).advance).frame, ?_⟩
      · rw [exec_branch, execBranch, run_instr rfl ht h, Dev.reg_issued, Dev.reg_issued, if_neg htaken]
      · simp [Dev.thread_advance, htaken]

end Sys2Proof.Machine
end

section
/-! SUPPORT. The WAIT rows (R292 to R295, R305, R307, R311, R314). -/

namespace Sys2Proof.Machine

open Sys2Proof

theorem fA_lt (w : Nat) : fA w < 32 := Nat.mod_lt _ (by decide)

/-- A legal WAIT row of the word's kind runs its effect after the issue. -/
theorem run_waitRow {i : Instr} {s : State} {t kind w : Nat} (hi : i.units = [(t, 3088)]) (ht : t < 3088) (h : s.dev.waitsOn t kind w)
    (f : Env → Nat → Nat → Nat → Dev → Dev) :
    run i (fun e d => d.waitRow e t kind (f e)) s =
      .next (s.put (f s.env (fA w) (identOf (s.dev.reg t (fB w))) (s.dev.reg t (fC w)).toNat (s.dev.issued s.env t))) := by
  obtain ⟨hissue, hkind, hlegal⟩ := h
  simp only [Dev.waitRow]
  rw [run_instr hi ht hissue]
  simp [hkind, hlegal]

theorem Dev.engine_modFold {d : Dev} {n : Nat} {f : Fold → Fold} (h : ∀ x, (f x).engines = x.engines) (m k : Nat) :
    (d.modFold n f).engine m k = d.engine m k := by
  rw [Dev.engine, Dev.fold_modFold]
  split
  · next hm => rw [h, hm]; rfl
  · rfl

theorem Dev.engine_issued (d : Dev) (e : Env) (t n k : Nat) : (d.issued e t).engine n k = d.engine n k :=
  Dev.engine_modFold (fun x => by split <;> rfl) n k

/-- A thread's own acts, with more parts changed after them. -/
theorem threadActs.queues {s : State} {d : Dev} {t : Nat} {l : List Part} (h : threadActs s (s.put d) t l) (hl : .queues ∈ l)
    (x : Tab FQueue) : threadActs s (s.put { d with queues := x }) t l :=
  h.extend (fun _ hp => d.agrees_queues x _ fun hin => hp (List.mem_append_right _ (List.mem_singleton.mp hin ▸ hl))) (fun _ _ => rfl) fun _ _ => rfl

theorem threadActs.flights {s : State} {d : Dev} {t : Nat} {l : List Part} (h : threadActs s (s.put d) t l) (hl : .flights ∈ l)
    (x : Flight) : threadActs s (s.put (d.launchFlight x)) t l :=
  h.extend (fun _ hp => d.agrees_flights _ _ fun hin => hp (List.mem_append_right _ (List.mem_singleton.mp hin ▸ hl))) (fun _ _ => rfl) fun _ _ => rfl

section

variable {s : State} {t w : Nat}

/-- The issued thread whose wait has ended at once. -/
theorem issued_result (rd : Nat) (hrd : rd < 32) (v : Word) :
    threadFrame s (s.put ((s.dev.issued s.env t).result t rd v)) t ∧ wrote s (s.put ((s.dev.issued s.env t).result t rd v)) t rd v :=
  ⟨((threadActs_issued s t _).result rd v).frame, wrote_result rfl hrd v⟩

/-- The issued thread that waits. -/
theorem issued_park (x : WaitFor) :
    threadFrame s (s.put (((s.dev.issued s.env t).advance t).park s.env t x)) t ∧
      waits s (s.put (((s.dev.issued s.env t).advance t).park s.env t x)) t x :=
  ⟨(((threadActs_issued s t _).advance).park _ _).frame, waits_park rfl x⟩

/-- A wait that finds its deadline passed returns status 3; one without a deadline waits. -/
theorem parkUntil_of_over {d : Dev} {e : Env} {dl : Nat} (hset : dl ≠ 0) (hover : dl ≤ e.raw) (rd : Nat) (x : WaitFor) :
    d.parkUntil e t rd dl x = d.result t rd 3 := by simp [Dev.parkUntil, hset, hover]

theorem parkUntil_of_none {d : Dev} {e : Env} {dl : Nat} (hset : dl = 0) (rd : Nat) (x : WaitFor) :
    d.parkUntil e t rd dl x = (d.advance t).park e t x := by simp [Dev.parkUntil, hset]

end

theorem Dev.slotState_issued (d : Dev) (e : Env) (t id : Nat) : (d.issued e t).slotState id = d.slotState id := rfl

/-- Settles O16: each row through the issued thread's result or its wait. -/
theorem threadWaits : Obligations.thread_waits := by
  unfold Obligations.thread_waits
  refine ⟨?objects, ?slots⟩
  case objects =>
    rintro s t w rd id v ht rfl hid hv
    refine ⟨fun h hreached => ?engineDone, fun h hreached => ?engineWaits, fun q h hq hnone hdl => ?queueWaits, fun q h hq hsome hfirst => ?queueTakes,
      fun q i p h hq hi hp hfree => ?creditFree, fun q i p h hq hi hp hfull hdl => ?creditWaits, fun h hover => ?timeOver,
      fun h hahead => ?timeWaits, fun q h hq => ?qstat⟩
    case engineDone =>
      refine ⟨_, ?_, issued_result _ (fA_lt w) _⟩
      rw [exec_waitEngine, execWaitEngine, run_waitRow rfl ht h, ← hid, ← hv, Dev.engine_issued, if_pos hreached]
    case engineWaits =>
      refine ⟨s.put ((((s.dev.issued s.env t).advance t).modThread t fun th => th.setReg (fA w) 0).park s.env t (.engine id v)), ?_,
        ((((threadActs_issued s t _).advance).modThread _).park _ _).frame, ?_⟩
      · rw [exec_waitEngine, execWaitEngine, run_waitRow rfl ht h, ← hid, ← hv, Dev.engine_issued, hreached]
        rfl
      · simp [waits, Dev.park, Dev.thread_advance, Dev.thread_modThread]
    case queueWaits =>
      refine ⟨s.put { ((s.dev.issued s.env t).advance t).park s.env t (.queue id (fA w) v) with
        queues := tset s.dev.queues (id) { q with waiters := q.waiters ++ [t] } }, ?_,
        (((threadActs_issued s t _).advance).park _ _).queues (by decide) _, waits_park rfl _, fun j hj => ?_, ?_⟩
      · have hq' : tget (s.dev.issued s.env t).queues (id) = some q := hq
        rw [exec_waitQueue, execWaitQueue, run_waitRow rfl ht h, ← hid, ← hv]
        simp only [hq', hnone, hdl]
        rfl
      · exact (tget_tset _ _ _ _).trans (if_neg hj)
      · exact (tget_tset _ _ _ _).trans (if_pos rfl)
    case queueTakes =>
      refine ⟨_, ?_, rfl⟩
      rw [exec_waitQueue, execWaitQueue, run_waitRow rfl ht h, ← hid, ← hv]
      have hq' : tget (s.dev.issued s.env t).queues (id) = some q := hq
      simp [hq', hsome, hfirst]
    case creditFree =>
      refine ⟨_, ?_, issued_result _ (fA_lt w) _⟩
      have hq' : tget (s.dev.issued s.env t).queues (id) = some q := hq
      rw [exec_waitCredit, execWaitCredit, run_waitRow rfl ht h, ← hid, ← hv]
      simp [hq', hi, hp, hfree]
    case creditWaits =>
      refine ⟨_, ?_, issued_park _⟩
      have hq' : tget (s.dev.issued s.env t).queues (id) = some q := hq
      rw [exec_waitCredit, execWaitCredit, run_waitRow rfl ht h, ← hid, ← hv]
      simp [hq', hi, hp, Nat.not_lt.mpr hfull, parkUntil_of_none hdl]
    case timeOver =>
      refine ⟨_, ?_, issued_result _ (fA_lt w) _⟩
      rw [exec_waitTime, execWaitTime, run_waitRow rfl ht h, ← hid, ← hv]
      exact congrArg (fun x => Host.Outcome.next (s.put x)) (if_pos hover)
    case timeWaits =>
      refine ⟨_, ?_, issued_park _⟩
      rw [exec_waitTime, execWaitTime, run_waitRow rfl ht h, ← hid, ← hv]
      exact congrArg (fun x => Host.Outcome.next (s.put x)) (if_neg (not_le.mpr hahead))
    case qstat =>
      refine ⟨s.put ({ s.dev.issued s.env t with
        queues := tset s.dev.queues (id) { q with overrun := false } }.result t (fA w) (BitVec.ofNat 64 (q.entries.length % 65536 + if q.overrun then 65536 else 0))), ?_,
        ((threadActs_issued s t _).queues (by decide) _).result _ _, fun j hj => ?_, ?_, wrote_result rfl (fA_lt w) _⟩
      · have hq' : tget (s.dev.issued s.env t).queues (id) = some q := hq
        rw [exec_waitQstat, execWaitQstat, run_waitRow rfl ht h, ← hid]
        simp only [hq']
        rfl
      · exact (tget_tset _ _ _ _).trans (if_neg hj)
      · exact (tget_tset _ _ _ _).trans (if_pos rfl)
  case slots =>
    rintro s t w rd id v ht rfl hid hv
    refine ⟨fun h hst => ?full, fun h hst => ?abandoned, fun h hst hset hover => ?fullLate, fun h hst hdl => ?fullWaits, fun h hst => ?empty,
      fun h hst hdl => ?emptyWaits, fun x h hx hgood => ?hurdleWaits, fun x h hx hbroken => ?hurdleBroken⟩
    case full =>
      refine ⟨_, ?_, issued_result _ (fA_lt w) _⟩
      rw [exec_waitSlotFull, execWaitSlotFull, run_waitRow rfl ht h, ← hid, ← hv, Dev.slotState_issued]
      simp only [hst]
    case abandoned =>
      refine ⟨_, ?_, issued_result _ (fA_lt w) _⟩
      rw [exec_waitSlotFull, execWaitSlotFull, run_waitRow rfl ht h, ← hid, ← hv, Dev.slotState_issued]
      simp only [hst]
    case fullLate =>
      refine ⟨_, ?_, issued_result _ (fA_lt w) _⟩
      rw [exec_waitSlotFull, execWaitSlotFull, run_waitRow rfl ht h, ← hid, ← hv, Dev.slotState_issued, parkUntil_of_over hset hover]
      simp only [hst]
    case fullWaits =>
      refine ⟨_, ?_, issued_park _⟩
      rw [exec_waitSlotFull, execWaitSlotFull, run_waitRow rfl ht h, ← hid, ← hv, Dev.slotState_issued, parkUntil_of_none hdl]
      simp only [hst]
    case empty =>
      refine ⟨_, ?_, issued_result _ (fA_lt w) _⟩
      rw [exec_waitSlotEmpty, execWaitSlotEmpty, run_waitRow rfl ht h, ← hid, ← hv, Dev.slotState_issued]
      simp only [hst]
    case emptyWaits =>
      refine ⟨_, ?_, issued_park _⟩
      rw [exec_waitSlotEmpty, execWaitSlotEmpty, run_waitRow rfl ht h, ← hid, ← hv, Dev.slotState_issued, parkUntil_of_none hdl]
      simp only [hst]
    case hurdleWaits =>
      refine ⟨s.put ((((s.dev.issued s.env t).advance t).park s.env t (.hurdle id (fA w))).launchFlight (.arrive id (some t) (s.dev.threadSrc t))), ?_,
        (((threadActs_issued s t _).advance).park _ _).flights (by decide) _, waits_park rfl _, rfl⟩
      have hx' : tget (s.dev.issued s.env t).hurdles (id) = some x := hx
      rw [exec_waitHurdle, execWaitHurdle, run_waitRow rfl ht h, ← hid]
      simp only [hx', Option.bind_some, hgood]
      rfl
    case hurdleBroken =>
      refine ⟨_, ?_, issued_result _ (fA_lt w) _⟩
      have hx' : tget (s.dev.issued s.env t).hurdles (id) = some x := hx
      rw [exec_waitHurdle, execWaitHurdle, run_waitRow rfl ht h, ← hid]
      simp only [hx', Option.bind_some, hbroken]
      rfl

end Sys2Proof.Machine
end

section
/-! SUPPORT. The end of a WAIT TIME (R292): the statement bounds the register of a wait's status in its first two clauses, not in the third. -/

namespace Sys2Proof.Machine

open Sys2Proof

/-- Thread 0 waits for raw time 0 with its status in register 40, beyond the 32 that a thread has, and the device keeps a value there. -/
def wildWaitState : State := {
  pending := []
  clk := {}
  fuse := {}
  dev := { threads := [(0, { regs := [(40, 5)], st := .waiting, wait := some { what := .time 2 0 40, since := 0 } })] } }

/-- The register of thread 0 in the state that a command leaves. -/
def regAfter (o : Host.Outcome State Fault Refusal) (r : Nat) : Word :=
  match o with
  | .next t => (t.dev.thread 0).reg r
  | _ => 0

/-- A write of a register that does not exist is dropped. -/
theorem regAfter_expiry : regAfter (exec (.timeWaitExpiry 0) wildWaitState) 40 = 5 := by
  decide +kernel

/-- Refutes O18: the third clause says that the register of a WAIT TIME reads 0 once the time has come, for every register number. -/
theorem not_waitsEnd : ¬ Obligations.waits_end := by
  unfold Obligations.waits_end
  intro h
  obtain ⟨-, -, hexpiry, -⟩ := h wildWaitState 0 { what := .time 2 0 40, since := 0 } (by decide) (by decide) (by decide)
  obtain ⟨u, hu, -, -, hreg⟩ := hexpiry 2 0 40 rfl (by decide)
  have hkept := regAfter_expiry
  rw [hu] at hkept
  exact absurd (hreg.symm.trans hkept) (by decide)

end Sys2Proof.Machine
end

section
/-! SUPPORT. LOAD, STORE, ATOMIC and FENCE (R131, R136, R139), and what reaches memory and comes back from it (R140, R185). -/

namespace Sys2Proof.Machine

open Sys2Proof

/-! ## Where addresses lead -/

theorem zoneOf_foldMem {a n o : Nat} (h : zoneOf a = .foldMem n o) : 0x100000000 ≤ a ∧ a < 0x130000000 := by
  unfold zoneOf at h
  split_ifs at h
  simp_all

theorem zoneOf_common {a o : Nat} (h : zoneOf a = .common o) : a = commonBase + o := by
  unfold zoneOf at h
  split_ifs at h
  simp_all
  omega

theorem zoneOf_collie {a o : Nat} (h : zoneOf a = .collie o) : collieBase ≤ a := by
  unfold zoneOf at h
  split_ifs at h
  simp_all

/-- Outside the status block, the doorbells and HPC_DEBUG a byte is what memory holds. -/
theorem Dev.byte_plain {a : Nat} (h : a < commonBase ∨ commonBase + 0x2004 ≤ a) (d : Dev) : d.byte a = mget d.mem.bytes a := by
  rw [Dev.byte, if_neg (by omega)]

theorem Dev.bytes_plain {a n : Nat} (h : a + n ≤ commonBase ∨ commonBase + 0x2004 ≤ a) (d : Dev) : d.bytes a n = d.raw a n :=
  List.map_congr_left fun i hi => Dev.byte_plain (by have := List.mem_range.mp hi; omega) d

/-- An own address lies in fold memory or in the Collie's. -/
theorem isOwn_zone {n a : Nat} (h : isOwn n a = true) : (∃ o, zoneOf a = .foldMem n o) ∨ ∃ o, zoneOf a = .collie o := by
  unfold isOwn at h
  split at h
  · next k o hz => exact .inl ⟨o, by rw [hz, beq_iff_eq.mp h]⟩
  · next o hz => exact .inr ⟨o, hz⟩
  · simp at h

theorem Dev.gddrFailed_of_own {n a : Nat} (h : isOwn n a = true) (d : Dev) : d.gddrFailed a = false := by
  rcases isOwn_zone h with ⟨o, hz⟩ | ⟨o, hz⟩ <;> simp [Dev.gddrFailed, hz]

theorem Dev.bytes_own {n a size : Nat} (h : isOwn n a = true) (hsize : size ≤ 8) (d : Dev) : d.bytes a size = d.raw a size := by
  refine Dev.bytes_plain ?_ d
  rcases isOwn_zone h with ⟨o, hz⟩ | ⟨o, hz⟩
  · have := zoneOf_foldMem hz
    simp only [commonBase]
    omega
  · have := zoneOf_collie hz
    simp only [commonBase, collieBase] at *
    omega

theorem Dev.meetEdc_own {n a : Nat} (h : isOwn n a = true) (d : Dev) (k : Nat) : d.meetEdc a k = d := by
  rcases isOwn_zone h with ⟨o, hz⟩ | ⟨o, hz⟩ <;> simp [Dev.meetEdc, hz]

/-! ## Nothing on its way, and no slot -/

theorem Dev.guardOf_of_no_slots {d : Dev} (h : d.slots = []) (a n : Nat) (write : Bool) : d.guardOf a n write = none := by
  cases hs : d.servedAt a n write <;> simp [Dev.guardOf, Dev.slotsIn, h, hs]

/-- Where no slot is declared no store is refused at one. -/
theorem Dev.unlessParked_of_no_slots {d : Dev} (h : d.slots = []) (e : Env) (f : Posted → Bool) (go : Dev) : d.unlessParked e f go = go := by
  simp [Dev.unlessParked, Dev.refusesPosted, Dev.slotsIn, h]

theorem Dev.landAll_of_posted_nil {d : Dev} (h : d.posted = []) (e : Env) (f : Posted → Bool) : d.landAll e f = d := by
  have hposted : { d with posted := [] } = d := by rw [← h]
  simp only [Dev.landAll, h, List.filter_nil, List.foldl_nil, hposted]

theorem Dev.parkedStore_of_posted_nil {d : Dev} (h : d.posted = []) (t : Nat) : d.parkedStore t = false := by
  simp [Dev.parkedStore, Dev.parkedSince, h]

/-- A READY thread waits for nothing. -/
theorem Dev.whatOf_of_ready {d : Dev} {t : Nat} (h : (d.thread t).st = .ready) : d.whatOf t = none := by
  simp [Dev.whatOf, Dev.waitOf, h]

theorem Dev.landLine_of_posted_nil {d : Dev} {t : Nat} (hposted : d.posted = []) (hwhat : d.whatOf t ≠ some .heldStore) (e : Env) (a : Nat) :
    d.landLine e t a = d := by
  rw [Dev.landLine, Dev.landAll_of_posted_nil hposted, Dev.unhold, if_neg fun h => hwhat h.1]

/-- A read of sound served memory with no slot over it wakes fold memory at most. -/
theorem Dev.fetchBytes_sound {d : Dev} (hsound : d.mem.sound = true) (hslots : d.slots = []) {a : Nat} (hfail : d.gddrFailed a = false)
    (e : Env) (src n : Nat) : d.fetchBytes e src a n = (d.bytes a n, false, d.touch e a) := by
  have htouch : (d.touch e a).mem.sound = true := by
    unfold Dev.touch
    split <;> exact hsound
  simp [Dev.fetchBytes, hfail, Dev.slotsIn, hslots, Dev.readLines_sound _ _ _ _ _ htouch]

theorem Dev.readFrom_sound {d : Dev} (hsound : d.mem.sound = true) (hslots : d.slots = []) {a acc : Nat} (hfail : d.gddrFailed a = false)
    (hreach : d.reachOf acc a = .served) (e : Env) (src n : Nat) : d.readFrom e src acc a n = (d.bytes a n, false, d.touch e a) := by
  simp only [Dev.readFrom, hreach]
  exact Dev.fetchBytes_sound hsound hslots hfail e src n

/-- Waking a fold's memory for its own thread changes that fold alone. -/
theorem threadActs.touch {s : State} {d : Dev} {t : Nat} {l : List Part} (h : threadActs s (s.put d) t l) (e : Env) {a : Nat}
    (hown : ∀ n o, zoneOf a = .foldMem n o → n = foldOfThread t) : threadActs s (s.put (d.touch e a)) t l := by
  unfold Dev.touch
  split
  · next n o hz =>
    refine h.extend (fun p hp => d.agrees_modFold _ _ p fun hin => hp ?_) (fun _ _ => rfl) fun k hk => ?_
    · exact List.mem_append_left _ (by simp_all)
    · rw [Dev.fold_modFold, if_neg fun he => hk (he.trans (hown n o hz))]
  · exact h

@[simp] theorem Dev.thread_touch (d : Dev) (e : Env) (a k : Nat) : (d.touch e a).thread k = d.thread k := by
  unfold Dev.touch
  split <;> rfl

theorem size_mem_accessSizes {size : Nat} (h : size = 1 ∨ size = 2 ∨ size = 4 ∨ size = 8) : accessSizes.contains size = true := by
  simpa [accessSizes] using h

theorem Dev.replacing_issued (d : Dev) (e : Env) (t n : Nat) : ((d.issued e t).fold n).replacing = (d.fold n).replacing := by
  rw [Dev.issued, Dev.fold_modFold]
  split
  · next h =>
    rw [h]
    split <;> rfl
  · rfl

theorem Dev.reachOf_issued (d : Dev) (e : Env) (t n a : Nat) : (d.issued e t).reachOf n a = d.reachOf n a := by
  simp only [Dev.reachOf, Dev.reach, Dev.replacing_issued]
  rfl

/-! ## The instructions -/

section

variable {d : Dev} {e : Env} {t size rd a : Nat} (halign : a % size = 0) (hslots : d.slots = [])
  (hreach : d.reachOf (foldOfThread t) a = .served)
include halign hslots hreach

theorem Dev.load_own (hown : isOwn (foldOfThread t) a = true) (hsize : size ≤ 8) (hposted : d.posted = []) (hsound : d.mem.sound = true)
    (hready : (d.thread t).st = .ready) :
    d.load e t size rd a = (d.touch e a).result t rd (BitVec.ofNat 64 (leNat (d.raw a size))) := by
  have hline : d.landLine e t a = d := Dev.landLine_of_posted_nil hposted (by simp [Dev.whatOf_of_ready hready]) e a
  simp only [Dev.load, halign, ne_eq, not_true_eq_false, if_false, Dev.guardOf_of_no_slots hslots, hreach, hown, if_true, hline,
    Dev.readFrom_sound hsound hslots (Dev.gddrFailed_of_own hown d) hreach, Dev.bytes_own hown hsize]
  rfl

theorem Dev.load_remote (hown : isOwn (foldOfThread t) a = false) :
    d.load e t size rd a = (d.advance t).park e t (.loadData a size rd) := by
  simp [Dev.load, halign, Dev.guardOf_of_no_slots hslots, hreach, hown]

theorem Dev.store_served (v : Word) : d.store e t size a v = (d.postStore {
    thread := t, addr := a, data := leBytes size v.toNat, poisoned := (d.thread t).poisonMark }).advance t := by
  simp [Dev.store, halign, Dev.guardOf_of_no_slots hslots, hreach]

theorem Dev.atomic_served (op : AtomicOp) (v swap : Word) : d.atomic e t op size rd a v swap = ((d.postStore {
    thread := t, addr := a, data := leBytes size v.toNat, poisoned := (d.thread t).poisonMark,
    atomic := some (op, rd, swap.toNat) }).advance t).park e t (.atomicData rd) := by
  simp [Dev.atomic, halign, Dev.guardOf_of_no_slots hslots, hreach]

end

theorem threadActs.postStore {s : State} {d : Dev} {t : Nat} {l : List Part} (h : threadActs s (s.put d) t l) (hl : .posted ∈ l)
    (p : Posted) : threadActs s (s.put (d.postStore p)) t l :=
  h.extend (fun _ hp => d.agrees_posted _ _ fun hin => hp (List.mem_append_right _ (List.mem_singleton.mp hin ▸ hl))) (fun _ _ => rfl) fun _ _ => rfl

theorem Dev.meetEdc_frame (d : Dev) (a k : Nat) : d.meetEdc a k = { d with mem := (d.meetEdc a k).mem } := by
  unfold Dev.meetEdc
  split
  · split <;> rfl
  · rfl

theorem threadActs.meetEdc {s : State} {d : Dev} {t : Nat} {l : List Part} (h : threadActs s (s.put d) t l) (hl : .mem ∈ l)
    (a k : Nat) : threadActs s (s.put (d.meetEdc a k)) t l := by
  refine h.extend (fun _ hp => d.agrees_meetEdc a k _ fun hin => hp (List.mem_append_right _ (List.mem_singleton.mp hin ▸ hl)))
    (fun k _ => ?_) fun n _ => ?_
  · rw [Dev.meetEdc_frame]; rfl
  · rw [Dev.meetEdc_frame]; rfl

theorem Dev.meetEdc_mem_congr {a b : Dev} (h : a.mem = b.mem) (x k : Nat) : (a.meetEdc x k).mem = (b.meetEdc x k).mem := by
  unfold Dev.meetEdc
  split
  · split
    · exact h
    · simp [Dev.modMem, h]
  · exact h

@[simp] theorem Dev.thread_postStore (d : Dev) (p : Posted) (k : Nat) : (d.postStore p).thread k = d.thread k := rfl

/-- An own address of a thread lies in its fold's memory or the Collie's. -/
theorem own_foldMem {t a n o : Nat} (h : isOwn (foldOfThread t) a = true) (hz : zoneOf a = .foldMem n o) : n = foldOfThread t := by
  simpa [isOwn, hz] using h

theorem Dev.storesDone_issued (d : Dev) (e : Env) (t k : Nat) : (d.issued e t).storesDone k = d.storesDone k := rfl

/-! ## Posted stores and loaded data -/

theorem Dev.agrees_parkHeld (d : Dev) (t : Nat) : d.agrees [.threads] (d.parkHeld t) := by
  unfold Dev.parkHeld
  split
  · split
    · exact d.agrees_modThread _ _
    · rfl
  · rfl

theorem Dev.parkHeld_other (d : Dev) {t k : Nat} (hk : k ≠ t) : (d.parkHeld t).thread k = d.thread k := by
  unfold Dev.parkHeld
  split
  · split
    · rw [Dev.thread_modThread, if_neg hk]
    · rfl
  · rfl

theorem Dev.agrees_wake (d : Dev) (t : Nat) (l : List (Nat × Word)) : d.agrees [.threads] (d.wake t l) :=
  (d.agrees_modThread _ _).trans (Dev.agrees_parkHeld _ _)

theorem Dev.wake_other (d : Dev) {t k : Nat} (hk : k ≠ t) (l : List (Nat × Word)) : (d.wake t l).thread k = d.thread k := by
  rw [Dev.wake, Dev.parkHeld_other _ hk, Dev.thread_modThread, if_neg hk]

theorem Dev.wake_of_posted_nil {d : Dev} (h : d.posted = []) (t : Nat) (l : List (Nat × Word)) : d.wake t l =
    d.modThread t fun th => { l.foldl (fun th x => th.setReg x.1 x.2) th with st := .ready, wait := none } := by
  simp [Dev.wake, Dev.parkHeld, Dev.parkedSince, h]

theorem Dev.agrees_storeGone (d : Dev) (t : Nat) : d.agrees [.threads, .flights] (d.storeGone t) := by
  have hunhold : d.agrees [.threads, .flights] (d.unhold t) := by
    unfold Dev.unhold
    split
    · exact ((d.agrees_wake _ _).mono (by decide))
    · rfl
  refine hunhold.trans ?_
  unfold Dev.storeGone Dev.fenceCheck
  split
  · split
    · exact ((Dev.agrees_wake _ _ _).mono (by decide))
    · exact ((Dev.agrees_wake _ _ _).mono (l := [.threads, .flights]) (by decide)).andThen (Dev.agrees_flights _ _) (by decide)
    · rfl
  · rfl

theorem Dev.storeGone_other (d : Dev) {t k : Nat} (hk : k ≠ t) : (d.storeGone t).thread k = d.thread k := by
  have hunhold : (d.unhold t).thread k = d.thread k := by
    unfold Dev.unhold
    split
    · exact d.wake_other hk _
    · rfl
  refine Eq.trans ?_ hunhold
  unfold Dev.storeGone Dev.fenceCheck
  split
  · split
    · exact Dev.wake_other _ hk _
    · exact Dev.wake_other _ hk _
    · rfl
  · rfl

theorem Dev.agrees_mergeHold (d : Dev) (a n : Nat) : d.agrees [.phys] (d.mergeHold a n) := by
  refine Dev.agrees_foldl (fun d l => ?_) _ d
  split
  · split
    · exact d.agrees_modPhys _ _
    · rfl
  · rfl

theorem Dev.agrees_touch (d : Dev) (e : Env) (a : Nat) : d.agrees [.folds] (d.touch e a) := by
  unfold Dev.touch
  split
  · exact d.agrees_modFold _ _
  · rfl

/-- Bytes inside one line are written in one piece. -/
theorem Dev.write_oneLine {a : Nat} {bs : List Byte} (hne : bs ≠ []) (hfit : a % 64 + bs.length ≤ 64) (d : Dev) (p : Bool) :
    d.write a bs p = d.writePiece a bs p := by
  obtain ⟨b, l, rfl⟩ := List.exists_cons_of_ne_nil hne
  have htake : (b :: l).take (64 - a % 64) = b :: l := List.take_of_length_le (by omega)
  have hdrop : (b :: l).drop (64 - a % 64) = [] := List.drop_of_length_le (by omega)
  simp only [Dev.write, linePieces, htake, hdrop, List.foldl_cons, List.foldl_nil]

theorem Dev.agrees_writePiece (d : Dev) (a : Nat) (bs : List Byte) (p : Bool) : d.agrees [.mem, .col, .safe] (d.writePiece a bs p) := by
  rw [Dev.writePiece_frame]
  exact ((d.agrees_mem _).mono (by decide)).andThen (Dev.agrees_fault _ _ _) (by decide)

theorem Dev.writePiece_bytes (d : Dev) (a : Nat) (bs : List Byte) (p : Bool) :
    (d.writePiece a bs p).mem.bytes = mput d.mem.bytes a bs := by
  have hmerge : ∀ (x : Dev) (old : Bool), (x.mergePiece a bs p old).mem.bytes = mput x.mem.bytes a bs := by
    intro x old
    rw [Dev.mergePiece]
    exact congrArg (mput · a bs) ((Dev.freshLine_bytes _ _ _).trans (Dev.transfer_bytes _ _))
  unfold Dev.writePiece
  split
  · exact hmerge _ _
  · exact (hmerge _ _).trans (by rw [Dev.readLine_bytes])

/-- A posted store inside one line of fold memory lands there. -/
theorem Dev.land_foldMem {d : Dev} {p : Posted} {n o : Nat} (hstore : p.atomic = none) (hreach : d.reach p.addr = .served)
    (hzone : zoneOf p.addr = .foldMem n o) (hne : p.data ≠ []) (hfit : p.addr % 64 + p.data.length ≤ 64) (e : Env) :
    d.land e p = ((d.touch e p.addr).mergeHold p.addr p.data.length).writePiece p.addr p.data p.poisoned := by
  have hserved : d.reachOf (foldOfThread p.thread) p.addr = .served := by
    rw [Dev.reachOf, hreach, ite_self]
  have hlow := zoneOf_foldMem hzone
  have hfail : d.gddrFailed p.addr = false := by simp [Dev.gddrFailed, hzone]
  have hcommon : ¬ (commonBase ≤ p.addr ∧ p.addr < commonBase + 0x2000) := by
    simp only [commonBase]
    omega
  simp only [Dev.land, hstore, Dev.writeFrom, hserved, hfail, Bool.false_eq_true, if_false, hcommon, Dev.write_oneLine hne hfit]

/-- Settles O15: the instructions of the issued thread, the landing of a posted store, and the return of loaded data. -/
theorem threadMemoryAccess : Obligations.thread_memory_access := by
  unfold Obligations.thread_memory_access
  refine ⟨?instructions, fun s => ⟨?merge, ?returns⟩⟩
  case instructions =>
    rintro s t w size rd ra off a ht hrd haddr halign hslots hreach
    obtain ⟨d, hd⟩ : ∃ d, d = s.dev.issued s.env t := ⟨_, rfl⟩
    have hth : d.thread t = s.dev.thread t := by rw [hd]; rfl
    have hmem : d.mem = s.dev.mem := by rw [hd]; rfl
    have hposted' : d.posted = s.dev.posted := by rw [hd]; rfl
    have haddr' : d.addrOf t ra off = a := by rw [hd, haddr]; rfl
    have hreg : ∀ r, d.reg t r = s.dev.reg t r := fun r => by rw [hd]; rfl
    have hslots' : d.slots = [] := by rw [hd]; exact hslots
    have hreach' : d.reachOf (foldOfThread t) a = .served := by rw [hd, Dev.reachOf_issued]; exact hreach
    have hacts : ∀ l, threadActs s (s.put d) t l := by rw [hd]; exact threadActs_issued s t
    refine ⟨fun edc hsize h hown hposted hsound => ?ownLoad, fun edc hsize h hown => ?remoteLoad, fun rs hsize h => ?store,
      fun op rb rc hsize hoff h => ?atomic, fun h hdone => ?fenceDone, fun h hdone => ?fenceWaits⟩
    case ownLoad =>
      have hload := Dev.load_own (e := s.env) (rd := rd) halign hslots' hreach' hown (by omega) (hposted'.trans hposted) (by rw [hmem]; exact hsound)
        (by rw [hth]; exact Dev.ready_of_mayIssue h.1)
      have hexec : exec (.threadLoad t size rd ra ⟨off, edc⟩) s =
          .next (s.put ((d.touch s.env a).result t rd (BitVec.ofNat 64 (leNat (d.raw a size))))) := by
        rw [exec_threadLoad, execThreadLoad, run_instr rfl ht h, if_pos (size_mem_accessSizes hsize), ← hd,
          Dev.unlessParked_of_no_slots hslots', haddr', Dev.meetEdc_own hown, hload]
      rw [show d.raw a size = s.dev.raw a size by rw [Dev.raw, hmem]; rfl] at hexec
      exact ⟨_, hexec, (((hacts _).touch _ fun n o hz => own_foldMem hown hz).result _ _).frame,
        wrote_result ((Dev.thread_touch ..).trans hth) hrd _⟩
    case remoteLoad =>
      have hedc := d.agrees_meetEdc a edc
      have hedcReach : (d.meetEdc a edc).reachOf (foldOfThread t) a = .served := by
        rw [Dev.meetEdc_frame]
        exact hreach'
      have hexec : exec (.threadLoad t size rd ra ⟨off, edc⟩) s =
          .next (s.put (((d.meetEdc a edc).advance t).park s.env t (.loadData a size rd))) := by
        rw [exec_threadLoad, execThreadLoad, run_instr rfl ht h, if_pos (size_mem_accessSizes hsize), ← hd,
          Dev.unlessParked_of_no_slots hslots', haddr', Dev.load_remote halign ((hedc .slots (by decide)).symm.trans hslots') hedcReach hown]
      have hedcThread : (d.meetEdc a edc).thread t = s.dev.thread t := by
        rw [Dev.meetEdc_frame]; exact hth
      refine ⟨_, hexec, (((hacts _).meetEdc (by decide) _ _).advance).park _ _, ?_, ?_, waits_park hedcThread _⟩
      · exact Dev.meetEdc_mem_congr hmem a edc
      · simp [Dev.park, Dev.thread_advance, Dev.thread_modThread, hedcThread]
    case store =>
      have hexec : exec (.threadStore t size ra off rs) s = .next (s.put ((d.postStore {
          thread := t, addr := a, data := leBytes size (s.dev.reg t rs).toNat, poisoned := (s.dev.thread t).poisonMark }).advance t)) := by
        rw [exec_threadStore, execThreadStore, run_instr rfl ht h, if_pos (size_mem_accessSizes hsize), ← hd, haddr',
          Dev.store_served halign hslots' hreach', hth, hreg]
      refine ⟨_, hexec, ((hacts [.posted]).postStore (by decide) _).advance, ?_, ?_, ?_⟩
      · exact congrArg (· ++ _) hposted'
      · simp [Dev.thread_advance, hth]
      · simp [Dev.thread_advance, hth]
    case atomic =>
      subst hoff
      have hexec : exec (.threadAtomic t op size rd ra rb rc) s = .next (s.put (((d.postStore {
          thread := t, addr := a, data := leBytes size (s.dev.reg t rb).toNat, poisoned := (s.dev.thread t).poisonMark,
          atomic := some (op, rd, (s.dev.reg t rc).toNat) }).advance t).park s.env t (.atomicData rd))) := by
        rw [exec_threadAtomic, execThreadAtomic, run_instr rfl ht h, if_pos hsize, ← hd, haddr',
          Dev.atomic_served halign hslots' hreach', hth, hreg, hreg]
      refine ⟨_, hexec, (((hacts [.posted]).postStore (by decide) _).advance).park _ _, ?_, ?_, waits_park hth _⟩
      · simp [Dev.park, Dev.thread_advance, Dev.thread_modThread, hth]
      · exact congrArg (· ++ _) hposted'
    case fenceDone =>
      have hexec : exec (.fence t) s = .next (s.put (d.advance t)) := by
        rw [exec_fence, execFence, run_instr rfl ht h, Dev.storesDone_issued, if_pos hdone, ← hd]
      refine ⟨_, hexec, (hacts _).advance.frame, ?_, ?_, ?_⟩ <;> simp [Dev.thread_advance, hth]
    case fenceWaits =>
      have hexec : exec (.fence t) s = .next (s.put ((d.advance t).park s.env t .fence)) := by
        rw [exec_fence, execFence, run_instr rfl ht h, Dev.storesDone_issued, hdone, ← hd]
        rfl
      exact ⟨_, hexec, ((hacts _).advance.park _ _).frame, waits_park hth _⟩
  case merge =>
    intro i p hclk hp hstore hfirst hguard hreach ⟨n, o, hzone⟩ hne hfit
    obtain ⟨d, hd⟩ : ∃ d, d = { s.dev with posted := s.dev.posted.eraseIdx i } := ⟨_, rfl⟩
    have hland := Dev.land_foldMem (d := d) hstore (by rw [hd]; exact hreach) hzone hne hfit s.env
    obtain ⟨x, hx⟩ : ∃ x, x = (d.touch s.env p.addr).mergeHold p.addr p.data.length := ⟨_, rfl⟩
    have hagrees : s.dev.agrees [.posted, .folds, .phys] x := by
      rw [hx, hd]
      exact (((s.dev.agrees_posted _).mono (l := [.posted, .folds, .phys]) (by decide)).andThen (Dev.agrees_touch _ _ _) (by decide)).andThen (Dev.agrees_mergeHold _ _ _) (by decide)
    obtain ⟨y, hy⟩ : ∃ y, y = x.writePiece p.addr p.data p.poisoned := ⟨_, rfl⟩
    have hbytes : y.mem.bytes = mput s.dev.mem.bytes p.addr p.data := by
      rw [hy, Dev.writePiece_bytes, ← hagrees .mem (by decide)]
    have hpiece : s.dev.agrees ([.mem, .posted, .folds, .phys, .threads, .flights] ++ faultParts) y := by
      rw [hy]
      exact (hagrees.mono (by decide)).andThen (Dev.agrees_writePiece _ _ _ _) (by decide)
    have hposted : y.posted = s.dev.posted.eraseIdx i := by
      rw [hy, Dev.writePiece_frame, hx, ← Dev.agrees_mergeHold _ _ _ .posted (by decide), ← Dev.agrees_touch _ _ _ .posted (by decide), hd]
    have hgone := Dev.agrees_storeGone y p.thread
    have hexec : exec (.narrowStoreMerge i) s = .next (s.put (y.storeGone p.thread)) := by
      have hany : ((s.dev.posted.take i).any fun x => x.thread == p.thread && x.addr / 64 == p.addr / 64) = false :=
        any_eq_false_of_all_not hfirst fun x => by simp [bne]
      rw [exec_narrowStoreMerge, execNarrowStoreMerge, runClocked_running rfl hclk]
      simp only [hp, hany, hguard, Bool.false_eq_true, if_false, ← hd, hland, ← hx, ← hy]
    refine ⟨_, hexec, ?_, State.touches_of_agrees (hpiece.andThen hgone (by decide)), fun k hk => ?_, fun k hk => ?_, fun a ha => ?_⟩
    · exact (hgone .posted (by decide)).symm.trans hposted
    · have hthreads : y.threads = s.dev.threads := by
        rw [hy, ← Dev.agrees_writePiece _ _ _ _ .threads (by decide), ← hagrees .threads (by decide)]
      rw [State.put_dev, Dev.storeGone_other _ hk, Dev.thread, hthreads]
      rfl
    · rw [State.put_dev, ← hgone .mem (by decide), hbytes, mget_mput, if_pos (by omega), Nat.add_sub_cancel_left]
    · rw [State.put_dev, ← hgone .mem (by decide), hbytes, mget_mput, if_neg (by omega)]
  case returns =>
    intro t a size rd hclk ht hrd hst hwait hreqs hposted hreach ⟨o, hzone, hpast⟩ hslots hsound
    have hwhat : s.dev.whatOf t = some (.loadData a size rd) := by
      simpa [Dev.whatOf, Dev.waitOf, hst] using hwait
    have hfail : s.dev.gddrFailed a = false := by simp [Dev.gddrFailed, hzone]
    have hserved : s.dev.reachOf (foldOfThread t) a = .served := by rw [Dev.reachOf, hreach, ite_self]
    have hplain : s.dev.bytes a size = s.dev.raw a size := Dev.bytes_plain (by rw [zoneOf_common hzone]; omega) _
    have htouch : s.dev.touch s.env a = s.dev := by simp [Dev.touch, hzone]
    have harrives : s.dev.loadArrives s.env t a size rd =
        (s.dev.loadResult t rd (s.dev.raw a size) false).wake t [] := by
      simp only [Dev.loadArrives, Dev.landLine_of_posted_nil hposted (by simp [hwhat] : s.dev.whatOf t ≠ some .heldStore),
        Dev.readFrom_sound hsound hslots hfail hserved, hplain, htouch]
    have hwake : (s.dev.loadResult t rd (s.dev.raw a size) false).wake t [] =
        (s.dev.modThread t fun th => th.setReg rd (BitVec.ofNat 64 (leNat (s.dev.raw a size)))).modThread t fun th =>
          { th with st := .ready, wait := none } := Dev.wake_of_posted_nil (d := s.dev.loadResult t rd _ false) hposted t []
    have hexec : exec (.loadDataReturn t) s = .next (s.put ((s.dev.loadResult t rd (s.dev.raw a size) false).wake t [])) := by
      rw [exec_loadDataReturn, execLoadDataReturn, runClocked_running (by simp [missingUnit, Instr.units, ht]) hclk]
      simp only [hwhat, hreqs, Dev.guardOf_of_no_slots hslots, Dev.unlessParked_of_posted_nil hposted, harrives]
      rfl
    rw [hwake] at hexec
    have hself : threadActs s (s.put s.dev) t [.free] := ⟨⟨rfl, rfl, rfl, fun p _ => p.same_refl _⟩, fun _ _ => rfl, fun _ _ => rfl⟩
    refine ⟨_, hexec, ((hself.modThread _).modThread _).frame, ?_, ?_, fun r hr => ?_⟩
    · simp [Dev.thread_modThread]
    · simp only [State.put_dev, Dev.thread_modThread, if_true]
      exact (Thread.reg_setReg _ hrd _ rd).trans (if_pos rfl)
    · simp only [State.put_dev, Dev.thread_modThread, if_true]
      exact (Thread.reg_setReg _ hrd _ r).trans (if_neg hr)

end Sys2Proof.Machine
end

section
/-! SUPPORT. ISSUE and GROUP (R132 to R134, R137): descriptors are copied, queued in order, and answered with issue numbers. -/

namespace Sys2Proof.Machine

open Sys2Proof

/-- A descriptor that is sound and good is copied, and the copy changes nothing. -/
theorem Dev.readDesc_good {d : Dev} {t k ra : Nat} (hsound : d.mem.sound = true) (hgood : d.descriptorAt t k ra = true) :
    d.readDesc t k (d.reg t ra) = (some (d.raw (d.reg t ra).toNat (descLen (foldOfThread t) k)), d) := by
  simp only [Dev.descriptorAt, Bool.and_eq_true, decide_eq_true_eq] at hgood
  obtain ⟨⟨halign, hin⟩, hok⟩ := hgood
  simp [Dev.readDesc, halign, hin, hok, Dev.readLines_sound _ _ _ _ _ hsound]

/-- The descriptors of a list of members, as their copies. -/
def Dev.copies (d : Dev) (t : Nat) (l : List (Nat × Nat × Nat)) : List (Nat × Nat × Option (List Byte)) :=
  l.map fun x => (x.1, x.2.1, some (d.raw (d.reg t x.2.2).toNat (descLen (foldOfThread t) x.1)))

theorem Dev.readDescs_good {d : Dev} {t : Nat} (hsound : d.mem.sound = true) (l : List (Nat × Nat × Nat))
    (hgood : ∀ x ∈ l, d.descriptorAt t x.1 x.2.2 = true) (acc : List (Nat × Nat × Option (List Byte))) :
    l.foldl (fun acc x =>
      let y := acc.2.readDesc t x.1 (acc.2.reg t x.2.2)
      (acc.1 ++ [(x.1, x.2.1, y.1)], y.2)) (acc, d) = (acc ++ d.copies t l, d) := by
  induction l generalizing acc with
  | nil => simp [Dev.copies]
  | cons x l ih =>
    rw [List.foldl_cons]
    simp only [Dev.readDesc_good hsound (hgood x List.mem_cons_self)]
    rw [ih fun y hy => hgood y (List.mem_cons_of_mem _ hy)]
    simp [Dev.copies]

/-- The copies are queued one after the other. -/
def Dev.enqueueAll (d : Dev) (t : Nat) (l : List (Nat × Nat × Option (List Byte))) (mates : List Nat) : Dev :=
  l.foldl (fun d x => d.enqueue t x.1 x.2.1 (x.2.2.getD []) mates) d

/-- Good descriptors, with no store on its way, are queued where there is room, and else the thread waits at the instruction. -/
theorem Dev.issueAll_good {d : Dev} {t : Nat} (hposted : d.posted = []) (hsound : d.mem.sound = true) (l : List (Nat × Nat × Nat))
    (hgood : ∀ x ∈ l, d.descriptorAt t x.1 x.2.2 = true) (e : Env) (mates : List Nat) :
    d.issueAll e t l mates = if l.any fun x => d.engineFull (foldOfThread t) x.1 then d.park e t (.fullQueue (l.map (·.1)))
      else (d.enqueueAll t (d.copies t l) mates).advance t := by
  have hland : d.landOwn e t = d := Dev.landAll_of_posted_nil hposted _ _
  have hall : (d.copies t l).any (fun x => x.2.2.isNone) = false := by simp [Dev.copies]
  simp only [Dev.issueAll, hland, Dev.readDescs_good hsound l hgood, List.nil_append, hall, Bool.false_eq_true, if_false]
  rfl

/-! ## What queuing leaves -/

theorem threadActs.enqueue {s : State} {d : Dev} {t : Nat} {l : List Part} (h : threadActs s (s.put d) t l) (k rd : Nat) (b : List Byte)
    (mates : List Nat) : threadActs s (s.put (d.enqueue t k rd b mates)) t l := by
  refine threadActs.modThread (h.extend (fun p hp => d.agrees_modFold _ _ p fun hin => hp ?_) (fun _ _ => rfl) fun n hn => ?_) _
  · exact List.mem_append_left _ (by simp_all)
  · exact (Dev.fold_modFold ..).trans (if_neg hn)

theorem Dev.engine_enqueue (d : Dev) (t k rd : Nat) (b : List Byte) (mates : List Nat) (j : Nat) :
    (d.enqueue t k rd b mates).engine (foldOfThread t) j =
      if j = k then { d.engine (foldOfThread t) k with
        issued := d.nextIssue (foldOfThread t) k
        queue := (d.engine (foldOfThread t) k).queue ++ [{ issue := d.nextIssue (foldOfThread t) k, thread := t, desc := b, mates := mates }] }
      else d.engine (foldOfThread t) j := by
  refine (Dev.engine_modEngine d (foldOfThread t) k _ (foldOfThread t) j).trans ?_
  simp [Dev.nextIssue]

theorem Dev.thread_enqueue (d : Dev) (t k rd : Nat) (b : List Byte) (mates : List Nat) :
    (d.enqueue t k rd b mates).thread t = (d.thread t).setReg rd (BitVec.ofNat 64 (d.nextIssue (foldOfThread t) k)) := by
  simp only [Dev.enqueue, Dev.thread_modThread, if_true]
  rfl

/-- Queuing a list of different engines adds to each queue its own entry, and leaves the other engines. -/
theorem Dev.engine_enqueueAll (t : Nat) (mates : List Nat) (l : List (Nat × Nat × Option (List Byte))) (hdup : (l.map (·.1)).Nodup) (d : Dev) :
    (∀ k, k ∉ l.map (·.1) → (d.enqueueAll t l mates).engine (foldOfThread t) k = d.engine (foldOfThread t) k) ∧
    ∀ x ∈ l, (d.enqueueAll t l mates).engine (foldOfThread t) x.1 = { d.engine (foldOfThread t) x.1 with
      issued := d.nextIssue (foldOfThread t) x.1
      queue := (d.engine (foldOfThread t) x.1).queue ++
        [{ issue := d.nextIssue (foldOfThread t) x.1, thread := t, desc := x.2.2.getD [], mates := mates }] } := by
  induction l generalizing d with
  | nil => exact ⟨fun _ _ => rfl, by simp⟩
  | cons y l ih =>
    rw [List.map_cons, List.nodup_cons] at hdup
    obtain ⟨hfresh, hdup⟩ := hdup
    obtain ⟨hother, hown⟩ := ih hdup (d.enqueue t y.1 y.2.1 (y.2.2.getD []) mates)
    refine ⟨fun k hk => ?_, fun x hx => ?_⟩
    · simp only [List.map_cons, List.mem_cons, not_or] at hk
      obtain ⟨hhead, htail⟩ := hk
      exact (hother k htail).trans ((Dev.engine_enqueue ..).trans (if_neg hhead))
    · rcases List.mem_cons.mp hx with rfl | htail
      · exact (hother x.1 hfresh).trans ((Dev.engine_enqueue ..).trans (if_pos rfl))
      · have hne : x.1 ≠ y.1 := fun he => hfresh (he ▸ List.mem_map_of_mem htail)
        refine (hown x htail).trans ?_
        simp only [Dev.nextIssue, Dev.engine_enqueue, if_neg hne]

/-- It leaves the thread but for the registers named, each of which receives its engine's issue number. -/
theorem Dev.thread_enqueueAll (t : Nat) (mates : List Nat) (l : List (Nat × Nat × Option (List Byte))) (hdup : (l.map (·.1)).Nodup)
    (hregs : (l.map (·.2.1)).Nodup) (hsmall : ∀ x ∈ l, x.2.1 < 32) (d : Dev) :
    ((d.enqueueAll t l mates).thread t).pc = (d.thread t).pc ∧ ((d.enqueueAll t l mates).thread t).st = (d.thread t).st ∧
    (∀ r, r ∉ l.map (·.2.1) → ((d.enqueueAll t l mates).thread t).reg r = (d.thread t).reg r) ∧
    ∀ x ∈ l, x.2.1 ≠ 0 → ((d.enqueueAll t l mates).thread t).reg x.2.1 = BitVec.ofNat 64 (d.nextIssue (foldOfThread t) x.1) := by
  induction l generalizing d with
  | nil => exact ⟨rfl, rfl, fun _ _ => rfl, by simp⟩
  | cons y l ih =>
    rw [List.map_cons, List.nodup_cons] at hdup hregs
    obtain ⟨hfresh, hdup⟩ := hdup
    obtain ⟨hfreshReg, hregs⟩ := hregs
    obtain ⟨hpc, hst, hother, hown⟩ := ih hdup hregs (fun x hx => hsmall x (List.mem_cons_of_mem _ hx))
      (d.enqueue t y.1 y.2.1 (y.2.2.getD []) mates)
    have hy := hsmall y List.mem_cons_self
    rw [Dev.thread_enqueue] at hpc hst hother
    refine ⟨hpc.trans (Thread.setReg_pc ..), hst.trans (Thread.setReg_st ..), fun r hr => ?_, fun x hx hzero => ?_⟩
    · simp only [List.map_cons, List.mem_cons, not_or] at hr
      obtain ⟨hhead, htail⟩ := hr
      exact (hother r htail).trans ((Thread.reg_setReg _ hy _ r).trans (if_neg hhead))
    · rcases List.mem_cons.mp hx with rfl | htail
      · exact (hother x.2.1 hfreshReg).trans ((Thread.reg_setReg _ hy _ _).trans ((if_pos rfl).trans (if_neg hzero)))
      · have hne : x.1 ≠ y.1 := fun he => hfresh (he ▸ List.mem_map_of_mem htail)
        refine (hown x htail hzero).trans ?_
        simp only [Dev.nextIssue, Dev.engine_enqueue, if_neg hne]

theorem threadActs.enqueueAll {s : State} {t : Nat} {parts : List Part} (mates : List Nat) (l : List (Nat × Nat × Option (List Byte))) {d : Dev}
    (h : threadActs s (s.put d) t parts) : threadActs s (s.put (d.enqueueAll t l mates)) t parts := by
  induction l generalizing d with
  | nil => exact h
  | cons y l ih => exact ih (h.enqueue _ _ _ _)

/-- Settles O19: ISSUE is the case of one member, GROUP that of two or three. -/
theorem descriptorsAreQueued : Obligations.descriptors_are_queued := by
  unfold Obligations.descriptors_are_queued
  intro s t w ht hposted hsound
  obtain ⟨d, hd⟩ : ∃ d, d = s.dev.issued s.env t := ⟨_, rfl⟩
  have hth : d.thread t = s.dev.thread t := by rw [hd]; rfl
  have hposted' : d.posted = [] := by rw [hd]; exact hposted
  have hsound' : d.mem.sound = true := by rw [hd]; exact hsound
  have hengine : ∀ k, d.engine (foldOfThread t) k = s.dev.engine (foldOfThread t) k := fun k => by rw [hd, Dev.engine_issued]
  have hfull : ∀ k, d.engineFull (foldOfThread t) k = s.dev.engineFull (foldOfThread t) k := fun k => by simp only [Dev.engineFull, hengine]
  have hnext : ∀ k, d.nextIssue (foldOfThread t) k = s.dev.nextIssue (foldOfThread t) k := fun k => by simp only [Dev.nextIssue, hengine]
  have hdesc : ∀ k ra, d.descriptorAt t k ra = s.dev.descriptorAt t k ra := fun k ra => by rw [hd]; rfl
  have hacts : ∀ l, threadActs s (s.put d) t l := by rw [hd]; exact threadActs_issued s t
  have hcopy : ∀ k ra, d.raw (d.reg t ra).toNat (descLen (foldOfThread t) k) = s.dev.raw (s.dev.reg t ra).toNat (descLen (foldOfThread t) k) :=
    fun k ra => by rw [hd]; rfl
  refine ⟨fun k rd ra hk hrd h hgood hroom => ?issue, fun k rd ra hk hrd h hgood hroom => ?full, fun l hlen hdup hregs h hall => ?group⟩
  case issue =>
    have hgood' : ∀ x ∈ [(k, rd, ra)], d.descriptorAt t x.1 x.2.2 = true := by simpa [hdesc] using hgood
    have hissue := Dev.issueAll_good hposted' hsound' [(k, rd, ra)] hgood' s.env []
    have hroom' : ([(k, rd, ra)].any fun x => d.engineFull (foldOfThread t) x.1) = false := by simpa [hfull] using hroom
    rw [hroom', if_neg Bool.false_ne_true] at hissue
    have hexec : exec (.issue t k rd ra) s = .next (s.put ((d.enqueueAll t (d.copies t [(k, rd, ra)]) []).advance t)) := by
      rw [exec_issue, execIssue, run_instr rfl ht h, if_pos hk, ← hd, Dev.unlessParked_of_posted_nil hposted', hissue]
    have hone : d.enqueueAll t (d.copies t [(k, rd, ra)]) [] = d.enqueue t k rd (s.dev.jobAt t k ra []).desc [] :=
      congrArg (fun b => d.enqueue t k rd b []) (hcopy k ra)
    rw [hone] at hexec
    have heng := Dev.engine_enqueue d t k rd (s.dev.jobAt t k ra []).desc []
    rw [hengine, hnext] at heng
    refine ⟨_, hexec, ((hacts _).enqueue _ _ _ _).advance.frame, ?_, ?_, ?_, fun m hm => ?_⟩
    · have hthread := Dev.thread_enqueue d t k rd (s.dev.jobAt t k ra []).desc []
      rw [hth, hnext] at hthread
      simp only [wrote, State.put_dev, Dev.thread_advance, if_true, hthread]
      exact ⟨(Thread.reg_setReg _ hrd _ rd).trans (if_pos rfl), fun r hr => (Thread.reg_setReg _ hrd _ r).trans (if_neg hr),
        by rw [Thread.setReg_pc], by rw [Thread.setReg_st]⟩
    · exact (congrArg Engine.queue (heng k)).trans (by rw [if_pos rfl]; rfl)
    · exact (congrArg Engine.issued (heng k)).trans (by rw [if_pos rfl])
    · exact (heng m).trans ((if_neg hm).trans (hengine m))
  case full =>
    have hgood' : ∀ x ∈ [(k, rd, ra)], d.descriptorAt t x.1 x.2.2 = true := by simpa [hdesc] using hgood
    have hissue := Dev.issueAll_good hposted' hsound' [(k, rd, ra)] hgood' s.env []
    have hroom' : ([(k, rd, ra)].any fun x => d.engineFull (foldOfThread t) x.1) = true := by simpa [hfull] using hroom
    rw [hroom', if_pos rfl] at hissue
    have hexec : exec (.issue t k rd ra) s = .next (s.put (d.park s.env t (.fullQueue [k]))) := by
      rw [exec_issue, execIssue, run_instr rfl ht h, if_pos hk, ← hd, Dev.unlessParked_of_posted_nil hposted', hissue]
      rfl
    exact ⟨_, hexec, ((hacts _).park _ _).frame, by simp [Dev.park, Dev.thread_modThread], by simp [Dev.park, Dev.thread_modThread],
      by simp [Dev.park, Dev.thread_modThread, hth]⟩
  case group =>
    have hgood' : ∀ x ∈ l, d.descriptorAt t x.1 x.2.2 = true := fun x hx => by
      obtain ⟨-, -, -, hgood, -⟩ := hall x hx
      rw [hdesc]; exact hgood
    have hissue := Dev.issueAll_good hposted' hsound' l hgood' s.env (l.map (·.1))
    have hroom : (l.any fun x => d.engineFull (foldOfThread t) x.1) = false := by
      rw [List.any_eq_false]
      intro x hx
      obtain ⟨-, -, -, -, hroom⟩ := hall x hx
      rw [hfull, hroom]
      decide
    rw [hroom, if_neg Bool.false_ne_true] at hissue
    have hkinds : ((l.map (·.1)).all fun x => decide (x < sequenced (foldOfThread t))) = true := by
      rw [List.all_map, List.all_eq_true]
      exact fun x hx => decide_eq_true (hall x hx).1
    have hexec : exec (.group t l) s = .next (s.put ((d.enqueueAll t (d.copies t l) (l.map (·.1))).advance t)) := by
      rw [exec_group, execGroup, run_instr rfl ht h, if_pos ⟨hlen, hkinds, hdup⟩, ← hd, Dev.unlessParked_of_posted_nil hposted', hissue]
    have hkeys : (d.copies t l).map (·.1) = l.map (·.1) := by simp [Dev.copies]
    have hrds : (d.copies t l).map (·.2.1) = l.map (·.2.1) := by simp [Dev.copies]
    have hsmall : ∀ x ∈ d.copies t l, x.2.1 < 32 := by
      intro x hx
      obtain ⟨y, hy, rfl⟩ := List.mem_map.mp hx
      obtain ⟨-, hrd, -⟩ := hall y hy
      exact hrd
    obtain ⟨hpc, hst, -, hreg⟩ := Dev.thread_enqueueAll t (l.map (·.1)) (d.copies t l) (hkeys ▸ hdup) (hrds ▸ hregs) hsmall d
    obtain ⟨-, heng⟩ := Dev.engine_enqueueAll t (l.map (·.1)) (d.copies t l) (hkeys ▸ hdup) d
    rw [hth] at hpc hst
    refine ⟨_, hexec, ((hacts _).enqueueAll _ _).advance.frame, ?_, ?_, fun x hx => ⟨?_, fun hzero => ?_⟩⟩
    · simp [Dev.thread_advance, hpc]
    · simp [Dev.thread_advance, hst]
    · refine (congrArg Engine.queue (heng _ (List.mem_map_of_mem hx))).trans ?_
      simp only [hengine, hnext]
      exact congrArg (fun b => (s.dev.engine (foldOfThread t) x.1).queue ++ [{ s.dev.jobAt t x.1 x.2.2 (l.map (·.1)) with desc := b }])
        (hcopy x.1 x.2.2)
    · have hx' := hreg _ (List.mem_map_of_mem hx) hzero
      rw [hnext] at hx'
      simp only [State.put_dev, Dev.thread_advance, if_true]
      exact hx'

end Sys2Proof.Machine
end

section
/-! SUPPORT. Entries that reach their queues (R299), and how slots and hurdles change (R304 to R314). -/

namespace Sys2Proof.Machine

open Sys2Proof

/-! ## Waking a thread -/

theorem Dev.parkedSince_congr {d d' : Dev} (h : d'.posted = d.posted) (t : Nat) : d'.parkedSince t = d.parkedSince t := by
  rw [Dev.parkedSince, h]; rfl

theorem Dev.wakeStatus_other (d : Dev) {t k : Nat} (hk : k ≠ t) (rd v : Nat) : (d.wakeStatus t rd v).thread k = d.thread k :=
  d.wake_other hk _

theorem Dev.agrees_wakeStatus (d : Dev) (t rd v : Nat) : d.agrees [.threads] (d.wakeStatus t rd v) := d.agrees_wake t _

/-- What a woken thread is left as: READY, or waiting where a guard holds back a store of it. -/
theorem Dev.thread_wake (d : Dev) (t : Nat) (l : List (Nat × Word)) : (d.wake t l).thread t =
    { l.foldl (fun th x => th.setReg x.1 x.2) (d.thread t) with
      st := if d.parkedStore t then .waiting else .ready
      wait := (d.parkedSince t).map fun r => { what := .heldStore, since := r } } := by
  have hsame : ∀ f, (d.modThread t f).parkedSince t = d.parkedSince t := fun f => Dev.parkedSince_congr rfl t
  cases hp : d.parkedSince t with
  | none => simp [Dev.wake, Dev.parkHeld, hsame, hp, Dev.parkedStore, Dev.thread_modThread]
  | some r => simp [Dev.wake, Dev.parkHeld, hsame, hp, Dev.parkedStore, Dev.thread_modThread]

theorem Dev.wakeStatus_st (d : Dev) (t rd v : Nat) :
    ((d.wakeStatus t rd v).thread t).st = if d.parkedStore t then .waiting else .ready := by
  rw [Dev.wakeStatus, Dev.thread_wake]

theorem Dev.wakeStatus_reg (d : Dev) (t : Nat) {rd : Nat} (hrd : rd < 32) (v : Nat) :
    ((d.wakeStatus t rd v).thread t).reg rd = if rd = 0 then 0 else BitVec.ofNat 64 v := by
  rw [Dev.wakeStatus, Dev.thread_wake]
  exact (Thread.reg_setReg _ hrd _ rd).trans (if_pos rfl)

/-- What a thread is woken to rests on the thread and the stores on their way. -/
theorem Dev.thread_wakeStatus_congr {d d' : Dev} {t : Nat} (hthread : d'.thread t = d.thread t) (hposted : d'.posted = d.posted) (rd v : Nat) :
    (d'.wakeStatus t rd v).thread t = (d.wakeStatus t rd v).thread t := by
  rw [Dev.wakeStatus, Dev.wakeStatus, Dev.thread_wake, Dev.thread_wake, Dev.parkedStore, Dev.parkedStore, Dev.parkedSince_congr hposted, hthread]

/-- A woken thread waits for a store at a guard at most. -/
theorem Dev.whatOf_wakeStatus (d : Dev) (t rd v : Nat) :
    (d.wakeStatus t rd v).whatOf t = none ∨ (d.wakeStatus t rd v).whatOf t = some .heldStore := by
  cases hp : d.parkedSince t with
  | none => simp [Dev.whatOf, Dev.waitOf, Dev.wakeStatus, Dev.thread_wake, Dev.parkedStore, hp]
  | some r => simp [Dev.whatOf, Dev.waitOf, Dev.wakeStatus, Dev.thread_wake, Dev.parkedStore, hp]

theorem Dev.whatOf_congr {d d' : Dev} {t : Nat} (h : d'.thread t = d.thread t) : d'.whatOf t = d.whatOf t := by
  simp only [Dev.whatOf, Dev.waitOf, h]

/-! ## Entries -/

/-- An entry that finds a free credit, and nobody waiting, stays in its queue. -/
theorem Dev.deliver_free {d : Dev} {id k : Nat} {who : Prod} {q : FQueue} {p : ProdSlot} (hq : tget d.queues id = some q)
    (hk : prodIndex q who = some k) (hp : q.prods[k]? = some p) (hfree : p.used < p.credits) (hwait : q.waiters = [])
    (data : List Byte) (atEnd : Bool) (src : Nat) :
    d.deliver id who data atEnd src = { d with queues := tset d.queues id { setUsed q k (· + 1) with
      entries := q.entries ++ [{ data := padTo 16 (data.take 16), atEnd := atEnd, prod := k
                                 parity := parityOf (padTo 16 (data.take 16)) }] } } := by
  have hused : (setUsed q k (· + 1)).waiters = [] := hwait
  simp [Dev.deliver, hq, hk, hp, Nat.not_le.mpr hfree, Dev.serveQueue, hused]
  rfl

/-- An entry that finds none is ignored with the overrun bit and a fault. -/
theorem Dev.deliver_full {d : Dev} {id k : Nat} {who : Prod} {q : FQueue} {p : ProdSlot} (hq : tget d.queues id = some q)
    (hk : prodIndex q who = some k) (hp : q.prods[k]? = some p) (hfull : p.credits ≤ p.used) (data : List Byte) (atEnd : Bool) (src : Nat) :
    d.deliver id who data atEnd src =
      { d with queues := tset d.queues id { q with overrun := true } }.raise (d.workSrc (id / 256)) 8 1 (id % 65536) := by
  simp [Dev.deliver, hq, hk, hp, hfull, Dev.objFault]

/-- Settles O20: the entry by the credit of its producer, and the release word. -/
theorem entriesArrive : Obligations.entries_arrive := by
  unfold Obligations.entries_arrive
  intro s i id who data atEnd src q k p hclk
  refine ⟨fun hflight hfirst hq hk hp hfree hwait => ?kept, fun hflight hfirst hq hk hp hfull => ?overrun, fun g hflight hne hheld => ?release⟩
  case kept =>
    have hdeliver := Dev.deliver_free (d := s.dev.dropFlight i) hq hk hp hfree hwait data atEnd src
    have hexec : exec (.queueEntryArrival i) s = .next (s.put ((s.dev.dropFlight i).deliver id who data atEnd src)) := by
      rw [exec_queueEntryArrival, execQueueEntryArrival, runClocked_running rfl hclk]
      simp only [hflight, hfirst, Bool.false_eq_true, if_false]
    rw [hdeliver] at hexec
    refine ⟨_, hexec, rfl, State.touches_of_agrees ?_, ?_, fun j hj => ?_⟩
    · exact ((s.dev.agrees_flights _).mono (l := [.flights, .queues]) (by decide)).andThen (Dev.agrees_queues _ _) (by decide)
    · exact (tget_tset _ _ _ _).trans (if_pos rfl)
    · exact (tget_tset _ _ _ _).trans (if_neg hj)
  case overrun =>
    have hdeliver := Dev.deliver_full (d := s.dev.dropFlight i) hq hk hp hfull data atEnd src
    have hexec : exec (.queueEntryArrival i) s = .next (s.put ((s.dev.dropFlight i).deliver id who data atEnd src)) := by
      rw [exec_queueEntryArrival, execQueueEntryArrival, runClocked_running rfl hclk]
      simp only [hflight, hfirst, Bool.false_eq_true, if_false]
    rw [hdeliver] at hexec
    refine ⟨_, hexec, ?_, ?_, State.touches_of_agrees ?_, fun j hj => ?_, ?_⟩
    · simp [Dev.dropFlight]
    · simp [Dev.dropFlight]
    · exact (((s.dev.agrees_flights _).mono (l := [.flights, .queues] ++ faultParts) (by decide)).andThen (Dev.agrees_queues _ _) (by decide)).andThen
        (Dev.agrees_raise _ _ _ _ _) (by decide)
    · simp [Dev.dropFlight, tget_tset, hj]
    · exact Dev.raise_col_congr (d := { s.dev.dropFlight i with queues := _ }) (d' := s.dev) rfl rfl _ _ _ _
  case release =>
    have hheld' : ((({ s.dev with flights := s.dev.flights.eraseIdx i } : Dev)).gate g).held.contains (fieldAt data 0 8) = true := hheld
    have hexec : exec (.raceReleaseEntry i) s = .next (s.put (({ s.dev with flights := s.dev.flights.eraseIdx i } : Dev).modGate g fun x =>
        { x with held := x.held.filter (· != fieldAt data 0 8) })) := by
      rw [exec_raceReleaseEntry, execRaceReleaseEntry, runClocked_running rfl hclk]
      simp only [hflight, hne, hheld', if_false, if_true]
    refine ⟨_, hexec, rfl, State.touches_of_agrees ?_, ?_, fun j hj => ?_⟩
    · exact ((s.dev.agrees_flights _).mono (l := [.flights, .race]) (by decide)).andThen (Dev.agrees_modGate _ _ _) (by decide)
    · exact (Dev.gate_modGate ..).trans (if_pos rfl)
    · exact (Dev.gate_modGate ..).trans (if_neg hj)

end Sys2Proof.Machine
end

section
/-! SUPPORT. Guarded slots and hurdles (R304 to R314): marks, timeouts, arrivals and breaks. -/

namespace Sys2Proof.Machine

open Sys2Proof

/-! ## Slots -/

/-- A slot's new state ends waits of threads, and changes nothing else. -/
theorem Dev.agrees_slotChanged (d : Dev) (id : Nat) : d.agrees [.threads] (d.slotChanged id) := by
  unfold Dev.slotChanged
  split
  · rfl
  · refine Dev.agrees_foldl (fun d t => ?_) _ d
    split
    · exact d.agrees_wake _ _
    · exact d.agrees_wake _ _
    · exact d.agrees_wake _ _
    · exact d.agrees_wake _ _
    · exact d.agrees_wake _ _
    · exact d.agrees_wake _ _
    · rfl

theorem tget_tupd_of_some {α : Type} {t : Tab α} {k : Nat} {v : α} (h : tget t k = some v) (f : α → α) : tget (tupd t k f) k = some (f v) := by
  rw [tget_tupd, if_pos rfl, h]; rfl

theorem tget_tupd_other {α : Type} (t : Tab α) {k j : Nat} (h : j ≠ k) (f : α → α) : tget (tupd t k f) j = tget t j := by
  rw [tget_tupd, if_neg h]

/-- What the entry of a slot into a state leaves. -/
theorem Dev.setSlot_spec {d : Dev} {id : Nat} {x : Slot} (hx : tget d.slots id = some x) (st : SlotState) (taint : Bool) :
    d.agrees [.slots, .threads] (d.setSlot id st taint) ∧
    tget (d.setSlot id st taint).slots id = some { x with st := st, taint := taint, late := false } ∧
    ∀ j, j ≠ id → tget (d.setSlot id st taint).slots j = tget d.slots j := by
  have hchanged := Dev.agrees_slotChanged { d with slots := tupd d.slots id fun s => { s with st := st, taint := taint, late := false } } id
  have hslots : (d.setSlot id st taint).slots = tupd d.slots id fun s => { s with st := st, taint := taint, late := false } :=
    (hchanged .slots (by decide)).symm
  refine ⟨((d.agrees_slots _).mono (l := [.slots, .threads]) (by decide)).andThen hchanged (by decide), ?_, fun j hj => ?_⟩
  · rw [hslots, tget_tupd_of_some hx]
  · rw [hslots, tget_tupd_other _ hj]

theorem exec_slotMarkArrival_of_flight {s : State} {i id src : Nat} {full : Bool} (hclk : s.dev.clocked = true)
    (hflight : s.dev.flights[i]? = some (.mark id full src)) :
    exec (.slotMarkArrival i) s = .next (s.put ((s.dev.dropFlight i).slotMark id full src)) := by
  rw [exec_slotMarkArrival, execSlotMarkArrival, runClocked_running rfl hclk]
  simp only [hflight]

theorem Dev.agrees_dropFlight (d : Dev) (i : Nat) : d.agrees [.flights] (d.dropFlight i) := d.agrees_flights _

theorem Dev.waitOf_what {d : Dev} {t : Nat} {y : Wait} (h : d.waitOf t = some y) : d.whatOf t = some y.what := by
  simp [Dev.whatOf, h]

section

variable {d : Dev} {e : Env} {t id rd dl : Nat} {x : Slot} {y : Wait} (hx : tget d.slots id = some x) (hy : d.waitOf t = some y)
  (hover : y.since + x.timeoutNs ≤ e.raw)
include hx hy hover

theorem Dev.readerTimeout_of_full (hwhat : y.what = .slotFull id rd dl) (hst : x.st = .empty) :
    d.readerTimeout e id t = ({ d with slots := tset d.slots id { x with late := true } }.wakeStatus t rd 2).starve t 2 id := by
  simp [Dev.readerTimeout, hx, hy, hst, expired, hover, hwhat]

theorem Dev.writerTimeout_of_empty (hwhat : y.what = .slotEmpty id rd dl) (hst : x.st = .full) (hposted : d.posted = []) :
    d.writerTimeout e id t = ({ d with slots := tset d.slots id { x with taint := true } }.wakeStatus t rd 2).starve t 3 id := by
  simp [Dev.writerTimeout, Dev.writerWaitTimeout, hx, hy, hst, expired, hover, hwhat, hposted]

end

/-- A work source rests on the fold map. -/
theorem Dev.workSrc_congr {d d' : Dev} (h : d'.foldMap = d.foldMap) (n : Nat) : d'.workSrc n = d.workSrc n := by
  simp only [Dev.workSrc, Dev.physOf, h]

/-- A wait that ends at its slot with status 2 and a STARVATION fault, the slot noted. -/
theorem slotStarved {s : State} {t id rd detail : Nat} {y : Slot} (hrd : 0 < rd) (hsmall : rd < 32) {u : State}
    (hu : u = s.put (({ s.dev with slots := tset s.dev.slots id y }.wakeStatus t rd 2).starve t detail id)) :
    (u.dev.thread t).st = (if s.dev.parkedStore t then .waiting else .ready) ∧ (u.dev.thread t).reg rd = 2 ∧
      tget u.dev.slots id = some y ∧ (∀ j, j ≠ id → tget u.dev.slots j = tget s.dev.slots j) ∧
      s.touches u ([.threads, .slots] ++ faultParts) ∧ (∀ k, k ≠ t → u.dev.thread k = s.dev.thread k) ∧
      u.dev.col = (s.dev.raise (s.dev.threadSrc t) 9 detail (id % 65536)).col := by
  obtain ⟨d, hd⟩ : ∃ d, d = { s.dev with slots := tset s.dev.slots id y } := ⟨_, rfl⟩
  have hwake := d.agrees_wakeStatus t rd 2
  have hslots : (d.wakeStatus t rd 2).slots = tset s.dev.slots id y := by rw [← hwake .slots (by decide), hd]
  have hsrc : (d.wakeStatus t rd 2).threadSrc t = s.dev.threadSrc t :=
    (Dev.workSrc_congr (hwake .foldMap (by decide)).symm _).trans (by rw [hd]; rfl)
  rw [← hd, Dev.starve, hsrc] at hu
  subst hu
  refine ⟨?_, ?_, ?_, fun j hj => ?_, State.touches_of_agrees ?_, fun k hk => ?_, ?_⟩
  · rw [State.put_dev, Dev.thread_raise, Dev.wakeStatus_st, hd]
    rfl
  · rw [State.put_dev, Dev.thread_raise, Dev.wakeStatus_reg _ _ hsmall, if_neg (by omega)]
    rfl
  · rw [State.put_dev, Dev.raise_slots, hslots, tget_tset, if_pos rfl]
  · rw [State.put_dev, Dev.raise_slots, hslots, tget_tset, if_neg hj]
  · have hset : s.dev.agrees ([.threads, .slots] ++ faultParts) d := by rw [hd]; exact ((s.dev.agrees_slots _).mono (by decide))
    exact (hset.andThen hwake (by decide)).andThen (Dev.agrees_raise _ _ _ _ _) (by decide)
  · rw [State.put_dev, Dev.thread_raise, Dev.wakeStatus_other _ hk, hd]
    rfl
  · exact Dev.raise_col_congr ((hwake .phys (by decide)).symm.trans (by rw [hd])) ((hwake .col (by decide)).symm.trans (by rw [hd])) _ _ _ _

/-! ## A list of threads whose waits end together -/

/-- A step over a list of threads that ends the waits which `mine` names, each with its register, and touches no other thread. -/
structure EndsWaits (f : Dev → Nat → Dev) (mine : WaitFor → Option Nat) (status : Nat) : Prop where
  posted : ∀ d t, (f d t).posted = d.posted
  other : ∀ d t k, k ≠ t → (f d t).thread k = d.thread k
  stays : ∀ d t, (d.whatOf t).bind mine = none → (f d t).thread t = d.thread t
  ends : ∀ d t rd, (d.whatOf t).bind mine = some rd → (f d t).thread t = (d.wakeStatus t rd status).thread t

section

variable {f : Dev → Nat → Dev} {mine : WaitFor → Option Nat} {status : Nat} (hf : EndsWaits f mine status)
include hf

theorem EndsWaits.foldl_posted (l : List Nat) (d : Dev) : (l.foldl f d).posted = d.posted := by
  induction l generalizing d with
  | nil => rfl
  | cons t l ih => exact (ih _).trans (hf.posted d t)

theorem EndsWaits.foldl_other (l : List Nat) {k : Nat} (hk : k ∉ l) (d : Dev) : (l.foldl f d).thread k = d.thread k := by
  induction l generalizing d with
  | nil => rfl
  | cons t l ih =>
    rw [List.mem_cons, not_or] at hk
    exact (ih hk.2 _).trans (hf.other d t k hk.1)

/-- A thread with no such wait stays as it is, listed or not. -/
theorem EndsWaits.foldl_stays (l : List Nat) {k : Nat} {d : Dev} (hk : (d.whatOf k).bind mine = none) : (l.foldl f d).thread k = d.thread k := by
  induction l generalizing d with
  | nil => rfl
  | cons t l ih =>
    have hhead : (f d t).thread k = d.thread k := by
      by_cases h : k = t
      · subst h; exact hf.stays d k hk
      · exact hf.other d t k h
    refine (ih ?_).trans hhead
    rw [Dev.whatOf_congr hhead, hk]

/-- Every listed thread with such a wait is woken once. -/
theorem EndsWaits.foldl_ends (hheld : mine .heldStore = none) (l : List Nat) {k rd : Nat} (hk : k ∈ l) {d : Dev}
    (hwait : (d.whatOf k).bind mine = some rd) : (l.foldl f d).thread k = (d.wakeStatus k rd status).thread k := by
  induction l generalizing d with
  | nil => simp at hk
  | cons t l ih =>
    by_cases h : k = t
    · subst h
      have hhead := hf.ends d k rd hwait
      refine (hf.foldl_stays l ?_).trans hhead
      rw [Dev.whatOf_congr hhead]
      rcases d.whatOf_wakeStatus k rd status with hw | hw <;> rw [hw]
      · rfl
      · exact hheld
    · have hhead := hf.other d t k h
      have htail : k ∈ l := (List.mem_cons.mp hk).resolve_left h
      refine (ih htail (by rw [Dev.whatOf_congr hhead, hwait])).trans ?_
      exact Dev.thread_wakeStatus_congr hhead (hf.posted d t) rd status

end

/-- The register of a wait at a hurdle that a test admits. -/
def hurdleReg (p : Nat → Bool) : WaitFor → Option Nat
  | .hurdle id rd => if p id then some rd else none
  | _ => none

/-- The release of hurdle `id` reaches a waiting member. -/
def Dev.freeMember (id : Nat) (d : Dev) (t : Nat) : Dev :=
  match d.whatOf t with
  | some (.hurdle j rd) => if j = id then d.wakeStatus t rd 0 else d
  | _ => d

theorem Dev.freeMember_spec (d : Dev) (id t : Nat) :
    ((d.whatOf t).bind (hurdleReg (· == id)) = none → d.freeMember id t = d) ∧
    ∀ rd, (d.whatOf t).bind (hurdleReg (· == id)) = some rd → d.freeMember id t = d.wakeStatus t rd 0 := by
  unfold Dev.freeMember
  split
  · next j rd hw =>
    by_cases hj : j = id <;> simp [hw, hurdleReg, hj]
  · next hw =>
    refine ⟨fun _ => rfl, fun rd hrd => ?_⟩
    obtain ⟨w, hw', hreg⟩ := Option.bind_eq_some_iff.mp hrd
    cases w with
    | hurdle j r => exact absurd hw' (hw j r)
    | _ => simp [hurdleReg] at hreg

/-- What either ends the wait of one thread or leaves the device ends waits in the sense of `EndsWaits`. -/
theorem endsWaits_of_spec {f : Dev → Nat → Dev} {mine : WaitFor → Option Nat} {status : Nat} {parts : List Part} (g : Dev → Nat → Dev)
    (hspec : ∀ d t, ((d.whatOf t).bind mine = none → f d t = d) ∧ ∀ rd, (d.whatOf t).bind mine = some rd → f d t = g (d.wakeStatus t rd status) t)
    (hg : ∀ (d : Dev) t, d.agrees parts (g d t)) (hparts : .threads ∉ parts ∧ .posted ∉ parts) : EndsWaits f mine status := by
  have hthreads : ∀ d t k, (g d t).thread k = d.thread k := fun d t k => by
    rw [Dev.thread, ← hg d t .threads hparts.1]; rfl
  have hcase : ∀ d t, f d t = d ∨ ∃ rd, f d t = g (d.wakeStatus t rd status) t := by
    intro d t
    cases hw : (d.whatOf t).bind mine with
    | none => exact .inl ((hspec d t).1 hw)
    | some rd => exact .inr ⟨rd, (hspec d t).2 rd hw⟩
  refine ⟨fun d t => ?_, fun d t k hk => ?_, fun d t h => by rw [(hspec d t).1 h], fun d t rd h => ?_⟩
  · rcases hcase d t with h | ⟨rd, h⟩ <;> rw [h]
    rw [← hg _ _ .posted hparts.2, ← d.agrees_wakeStatus t rd status .posted (by decide)]
  · rcases hcase d t with h | ⟨rd, h⟩ <;> rw [h]
    rw [hthreads, Dev.wakeStatus_other _ hk]
  · rw [(hspec d t).2 rd h, hthreads]

theorem freeMember_endsWaits (id : Nat) : EndsWaits (Dev.freeMember id) (hurdleReg (· == id)) 0 :=
  endsWaits_of_spec (parts := []) (fun d _ => d) (fun d t => d.freeMember_spec id t) (fun _ _ => by rfl) (by decide)

/-- A waiting member of a hurdle that breaks at its timeout. -/
def Dev.starveMember (id : Nat) (d : Dev) (t : Nat) : Dev :=
  match d.whatOf t with
  | some (.hurdle _ rd) => (d.wakeStatus t rd causeTimeout).starve t 4 id
  | _ => d

theorem Dev.starveMember_spec (d : Dev) (id t : Nat) :
    ((d.whatOf t).bind (hurdleReg fun _ => true) = none → d.starveMember id t = d) ∧
    ∀ rd, (d.whatOf t).bind (hurdleReg fun _ => true) = some rd → d.starveMember id t = (d.wakeStatus t rd causeTimeout).starve t 4 id := by
  unfold Dev.starveMember
  split
  · next j rd hw => simp [hw, hurdleReg]
  · next hw =>
    refine ⟨fun _ => rfl, fun rd hrd => ?_⟩
    obtain ⟨w, hw', hreg⟩ := Option.bind_eq_some_iff.mp hrd
    cases w with
    | hurdle j r => exact absurd hw' (hw j r)
    | _ => simp [hurdleReg] at hreg

theorem starveMember_endsWaits (id : Nat) : EndsWaits (Dev.starveMember id) (hurdleReg fun _ => true) causeTimeout :=
  endsWaits_of_spec (parts := faultParts) (fun d t => d.starve t 4 id) (fun d t => d.starveMember_spec id t) (fun d t => d.agrees_raise _ _ _ _) (by decide)

theorem Dev.agrees_freeMembers (id : Nat) (l : List Nat) (d : Dev) : d.agrees [.threads] (l.foldl (Dev.freeMember id) d) := by
  refine Dev.agrees_foldl (fun d t => ?_) l d
  unfold Dev.freeMember
  split
  · split
    · exact d.agrees_wakeStatus _ _ _
    · rfl
  · rfl

theorem Dev.agrees_starveMembers (id : Nat) (l : List Nat) (d : Dev) : d.agrees (.threads :: faultParts) (l.foldl (Dev.starveMember id) d) := by
  refine Dev.agrees_foldl (fun d t => ?_) l d
  unfold Dev.starveMember
  split
  · exact ((d.agrees_wakeStatus _ _ _).mono (l := .threads :: faultParts) (by decide)).andThen (Dev.agrees_raise _ _ _ _ _) (by decide)
  · rfl

/-! ## Hurdles -/

/-- A whole hurdle that times out breaks, and its waiting members starve. -/
theorem Dev.breakHurdle_timeout {d : Dev} {id : Nat} {h : Hurdle} (hh : tget d.hurdles id = some h) (hgood : h.broken = none)
    (hlocal : h.flock = none) (e : Env) : d.breakHurdle e id causeTimeout none =
      h.waiters.foldl (Dev.starveMember id) { d with hurdles := tset d.hurdles id { h with broken := some causeTimeout, waiters := [], count := 0 } } := by
  simp only [Dev.breakHurdle, Dev.breakLocal, hh, hgood, hlocal, Option.isSome_none, Bool.false_eq_true, if_false, if_true]
  rfl

theorem exec_hurdleArrival_of_flight {s : State} {i id src : Nat} {w : Option Nat} (hclk : s.dev.clocked = true)
    (hflight : s.dev.flights[i]? = some (.arrive id w src)) :
    exec (.hurdleArrival i) s = .next (s.put ((s.dev.dropFlight i).hurdleArrive s.env id w src)) := by
  rw [exec_hurdleArrival, execHurdleArrival, runClocked_running rfl hclk]
  simp only [hflight]

/-- The last arrival of a phase with one waiting member starts the next phase and sends the release to its fold. -/
theorem Dev.hurdleArrive_last {d : Dev} {id t : Nat} {h : Hurdle} (hh : tget d.hurdles id = some h) (hgood : h.broken = none)
    (hlocal : h.flock = none) (hwait : h.waiters = []) (hlast : h.count + 1 = h.members) (e : Env) (src : Nat) :
    (d.hurdleArrive e id (some t) src).flights = d.flights ++ [.freed id (foldOfThread t) [t]] ∧
    d.agrees [.flights, .hurdles] (d.hurdleArrive e id (some t) src) ∧
    (∀ j, j ≠ id → tget (d.hurdleArrive e id (some t) src).hurdles j = tget d.hurdles j) ∧
    tget (d.hurdleArrive e id (some t) src).hurdles id = some { h with
      count := 0, waiters := [], phase := (h.phase + 1) % 256, firstArrival := if h.count = 0 then e.raw else h.firstArrival } := by
  have hnot : ¬ h.count + 1 < h.members := by omega
  have heq : d.hurdleArrive e id (some t) src = ({ d with hurdles := tset (tset d.hurdles id { h with
      count := 0, waiters := [t], firstArrival := if h.count = 0 then e.raw else h.firstArrival }) id { h with
      count := 0, waiters := [], phase := (h.phase + 1) % 256, firstArrival := if h.count = 0 then e.raw else h.firstArrival } }).launchFlight
        (.freed id (foldOfThread t) [t]) := by
    simp [Dev.hurdleArrive, hh, hgood, hlocal, hwait, hnot, Dev.releaseHurdle]
  rw [heq]
  refine ⟨rfl, ((d.agrees_hurdles _).mono (l := [.flights, .hurdles]) (by decide)).andThen (Dev.agrees_flights _ _) (by decide), fun j hj => ?_, ?_⟩
  · exact (tget_tset _ _ _ _).trans ((if_neg hj).trans ((tget_tset _ _ _ _).trans (if_neg hj)))
  · exact (tget_tset _ _ _ _).trans (if_pos rfl)

/-- Settles O21: a mark, a timeout and an arrival each through the operation it runs. -/
theorem slotsAndHurdlesChange : Obligations.slots_and_hurdles_change := by
  unfold Obligations.slots_and_hurdles_change
  refine ⟨?slots, ?hurdles⟩
  case slots =>
    intro s i id src x hclk hid hx
    refine ⟨fun hflight hst => ?fill, fun hflight hst => ?drain, fun full hflight hwrong => ?bad,
      fun k t y rd dl hk hwaiter hrd hsmall hy hwhat hst hover => ?reader, fun k t y rd dl hk hwaiter hrd hsmall hy hwhat hst hover hposted => ?writer,
      fun n r j since hn hr hrun hrefused hslot hst hover => ?drover⟩
    case fill =>
      obtain ⟨hagrees, hslot, hother⟩ := Dev.setSlot_spec (d := s.dev.dropFlight i) hx .full x.taint
      have hmark : (s.dev.dropFlight i).slotMark id true src = (s.dev.dropFlight i).setSlot id .full x.taint := by
        have hx' : tget (s.dev.dropFlight i).slots id = some x := hx
        simp [Dev.slotMark, hx', hst]
      have hexec := exec_slotMarkArrival_of_flight hclk hflight
      rw [hmark] at hexec
      exact ⟨_, hexec, (hagrees .flights (by decide)).symm, hslot,
        State.touches_of_agrees (((s.dev.agrees_dropFlight i).mono (l := [.flights, .slots, .threads]) (by decide)).andThen hagrees (by decide)), hother⟩
    case drain =>
      obtain ⟨hagrees, hslot, hother⟩ := Dev.setSlot_spec (d := s.dev.dropFlight i) hx .empty false
      have hmark : (s.dev.dropFlight i).slotMark id false src = (s.dev.dropFlight i).setSlot id .empty false := by
        have hx' : tget (s.dev.dropFlight i).slots id = some x := hx
        cases hs : x.st <;> simp_all [Dev.slotMark]
      have hexec := exec_slotMarkArrival_of_flight hclk hflight
      rw [hmark] at hexec
      exact ⟨_, hexec, (hagrees .flights (by decide)).symm, hslot,
        State.touches_of_agrees (((s.dev.agrees_dropFlight i).mono (l := [.flights, .slots, .threads]) (by decide)).andThen hagrees (by decide)), hother⟩
    case bad =>
      have hmark : (s.dev.dropFlight i).slotMark id full src = (s.dev.dropFlight i).raise src 8 2 (id % 65536) := by
        have hx' : tget (s.dev.dropFlight i).slots id = some x := hx
        simp only [Dev.slotMark, hx', hwrong]
        cases x.st <;> rfl
      have hexec := exec_slotMarkArrival_of_flight hclk hflight
      rw [hmark] at hexec
      refine ⟨_, hexec, State.touches_of_agrees ?_, Dev.raise_col_congr (d := s.dev.dropFlight i) (d' := s.dev) rfl rfl _ _ _ _⟩
      exact ((s.dev.agrees_dropFlight i).mono (l := .flights :: faultParts) (by decide)).andThen (Dev.agrees_raise _ _ _ _ _) (by decide)
    case reader =>
      have hexec : exec (.slotReaderTimeout id k) s = .next (s.put (s.dev.readerTimeout s.env id t)) := by
        rw [exec_slotReaderTimeout, execSlotReaderTimeout, run_next (by simp [missingUnit, Instr.units, hid, hk])]
        simp only [hwaiter]
        rfl
      rw [Dev.readerTimeout_of_full hx hy hover hwhat hst] at hexec
      exact ⟨_, hexec, slotStarved hrd hsmall rfl⟩
    case writer =>
      have hexec : exec (.slotWriterTimeout id k) s = .next (s.put (s.dev.writerTimeout s.env id t)) := by
        rw [exec_slotWriterTimeout, execSlotWriterTimeout, run_next (by simp [missingUnit, Instr.units, hid, hk])]
        simp only [hwaiter]
        rfl
      rw [Dev.writerTimeout_of_empty hx hy hover hwhat hst hposted] at hexec
      have hspec := slotStarved (s := s) (t := t) (id := id) (detail := 3) (y := { x with taint := true }) hrd hsmall rfl
      rw [if_neg (by simp [Dev.parkedStore_of_posted_nil hposted])] at hspec
      exact ⟨_, hexec, hspec⟩
    case drover =>
      have hname : waiterThread (3072 + 2 * n + r) = none := by
        simp [waiterThread, show ¬ 3072 + 2 * n + r < 3072 by omega, show 3072 + 2 * n + r < 3168 by omega]
      have hexec : exec (.slotReaderTimeout id (3072 + 2 * n + r)) s = .next (s.put (s.dev.droverTimeout s.env id (3072 + 2 * n + r) false)) := by
        rw [exec_slotReaderTimeout, execSlotReaderTimeout,
          run_next (by simp [missingUnit, Instr.units, hid, show 3072 + 2 * n + r < 3184 by omega])]
        simp only [hname]
        rfl
      have hpass : s.dev.droverTimeout s.env id (3072 + 2 * n + r) false = (s.dev.modEngine n (3 + r) fun g =>
          { g with passed := g.passed ++ [id] }).raise (s.dev.workSrc n) 9 2 (id % 65536) := by
        have hrun' : (tgetD (s.dev.fold n).engines (3 + r) {}).running = some j := hrun
        have hrefused' : (tgetD (s.dev.fold n).engines (3 + r) {}).refusedAt = some since := hrefused
        simp only [Dev.droverTimeout, show (3072 + 2 * n + r - 3072) / 2 = n by omega, show (3072 + 2 * n + r - 3072) % 2 = r by omega,
          hrun', hrefused', hx, show 3 + r - 3 = r by omega, hslot, hst]
        simp [hover, Dev.modEngine]
      rw [hpass] at hexec
      refine ⟨_, hexec, ?_, State.touches_of_agrees ?_, fun m hm => ?_, ?_⟩
      · simp only [State.put_dev, Dev.engine, Dev.fold, Dev.raise_folds]
        have hengine := Dev.engine_modEngine s.dev n (3 + r) (fun g => { g with passed := g.passed ++ [id] }) n (3 + r)
        rw [if_pos ⟨rfl, rfl⟩] at hengine
        exact congrArg Engine.passed hengine
      · exact ((s.dev.agrees_modFold _ _).mono (l := .folds :: faultParts) (by decide)).andThen (Dev.agrees_raise _ _ _ _ _) (by decide)
      · simp only [State.put_dev, Dev.fold, Dev.raise_folds]
        exact (Dev.fold_modFold s.dev n _ m).trans (if_neg hm)
      · exact Dev.raise_col_congr (d := s.dev.modEngine n (3 + r) _) (d' := s.dev) rfl rfl _ _ _ _
  case hurdles =>
    intro s i id src h hclk hid hh hgood
    have hh' : tget (s.dev.dropFlight i).hurdles id = some h := hh
    refine ⟨fun w hflight hmore => ?counted, fun t hflight hlast hlocal hwait => ?last, fun n ts hflight => ?freed, fun hlocal hbegan hover => ?broken⟩
    case counted =>
      have harrive : (s.dev.dropFlight i).hurdleArrive s.env id w src = { s.dev.dropFlight i with hurdles := tset s.dev.hurdles id { h with
          count := h.count + 1, waiters := h.waiters ++ w.toList, firstArrival := if h.count = 0 then s.clk.raw else h.firstArrival } } := by
        simp only [Dev.hurdleArrive, hh', hgood, hmore, if_true]
        rfl
      have hexec := exec_hurdleArrival_of_flight hclk hflight
      rw [harrive] at hexec
      refine ⟨_, hexec, rfl, State.touches_of_agrees ?_, fun j hj => ?_, ?_⟩
      · exact ((s.dev.agrees_dropFlight i).mono (l := [.flights, .hurdles]) (by decide)).andThen (Dev.agrees_hurdles _ _) (by decide)
      · exact (tget_tset _ _ _ _).trans (if_neg hj)
      · exact (tget_tset _ _ _ _).trans (if_pos rfl)
    case last =>
      obtain ⟨hflights, hagrees, hother, hown⟩ := Dev.hurdleArrive_last hh' hgood hlocal hwait hlast s.env src (t := t)
      exact ⟨_, exec_hurdleArrival_of_flight hclk hflight, hflights,
        State.touches_of_agrees (((s.dev.agrees_dropFlight i).mono (l := [.flights, .hurdles]) (by decide)).andThen hagrees (by decide)), hother, hown⟩
    case freed =>
      have hexec : exec (.hurdleReleaseArrival i) s = .next (s.put (ts.foldl (Dev.freeMember id) (s.dev.dropFlight i))) := by
        rw [exec_hurdleReleaseArrival, execHurdleReleaseArrival, runClocked_running rfl hclk]
        simp only [hflight]
        rfl
      have hagrees := Dev.agrees_freeMembers id ts (s.dev.dropFlight i)
      refine ⟨_, hexec, (hagrees .flights (by decide)).symm, State.touches_of_agrees ?_, fun k hk => ?_, fun t ht rd hrd hwhat => ?_⟩
      · exact ((s.dev.agrees_dropFlight i).mono (l := [.flights, .threads]) (by decide)).andThen hagrees (by decide)
      · exact (freeMember_endsWaits id).foldl_other ts hk (s.dev.dropFlight i)
      · have hwait : ((s.dev.dropFlight i).whatOf t).bind (hurdleReg (· == id)) = some rd := by
          rw [show (s.dev.dropFlight i).whatOf t = some (.hurdle id rd) from hwhat]
          simp [hurdleReg]
        rw [State.put_dev, (freeMember_endsWaits id).foldl_ends rfl ts ht hwait, Dev.wakeStatus_st, Dev.wakeStatus_reg _ _ hrd]
        exact ⟨rfl, by simp⟩
    case broken =>
      have hexec : exec (.hurdleTimeout id) s = .next (s.put (s.dev.breakHurdle s.env id causeTimeout none)) := by
        rw [exec_hurdleTimeout, execHurdleTimeout, run_next (by simp [missingUnit, Instr.units, hid])]
        simp only [hh, hgood, hbegan, hlocal]
        simp [hover]
        rfl
      rw [Dev.breakHurdle_timeout hh hgood hlocal] at hexec
      obtain ⟨d, hd⟩ : ∃ d, d = { s.dev with hurdles := tset s.dev.hurdles id { h with broken := some causeTimeout, waiters := [], count := 0 } } := ⟨_, rfl⟩
      have hset : s.dev.agrees [.hurdles] d := by rw [hd]; exact s.dev.agrees_hurdles _
      have hthread : ∀ k, d.thread k = s.dev.thread k := fun k => by rw [hd]; rfl
      rw [← hd] at hexec
      have hagrees := Dev.agrees_starveMembers id h.waiters d
      refine ⟨_, hexec, ?_, State.touches_of_agrees ?_, fun k hk => ?_, fun t ht j rd hpos hrd hwhat => ?_⟩
      · rw [State.put_dev, ← hagrees .hurdles (by decide), hd]
        exact (tget_tset _ _ _ _).trans (if_pos rfl)
      · exact (hset.mono (l := [.hurdles, .threads] ++ faultParts) (by decide)).andThen hagrees (by decide)
      · exact ((starveMember_endsWaits id).foldl_other h.waiters hk d).trans (hthread k)
      · have hwait : (d.whatOf t).bind (hurdleReg fun _ => true) = some rd := by
          rw [Dev.whatOf_congr (hthread t), hwhat]
          simp [hurdleReg]
        rw [State.put_dev, (starveMember_endsWaits id).foldl_ends rfl h.waiters ht hwait, Dev.wakeStatus_st, Dev.wakeStatus_reg _ _ hrd,
          if_neg (by omega : rd ≠ 0), Dev.parkedStore, Dev.parkedSince_congr (hset .posted (by decide)).symm]
        exact ⟨rfl, rfl⟩

end Sys2Proof.Machine
end

section
/-! SUPPORT. Rolling self-test slices, gating and waking of folds (R142 to R144, R469 to R475, R566). -/

namespace Sys2Proof.Machine

open Sys2Proof

theorem Dev.agrees_modArray (d : Dev) (n k : Nat) (f : ArrayState → ArrayState) : d.agrees [.folds] (d.modArray n k f) :=
  d.agrees_modFold n _

/-- The troughs of a fold's two arrays as a slice leaves them. -/
def Dev.sliced (d : Dev) (p n sl : Nat) : Dev :=
  ((d.modPhys p fun x => { x with slice := some sl }).modArray n 0 sliceArray).modArray n 1 sliceArray

theorem Dev.agrees_sliced (d : Dev) (p n sl : Nat) : d.agrees [.folds, .phys] (d.sliced p n sl) :=
  (((d.agrees_modPhys p _).mono (l := [.folds, .phys]) (by decide)).andThen (Dev.agrees_modArray _ _ _ _) (by decide)).andThen (Dev.agrees_modArray _ _ _ _) (by decide)

theorem Dev.fold_sliced_other (d : Dev) (p n sl : Nat) {m : Nat} (hm : m ≠ n) : (d.sliced p n sl).fold m = d.fold m := by
  simp only [Dev.sliced, Dev.modArray, Dev.fold_modFold, if_neg hm]
  rfl

theorem Dev.array_sliced_loaded (d : Dev) (p n sl : Nat) {k : Nat} (hk : k = 0 ∨ k = 1) : ((d.sliced p n sl).array n k).loaded = none := by
  rcases hk with rfl | rfl <;> simp [Dev.sliced, Dev.array_modArray, sliceArray]

theorem Dev.physFold_sliced_slice (d : Dev) (p n sl : Nat) : ((d.sliced p n sl).physFold p).slice = some sl := by
  have hphys : (d.sliced p n sl).physFold p = (d.modPhys p fun x => { x with slice := some sl }).physFold p := rfl
  rw [hphys, Dev.physFold_modPhys, if_pos rfl]

/-- A slice in a fold's gap begins. -/
theorem exec_sliceStart_of_due {s : State} {p n sl : Nat} (hp : p < 52) (hsl : sl < 4) (hlog : s.dev.logicalOf p = some n)
    (hroom : s.dev.sliceRoom p n = true) (hdue : s.dev.dueSlice s.env p n = some sl) (hgap : s.dev.inGap s.env n = true) :
    exec (.sliceStart p sl) s = .next (s.put (s.dev.sliced p n sl)) := by
  rw [exec_sliceStart, execSliceStart, run_next (by simp [missingUnit, Instr.units, hp, hsl])]
  simp only [hlog, hroom, hdue, hgap, beq_self_eq_true, Bool.and_true, if_true]
  rfl

/-- What the end of a slice with any signature records: the cycles, the signature, and that the fold has been busy. -/
def Dev.sliceEnded (d : Dev) (e : Env) (p n sl : Nat) (w : Word) : Dev :=
  (d.modPhys p fun x => { x.counted e.raw (d.coverage n) with
    slice := none, sliceCycles := (x.sliceCycles + 18750) % 2 ^ 64, signatures := tset x.signatures sl w }).modFold n fun f =>
      { f with idleSince := e.raw }

theorem Dev.agrees_sliceEnded (d : Dev) (e : Env) (p n sl : Nat) (w : Word) : d.agrees [.folds, .phys] (d.sliceEnded e p n sl w) :=
  ((d.agrees_modPhys p _).mono (l := [.folds, .phys]) (by decide)).andThen (Dev.agrees_modFold _ _ _) (by decide)

theorem Dev.physFold_sliceEnded (d : Dev) (e : Env) (p n sl : Nat) (w : Word) :
    (d.sliceEnded e p n sl w).physFold p = { (d.physFold p).counted e.raw (d.coverage n) with
      slice := none, sliceCycles := ((d.physFold p).sliceCycles + 18750) % 2 ^ 64
      signatures := tset (d.physFold p).signatures sl w } := by
  simp only [Dev.sliceEnded, Dev.physFold, Dev.modFold_phys]
  exact (Dev.physFold_modPhys d p _ p).trans (if_pos rfl)

theorem Dev.fold_sliceEnded_other (d : Dev) (e : Env) (p n sl : Nat) (w : Word) {m : Nat} (hm : m ≠ n) :
    (d.sliceEnded e p n sl w).fold m = d.fold m := by
  rw [Dev.sliceEnded, Dev.fold_modFold, if_neg hm]
  rfl

/-- The end of a slice that is in a clocked fold. -/
theorem exec_sliceEnd_of_slice {s : State} {p n sl : Nat} (hp : p < 52) (hlog : s.dev.logicalOf p = some n)
    (hslice : (s.dev.physFold p).slice = some sl) (hclk : s.dev.clocked = true) (w : Word) :
    exec (.sliceEnd p w) s = .next (s.put (
      if w = Config.sliceSignature sl then
        (s.dev.sliceEnded s.env p n sl w).modPhys p fun x =>
          { x with lastPass := tset x.lastPass sl s.clk.raw, lapsed := terase x.lapsed sl }
      else (s.dev.sliceEnded s.env p n sl w).mismatch s.env p sl (tgetD (s.dev.physFold p).lastPass sl 0 / 1024))) := by
  rw [exec_sliceEnd, execSliceEnd, runClocked_running (by simp [missingUnit, Instr.units, hp]) hclk]
  simp only [hslice, hlog]
  rfl

/-- A mismatch of a source with no message waiting raises its fault; the fold retires when it is collected. -/
theorem Dev.mismatch_of_silent {d : Dev} {p : Nat} (h : d.silent (0x100 + p) = true) (e : Env) (sl arg : Nat) :
    d.mismatch e p sl arg = d.raise (0x100 + p) 0x0C sl arg := by
  have hidle : (d.col.waiting.any fun m => msgSource m == 0x100 + p) = false :=
    any_eq_false_of_all_not h fun m => by simp [bne]
  simp [Dev.mismatch, hidle]

/-- What is collected of a message rests on the folds retired only. -/
theorem asCollected_congr_retired {d d' : Dev} (h : ∀ q, (d.physFold q).retired = (d'.physFold q).retired) (m : BitVec 64) :
    asCollected d m = asCollected d' m := by
  unfold asCollected
  simp only [h]

theorem Dev.raise_col_congr_retired {d d' : Dev} (h : ∀ q, (d.physFold q).retired = (d'.physFold q).retired)
    (hcol : d.col = d'.col) (src kind detail arg : Nat) : (d.raise src kind detail arg).col = (d'.raise src kind detail arg).col := by
  simp only [Dev.raise, asCollected_congr_retired h, hcol]
  split
  · exact Dev.unsentFault_col_congr hcol _
  · rfl

theorem Dev.sliceEnded_retired (d : Dev) (e : Env) (p n sl : Nat) (w : Word) (q : Nat) :
    ((d.sliceEnded e p n sl w).physFold q).retired = (d.physFold q).retired := by
  have hphys : (d.sliceEnded e p n sl w).physFold q = (d.modPhys p fun x => { x.counted e.raw (d.coverage n) with
    slice := none, sliceCycles := (x.sliceCycles + 18750) % 2 ^ 64, signatures := tset x.signatures sl w }).physFold q := rfl
  rw [hphys, Dev.physFold_modPhys]
  split
  · next h => rw [h]; rfl
  · rfl

/-- A lapse of a fold's coverage that is not raised yet. -/
theorem exec_coverageLapse_of_lapsed {s : State} {p n sl : Nat} (hp : p < 52) (hsl : sl < 4) (hlog : s.dev.logicalOf p = some n)
    (hret : (s.dev.physFold p).retired = false) (hage : s.dev.coverage n < (s.dev.physFold p).age s.clk.raw sl)
    (hnew : tgetD (s.dev.physFold p).lapsed sl false = false) :
    exec (.coverageLapse p sl) s = .next (s.put ((s.dev.modPhys p fun x => { x with lapsed := tset x.lapsed sl true }).raise
      (0x140 + p) 0x0D sl ((s.dev.physFold p).age s.clk.raw sl / 1000))) := by
  rw [exec_coverageLapse, execCoverageLapse, run_next (by simp [missingUnit, Instr.units, hp, hsl])]
  have hnot : ¬ (s.dev.physFold p).age s.env.raw sl ≤ s.dev.coverage n := Nat.not_le.mpr hage
  simp only [hlog, hret, hnew, decide_eq_false hnot, Bool.or_self, Bool.false_eq_true, if_false]
  rfl

/-- Settles O24: a slice starts, ends or lapses by its row; a mismatch of a silent source raises its fault alone. -/
theorem selfTestSlices : Obligations.self_test_slices := by
  intro s p n sl hp hsl hlog
  refine ⟨fun hroom hdue hgap => ?start, fun hslice hclk => ?pass, fun w hslice hclk hw hsilent => ?mismatch,
    fun hret hage hnew => ?lapse⟩
  case start =>
    refine ⟨_, exec_sliceStart_of_due hp hsl hlog hroom hdue hgap, ?_, ?_, ?_,
      State.touches_of_agrees (s.dev.agrees_sliced p n sl), fun m hm => s.dev.fold_sliced_other p n sl hm⟩
    · exact s.dev.physFold_sliced_slice p n sl
    · exact s.dev.array_sliced_loaded p n sl (.inl rfl)
    · exact s.dev.array_sliced_loaded p n sl (.inr rfl)
  case pass =>
    have hexec := exec_sliceEnd_of_slice hp hlog hslice hclk (Config.sliceSignature sl)
    rw [if_pos rfl] at hexec
    refine ⟨_, hexec, ?_, ?_, ?_,
      State.touches_of_agrees ((s.dev.agrees_sliceEnded s.env p n sl _).andThen (Dev.agrees_modPhys _ p _) (by decide)),
      fun m hm => s.dev.fold_sliceEnded_other s.env p n sl _ hm⟩ <;>
      rw [State.put_dev, Dev.physFold_modPhys, if_pos rfl, Dev.physFold_sliceEnded]
    exact tget_tset_same _ _ _
  case mismatch =>
    have hexec := exec_sliceEnd_of_slice hp hlog hslice hclk w
    have hquiet : (s.dev.sliceEnded s.env p n sl w).silent (0x100 + p) = true := hsilent
    rw [if_neg hw, Dev.mismatch_of_silent hquiet] at hexec
    have hphys : ((s.dev.sliceEnded s.env p n sl w).raise (0x100 + p) 0x0C sl
        (tgetD (s.dev.physFold p).lastPass sl 0 / 1024)).physFold p = (s.dev.sliceEnded s.env p n sl w).physFold p := by
      simp only [Dev.physFold, Dev.raise_phys]
    refine ⟨_, hexec, ?_, ?_, ?_, ?_, State.touches_of_agrees
      (((s.dev.agrees_sliceEnded s.env p n sl w).mono (l := [.folds, .phys] ++ faultParts) (by decide)).andThen (Dev.agrees_raise _ _ _ _ _) (by decide))⟩
    · rw [State.put_dev, hphys, Dev.physFold_sliceEnded]
    · rw [State.put_dev, hphys, Dev.physFold_sliceEnded]
      exact tget_tset_same _ _ _
    · rw [State.put_dev, hphys, Dev.physFold_sliceEnded]
      rfl
    · exact Dev.raise_col_congr_retired (s.dev.sliceEnded_retired s.env p n sl w) rfl _ _ _ _
  case lapse =>
    refine ⟨_, exec_coverageLapse_of_lapsed hp hsl hlog hret hage hnew, ?_, State.touches_of_agrees
      (((s.dev.agrees_modPhys p _).mono (l := .phys :: faultParts) (by decide)).andThen (Dev.agrees_raise _ _ _ _ _) (by decide)), ?_⟩
    · simp only [State.put_dev, Dev.physFold, Dev.raise_phys]
      rw [← Dev.physFold, Dev.physFold_modPhys, if_pos rfl]
      exact tget_tset_same _ _ _
    · refine Dev.raise_col_congr_retired (d := s.dev.modPhys p _) (d' := s.dev) (fun q => ?_) rfl _ _ _ _
      rw [Dev.physFold_modPhys]
      split
      · next h => rw [h]
      · rfl

/-! ## Gating and waking -/

theorem Dev.fold_wakeFold (d : Dev) (e : Env) (n m : Nat) : (d.wakeFold e n).fold m = if m = n then { d.fold n with
    gated := false, memAwake := false, arrays := [], idleSince := e.raw, wakeDue := false, heldBack := false } else d.fold m :=
  d.fold_modFold n _ m

theorem Dev.tryWake_of_may {d : Dev} {e : Env} {n : Nat} (h : d.mayWake e n = true) :
    d.tryWake e n = { d.wakeFold e n with pow := { (d.wakeFold e n).pow with foldWakes := d.justWoken e ++ [e.raw] } } :=
  if_pos h

theorem Dev.tryWake_of_many {d : Dev} {e : Env} {n : Nat} (h : 8 ≤ (d.justWoken e).length) :
    d.tryWake e n = d.modFold n fun f => { f with heldBack := true } := by
  refine if_neg ?_
  simp [Dev.mayWake, Nat.not_lt.mpr h]

/-- A sleeping fold with a reason to wake tries to. -/
theorem exec_foldWake_of_due {s : State} {n : Nat} (hn : n < 48) (hasleep : s.dev.asleepFold n = true)
    (hdue : (s.dev.pick n).isSome = true ∨ (s.dev.fold n).wakeDue = true) :
    exec (.foldWake n) s = .next (s.put (s.dev.tryWake s.env n)) := by
  rw [exec_foldWake, execFoldWake, run_next (by simp [missingUnit, Instr.units, hn]),
    if_pos (by rw [hasleep, Bool.true_and, Bool.or_eq_true]; exact hdue)]
  rfl

/-- Settles O25: each row finds its condition met, and changes its fold, and at a wake the list of wakes, alone. -/
theorem foldsGateAndWake : Obligations.folds_gate_and_wake := by
  intro s n hn
  refine ⟨fun hawake hquiet hslice hidle => ?gate, fun hasleep hdue hmay => ?wake, fun hasleep hdue hmany => ?held,
    fun sl hsl hasleep hold hmay => ?sliceWake, fun hgated hmem hidle => ?retention⟩
  case gate =>
    have hexec : exec (.foldGate n) s = .next (s.put (s.dev.modFold n fun f => { f with gated := true, arrays := [] })) := by
      rw [exec_foldGate, execFoldGate, run_next (by simp [missingUnit, Instr.units, hn])]
      have hdue : (s.dev.fold n).idleSince + s.dev.gateDelay n ≤ s.env.raw := hidle
      simp only [hawake, hquiet, hslice, Option.isNone_none, decide_eq_true hdue, Bool.and_self, if_true]
      rfl
    exact ⟨_, hexec, (s.dev.fold_modFold n _ n).trans (if_pos rfl), rfl, fun m hm => (s.dev.fold_modFold n _ m).trans (if_neg hm)⟩
  case wake =>
    have hexec := exec_foldWake_of_due hn hasleep hdue
    rw [Dev.tryWake_of_may hmay] at hexec
    exact ⟨_, hexec, (s.dev.fold_wakeFold s.env n n).trans (if_pos rfl), rfl, rfl,
      fun m hm => (s.dev.fold_wakeFold s.env n m).trans (if_neg hm)⟩
  case held =>
    have hexec := exec_foldWake_of_due hn hasleep hdue
    rw [Dev.tryWake_of_many hmany] at hexec
    exact ⟨_, hexec, (s.dev.fold_modFold n _ n).trans (if_pos rfl), rfl, fun m hm => (s.dev.fold_modFold n _ m).trans (if_neg hm)⟩
  case sliceWake =>
    have hany : (List.range 4).any (fun sl => 3 * s.dev.coverage n ≤ 4 * (s.dev.physFold (s.dev.physOf n)).age s.env.raw sl) = true :=
      List.any_eq_true.mpr ⟨sl, List.mem_range.mpr hsl, decide_eq_true hold⟩
    have hexec : exec (.sliceWake n) s = .next (s.put (s.dev.tryWake s.env n)) := by
      rw [exec_sliceWake, execSliceWake, run_next (by simp [missingUnit, Instr.units, hn]),
        if_pos (by rw [hasleep, Bool.true_and]; exact hany)]
      rfl
    rw [Dev.tryWake_of_may hmay] at hexec
    exact ⟨_, hexec, (s.dev.fold_wakeFold s.env n n).trans (if_pos rfl), rfl, rfl⟩
  case retention =>
    have hexec : exec (.foldMemoryRetention n) s = .next (s.put (s.dev.modFold n fun f => { f with memAwake := false })) := by
      rw [exec_foldMemoryRetention, execFoldMemoryRetention, run_next (by simp [missingUnit, Instr.units, hn])]
      have hdue : (s.dev.fold n).memIdleSince + s.dev.gateDelay n ≤ s.env.raw := hidle
      simp only [hgated, hmem, decide_eq_true hdue, Bool.and_self, if_true]
      rfl
    exact ⟨_, hexec, (s.dev.fold_modFold n _ n).trans (if_pos rfl), rfl, fun m hm => (s.dev.fold_modFold n _ m).trans (if_neg hm)⟩

end Sys2Proof.Machine
end

section
/-! SUPPORT. Frames of the shared operations on objects, links and instances (R292 to R316, R379, R443, R456). -/

namespace Sys2Proof.Machine

open Sys2Proof

/-- Of two outcomes that both agree, the one that a condition selects agrees. -/
theorem Dev.agrees.ite {l : List Part} {a b c : Dev} {p : Prop} [Decidable p] (hb : a.agrees l b) (hc : a.agrees l c) :
    a.agrees l (if p then b else c) := by
  split
  · exact hb
  · exact hc

theorem Dev.agrees_folds_flock (d : Dev) (x : Tab Fold) (y : Flock) : d.agrees [.folds, .flock] { d with folds := x, flock := y } := by
  intro p hp; cases p <;> simp_all [Part.same]

theorem Dev.agrees_posted_flock (d : Dev) (x : List Posted) (y : Flock) :
    d.agrees [.posted, .flock] { d with posted := x, flock := y } := by
  intro p hp; cases p <;> simp_all [Part.same]

/-! ## Queues -/

/-- What entries that reach a queue may touch. -/
def queueParts : List Part := [.queues, .threads, .col, .safe]

theorem Dev.agrees_creditFreed (d : Dev) (ident : Nat) (w : Prod) : d.agrees [.threads] (d.creditFreed ident w) := by
  unfold Dev.creditFreed
  split
  · split
    · split
      · exact d.agrees_wakeStatus _ _ _
      · rfl
    · rfl
  · rfl

theorem Dev.agrees_takeEntry (d : Dev) (ident t rd : Nat) : d.agrees queueParts (d.takeEntry ident t rd) := by
  unfold Dev.takeEntry
  split
  · rfl
  · split
    · rfl
    · split
      · rfl
      · have hwake {q : Tab FQueue} {l : List (Nat × Word)} : d.agrees queueParts (Dev.wake { d with queues := q } t l) :=
          ((d.agrees_queues _).mono (l := queueParts) (by decide)).andThen (Dev.agrees_wake _ _ _) (by decide)
        dsimp only
        split
        · exact hwake.ite ((hwake.andThen (Dev.agrees_modThread _ _ _) (by decide)).andThen (Dev.agrees_raise _ _ _ _ _) (by decide))
        · split
          · exact (hwake.ite ((hwake.andThen (Dev.agrees_modThread _ _ _) (by decide)).andThen (Dev.agrees_raise _ _ _ _ _) (by decide))).andThen
              (Dev.agrees_creditFreed _ _ _) (by decide)
          · exact hwake.ite ((hwake.andThen (Dev.agrees_modThread _ _ _) (by decide)).andThen (Dev.agrees_raise _ _ _ _ _) (by decide))

theorem Dev.agrees_serveQueue (fuel ident : Nat) (d : Dev) : d.agrees queueParts (Dev.serveQueue fuel ident d) := by
  induction fuel generalizing d with
  | zero => rfl
  | succ fuel ih =>
    unfold Dev.serveQueue
    split
    · rfl
    · split
      · split
        · exact (d.agrees_takeEntry _ _ _).trans (ih _)
        · exact ((d.agrees_queues _).mono (l := queueParts) (by decide)).trans (ih _)
      · rfl

theorem Dev.agrees_objFault (d : Dev) (src detail ident : Nat) : d.agrees faultParts (d.objFault src detail ident) :=
  d.agrees_raise _ _ _ _

theorem Dev.agrees_deliver (d : Dev) (ident : Nat) (w : Prod) (data : List Byte) (atEnd : Bool) (src : Nat) :
    d.agrees queueParts (d.deliver ident w data atEnd src) := by
  unfold Dev.deliver
  split
  · exact ((d.agrees_objFault _ _ _).mono (by decide))
  · split
    · exact ((d.agrees_objFault _ _ _).mono (by decide))
    · dsimp only
      split
      · exact ((d.agrees_queues _).mono (l := queueParts) (by decide)).andThen (Dev.agrees_objFault _ _ _ _) (by decide)
      · exact ((d.agrees_queues _).mono (l := queueParts) (by decide)).trans (Dev.agrees_serveQueue _ _ _)

theorem Dev.agrees_abandonNotice (d : Dev) (ident i : Nat) : d.agrees queueParts (d.abandonNotice ident i) := by
  unfold Dev.abandonNotice
  split
  · rfl
  · exact ((d.agrees_queues _).mono (l := queueParts) (by decide)).trans (Dev.agrees_serveQueue _ _ _)

theorem Dev.agrees_flushEntries (d : Dev) (ident : Nat) (w : Prod) :
    d.agrees (.flights :: queueParts) (d.flushEntries ident w) := by
  refine ((d.agrees_flights _).mono (l := .flights :: queueParts) (by decide)).trans (Dev.agrees_foldl (fun d f => ?_) _ _)
  split
  · exact ((d.agrees_deliver _ _ _ _ _).mono (by decide))
  · rfl

theorem Dev.agrees_abandonQueues (d : Dev) (k : Nat) : d.agrees (.flights :: queueParts) (d.abandonQueues k) := by
  refine Dev.agrees_foldl (fun acc x => Dev.agrees_foldl (fun acc i => ?_) _ acc) _ d
  split
  · split
    · exact (acc.agrees_flushEntries _ _).andThen (Dev.agrees_abandonNotice _ _ _) (by decide)
    · rfl
  · rfl

/-! ## Links and hurdles -/

theorem Dev.agrees_putFrame (d : Dev) (e : Env) (k kind seq : Nat) (body : List Nat) (data : List Byte) :
    d.agrees [.flock] (d.putFrame e k kind seq body data) :=
  (d.agrees_modPeer k _).trans (Dev.agrees_flock _ _)

theorem Dev.agrees_ndSend (d : Dev) (e : Env) (k kind : Nat) (body : List Nat) (data : List Byte) (thread : Option Nat) :
    d.agrees [.flock] (d.ndSend e k kind body data thread) := by
  unfold Dev.ndSend
  dsimp only
  split
  · exact (d.agrees_modPeer k _).trans (Dev.agrees_putFrame _ _ _ _ _ _ _)
  · exact d.agrees_modPeer k _

theorem Dev.agrees_sendTo (d : Dev) (e : Env) (devs : List Nat) (kind : Nat) (body : List Nat) (data : List Byte)
    (thread : Option Nat) : d.agrees [.flock] (d.sendTo e devs kind body data thread) := by
  refine Dev.agrees_foldl (fun d c => ?_) devs d
  split
  · exact d.agrees_ndSend _ _ _ _ _ _
  · rfl

theorem Dev.agrees_breakLocal (d : Dev) (ident cause : Nat) :
    d.agrees (.hurdles :: .threads :: faultParts) (d.breakLocal ident cause) := by
  unfold Dev.breakLocal
  split
  · rfl
  · split
    · rfl
    · refine ((d.agrees_hurdles _).mono (l := .hurdles :: .threads :: faultParts) (by decide)).trans (Dev.agrees_foldl (fun d t => ?_) _ _)
      split
      · dsimp only
        split
        · exact ((d.agrees_wakeStatus _ _ _).mono (l := .hurdles :: .threads :: faultParts) (by decide)).andThen (Dev.agrees_raise _ _ _ _ _) (by decide)
        · exact ((d.agrees_wakeStatus _ _ _).mono (by decide))
      · rfl

theorem Dev.agrees_breakHurdle (d : Dev) (e : Env) (ident cause : Nat) (from_ : Option Nat) :
    d.agrees (.hurdles :: .threads :: .flock :: faultParts) (d.breakHurdle e ident cause from_) := by
  unfold Dev.breakHurdle
  split
  · rfl
  · split
    · rfl
    · dsimp only
      split
      · exact ((d.agrees_breakLocal _ _).mono (by decide))
      · exact ((d.agrees_breakLocal _ _).mono (l := .hurdles :: .threads :: .flock :: faultParts) (by decide)).andThen
          (Dev.agrees_sendTo _ _ _ _ _ _ _) (by decide)

/-! ## Instances -/

/-- What the end of an instance's open work may touch beside the mailbox. -/
def workParts : List Part :=
  [.mem, .folds, .threads, .posted, .insts, .queues, .slots, .hurdles, .flights, .flock, .col, .safe]

/-- What closing an instance may touch. -/
def closeParts : List Part := .mbox :: workParts

theorem Dev.agrees_setSlot (d : Dev) (id : Nat) (st : SlotState) (taint : Bool) :
    d.agrees [.slots, .threads] (d.setSlot id st taint) :=
  ((d.agrees_slots _).mono (l := [.slots, .threads]) (by decide)).andThen (Dev.agrees_slotChanged _ _) (by decide)

theorem Dev.agrees_abandon (d : Dev) (e : Env) (k : Nat) : d.agrees workParts (d.abandon e k) := by
  have hslots (d : Dev) : d.agrees workParts (d.abandonSlots k) :=
    Dev.agrees_foldl (fun acc _ => ((acc.agrees_setSlot _ _ _).mono (by decide)).ite (acc.agrees_refl _)) _ d
  have hhurdles (d : Dev) : d.agrees workParts (d.abandonHurdles e k) :=
    Dev.agrees_foldl (fun acc _ => ((acc.agrees_breakHurdle _ _ _ _).mono (by decide)).ite (acc.agrees_refl _)) _ d
  exact (((d.agrees_abandonQueues k).mono (by decide)).trans (hslots _)).trans (hhurdles _)

theorem Dev.agrees_wakeFull (d : Dev) (n k : Nat) : d.agrees [.threads] (d.wakeFull n k) := by
  exact Dev.agrees_foldl (fun d t => (d.agrees_wake _ _).ite (d.agrees_refl _)) _ d

theorem Dev.agrees_dropJobs (d : Dev) (ts : List Nat) : d.agrees [.folds, .threads, .flock] (d.dropJobs ts) := by
  exact ((d.agrees_folds_flock _ _).mono (l := [.folds, .threads, .flock]) (by decide)).trans
    (Dev.agrees_foldl (fun d x => ((d.agrees_wakeFull _ _).mono (by decide))) _ _)

theorem Dev.agrees_rewatch (d : Dev) : d.agrees [.mem] d.rewatch := d.agrees_modMem _

theorem Dev.agrees_lutSwitch (d : Dev) (e : Env) (n : Nat) : d.agrees (.folds :: postParts) (d.lutSwitch e n) := by
  exact (((d.agrees_modFold n _).mono (l := .folds :: postParts) (by decide)).andThen (Dev.agrees_mbox _ _) (by decide)).trans
    (Dev.agrees_foldl (fun d o => ((d.agrees_finish _ _ _).mono (by decide))) _ _)

theorem Dev.agrees_lutSettle (d : Dev) (e : Env) : d.agrees (.folds :: postParts) (d.lutSettle e) := by
  exact Dev.agrees_foldl (fun d n => (d.agrees_lutSwitch e n).ite (d.agrees_refl _)) _ d

/-- The open work of an instance ends, before its folds' pending table switches are looked at. -/
def Dev.closedWork (d : Dev) (e : Env) (k : Nat) (keepFaulted : Bool) : Dev :=
  let d := d.abandon e k
  let ts := d.threadsOf k
  let d := { d with
    posted := d.posted.map fun (p : Posted) => if ts.contains p.thread then { p with dead := true } else p
    flock := { d.flock with reqs := d.flock.reqs.map fun (q : NdReq) =>
      if !q.write && (q.thread.map ts.contains).getD false then { q with dead := true } else q } }
  let d := ts.foldl (fun d t =>
    if keepFaulted && (d.thread t).st == .faulted then d
    else ((d.haltThread t).unqueue t).modFold (foldOfThread t) fun f => { f with idleSince := e.raw }) d
  (d.dropJobs ts).rewatch

theorem Dev.closeInst_eq (d : Dev) (e : Env) (k : Nat) (keepFaulted : Bool) :
    d.closeInst e k keepFaulted = (d.closedWork e k keepFaulted).lutSettle e := rfl

theorem Dev.agrees_closedWork (d : Dev) (e : Env) (k : Nat) (keepFaulted : Bool) :
    d.agrees workParts (d.closedWork e k keepFaulted) := by
  have hmarked {p : List Posted} {f : Flock} : d.agrees workParts { d.abandon e k with posted := p, flock := f } :=
    (d.agrees_abandon e k).andThen (Dev.agrees_posted_flock (d.abandon e k) _ _) (by decide)
  have hhalt (ts : List Nat) (d : Dev) := Dev.agrees_foldl (l := workParts) (f := fun (d : Dev) t =>
    if keepFaulted && (d.thread t).st == .faulted then d
    else ((d.haltThread t).unqueue t).modFold (foldOfThread t) fun f => { f with idleSince := e.raw })
    (fun d t => (d.agrees_refl _).ite ((((d.agrees_modThread _ _).mono (l := workParts) (by decide)).andThen (Dev.agrees_queues _ _) (by decide)).andThen
      (Dev.agrees_modFold _ _ _) (by decide))) ts d
  exact ((hmarked.trans (hhalt _ _)).andThen (Dev.agrees_dropJobs _ _) (by decide)).andThen (Dev.agrees_rewatch _) (by decide)

theorem Dev.agrees_closeInst (d : Dev) (e : Env) (k : Nat) (keepFaulted : Bool) :
    d.agrees closeParts (d.closeInst e k keepFaulted) :=
  ((d.agrees_closedWork e k keepFaulted).mono (l := closeParts) (by decide)).andThen (Dev.agrees_lutSettle _ _) (by decide)

theorem Dev.agrees_abandonOutputs (d : Dev) (k : Nat) : d.agrees [.mem, .col, .safe] (d.abandonOutputs k) :=
  Dev.agrees_foldl (fun d _ => d.agrees_write _ _ _) _ d

theorem Dev.agrees_endInvoke (d : Dev) (e : Env) (k st : Nat) : d.agrees (.insts :: postParts) (d.endInvoke e k st) := by
  unfold Dev.endInvoke
  split
  · rfl
  · dsimp only
    split
    · exact ((d.agrees_modInst k _).mono (l := .insts :: postParts) (by decide)).andThen (Dev.agrees_finish _ _ _ _) (by decide)
    · exact ((d.agrees_modInst k _).mono (by decide))

/-- The invocation of an instance whose threads have all halted completes. -/
def Dev.invocationEnd (d : Dev) (e : Env) (k : Nat) : Dev :=
  match (d.inst k).invoc with
  | some (q, tag) =>
    match (d.modInst k fun x => { x with invoc := none }).outstBy q tag with
    | some o => (d.modInst k fun x => { x with invoc := none }).finish e o { r0 := (d.inst k).invocCount }
    | none => d.modInst k fun x => { x with invoc := none }
  | none => d

/-- A drain of an instance ends once its engines are idle. -/
def Dev.drainEnd (d : Dev) (e : Env) (k : Nat) : Dev :=
  if (d.inst k).fn = .stopping ∧ d.enginesIdle k then
    match (d.modInst k fun x => { x with fn := .stopped }).stopOf 0x203 k 0 with
    | some o => (d.modInst k fun x => { x with fn := .stopped }).finish e o {}
    | none => d.modInst k fun x => { x with fn := .stopped }
  else d

theorem Dev.settleInst_eq (d : Dev) (e : Env) (k : Nat) :
    d.settleInst e k = if !d.allHalted k then d else (d.invocationEnd e k).drainEnd e k := rfl

theorem Dev.agrees_invocationEnd (d : Dev) (e : Env) (k : Nat) : d.agrees (.insts :: postParts) (d.invocationEnd e k) := by
  unfold Dev.invocationEnd
  split
  · split
    · exact ((d.agrees_modInst k _).mono (l := .insts :: postParts) (by decide)).andThen (Dev.agrees_finish _ _ _ _) (by decide)
    · exact ((d.agrees_modInst k _).mono (by decide))
  · rfl

theorem Dev.agrees_drainEnd (d : Dev) (e : Env) (k : Nat) : d.agrees (.insts :: postParts) (d.drainEnd e k) := by
  unfold Dev.drainEnd
  split
  · split
    · exact ((d.agrees_modInst k _).mono (l := .insts :: postParts) (by decide)).andThen (Dev.agrees_finish _ _ _ _) (by decide)
    · exact ((d.agrees_modInst k _).mono (by decide))
  · rfl

theorem Dev.agrees_settleInst (d : Dev) (e : Env) (k : Nat) : d.agrees (.insts :: postParts) (d.settleInst e k) :=
  d.settleInst_eq e k ▸ (d.agrees_refl _).ite ((d.agrees_invocationEnd e k).trans (Dev.agrees_drainEnd _ _ _))

theorem Dev.agrees_closeActive (d : Dev) (e : Env) (k : Nat) : d.agrees closeParts (d.closeActive e k) := by
  unfold Dev.closeActive
  dsimp only
  split
  · exact (((d.agrees_closeInst e k false)).andThen (Dev.agrees_abandonOutputs _ _) (by decide)).andThen (Dev.agrees_endInvoke _ _ _ _) (by decide)
  · exact (d.agrees_closeInst e k false).andThen (Dev.agrees_endInvoke _ _ _ _) (by decide)

/-! ## No command outstanding -/

theorem Dev.finish_outst_nil {d : Dev} (h : d.mbox.outst = []) (e : Env) (o : Outst) (r : Reply) : (d.finish e o r).mbox.outst = [] := by
  rw [Dev.finish_outst, h]; rfl

theorem Dev.lutSwitch_outst_nil {d : Dev} (h : d.mbox.outst = []) (e : Env) (n : Nat) : (d.lutSwitch e n).mbox.outst = [] := by
  have hnone : (d.lutFlip n).mbox.outst.map (Outst.switchedOn n) = [] := by
    rw [show (d.lutFlip n).mbox.outst = [] from h]; rfl
  exact List.foldlRecOn (motive := fun d : Dev => d.mbox.outst = []) _ _ hnone fun _ hd o _ => Dev.finish_outst_nil hd e o _

theorem Dev.lutSettle_outst_nil {d : Dev} (h : d.mbox.outst = []) (e : Env) : (d.lutSettle e).mbox.outst = [] := by
  refine List.foldlRecOn (motive := fun d : Dev => d.mbox.outst = []) _ _ h fun d hd n _ => ?_
  split
  · exact Dev.lutSwitch_outst_nil hd e n
  · exact hd

theorem Dev.closeInst_outst_nil {d : Dev} (h : d.mbox.outst = []) (e : Env) (k : Nat) (keepFaulted : Bool) :
    (d.closeInst e k keepFaulted).mbox.outst = [] := by
  have hmbox : d.mbox = (d.closedWork e k keepFaulted).mbox := d.agrees_closedWork e k keepFaulted .mbox (by decide)
  exact Dev.lutSettle_outst_nil (hmbox ▸ h) e

/-- With no command outstanding the end of an invocation changes its instance alone. -/
theorem Dev.endInvoke_of_outst_nil {d : Dev} (h : d.mbox.outst = []) (e : Env) (k st : Nat) :
    d.agrees [.insts] (d.endInvoke e k st) := by
  unfold Dev.endInvoke
  split
  · rfl
  · next q tag _ =>
    have hnone : (d.modInst k fun x => { x with invoc := none }).outstBy q tag = none := by
      rw [Dev.outstBy, Dev.modInst_mbox, h]; rfl
    simp only [hnone]
    exact d.agrees_modInst k _

theorem Dev.closeActive_outst_nil {d : Dev} (h : d.mbox.outst = []) (e : Env) (k : Nat) : (d.closeActive e k).mbox.outst = [] := by
  have hclosed := Dev.closeInst_outst_nil h e k false
  unfold Dev.closeActive
  dsimp only
  split
  · have houtputs : ((d.closeInst e k false).abandonOutputs k).mbox.outst = [] :=
      (Dev.agrees_abandonOutputs _ k .mbox (by decide)) ▸ hclosed
    exact (Dev.endInvoke_of_outst_nil houtputs e k stAborted .mbox (by decide)) ▸ houtputs
  · exact (Dev.endInvoke_of_outst_nil hclosed e k stAborted .mbox (by decide)) ▸ hclosed

/-- With no command outstanding an instance that settles changes alone. -/
theorem Dev.settleInst_of_outst_nil {d : Dev} (h : d.mbox.outst = []) (e : Env) (k : Nat) : d.agrees [.insts] (d.settleInst e k) := by
  have hinvoc : d.agrees [.insts] (d.invocationEnd e k) := by
    unfold Dev.invocationEnd
    split
    · next q tag _ =>
      have hnone : (d.modInst k fun x => { x with invoc := none }).outstBy q tag = none := by
        rw [Dev.outstBy, Dev.modInst_mbox, h]; rfl
      simp only [hnone]
      exact d.agrees_modInst k _
    · rfl
  have hdrain (d : Dev) (h : d.mbox.outst = []) : d.agrees [.insts] (d.drainEnd e k) := by
    unfold Dev.drainEnd
    have hnone : (d.modInst k fun x => { x with fn := .stopped }).stopOf 0x203 k 0 = none := by
      rw [Dev.stopOf, Dev.modInst_mbox, h]; rfl
    simp only [hnone]
    exact (d.agrees_modInst k _).ite (d.agrees_refl _)
  rw [Dev.settleInst_eq]
  exact (d.agrees_refl _).ite (hinvoc.trans (hdrain _ (hinvoc .mbox (by decide) ▸ h)))

theorem Dev.settleDrains_of_outst_nil {d : Dev} (h : d.mbox.outst = []) (e : Env) (ks : List Nat) :
    d.agrees [.insts] (d.settleDrains e ks) := by
  have hkept := List.foldlRecOn (motive := fun b : Dev => d.agrees [.insts] b) (ks.filter fun k => (d.inst k).fn == .stopping)
    (fun d k => d.settleInst e k) (d.agrees_refl _) fun b hb k _ =>
      hb.trans (Dev.settleInst_of_outst_nil ((hb .mbox (by decide) : d.mbox = b.mbox) ▸ h) e k)
  exact hkept

end Sys2Proof.Machine
end

section
/-! SUPPORT. Reset objects, reloaded memory, and the replacement of a retired fold (R40, R146 to R148, R292, R475, R476). -/

namespace Sys2Proof.Machine

open Sys2Proof

/-! ## Objects and memory of a fold -/

theorem Dev.agrees_emptyObjects (d : Dev) (p : Nat → Bool) : d.agrees [.queues, .slots, .hurdles, .flock] (d.emptyObjects p) := by
  intro q hq; cases q <;> simp_all [Part.same, Dev.emptyObjects]

theorem Dev.agrees_resetObjects (d : Dev) (p : Nat → Bool) :
    d.agrees [.queues, .slots, .hurdles, .flock, .threads] (d.resetObjects p) := by
  have hslots (l : Tab Slot) (d : Dev) := Dev.agrees_foldl (fun (d : Dev) (x : Nat × Slot) => d.agrees_slotChanged x.1) l d
  have hcredits (l : Tab FQueue) (d : Dev) := Dev.agrees_foldl (fun (d : Dev) (x : Nat × FQueue) =>
    Dev.agrees_foldl (fun (d : Dev) (y : ProdSlot) => d.agrees_creditFreed x.1 y.who) x.2.prods d) l d
  exact (((d.agrees_emptyObjects p).mono (l := [.queues, .slots, .hurdles, .flock, .threads]) (by decide)).andThen (hslots _ _) (by decide)).andThen (hcredits _ _) (by decide)

theorem Dev.agrees_setPoison (d : Dev) (line : Nat) (p : Bool) : d.agrees [.mem] (d.setPoison line p) := d.agrees_modMem _

theorem Dev.agrees_init (d : Dev) (a : Nat) (bs : List Byte) : d.agrees [.mem] (d.init a bs) :=
  (d.agrees_poke a bs).trans (Dev.agrees_foldl (fun d l => d.agrees_freshLine l false) _ _)

theorem Dev.agrees_fixImage (d : Dev) (l bit : Nat) : d.agrees (.mem :: faultParts) (d.fixImage l bit) := by
  unfold Dev.fixImage
  dsimp only
  split
  · exact ((d.agrees_modMem _).mono (l := .mem :: faultParts) (by decide)).andThen (Dev.agrees_raise _ _ _ _ _) (by decide)
  · exact ((d.agrees_modMem _).mono (by decide))

theorem Dev.agrees_imageBad (d : Dev) (l : Nat) : d.agrees (.mem :: faultParts) (d.imageBad l).2 := by
  have hbad (d : Dev) (f : Mem → Mem) (detail : Nat) : d.agrees (.mem :: faultParts) ((d.modMem f).raise 0x003 3 detail (imageAt l)) :=
    ((d.agrees_modMem f).mono (by decide)).andThen (Dev.agrees_raise _ _ _ _ _) (by decide)
  unfold Dev.imageBad
  dsimp only
  split
  · split
    · exact d.agrees_fixImage _ _
    · split
      · exact (d.agrees_fixImage _ _).trans (hbad _ _ _)
      · split
        · exact (d.agrees_fixImage _ _).trans (hbad _ _ _)
        · exact d.agrees_fixImage _ _
  · split
    · rfl
    · split
      · exact hbad _ _ _
      · split
        · exact hbad _ _ _
        · rfl

theorem Dev.agrees_loadKept (d : Dev) (a n : Nat) : d.agrees (.mem :: faultParts) (d.loadKept a n) := by
  refine Dev.agrees_foldl (fun d x => ?_) _ d
  have hinit {bs : List Byte} : d.agrees (.mem :: faultParts) ((d.imageBad (x.1 / 64)).2.init x.1 bs) :=
    (d.agrees_imageBad _).andThen (Dev.agrees_init _ _ _) (by decide)
  exact (hinit.andThen (Dev.agrees_setPoison _ _ _) (by decide)).ite hinit

theorem Dev.agrees_restoreInst (d : Dev) (k : Nat) (here : Nat → Bool) : d.agrees (.mem :: faultParts) (d.restoreInst k here) := by
  unfold Dev.restoreInst
  split
  · rfl
  · exact Dev.agrees_foldl (fun d c => d.agrees_loadKept _ _) _ d

theorem Dev.agrees_reloadRange (d : Dev) (a n : Nat) : d.agrees (.mem :: faultParts) (d.reloadRange a n) :=
  ((d.agrees_zeroRange a n).mono (by decide)).trans (Dev.agrees_foldl (fun d k => d.agrees_restoreInst k _) _ _)

theorem Dev.agrees_engineOff (d : Dev) (n : Nat) : d.agrees [.folds, .mem] (d.engineOff n) :=
  ((d.agrees_modFold n _).mono (l := [.folds, .mem]) (by decide)).andThen (Dev.agrees_rewatch _) (by decide)

/-! ## Replacement -/

/-- The work of the active instances on a fold ends. -/
theorem Dev.closeOn_spec (d : Dev) (e : Env) (n : Nat) :
    d.agrees closeParts (d.closeOn e n).2 ∧ (d.mbox.outst = [] → (d.closeOn e n).2.mbox.outst = []) := by
  constructor
  · exact (Dev.agrees_foldl (fun d k => d.agrees_closeActive e k) _ d).andThen (Dev.agrees_posted _ _) (by decide)
  · intro h
    exact List.foldlRecOn (motive := fun d : Dev => d.mbox.outst = []) _ (fun d k => d.closeActive e k) h
      fun _ hd k _ => Dev.closeActive_outst_nil hd e k

/-- With no command outstanding no spare is under test. -/
theorem Dev.underTest_of_outst_nil {d : Dev} (h : d.mbox.outst = []) : d.underTest = [] := by
  rw [Dev.underTest, h]; rfl

/-- The spares rest on which folds are retired and which are mapped. -/
theorem Dev.spares_congr {d d' : Dev} (hphys : d.phys = d'.phys) (hmap : d.foldMap = d'.foldMap) : d.spares = d'.spares := by
  simp only [Dev.spares, Dev.physFold, Dev.logicalOf, hphys, hmap]

/-- The passes of the four slices at one time. -/
def fourPasses (raw : Nat) : Tab Nat := [(0, raw), (1, raw), (2, raw), (3, raw)]

theorem msgSource_faultMsg (src kind detail arg : Nat) : msgSource (faultMsg src kind detail arg) = src % 1024 := by
  simp only [msgSource, faultMsg, bitsAt, BitVec.toNat_ofNat]
  omega

/-- A fault raised at a source leaves a message of it waiting. -/
theorem Dev.not_silent_raise (d : Dev) {src : Nat} (hsrc : src < 1024) (kind detail arg : Nat) :
    (d.raise src kind detail arg).silent src = false := by
  have hwaits : ∃ w ∈ (d.raise src kind detail arg).col.waiting, msgSource w = src := by
    unfold Dev.raise
    dsimp only
    split
    · next h =>
      obtain ⟨w, hw, hsame⟩ := List.any_eq_true.mp h
      refine ⟨w, ?_, (beq_iff_eq.mp hsame).trans (Nat.mod_eq_of_lt hsrc)⟩
      simpa only [Dev.unsentFault, Dev.react, Dev.pins_col] using hw
    · exact ⟨_, List.mem_append_right _ (List.mem_singleton.mpr rfl), (msgSource_faultMsg _ _ _ _).trans (Nat.mod_eq_of_lt hsrc)⟩
  obtain ⟨w, hw, hsrc⟩ := hwaits
  exact List.all_eq_false.mpr ⟨w, hw, by simp [hsrc]⟩

theorem Dev.physFold_spend (d : Dev) (q : Nat) : d.spend.physFold q = d.physFold q := rfl

theorem Dev.physFold_raise (d : Dev) (src kind detail arg q : Nat) : (d.raise src kind detail arg).physFold q = d.physFold q := by
  simp only [Dev.physFold, Dev.raise_phys]

/-- The four slices run on a spare: they pass, or the one that does not keeps its last pass and raises its fault. -/
theorem Dev.runAllSlices_spec (d : Dev) (e : Env) {sp : Nat} (hsp : sp < 52) :
    d.agrees ([.phys, .free] ++ faultParts) (d.runAllSlices e sp) ∧
    (((d.runAllSlices e sp).physFold sp).lastPass = fourPasses e.raw ∨
      ∃ sl, sl < 4 ∧ ((d.runAllSlices e sp).physFold sp).lastPass =
          tset (fourPasses e.raw) sl (tgetD (d.physFold sp).lastPass sl 0) ∧
        (d.runAllSlices e sp).silent (0x100 + sp) = false) := by
  have hran (f : PhysFold → PhysFold) : d.agrees ([.phys, .free] ++ faultParts) (d.modPhys sp f).spend :=
    ((d.agrees_modPhys sp f).mono (by decide)).andThen (Dev.agrees_spend _) (by decide)
  unfold Dev.runAllSlices
  dsimp only
  split
  · refine ⟨hran _, .inl ?_⟩
    rw [Dev.physFold_spend, Dev.physFold_modPhys, if_pos rfl]
    rfl
  · next hsl =>
    refine ⟨((hran _).andThen (Dev.agrees_modPhys _ _ _) (by decide)).andThen (Dev.agrees_raise _ _ _ _ _) (by decide),
      .inr ⟨Config.freeNat d.free % 5, ?_, ?_, Dev.not_silent_raise _ (by omega) _ _ _⟩⟩
    · have hfree := Nat.mod_lt (Config.freeNat d.free) (show 0 < 5 by decide)
      exact Nat.lt_of_le_of_ne (Nat.le_of_lt_succ hfree) hsl
    · rw [Dev.physFold_raise, Dev.physFold_modPhys, if_pos rfl, Dev.physFold_spend, Dev.physFold_modPhys, if_pos rfl]
      rfl

/-! ## The end of a replacement -/

/-- A spare that has taken over a fold's number, its image loaded and its objects reset. -/
def Dev.spareLoaded (d : Dev) (e : Env) (n spare : Nat) : Dev :=
  (((({ d with foldMap := tset d.foldMap n spare } : Dev).engineOff n).resetObjects (· == n)).reloadFold n).modFold n fun f =>
    { f with replacing := false, replaceRaised := [], gated := false, idleSince := e.raw }

/-- The closed instances' engine counts at zero, and their threads restarted. -/
def Dev.restarted (d : Dev) (ts : List Nat) : Dev :=
  ts.foldl (fun d t =>
    match (d.ownerOf t).bind fun k => (d.inst k).image.bind fun im => im.threads.find? fun x => x.thread == t with
    | some x => (d.modThread t fun th => th.launch x (th.reg 1).toNat 3).parkHeld t
    | none => d) (((ts.filterMap d.ownerOf).dedup).foldl (fun d k => d.zeroCounts k) d)

theorem Dev.replace_eq (d : Dev) (e : Env) (n spare : Nat) (ts : List Nat) :
    d.replace e n spare ts = ((d.spareLoaded e n spare).runAllSlices e spare).restarted ts := rfl

/-- What the load of a spare may touch. -/
def spareParts : List Part := [.mem, .folds, .foldMap, .threads, .queues, .slots, .hurdles, .flock, .col, .safe]

theorem Dev.agrees_spareLoaded (d : Dev) (e : Env) (n spare : Nat) : d.agrees spareParts (d.spareLoaded e n spare) := by
  have hmap := (d.agrees_foldMap (tset d.foldMap n spare)).mono (l := spareParts) (by decide)
  exact (((hmap.andThen (Dev.agrees_engineOff _ _) (by decide)).andThen (Dev.agrees_resetObjects _ _) (by decide)).andThen
    (Dev.agrees_reloadRange _ _ _) (by decide)).andThen (Dev.agrees_modFold _ _ _) (by decide)

theorem Dev.physOf_spareLoaded (d : Dev) (e : Env) (n spare m : Nat) :
    (d.spareLoaded e n spare).physOf m = if m = n then spare else d.physOf m := by
  have hmap : ({ d with foldMap := tset d.foldMap n spare } : Dev).foldMap = (d.spareLoaded e n spare).foldMap :=
    (((((Dev.agrees_engineOff _ _).mono (l := [.mem, .folds, .queues, .slots, .hurdles, .flock, .threads, .col, .safe]) (by decide)).andThen
      (Dev.agrees_resetObjects _ _) (by decide)).andThen (Dev.agrees_reloadRange _ _ _) (by decide)).andThen (Dev.agrees_modFold _ _ _) (by decide)) .foldMap (by decide)
  rw [Dev.physOf, ← hmap]
  exact tgetD_tset _ _ _ _ _

theorem Dev.replacing_spareLoaded (d : Dev) (e : Env) (n spare : Nat) : ((d.spareLoaded e n spare).fold n).replacing = false := by
  rw [Dev.spareLoaded, Dev.fold_modFold, if_pos rfl]

/-- Engine counts at zero leave a fold in or out of replacement. -/
theorem Dev.replacing_zeroCounts (d : Dev) (k n : Nat) : ((d.zeroCounts k).fold n).replacing = (d.fold n).replacing := by
  unfold Dev.zeroCounts
  split
  · rfl
  · refine List.foldlRecOn (motive := fun b : Dev => (b.fold n).replacing = (d.fold n).replacing) _ _ rfl fun b hb m _ => ?_
    rw [Dev.fold_modFold, ← hb]
    split
    · next h => rw [h]
    · rfl

theorem Dev.agrees_zeroCounts (d : Dev) (k : Nat) : d.agrees [.folds] (d.zeroCounts k) := by
  unfold Dev.zeroCounts
  split
  · rfl
  · exact Dev.agrees_foldl (fun d m => d.agrees_modFold _ _) _ d

theorem Dev.restarted_spec (d : Dev) (ts : List Nat) (n : Nat) :
    d.agrees [.folds, .threads] (d.restarted ts) ∧ ((d.restarted ts).fold n).replacing = (d.fold n).replacing := by
  have hzeroed := List.foldlRecOn (motive := fun b : Dev => d.agrees [.folds] b ∧ (b.fold n).replacing = (d.fold n).replacing)
    ((ts.filterMap d.ownerOf).dedup) (fun d k => d.zeroCounts k) ⟨d.agrees_refl _, rfl⟩
    fun b ⟨hb, hr⟩ k _ => ⟨hb.trans (b.agrees_zeroCounts k), (b.replacing_zeroCounts k n).trans hr⟩
  have hlaunched (b : Dev) : b.agrees [.threads] (ts.foldl (fun d t =>
      match (d.ownerOf t).bind fun k => (d.inst k).image.bind fun im => im.threads.find? fun x => x.thread == t with
      | some x => (d.modThread t fun th => th.launch x (th.reg 1).toNat 3).parkHeld t
      | none => d) b) := by
    refine Dev.agrees_foldl (fun d t => ?_) ts b
    split
    · exact (d.agrees_modThread _ _).trans (Dev.agrees_parkHeld _ _)
    · rfl
  refine ⟨(hzeroed.1.mono (by decide)).andThen (hlaunched _) (by decide), ?_⟩
  have hfolds := hlaunched (((ts.filterMap d.ownerOf).dedup).foldl (fun d k => d.zeroCounts k) d) .folds (by decide)
  exact (congrArg (fun f : Tab Fold => (tgetD f n {}).replacing) hfolds.symm).trans hzeroed.2

/-- With no command outstanding the spare selected is the lowest-numbered, and takes over. -/
theorem Dev.retire_of_spare {d : Dev} {sp : Nat} {rest : List Nat} (hnone : d.mbox.outst = []) (hspares : d.spares = sp :: rest)
    (e : Env) (n : Nat) :
    d.retire e n = ((d.closeOn e n).2.replace e n sp (d.closeOn e n).1).settleDrains e (d.insts.map (·.1)) := by
  have hclosed := (d.closeOn_spec e n).1
  have hsame : (d.closeOn e n).2.spares = sp :: rest :=
    (Dev.spares_congr (hclosed .phys (by decide)) (hclosed .foldMap (by decide))).symm.trans hspares
  have hfree : (sp :: rest).filter (fun s => !d.underTest.contains s) = sp :: rest := by
    rw [Dev.underTest_of_outst_nil hnone]
    exact List.filter_eq_self.mpr fun _ _ => rfl
  unfold Dev.retire
  simp only [hsame, hfree]

/-- A fold for which no spare is left: its number is unmapped. -/
def Dev.unmapped (d : Dev) (e : Env) (n : Nat) : Dev :=
  (({ (d.closeOn e n).2 with foldMap := terase (d.closeOn e n).2.foldMap n }).modFold n fun f =>
    { f with replacing := false, replaceRaised := [] }).raise 0x005 0x0A 1 n

/-- With no spare left the instances on the fold enter FAULTED. -/
theorem Dev.retire_of_none {d : Dev} (hspares : d.spares = []) (e : Env) (n : Nat) :
    (d.unmapped e n).agrees (.insts :: postParts) (d.retire e n) := by
  have hclosed := (d.closeOn_spec e n).1
  have hsame : (d.closeOn e n).2.spares = [] :=
    (Dev.spares_congr (hclosed .phys (by decide)) (hclosed .foldMap (by decide))).symm.trans hspares
  have hretire : d.retire e n = ((d.unmapped e n).instsOn n).foldl (fun d k => if (d.inst k).fn.active then
      (d.modInst k fun x => { x with fn := .faulted }).noteState e 1 .faulted k (faultMsg 0x005 0x0A 1 n).toNat else d)
      (d.unmapped e n) := by
    unfold Dev.retire
    simp only [hsame, List.filter_nil, ne_eq, not_true_eq_false, if_false]
    rfl
  rw [hretire]
  exact Dev.agrees_foldl (fun d k => (((d.agrees_modInst k _).mono (by decide)).andThen (Dev.agrees_noteState _ _ _ _ _ _) (by decide)).ite (d.agrees_refl _)) _ _

theorem Dev.physOf_unmapped (d : Dev) (e : Env) (n m : Nat) :
    (d.unmapped e n).physOf m = if m = n then 0xFF else d.physOf m := by
  have hmap : (d.unmapped e n).foldMap = terase d.foldMap n := by
    rw [Dev.unmapped, Dev.raise_foldMap, Dev.modFold_foldMap]
    exact congrArg (terase · n) ((d.closeOn_spec e n).1 .foldMap (by decide)).symm
  rw [Dev.physOf, hmap, tgetD, tget_terase]
  split <;> rfl

theorem Dev.replacing_unmapped (d : Dev) (e : Env) (n : Nat) : ((d.unmapped e n).fold n).replacing = false := by
  have hfold : (d.unmapped e n).fold n = (({ (d.closeOn e n).2 with foldMap := terase (d.closeOn e n).2.foldMap n } : Dev).modFold n
      fun f => { f with replacing := false, replaceRaised := [] }).fold n := by
    simp only [Dev.unmapped, Dev.fold, Dev.raise_folds]
  rw [hfold, Dev.fold_modFold, if_pos rfl]

/-! ## The periodic test of free spares -/

/-- A fold that serves no logical fold is fenced alone. -/
theorem Dev.fence_of_free {d : Dev} {q : Nat} (hfree : d.logicalOf q = none) (e : Env) (p : Nat) :
    d.agrees [.phys] (d.fence e q) ∧ (p ≠ q → (d.fence e q).physFold p = d.physFold p) := by
  have hsame (f : PhysFold → PhysFold) : (d.modPhys q f).logicalOf q = none := hfree
  unfold Dev.fence
  split
  · exact ⟨d.agrees_refl _, fun _ => rfl⟩
  · simp only [hsame]
    exact ⟨d.agrees_modPhys _ _, fun hp => (d.physFold_modPhys q _ p).trans (if_neg hp)⟩

theorem Dev.mismatch_of_free {d : Dev} {q : Nat} (hfree : d.logicalOf q = none) (e : Env) (sl arg p : Nat) :
    d.agrees (.phys :: faultParts) (d.mismatch e q sl arg) ∧ (p ≠ q → (d.mismatch e q sl arg).physFold p = d.physFold p) := by
  have hraised : (d.raise (0x100 + q) 0x0C sl arg).logicalOf q = none := by rw [Dev.logicalOf, Dev.raise_foldMap]; exact hfree
  obtain ⟨hagrees, hother⟩ := Dev.fence_of_free hraised e p
  unfold Dev.mismatch
  dsimp only
  split
  · exact ⟨((d.agrees_raise _ _ _ _).mono (l := .phys :: faultParts) (by decide)).andThen hagrees (by decide),
      fun hp => (hother hp).trans (d.physFold_raise _ _ _ _ _)⟩
  · exact ⟨((d.agrees_raise _ _ _ _).mono (by decide)), fun _ => d.physFold_raise _ _ _ _ _⟩

/-- The test of a fold that serves no logical fold. -/
theorem Dev.spareTested_spec {d : Dev} {q : Nat} (hfree : d.logicalOf q = none) (e : Env) (ok : Bool) (p : Nat) :
    d.agrees ([.phys, .free] ++ faultParts) (d.spareTested e q ok) ∧
    (p ≠ q → (d.spareTested e q ok).physFold p = d.physFold p) := by
  have hother (d : Dev) (f : PhysFold → PhysFold) (hp : p ≠ q) : (d.modPhys q f).physFold p = d.physFold p :=
    (d.physFold_modPhys q f p).trans (if_neg hp)
  unfold Dev.spareTested
  dsimp only
  split
  · exact ⟨(((d.agrees_modPhys q _).trans (Dev.agrees_modPhys _ q _)).mono (by decide)), fun hp => (hother _ _ hp).trans (hother _ _ hp)⟩
  · have hspent (f : PhysFold → PhysFold) : (d.modPhys q f).spend.logicalOf q = none := hfree
    refine ⟨(((d.agrees_modPhys q _).mono (l := [.phys, .free] ++ faultParts) (by decide)).andThen (Dev.agrees_spend _) (by decide)).andThen
      (Dev.mismatch_of_free (hspent _) _ _ _ p).1 (by decide), fun hp => ?_⟩
    rw [(Dev.mismatch_of_free (hspent _) _ _ _ p).2 hp, Dev.physFold_spend, hother _ _ hp]

theorem Dev.spareTested_passed (d : Dev) (e : Env) (q : Nat) :
    ((d.spareTested e q true).physFold q).lastSpareTest = e.raw ∧
    ((d.spareTested e q true).physFold q).lastPass = fourPasses e.raw := by
  simp only [Dev.spareTested, if_true, Dev.physFold_modPhys]
  exact ⟨trivial, rfl⟩

/-- The tests of several free folds: what they touch, and that each changes its own fold alone. -/
theorem Dev.sparesTested_spec (e : Env) (passed : Nat → Bool) (p : Nat) (l : List Nat) {d : Dev} (hfree : ∀ q ∈ l, d.logicalOf q = none) :
    d.agrees ([.phys, .free] ++ faultParts) (l.foldl (fun d q => d.spareTested e q (passed q)) d) ∧
    (p ∉ l → (l.foldl (fun d q => d.spareTested e q (passed q)) d).physFold p = d.physFold p) := by
  induction l generalizing d with
  | nil => exact ⟨d.agrees_refl _, fun _ => rfl⟩
  | cons q l ih =>
    obtain ⟨hagrees, hother⟩ := Dev.spareTested_spec (hfree q List.mem_cons_self) e (passed q) p
    have hmap : d.foldMap = (d.spareTested e q (passed q)).foldMap := hagrees .foldMap (by decide)
    obtain ⟨htail, hkept⟩ := ih (d := d.spareTested e q (passed q)) fun r hr => by
      rw [Dev.logicalOf, ← hmap]; exact hfree r (List.mem_cons_of_mem _ hr)
    refine ⟨hagrees.trans htail, fun hp => ?_⟩
    rw [List.mem_cons, not_or] at hp
    exact (hkept hp.2).trans (hother hp.1)

/-- A spare that passes its test among several is renewed. -/
theorem Dev.sparesTested_passed (e : Env) (passed : Nat → Bool) {p : Nat} (hpass : passed p = true) {l : List Nat} (hnodup : l.Nodup)
    (hp : p ∈ l) {d : Dev} (hfree : ∀ q ∈ l, d.logicalOf q = none) :
    ((l.foldl (fun d q => d.spareTested e q (passed q)) d).physFold p).lastSpareTest = e.raw ∧
    ((l.foldl (fun d q => d.spareTested e q (passed q)) d).physFold p).lastPass = fourPasses e.raw := by
  induction l generalizing d with
  | nil => cases hp
  | cons q l ih =>
    obtain ⟨hq, hl⟩ := List.nodup_cons.mp hnodup
    have hmap : d.foldMap = (d.spareTested e q (passed q)).foldMap :=
      (Dev.spareTested_spec (hfree q List.mem_cons_self) e (passed q) p).1 .foldMap (by decide)
    have hrest : ∀ r ∈ l, (d.spareTested e q (passed q)).logicalOf r = none := fun r hr => by
      rw [Dev.logicalOf, ← hmap]; exact hfree r (List.mem_cons_of_mem _ hr)
    rcases List.mem_cons.mp hp with rfl | hin
    · have hkept := (Dev.sparesTested_spec e passed p l hrest).2 hq
      rw [List.foldl_cons, hkept, hpass]
      exact d.spareTested_passed e p
    · exact ih hl hin hrest

/-- Settles O26: retirement moves the fold's number to the lowest spare, or unmaps it, and a spare that passes is renewed. -/
theorem sparesTakeOver : Obligations.spares_take_over := by
  intro s p n hp
  have hretire (hlog : s.dev.logicalOf p = some n) (hrepl : (s.dev.fold n).replacing = true) (hret : (s.dev.physFold p).retired = true) :
      exec (.foldRetirement p) s = .next (s.put (s.dev.retire s.env n)) := by
    rw [exec_foldRetirement, execFoldRetirement, run_next (by simp [missingUnit, Instr.units, hp])]
    simp only [hlog, hrepl, hret, Bool.and_self, if_true]
    rfl
  refine ⟨fun sp rest hlog hrepl hret hnone hspares => ?spare, fun hlog hrepl hret hnone hspares => ?none,
    fun l hidle hspare hdue hpass => ?test⟩
  case spare =>
    have hexec := hretire hlog hrepl hret
    rw [Dev.retire_of_spare hnone hspares] at hexec
    have hsp : sp < 52 := by
      have hmem : sp ∈ s.dev.spares := hspares ▸ List.mem_cons_self
      exact List.mem_range.mp (List.mem_filter.mp hmem).1
    obtain ⟨hclosed, hempty⟩ := s.dev.closeOn_spec s.env n
    obtain ⟨c, hc⟩ : ∃ c, c = (s.dev.closeOn s.env n).2 := ⟨_, rfl⟩
    rw [← hc] at hexec hclosed hempty
    have hloaded := c.agrees_spareLoaded s.env n sp
    have hmap := c.physOf_spareLoaded s.env n sp
    have hrepl' := c.replacing_spareLoaded s.env n sp
    rw [Dev.replace_eq] at hexec
    obtain ⟨b, hb⟩ : ∃ b, b = c.spareLoaded s.env n sp := ⟨_, rfl⟩
    rw [← hb] at hexec hloaded hmap hrepl'
    obtain ⟨hran, hpasses⟩ := b.runAllSlices_spec s.env hsp
    obtain ⟨r, hr⟩ : ∃ r, r = b.runAllSlices s.env sp := ⟨_, rfl⟩
    rw [← hr] at hexec hran hpasses
    obtain ⟨hrest, hreplr⟩ := r.restarted_spec (s.dev.closeOn s.env n).1 n
    obtain ⟨x, hx⟩ : ∃ x, x = r.restarted (s.dev.closeOn s.env n).1 := ⟨_, rfl⟩
    rw [← hx] at hexec hrest hreplr
    have hquiet : x.mbox.outst = [] := by
      have hmbox : c.mbox = x.mbox :=
        (hloaded .mbox (by decide)).trans ((hran .mbox (by decide)).trans (hrest .mbox (by decide)))
      exact hmbox ▸ hempty hnone
    have hsettled := Dev.settleDrains_of_outst_nil hquiet s.env (s.dev.insts.map (·.1))
    obtain ⟨u, hu⟩ : ∃ u, u = x.settleDrains s.env (s.dev.insts.map (·.1)) := ⟨_, rfl⟩
    rw [← hu] at hexec hsettled
    have hlast : r.agrees [.folds, .threads, .insts] u := (hrest.mono (by decide)).andThen hsettled (by decide)
    have hphysOf (m : Nat) : u.physOf m = if m = n then sp else s.dev.physOf m := by
      have hcmap : s.dev.foldMap = c.foldMap := hclosed .foldMap (by decide)
      have humap : b.foldMap = u.foldMap := (hran .foldMap (by decide)).trans (hlast .foldMap (by decide))
      rw [Dev.physOf, Dev.physOf, ← humap, hcmap]
      exact hmap m
    refine ⟨_, hexec, (hphysOf n).trans (if_pos rfl), ?_, rfl, rfl, fun m hm => (hphysOf m).trans (if_neg hm), ?_⟩
    · have hxfold : (x.fold n).replacing = (u.fold n).replacing := by
        rw [Dev.fold, Dev.fold, show x.folds = u.folds from hsettled .folds (by decide)]
      have hrfold : (r.fold n).replacing = (b.fold n).replacing := by
        rw [Dev.fold, Dev.fold, show b.folds = r.folds from hran .folds (by decide)]
      exact hxfold.symm.trans (hreplr.trans (hrfold.trans hrepl'))
    · have hphys : r.phys = u.phys := hlast .phys (by decide)
      have hcol : r.col = u.col := hlast .col (by decide)
      have hwas : s.dev.phys = b.phys := (hclosed .phys (by decide)).trans (hloaded .phys (by decide))
      simp only [State.put_dev, Dev.physFold, Dev.silent, ← hphys, ← hcol, hwas]
      exact hpasses
  case none =>
    have hexec := hretire hlog hrepl hret
    have hafter := Dev.retire_of_none hspares s.env n
    have hphysOf (m : Nat) : (s.dev.retire s.env n).physOf m = if m = n then 0xFF else s.dev.physOf m := by
      rw [← Dev.physOf_unmapped s.dev s.env n m, Dev.physOf, Dev.physOf]
      exact congrArg (tgetD · m 0xFF) (hafter .foldMap (by decide)).symm
    refine ⟨_, hexec, (hphysOf n).trans (if_pos rfl), ?_, rfl, rfl, fun m hm => (hphysOf m).trans (if_neg hm)⟩
    exact (congrArg (fun f : Tab Fold => (tgetD f n {}).replacing) (hafter .folds (by decide)).symm).trans
      (s.dev.replacing_unmapped s.env n)
  case test =>
    have hfree : ∀ q ∈ s.dev.spares, s.dev.logicalOf q = none := fun q hq => by
      have hboth := (List.mem_filter.mp hq).2
      rw [Bool.and_eq_true] at hboth
      exact Option.isNone_iff_eq_none.mp hboth.2
    have hdueFree : ∀ q ∈ s.dev.spares.filter fun p => (s.dev.physFold p).lastSpareTest + 3600000000000 ≤ s.env.raw,
        s.dev.logicalOf q = none := fun q hq => hfree q (List.mem_filter.mp hq).1
    have hexec : exec (.sparePeriodicTest l) s = .next (s.put
        ((s.dev.spares.filter fun p => (s.dev.physFold p).lastSpareTest + 3600000000000 ≤ s.env.raw).foldl
          (fun d p => d.spareTested s.env p (l.contains p)) s.dev)) := by
      rw [exec_sparePeriodicTest, execSparePeriodicTest, run_next (by simp [missingUnit, Instr.units]), if_pos hidle]
      rfl
    have hrenewed := Dev.sparesTested_passed s.env l.contains hpass
      ((List.nodup_range.filter _).filter _) (List.mem_filter.mpr ⟨hspare, decide_eq_true hdue⟩) hdueFree
    exact ⟨_, hexec, hrenewed.1, hrenewed.2,
      State.touches_of_agrees ((Dev.sparesTested_spec s.env l.contains p _ hdueFree).1.mono (by decide))⟩

end Sys2Proof.Machine
end

section
/-! SUPPORT. Upkeep of the memories: scrubbing, write-back, poison bits, and the GDDR6 inputs (R164 to R166, R184, R191). -/

namespace Sys2Proof.Machine

open Sys2Proof

/-- What a fault does to the collector rests on the physical folds and the collector alone. -/
theorem Dev.agrees.raise_col {l : List Part} {a b : Dev} (h : a.agrees l b) (src kind detail arg : Nat)
    (hl : Part.phys ∉ l ∧ Part.col ∉ l) : (b.raise src kind detail arg).col = (a.raise src kind detail arg).col :=
  (Dev.raise_col_congr (h .phys hl.1) (h .col hl.2) src kind detail arg).symm

/-! ## Scrubbing -/

theorem Dev.corrected_scrubPos (d : Dev) (line bit : Nat) : (d.corrected line bit).mem.scrubPos = d.mem.scrubPos := by
  unfold Dev.corrected
  dsimp only
  split
  · rw [Dev.raise_mem]; rfl
  · split
    · rw [Dev.raise_mem]; rfl
    · rfl

theorem Dev.fixLine_scrubPos (d : Dev) (holds : Bool) (line : Nat) : (d.fixLine holds line).mem.scrubPos = d.mem.scrubPos := by
  unfold Dev.fixLine
  split
  · rfl
  · split
    · rw [Dev.corrected_scrubPos]
      split <;> rfl
    · exact Dev.corrected_scrubPos _ _ _

theorem Dev.checkLine_scrubPos (d : Dev) (src : Nat) (holds : Bool) (line : Nat) :
    (d.checkLine src holds line).2.mem.scrubPos = d.mem.scrubPos := by
  unfold Dev.checkLine
  dsimp only
  split
  · exact d.fixLine_scrubPos holds line
  · split
    · exact d.fixLine_scrubPos holds line
    · rw [Dev.raise_mem]
      exact d.fixLine_scrubPos holds line

theorem Dev.transfer_scrubPos (d : Dev) (line : Nat) : (d.transfer line).2.mem.scrubPos = d.mem.scrubPos := by
  unfold Dev.transfer
  split
  · dsimp only
    split
    · rfl
    · split
      · rfl
      · rw [Dev.raise_mem]; rfl
  · rfl

/-- A read moves no scrubber. -/
theorem Dev.readLine_scrubPos (d : Dev) (src : Nat) (holds : Bool) (line : Nat) :
    (d.readLine src holds line).2.mem.scrubPos = d.mem.scrubPos := by
  unfold Dev.readLine
  dsimp only
  split
  · exact d.transfer_scrubPos line
  · split
    · exact d.transfer_scrubPos line
    · exact (Dev.checkLine_scrubPos _ _ _ _).trans (d.transfer_scrubPos line)

theorem Dev.scrubNext_spec (d : Dev) (k : Nat) :
    d.agrees ([.mem, .phys] ++ faultParts) (d.scrubNext k) ∧ (d.scrubNext k).mem.bytes = d.mem.bytes ∧
    (d.scrubNext k).mem.scrubPos = tset d.mem.scrubPos k
      (if tgetD d.mem.scrubPos k 0 + 1 = scrubLines k then 0 else tgetD d.mem.scrubPos k 0 + 1) := by
  have hread (b : Dev) (hb : d.agrees [.mem] b) (hbytes : b.mem.bytes = d.mem.bytes) (hpos : b.mem.scrubPos = d.mem.scrubPos)
      (src l : Nat) (f : Tab Nat → Tab Nat) :
      let r := (b.readLine src false l).2.modMem fun m => { m with scrubPos := f m.scrubPos }
      d.agrees ([.mem, .phys] ++ faultParts) r ∧ r.mem.bytes = d.mem.bytes ∧ r.mem.scrubPos = f d.mem.scrubPos :=
    ⟨((hb.mono (by decide)).andThen (Dev.agrees_readLine _ _ _ _) (by decide)).andThen (Dev.agrees_modMem _ _) (by decide), (b.readLine_bytes _ _ _).trans hbytes,
      congrArg f ((b.readLine_scrubPos _ _ _).trans hpos)⟩
  unfold Dev.scrubNext
  dsimp only
  split
  · exact hread _ (d.agrees_modMem _) rfl rfl _ _ fun p => tset p k _
  · exact hread d (d.agrees_refl _) rfl rfl _ _ fun p => tset p k _

/-! ## GDDR6 temperature -/

/-- A reading in range that is in another band than the one in force. -/
theorem Dev.gddrTemp_of_other {d : Dev} {i : Nat} {r : Int} (hlow : -40 ≤ r) (hhigh : r ≤ 125) (hband : tgetD d.gddr.band i 0 ≠ tempBand r) :
    d.gddrTemp i (some r) =
      if tget d.gddr.candidate i = some (tempBand r + 1) then
        if tempBand r = 2 then
          ({ d with gddr := { d.gddr with band := tset d.gddr.band i (tempBand r), candidate := terase d.gddr.candidate i } } : Dev).raise
            (0x1D0 + i) 0x1C 0 (patternOf r 40)
        else { d with gddr := { d.gddr with band := tset d.gddr.band i (tempBand r), candidate := terase d.gddr.candidate i } }
      else { d with gddr := { d.gddr with candidate := tset d.gddr.candidate i (tempBand r + 1) } } := by
  have hrange : ¬ (r < -40 ∨ 125 < r) := by omega
  simp only [Dev.gddrTemp, if_neg hrange, if_neg hband]

theorem Thread.reg_setReg_other (th : Thread) {r j : Nat} (h : j ≠ r) (v : Word) : (th.setReg r v).reg j = th.reg j := by
  unfold Thread.setReg Thread.reg
  split
  · rfl
  · split
    · rfl
    · split
      · rw [tgetD, tgetD, tget_terase, if_neg h]
      · rw [tgetD_tset, if_neg h]

/-- Settles O27: each upkeep row changes the lists of the memory, and a read that gave no data ends poisoned. -/
theorem memoryUpkeep : Obligations.memory_upkeep := by
  intro s
  refine ⟨fun k hk hscrubs => ?scrub, fun line b hin herr => ?writeback, fun line hin => ?poison,
    fun i r hi hclk hok hlow hhigh hband => ?temp, fun i addr off hi hclk hzone hif => ?late,
    fun i addr t a size rd off since hi ht hclk hwait hzone hif hline hdue => ?thread⟩
  case scrub =>
    have hexec : exec (.scrub k) s = .next (s.put (s.dev.scrubNext k)) := by
      rw [exec_scrub, execScrub, run_next (by simp [missingUnit, Instr.units, hk]), if_pos hscrubs]
      rfl
    obtain ⟨hagrees, hbytes, hpos⟩ := s.dev.scrubNext_spec k
    exact ⟨_, hexec, hbytes, State.touches_of_agrees hagrees, (congrArg (tget · k) hpos).trans (tget_tset_same _ _ _)⟩
  case writeback =>
    have hexec : exec (.correctionWriteback line) s = .next (s.put (s.dev.modMem fun m => { m with
        writeback := m.writeback.filter (· != line), err := terase m.err line })) := by
      rw [exec_correctionWriteback, execCorrectionWriteback, run_next (by simp [missingUnit, Instr.units]), if_pos hin]
      simp only [Dev.modMem, herr]
      rfl
    refine ⟨_, hexec, (tget_terase _ _ _).trans (if_pos rfl), ?_, rfl, State.touches_of_agrees (s.dev.agrees_modMem _),
      fun l hl => (tget_terase _ _ _).trans (if_neg hl)⟩
    exact (by simp : (s.dev.mem.writeback.filter (· != line)).contains line = false)
  case poison =>
    have hexec : exec (.poisonBitStore line) s = .next (s.put
        ((s.dev.modMem fun m => { m with poisonStore := m.poisonStore.filter (· != line) }).setPoison line true)) := by
      rw [exec_poisonBitStore, execPoisonBitStore, run_next (by simp [missingUnit, Instr.units]), if_pos hin]
      rfl
    refine ⟨_, hexec, (tgetD_tset _ _ _ _ _).trans (if_pos rfl), ?_, rfl,
      State.touches_of_agrees ((s.dev.agrees_modMem _).trans (Dev.agrees_setPoison _ _ _)),
      fun l hl => (tgetD_tset _ _ _ _ _).trans (if_neg hl)⟩
    exact (by simp : (s.dev.mem.poisonStore.filter (· != line)).contains line = false)
  case temp =>
    have hexec : exec (.gddr6TemperatureRead i (some r)) s = .next (s.put (s.dev.gddrTemp i (some r))) := by
      rw [exec_gddr6TemperatureRead, execGddr6TemperatureRead, run_next (by simp [missingUnit, Instr.units, hi]),
        if_pos ⟨hclk, by rw [hok]; rfl⟩]
      rfl
    refine ⟨_, hexec, ?_⟩
    rw [State.put_dev, Dev.gddrTemp_of_other hlow hhigh hband]
    refine ⟨State.touches_of_agrees ?_, fun hcand => ?_, fun hcand => ?_⟩
    · exact ((((s.dev.agrees_gddr _).mono (by decide)).andThen (Dev.agrees_raise _ _ _ _ _) (by decide)).ite ((s.dev.agrees_gddr _).mono (by decide))).ite
        ((s.dev.agrees_gddr _).mono (by decide))
    · rw [if_pos hcand]
      constructor
      · split
        · rw [Dev.raise_gddr]
          exact (tgetD_tset _ _ _ _ _).trans (if_pos rfl)
        · exact (tgetD_tset _ _ _ _ _).trans (if_pos rfl)
      · intro hhot
        rw [if_pos hhot]
        exact (s.dev.agrees_gddr _).raise_col _ _ _ _ (by decide)
    · rw [if_neg hcand]
      exact ⟨rfl, tget_tset_same _ _ _, rfl⟩
  case late =>
    have hexec : exec (.gddr6ReadTimeout i addr none) s = .next (s.put ((s.dev.raise (0x1D0 + i) 3 7 addr).modMem fun m => { m with
        late := if m.late.contains (addr / 64) then m.late else m.late ++ [addr / 64] })) := by
      rw [exec_gddr6ReadTimeout, execGddr6ReadTimeout, runClocked_running (by simp [missingUnit, Instr.units, hi]) hclk]
      simp only [Option.map_none, hzone, if_pos hif]
    refine ⟨_, hexec, ?_, ?_, State.touches_of_agrees (((s.dev.agrees_raise _ _ _ _).mono (by decide)).andThen (Dev.agrees_modMem _ _) (by decide)), rfl⟩
    · simp only [State.put_dev, Dev.modMem]
      split
      · next h => exact h
      · exact List.contains_iff_mem.mpr (List.mem_append_right _ (List.mem_singleton.mpr rfl))
    · simp only [State.put_dev, Dev.modMem, Dev.raise_mem]
  case thread =>
    have hexec : exec (.gddr6ReadTimeout i addr (some t)) s = .next (s.put
        ((((s.dev.raise (0x1D0 + i) 3 7 a).freeBytes size).2.loadResult t rd
          ((s.dev.raise (0x1D0 + i) 3 7 a).freeBytes size).1 true).wake t [])) := by
      rw [exec_gddr6ReadTimeout, execGddr6ReadTimeout, runClocked_running (by simp [missingUnit, Instr.units, hi, ht]) hclk]
      have hcond : gddrIface off = i ∧ a / 64 = addr / 64 ∧ since + 20000 ≤ s.env.raw := ⟨hif, hline, hdue⟩
      simp only [Option.map_some, hwait, hzone, if_pos hcond, Option.getD_some]
    obtain ⟨bs, hbs⟩ : ∃ bs, bs = ((s.dev.raise (0x1D0 + i) 3 7 a).freeBytes size).1 := ⟨_, rfl⟩
    rw [← hbs] at hexec
    obtain ⟨b, hb⟩ : ∃ b, b = ((s.dev.raise (0x1D0 + i) 3 7 a).freeBytes size).2.loadResult t rd bs true := ⟨_, rfl⟩
    have hagrees : s.dev.agrees ([.threads, .free] ++ faultParts) b := hb ▸
      ((((s.dev.agrees_raise _ _ _ _).mono (by decide)).andThen (Dev.agrees_spend _) (by decide)).andThen (Dev.agrees_modThread _ _ _) (by decide)).andThen
        (Dev.agrees_modThread _ _ _) (by decide)
    have hthread : b.thread t = { (s.dev.thread t).setReg rd (BitVec.ofNat 64 (leNat bs)) with poisonMark := true } := by
      have hraised : ∀ k, ((s.dev.raise (0x1D0 + i) 3 7 a).freeBytes size).2.thread k = s.dev.thread k :=
        Dev.thread_raise s.dev _ _ _ _
      rw [hb, Dev.loadResult, if_pos rfl, Dev.thread_modThread, if_pos rfl, Dev.thread_modThread, if_pos rfl, hraised]
    have hother (k : Nat) (hk : k ≠ t) : b.thread k = s.dev.thread k := by
      have hraised : ((s.dev.raise (0x1D0 + i) 3 7 a).freeBytes size).2.thread k = s.dev.thread k :=
        Dev.thread_raise s.dev _ _ _ _ k
      rw [hb, Dev.loadResult, if_pos rfl, Dev.thread_modThread, if_neg hk, Dev.thread_modThread, if_neg hk, hraised]
    have hcol : b.col = (s.dev.raise (0x1D0 + i) 3 7 a).col := by rw [hb]; rfl
    have hparked : b.parkedStore t = s.dev.parkedStore t := by
      rw [Dev.parkedStore, Dev.parkedStore, Dev.parkedSince_congr (hagrees .posted (by decide)).symm]
    rw [← hb] at hexec
    refine ⟨_, hexec, ?_, ?_, State.touches_of_agrees (hagrees.andThen (Dev.agrees_wake _ _ _) (by decide)), fun k hk => ?_, ?_, fun r hr => ?_⟩
    · rw [State.put_dev, Dev.thread_wake, hparked]
    · rw [State.put_dev, Dev.thread_wake, hthread]
      rfl
    · exact (b.wake_other hk []).trans (hother k hk)
    · exact ((b.agrees_wake t [] .col (by decide)).symm).trans hcol
    · rw [State.put_dev, Dev.thread_wake, hthread]
      exact Thread.reg_setReg_other _ hr _

end Sys2Proof.Machine
end

section
/-! SUPPORT. Camera packets at the gates (R47, R52 to R55, R65, R70, R71, R605). -/

namespace Sys2Proof.Machine

open Sys2Proof

/-! ## Work at one gate -/

/-- Listed parts alone change, and of the gates one alone. -/
def GateWork (g : Nat) (l : List Part) (a b : Dev) : Prop := a.agrees l b ∧ ∀ j, j ≠ g → b.gate j = a.gate j

theorem GateWork.refl (g : Nat) (l : List Part) (d : Dev) : GateWork g l d d := ⟨d.agrees_refl l, fun _ _ => rfl⟩

theorem GateWork.trans {g : Nat} {l : List Part} {a b c : Dev} (hab : GateWork g l a b) (hbc : GateWork g l b c) : GateWork g l a c :=
  ⟨hab.1.trans hbc.1, fun j hj => (hbc.2 j hj).trans (hab.2 j hj)⟩

theorem GateWork.mono {g : Nat} {l m : List Part} {a b : Dev} (h : GateWork g m a b) (hm : m ⊆ l) : GateWork g l a b :=
  ⟨h.1.mono hm, h.2⟩

/-- What leaves the Race alone is work at any gate. -/
theorem GateWork.of_agrees {g : Nat} {l : List Part} {a b : Dev} (h : a.agrees l b) (hl : Part.race ∉ l) : GateWork g l a b :=
  ⟨h, fun j _ => (Dev.gate_of_race (h .race hl) j).symm⟩

theorem GateWork.modGate (d : Dev) (g : Nat) (f : Gate → Gate) : GateWork g [.race] d (d.modGate g f) :=
  ⟨d.agrees_modGate g f, fun j hj => (d.gate_modGate g f j).trans (if_neg hj)⟩

theorem GateWork.ite {g : Nat} {l : List Part} {a b c : Dev} {p : Prop} [Decidable p] (hb : GateWork g l a b) (hc : GateWork g l a c) :
    GateWork g l a (if p then b else c) := by
  split
  · exact hb
  · exact hc

theorem GateWork.foldl {α : Type} {g : Nat} {l : List Part} {f : Dev → α → Dev} (h : ∀ (d : Dev) x, GateWork g l d (f d x))
    (xs : List α) (d : Dev) : GateWork g l d (xs.foldl f d) :=
  List.foldlRecOn (motive := fun b => GateWork g l d b) xs f (GateWork.refl g l d) fun b hb x _ => hb.trans (h b x)

theorem Dev.gate_modGate_same (d : Dev) (g : Nat) (f : Gate → Gate) : (d.modGate g f).gate g = f (d.gate g) :=
  (d.gate_modGate g f g).trans (if_pos rfl)

/-! ## Headers -/

theorem Dev.gate_modPort (d : Dev) (p : Nat) (f : CsiPort → CsiPort) (g : Nat) : (d.modPort p f).gate g = d.gate g := rfl

theorem Dev.agrees_modPort (d : Dev) (p : Nat) (f : CsiPort → CsiPort) : d.agrees [.race] (d.modPort p f) := d.agrees_race _

/-- Counting a corrected header changes its port alone. -/
theorem Dev.countHeader_spec (d : Dev) (p : Nat) (ecc : HeaderEcc) :
    d.agrees [.race] (d.countHeader p ecc) ∧ (d.countHeader p ecc).race.gates = d.race.gates ∧
    (d.countHeader p ecc).race.portMap = d.race.portMap ∧ ∀ q, ((d.countHeader p ecc).port q).discarded = (d.port q).discarded := by
  unfold Dev.countHeader
  split
  · refine ⟨d.agrees_modPort _ _, rfl, rfl, fun q => ?_⟩
    rw [Dev.port_modPort]
    split
    · next h => rw [h]
    · rfl
  · exact ⟨d.agrees_refl _, rfl, rfl, fun _ => rfl⟩

theorem GateWork.countHeader (d : Dev) (p : Nat) (ecc : HeaderEcc) (g : Nat) : GateWork g [.race] d (d.countHeader p ecc) :=
  ⟨(d.countHeader_spec p ecc).1, fun j _ => d.gate_countHeader p ecc j⟩

/-- An uncorrectable header. -/
theorem Dev.badHeader_spec (d : Dev) (p : Nat) :
    d.agrees (.race :: faultParts) (d.badHeader p) ∧ ((d.badHeader p).port p).uncorrectable = (d.port p).uncorrectable + 1 ∧
    (∀ j, (d.badHeader p).gate j = if (d.gatesOfPort p).contains j then { d.gate j with headerBad := true } else d.gate j) ∧
    (d.badHeader p).col = (d.raise (0x248 + p) 0x10 0 0).col := by
  have hmarked (l : List Nat) (b : Dev) : b.agrees [.race] (l.foldl (fun d g => d.modGate g fun x => { x with headerBad := true }) b) ∧
      (l.foldl (fun d g => d.modGate g fun x => { x with headerBad := true }) b).race.ports = b.race.ports ∧
      ∀ j, (l.foldl (fun d g => d.modGate g fun x => { x with headerBad := true }) b).gate j =
        if l.contains j then { b.gate j with headerBad := true } else b.gate j := by
    induction l generalizing b with
    | nil => exact ⟨b.agrees_refl _, rfl, fun _ => rfl⟩
    | cons g l ih =>
      obtain ⟨hagrees, hports, hgates⟩ := ih (b.modGate g fun x => { x with headerBad := true })
      refine ⟨(b.agrees_modGate _ _).trans hagrees, hports, fun j => ?_⟩
      rw [List.foldl_cons, hgates, Dev.gate_modGate, List.contains_cons]
      by_cases hj : j = g
      · subst hj; simp
      · simp [hj]
  obtain ⟨b, hb⟩ : ∃ b, b = (d.modPort p fun p => { p with uncorrectable := p.uncorrectable + 1 }).raise (0x248 + p) 0x10 0 0 := ⟨_, rfl⟩
  have hbrace : (d.modPort p fun p => { p with uncorrectable := p.uncorrectable + 1 }).race = b.race := by rw [hb, Dev.raise_race]
  have hbgates : b.gatesOfPort p = d.gatesOfPort p := by
    simp only [Dev.gatesOfPort, Dev.gateOf, ← hbrace]
    rfl
  have heq : d.badHeader p = (d.gatesOfPort p).foldl (fun d g => d.modGate g fun x => { x with headerBad := true }) b := by
    rw [← hbgates, hb]; rfl
  obtain ⟨hagrees, hports, hgates⟩ := hmarked (d.gatesOfPort p) b
  rw [heq]
  refine ⟨?_, ?_, fun j => ?_, ?_⟩
  · rw [hb] at hagrees ⊢
    exact (((d.agrees_modPort p _).mono (by decide)).andThen (Dev.agrees_raise _ _ _ _ _) (by decide)).andThen hagrees (by decide)
  · rw [Dev.port, hports, ← hbrace]
    exact (congrArg CsiPort.uncorrectable (d.port_modPort p _ p)).trans (by rw [if_pos rfl])
  · rw [hgates, ← Dev.gate_of_race hbrace]
    rfl
  · rw [← hagrees .col (by decide), hb]
    exact (d.agrees_modPort p _).raise_col _ _ _ _ (by decide)

theorem Dev.raiseSecond_col_congr {d d' : Dev} (hcol : d.col = d'.col) (e : Env) (src kind detail arg : Nat) (counted : Bool) :
    (d.raiseSecond e src kind detail arg counted).col = (d'.raiseSecond e src kind detail arg counted).col := by
  simp only [Dev.raiseSecond, Dev.raiseKeyed, hcol]
  split <;> rfl

/-- A packet of an unmapped channel. -/
theorem Dev.discardPacket_none_spec (d : Dev) (e : Env) (p : Nat) :
    d.agrees [.race, .col] (d.discardPacket e p none) ∧
    ((d.discardPacket e p none).port p).discarded = (d.port p).discarded + 1 ∧
    (d.discardPacket e p none).race.gates = d.race.gates ∧
    (d.discardPacket e p none).col = (d.raiseSecond e (0x248 + p) 0x15 0 0 true).col := by
  have hrace : (d.discardPacket e p none).race = (d.modPort p fun p => { p with discarded := p.discarded + 1 }).race := by
    rw [Dev.discardPacket, Dev.raiseSecond_race]
  refine ⟨((d.agrees_modPort p _).mono (by decide)).andThen (Dev.agrees_raiseSecond _ _ _ _ _ _ _) (by decide), ?_, ?_, ?_⟩
  · rw [Dev.port, hrace]
    exact (congrArg CsiPort.discarded (d.port_modPort p _ p)).trans (by rw [if_pos rfl])
  · rw [hrace]; rfl
  · exact Dev.raiseSecond_col_congr (d := d.modPort p _) (d' := d) rfl _ _ _ _ _ _

/-! ## Frame Start -/

/-- The settings of a sample boundary with no live changes pending. -/
theorem Gate.settle_of_none {x : Gate} (h : x.liveNext = []) :
    x.settle = { x with coef := x.coef.switched, tone := x.tone.switched, remap := x.remap.switched } := by
  cases x
  cases h
  rfl

theorem Dev.boundary_spec (d : Dev) (e : Env) (g : Nat) :
    GateWork g (.race :: postParts) d (d.boundary e g) ∧ (d.boundary e g).gate g = (d.gate g).settle := by
  have hfinish := (d.modGate g Gate.settle).agrees_finishAll e (fun o => o.opcode == 0x402 && o.e.target == g) {}
  refine ⟨((GateWork.modGate d g _).mono (by decide)).trans ((GateWork.of_agrees hfinish (by decide)).mono (by decide)), ?_⟩
  rw [← d.gate_modGate_same g Gate.settle]
  exact (Dev.gate_of_race (hfinish .race (by decide)) g).symm

/-- The counter of a sample rests on its gate and the frame sets. -/
theorem Dev.assign_congr {d d' : Dev} {g : Nat} (hset : (d'.gate g).settings = (d.gate g).settings)
    (hcounter : (d'.gate g).nextCounter = (d.gate g).nextCounter) (hserved : (d'.gate g).served = (d.gate g).served)
    (hfsets : d'.fsets = d.fsets) (capture : Int) : (d'.assign g capture).1 = (d.assign g capture).1 := by
  simp only [Dev.assign, hset, hcounter, hserved, Dev.fset, hfsets]
  split <;> rfl

/-- The capture time rests on the gate's settings, the frame sets and the domains. -/
theorem Dev.captureNow_congr {d d' : Dev} {g : Nat} (hset : (d'.gate g).settings = (d.gate g).settings)
    (hfsets : d'.fsets = d.fsets) (htu : d'.tu = d.tu) (raw : Nat) : d'.captureNow g raw = d.captureNow g raw := by
  simp only [Dev.captureNow, Dev.domTime, Dev.gateDomain, Dev.fset, Dev.dom, hset, hfsets, htu]

/-- The next free landing slot rests on what the gate holds and has in work. -/
theorem Gate.pickSlot_congr {x y : Gate} (hset : y.settings = x.settings) (hlast : y.lastSlot = x.lastSlot) (hheld : y.held = x.held)
    (hpipe : y.pipe = x.pipe) (hframe : y.frame = x.frame) : y.pickSlot = x.pickSlot := by
  simp only [Gate.pickSlot, Gate.inWork, hset, hlast, hheld, hpipe, hframe]

/-- What the assignment of a counter does to its gate: it counts on, or the instance is served. -/
theorem Dev.assign_gate (d : Dev) (g : Nat) (capture : Int) : ∃ f : Gate → Gate, (d.assign g capture).2 = d.modGate g f ∧
    (∀ x, f x = { x with nextCounter := (f x).nextCounter, served := (f x).served }) ∧
    (Settings.fset (d.gate g).settings = none → (∀ x, (f x).nextCounter = (x.nextCounter + 1) % 2 ^ 32) ∧
      (d.assign g capture).1.1 = (d.gate g).nextCounter) ∧
    ∀ n c, Settings.fset (d.gate g).settings = some n → (d.fset n).cfg = some c → (d.assign g capture).1.1 =
      patternOf ((2 * (capture - c.epoch) + c.period).fdiv (2 * c.period)) 32 := by
  unfold Dev.assign
  dsimp only
  split
  · next hnone =>
    refine ⟨_, rfl, fun x => rfl, fun _ => ⟨fun x => rfl, rfl⟩, fun n c hn hc => ?_⟩
    simp [hn, hc] at hnone
  · next m c hsome =>
    refine ⟨_, rfl, fun x => rfl, fun hnone => ?_, fun n b hn hb => ?_⟩
    · simp [hnone] at hsome
    · simp only [hn, Option.bind_some, hb, Option.map_some, Option.some.injEq, Prod.mk.injEq] at hsome
      rw [← hsome.2]

/-- A sample that begins with a free landing slot takes it. -/
theorem Dev.beginSample_slot {d : Dev} {g k : Nat} (hslot : (d.gate g).pickSlot = some k) (counter : Nat) (capture : Int) (domB : Bool)
    (inst : Option (Nat × Int)) :
    GateWork g [.race] d (d.beginSample g counter capture domB inst none).2 ∧
    ((d.beginSample g counter capture domB inst none).2.gate g).nextCounter = (d.gate g).nextCounter ∧
    (d.beginSample g counter capture domB inst none).1.2 = none ∧
    (d.beginSample g counter capture domB inst none).1.1.slot = some k ∧
    (d.beginSample g counter capture domB inst none).1.1.counter = counter ∧
    (d.beginSample g counter capture domB inst none).1.1.capture = capture := by
  have hwork (f h : Gate → Gate) : GateWork g [.race] d ((d.modGate g f).modGate g h) :=
    (GateWork.modGate d g f).trans (GateWork.modGate _ g h)
  simp only [Dev.beginSample, hslot]
  refine ⟨hwork _ _, ?_, trivial, trivial, trivial, trivial⟩
  rw [Dev.gate_modGate_same, Dev.gate_modGate_same]

/-- A Frame Start that opens a sample: at a RUNNING gate with no open frame and no change pending, in time, with a free slot. -/
theorem Dev.frameStart_opens {d : Dev} {e : Env} {g k : Nat} (hfn : (d.gate g).fn = .running) (hframe : (d.gate g).frame = none)
    (hlive : (d.gate g).liveNext = []) (hslot : (d.gate g).pickSlot = some k)
    (htime : ∀ x, (d.gate g).lastFs = some x → x + 1000 * d.minIntervalUs (d.gate g).settings ≤ e.raw)
    (hdrop : (d.assign g (d.captureNow g e.raw)).1.2.2 = none) (num : Nat) :
    GateWork g (.race :: postParts) d (d.frameStart e g num) ∧
    ∃ f, ((d.frameStart e g num).gate g).frame = some f ∧ f.number = num ∧ f.startRaw = e.raw ∧ f.lines = [] ∧
      f.smp.slot = some k ∧ f.smp.capture = d.captureNow g e.raw ∧ f.smp.counter = (d.assign g (d.captureNow g e.raw)).1.1 ∧
      (Settings.fset (d.gate g).settings = none →
        ((d.frameStart e g num).gate g).nextCounter = ((d.gate g).nextCounter + 1) % 2 ^ 32) := by
  have hclosed : d.closeCamera e g false = d := by simp only [Dev.closeCamera, hframe]
  obtain ⟨hbwork, hbgate⟩ := d.boundary_spec e g
  rw [Gate.settle_of_none hlive] at hbgate
  obtain ⟨b, hb⟩ : ∃ b, b = d.boundary e g := ⟨_, rfl⟩
  rw [← hb] at hbwork hbgate
  have hbfsets : b.fsets = d.fsets := (hbwork.1 .fsets (by decide)).symm
  have hbtu : b.tu = d.tu := (hbwork.1 .tu (by decide)).symm
  obtain ⟨c, hc⟩ : ∃ c, c = b.modGate g fun x => { x with lastFs := some e.raw, silentSince := e.raw } := ⟨_, rfl⟩
  have hcwork : GateWork g (.race :: postParts) d c := hc ▸ hbwork.trans ((GateWork.modGate b g _).mono (by decide))
  have hcgate : c.gate g = { b.gate g with lastFs := some e.raw, silentSince := e.raw } := by rw [hc, Dev.gate_modGate_same]
  have hcfsets : c.fsets = d.fsets := by rw [hc]; exact hbfsets
  have hctu : c.tu = d.tu := by rw [hc]; exact hbtu
  have hcset : (c.gate g).settings = (d.gate g).settings := by rw [hcgate, hbgate]
  have hcap : c.captureNow g e.raw = d.captureNow g e.raw := Dev.captureNow_congr hcset hcfsets hctu _
  have hassign : (c.assign g (d.captureNow g e.raw)).1 = (d.assign g (d.captureNow g e.raw)).1 :=
    Dev.assign_congr hcset (by rw [hcgate, hbgate]) (by rw [hcgate, hbgate]) hcfsets _
  obtain ⟨F, hF, hkept, hcount, -⟩ := c.assign_gate g (d.captureNow g e.raw)
  obtain ⟨a, ha⟩ : ∃ a, a = (c.assign g (d.captureNow g e.raw)).2 := ⟨_, rfl⟩
  have hawork : GateWork g (.race :: postParts) d a := by rw [ha, hF]; exact hcwork.trans ((GateWork.modGate c g F).mono (by decide))
  have hagate : a.gate g = F (c.gate g) := by rw [ha, hF, Dev.gate_modGate_same]
  have haslot : (a.gate g).pickSlot = some k := by
    rw [hagate, hkept, ← hslot]
    apply Gate.pickSlot_congr <;> simp only [hcgate, hbgate]
  have hearly : ((b.gate g).lastFs.map fun t => decide (e.raw < t + 1000 * b.minIntervalUs (d.gate g).settings)).getD false = false := by
    rw [hbgate]
    cases hlast : (d.gate g).lastFs with
    | none => rfl
    | some t =>
      have hmin : b.minIntervalUs (d.gate g).settings = d.minIntervalUs (d.gate g).settings := by
        simp only [Dev.minIntervalUs, Dev.setPeriod, Dev.fset, hbfsets]
      simpa [hmin] using htime t hlast
  have hbset : (b.gate g).settings = (d.gate g).settings := by rw [hbgate]
  have hstart : d.frameStart e g num =
      let r := a.beginSample g (c.assign g (d.captureNow g e.raw)).1.1 (d.captureNow g e.raw)
        (c.gateDomain (b.gate g).settings == 1) (c.assign g (d.captureNow g e.raw)).1.2.1 none
      r.2.modGate g fun x => { x with frame := some { smp := r.1.1, startRaw := e.raw, number := num } } := by
    have hcap' : c.domTime (c.gateDomain (d.gate g).settings) e.raw + Settings.captureOffset (d.gate g).settings =
        d.captureNow g e.raw := by rw [← hcap, Dev.captureNow, hcset]
    have hopens (n : Nat) (x : Int) (v : Bool) (i : Option (Nat × Int)) : (a.beginSample g n x v i none).1.2 = none := by
      obtain ⟨-, -, hopen, -⟩ := Dev.beginSample_slot haslot n x v i
      exact hopen
    unfold Dev.frameStart
    simp only [hclosed, hfn, ne_eq, not_true_eq_false, if_false, ← hb, hearly, hbset, ← hc, hcap', ← ha, hassign, hdrop,
      Bool.false_eq_true, hopens]
    rfl
  obtain ⟨hrwork, hrcount, -, hrslot, hrcounter, hrcapture⟩ := Dev.beginSample_slot haslot (c.assign g (d.captureNow g e.raw)).1.1
    (d.captureNow g e.raw) (c.gateDomain (b.gate g).settings == 1) (c.assign g (d.captureNow g e.raw)).1.2.1
  rw [hstart]
  refine ⟨(hawork.trans (hrwork.mono (by decide))).trans ((GateWork.modGate _ g _).mono (by decide)), _, congrArg Gate.frame (Dev.gate_modGate_same _ _ _),
    rfl, rfl, rfl, hrslot, hrcapture, hrcounter.trans (congrArg Prod.fst hassign), fun hnone => ?_⟩
  rw [Dev.gate_modGate_same, hrcount, hagate, (hcount (by rw [hcset]; exact hnone)).1, hcgate, hbgate]

/-! ## Packets of an open frame -/

/-- Bytes of a line as they are received in full. -/
theorem padTo_take_self {n : Nat} {b : List Byte} (h : b.length = n) : padTo n (b.take n) = b := by
  simp [padTo, ← h]

theorem Dev.addLine_good {d : Dev} {g : Nat} {f : OpenFrame} (hframe : (d.gate g).frame = some f)
    (hroom : f.lines.length < Settings.height f.smp.st) (e : Env) (b : List Byte) (detail : Nat) :
    d.addLine e g (some b) detail = d.modGate g fun x => { x with frame := some { f with
      lines := f.lines ++ [some b], lastPacket := some e.raw } } := by
  simp only [Dev.addLine, hframe, Option.isNone_some, Bool.false_eq_true, false_and, if_false, Nat.ne_of_lt hroom, Nat.not_le.mpr hroom]

theorem Dev.addLine_bad {d : Dev} {g : Nat} {f : OpenFrame} (hframe : (d.gate g).frame = some f)
    (hroom : f.lines.length < Settings.height f.smp.st) (e : Env) (detail : Nat) :
    d.addLine e g none detail = (d.raise (0x200 + g) 0x10 detail (lineArg f.smp.counter f.lines.length)).modGate g fun x =>
      { x with frame := some { f with lines := f.lines ++ [none], lastPacket := some e.raw } } := by
  simp only [Dev.addLine, hframe, Option.isNone_none, true_and, if_pos hroom, Nat.ne_of_lt hroom, false_and, if_false,
    Nat.not_le.mpr hroom]

section

variable {d : Dev} {g : Nat} {f : OpenFrame} {data : List Byte} (hframe : (d.gate g).frame = some f)
  (hbits : (dataTypeBits (Settings.dataType f.smp.st)).isSome = true) (hlen : data.length = Settings.lineBytes f.smp.st)
  (hroom : f.lines.length < Settings.height f.smp.st)
include hframe hbits hlen hroom

/-- A good line, the first one of a gate with no embedded counter or a later one, joins the frame. -/
theorem Dev.linePacket_good (hfirst : f.lines ≠ [] ∨ Settings.get f.smp.st 0x13 0 % 256 / 8 = 0) (e : Env) :
    d.linePacket e g f (Settings.dataType f.smp.st) (Settings.lineBytes f.smp.st) true false data =
      d.modGate g fun x => { x with frame := some { f with lines := f.lines ++ [some data], lastPacket := some e.raw } } := by
  have hbits' : ¬ (dataTypeBits (Settings.dataType f.smp.st)).isNone = true := by
    rw [Option.isNone_iff_eq_none]; exact Option.isSome_iff_ne_none.mp hbits
  unfold Dev.linePacket
  simp only [if_neg hbits', ne_eq, not_true_eq_false, if_false, Bool.not_true, Bool.false_eq_true, padTo_take_self hlen,
    Dev.addLine_good hframe hroom]
  rcases hfirst with hsome | hzero
  · rw [if_neg (by simpa using hsome)]
  · have hcheck : d.checkCounter g f.smp.counter f.smp.st data = (false, d) := by simp only [Dev.checkCounter, if_pos hzero]
    simp only [hcheck, Bool.false_eq_true, if_false, Dev.addLine_good hframe hroom, ite_self]

omit hframe in
/-- A line whose CRC fails joins the frame as damage, its bytes kept for the detector. -/
theorem Dev.linePacket_badCrc (e : Env) : ∃ f' : OpenFrame, f' = { f with got := tset f.got f.lines.length data } ∧
    d.linePacket e g f (Settings.dataType f.smp.st) (Settings.lineBytes f.smp.st) false false data =
      ((d.modGate g fun x => { x with frame := some f' }).raise (0x200 + g) 0x10 3 (lineArg f.smp.counter f.lines.length)).modGate g
        fun x => { x with frame := some { f' with lines := f.lines ++ [none], lastPacket := some e.raw } } := by
  have hbits' : ¬ (dataTypeBits (Settings.dataType f.smp.st)).isNone = true := by
    rw [Option.isNone_iff_eq_none]; exact Option.isSome_iff_ne_none.mp hbits
  refine ⟨_, rfl, ?_⟩
  unfold Dev.linePacket
  simp only [if_neg hbits', ne_eq, not_true_eq_false, if_false, Bool.not_false, if_true, padTo_take_self hlen, if_pos hroom]
  exact Dev.addLine_bad (f := { f with got := tset f.got f.lines.length data })
    (congrArg Gate.frame (d.gate_modGate_same g _)) hroom e 3

end

/-! ## Frame End -/

/-- A gate none of whose samples is dropped has no drop notice to post. -/
theorem Dev.flushDrops_of_slots {d : Dev} {g : Nat} (hpipe : ∀ y ∈ (d.gate g).pipe, y.slot.isSome = true) (e : Env) :
    GateWork g [.race] d (d.flushDrops e g) ∧ (d.flushDrops e g).gate g = d.gate g := by
  have hnone : (d.gate g).pipe.takeWhile (fun x => x.slot.isNone) = [] := by
    cases hp : (d.gate g).pipe with
    | nil => rfl
    | cons y l => simp [Option.isSome_iff_ne_none.mp (hpipe y (hp ▸ List.mem_cons_self))]
  have hall : (d.gate g).pipe.dropWhile (fun x => x.slot.isNone) = (d.gate g).pipe := by
    cases hp : (d.gate g).pipe with
    | nil => rfl
    | cons y l => simp [Option.isSome_iff_ne_none.mp (hpipe y (hp ▸ List.mem_cons_self))]
  have hflush : d.flushDrops e g = d.modGate g fun x => { x with pipe := (d.gate g).pipe } := by
    simp only [Dev.flushDrops, hnone, hall, List.foldl_nil]
  rw [hflush, Dev.gate_modGate_same]
  exact ⟨GateWork.modGate _ _ _, rfl⟩

/-- The detector changes its gate's history, and may raise a fault. -/
theorem Dev.judgeTiles_spec (d : Dev) (g counter : Nat) (t : List (Nat × Bool)) :
    GateWork g (.race :: faultParts) d (d.judgeTiles g counter t).2 ∧
    ((d.judgeTiles g counter t).2.gate g).pipe = (d.gate g).pipe ∧ ((d.judgeTiles g counter t).2.gate g).frame = (d.gate g).frame := by
  have hraised (b : Dev) (c : Bool) : GateWork g (.race :: faultParts) b (if c then b.raise (0x200 + g) 0x14 0 counter else b) ∧
      (if c then b.raise (0x200 + g) 0x14 0 counter else b).gate g = b.gate g := by
    cases c with
    | false => exact ⟨GateWork.refl _ _ _, rfl⟩
    | true => exact ⟨((GateWork.of_agrees (b.agrees_raise _ _ _ _) (by decide)).mono (by decide)), Dev.gate_of_race (b.raise_race _ _ _ _) g⟩
  refine ⟨((GateWork.modGate d g _).mono (by decide)).trans (hraised _ _).1, ?_, ?_⟩
  · refine (congrArg Gate.pipe (hraised _ _).2).trans ?_
    rw [Dev.gate_modGate_same]
  · refine (congrArg Gate.frame (hraised _ _).2).trans ?_
    rw [Dev.gate_modGate_same]

/-- A sample that goes forward at a gate that has dropped none. -/
theorem Dev.forward_of_slots {d : Dev} {g : Nat} {x : Sample} (hpipe : ∀ y ∈ (d.gate g).pipe, y.slot.isSome = true)
    (hx : x.slot.isSome = true) (e : Env) :
    GateWork g [.race] d (d.forward e g x) ∧
    (d.forward e g x).gate g = { d.gate g with pipe := (d.gate g).pipe ++ [x], failedRun := 0 } := by
  have hnext : ∀ y ∈ ((d.modGate g fun y => { y with pipe := y.pipe ++ [x], failedRun := 0 }).gate g).pipe, y.slot.isSome = true := by
    rw [Dev.gate_modGate_same]
    intro y hy
    rcases List.mem_append.mp hy with hold | hnew
    · exact hpipe y hold
    · exact List.mem_singleton.mp hnew ▸ hx
  obtain ⟨hwork, hgate⟩ := Dev.flushDrops_of_slots hnext e
  exact ⟨(GateWork.modGate d g _).trans hwork, hgate.trans (Dev.gate_modGate_same _ _ _)⟩

/-- A gate with a sample in work does not settle. -/
theorem Dev.settleGate_of_pipe {d : Dev} {g : Nat} (h : (d.gate g).pipe ≠ []) (e : Env) : d.settleGate e g = d := by
  refine if_neg fun hstop => h ?_
  exact List.isEmpty_iff.mp hstop.2.2.2

/-- The units of an open frame that never came or came damaged. -/
theorem OpenFrame.damage_sample (f : OpenFrame) {h : Nat} (hlines : f.lines.length = h) (n : Nat) (fill : Byte) :
    (f.sample n fill).damage = (List.range h).filter fun i => ((f.lines[i]?).bind id).isNone := by
  rw [← hlines]; rfl

/-- A line that came whole stays as it came. -/
theorem concealLines_of_good {st : Settings} {lines : List (Option (List Byte))} {y : Nat} {b : List Byte}
    (h : lines[y]? = some (some b)) : (concealLines st lines)[y]? = some b := by
  simp [concealLines, List.getElem?_zipIdx, h]

/-- A frame that ends with all its lines, in order and with damage that can be concealed, goes forward. -/
theorem Dev.closeCamera_forward {d : Dev} {g : Nat} {f : OpenFrame} (hframe : (d.gate g).frame = some f) (hdropped : f.dropped = false)
    (hsurplus : f.surplus = 0) (hlines : f.lines.length = Settings.height f.smp.st)
    (hkeep : dropDetail f.smp.st (f.sample 0 0).damage 0 = none) (hslot : f.smp.slot.isSome = true)
    (hpipe : ∀ y ∈ (d.gate g).pipe, y.slot.isSome = true) (e : Env) :
    GateWork g raceParts d (d.closeCamera e g false) ∧ ((d.closeCamera e g false).gate g).frame = none ∧
    ((d.closeCamera e g false).gate g).failedRun = 0 ∧
    ∃ x : Sample, ((d.closeCamera e g false).gate g).pipe = (d.gate g).pipe ++ [x] ∧ x.counter = f.smp.counter ∧
      x.capture = f.smp.capture ∧ x.slot = f.smp.slot ∧ x.damage = (f.sample 0 0).damage ∧ x.concealed = !x.damage.isEmpty ∧
      ∀ (y : Nat) (b : List Byte), f.lines[y]? = some (some b) → x.input[y]? = some b := by
  have hdamage := f.damage_sample hlines 0 0
  rw [hdamage] at hkeep
  obtain ⟨dm, hdm⟩ : ∃ dm, dm = (f.sample 0 0).damage := ⟨_, rfl⟩
  have hclose : ∃ t r, d.closeCamera e g false =
      (((d.modGate g fun x => { x with frame := none, headerBad := false, orphaned := false }).spend.judgeTiles g f.smp.counter t).2.forward
        e g { f.smp with damage := dm, input := concealLines f.smp.st f.lines, concealed := !dm.isEmpty, repeated := r }).settleGate e g := by
    unfold Dev.closeCamera
    simp only [hframe, hlines, Nat.sub_self, List.range_zero, List.map_nil, List.append_nil, List.foldl_nil, hdropped, hsurplus,
      Bool.false_eq_true, if_false, Nat.lt_irrefl, decide_false, Bool.or_self, hkeep, hdm, hdamage]
    exact ⟨_, _, rfl⟩
  obtain ⟨t, r, hclose⟩ := hclose
  obtain ⟨b, hb⟩ : ∃ b, b = (d.modGate g fun x => { x with frame := none, headerBad := false, orphaned := false }).spend := ⟨_, rfl⟩
  have hbwork : GateWork g raceParts d b := hb ▸ ((GateWork.modGate d g _).mono (by decide)).trans ((GateWork.of_agrees (Dev.agrees_spend _) (by decide)).mono (by decide))
  have hbgate : b.gate g = { d.gate g with frame := none, headerBad := false, orphaned := false } := by
    rw [hb]; exact d.gate_modGate_same g _
  obtain ⟨hjwork, hjpipe, hjframe⟩ := b.judgeTiles_spec g f.smp.counter t
  rw [← hb] at hclose
  obtain ⟨j, hj⟩ : ∃ j, j = (b.judgeTiles g f.smp.counter t).2 := ⟨_, rfl⟩
  rw [← hj] at hclose hjwork hjpipe hjframe
  obtain ⟨x, hx⟩ : ∃ x : Sample, x = { f.smp with
    damage := dm, input := concealLines f.smp.st f.lines, concealed := !dm.isEmpty, repeated := r } := ⟨_, rfl⟩
  rw [← hx] at hclose
  obtain ⟨hfwork, hfgate⟩ := Dev.forward_of_slots (d := j) (g := g) (x := x) (by rw [hjpipe, hbgate]; exact hpipe) (by rw [hx]; exact hslot) e
  have hpipe' : ((j.forward e g x).gate g).pipe = (d.gate g).pipe ++ [x] := by rw [hfgate, hjpipe, hbgate]
  rw [Dev.settleGate_of_pipe (by rw [hpipe']; simp)] at hclose
  rw [hclose]
  refine ⟨(hbwork.trans (hjwork.mono (by decide))).trans (hfwork.mono (by decide)), ?_, ?_, x, hpipe', ?_⟩
  · rw [hfgate, hjframe, hbgate]
  · rw [hfgate]
  · rw [hx, hdm]
    exact ⟨rfl, rfl, rfl, rfl, rfl, fun y b hy => concealLines_of_good hy⟩

/-! ## The rows -/

section

variable {s : State} {p vc : Nat} {ecc : HeaderEcc} (hclk : s.dev.clocked = true) (hp : p < 12) (hvc : vc < 32)
include hclk hp hvc

theorem exec_csiFrameStart_bad (num : Nat) : exec (.csiFrameStart p vc .uncorrectable num) s = .next (s.put (s.dev.badHeader p)) := by
  rw [exec_csiFrameStart, execCsiFrameStart, runClocked_running (by simp [missingUnit, Instr.units, hp, hvc]) hclk, if_pos rfl]

theorem exec_csiLineMarker_bad : exec (.csiLineMarker p ⟨vc, .uncorrectable⟩) s = .next (s.put (s.dev.badHeader p)) := by
  rw [exec_csiLineMarker, execCsiLineMarker, runClocked_running (by simp [missingUnit, Instr.units, hp, hvc]) hclk, if_pos rfl]

variable (hecc : ecc ≠ .uncorrectable)
include hecc

theorem exec_csiLineMarker_unmapped (hgate : s.dev.gateOf p vc = none) :
    exec (.csiLineMarker p ⟨vc, ecc⟩) s = .next (s.put ((s.dev.countHeader p ecc).discardPacket s.env p none)) := by
  rw [exec_csiLineMarker, execCsiLineMarker, runClocked_running (by simp [missingUnit, Instr.units, hp, hvc]) hclk]
  simp only [if_neg hecc, Dev.gateOf_countHeader, hgate]

variable {g : Nat} (hgate : s.dev.gateOf p vc = some g) (htakes : s.dev.takesCsi g = true)
include hgate htakes

theorem exec_csiLineMarker_taken : exec (.csiLineMarker p ⟨vc, ecc⟩) s = .next (s.put (s.dev.countHeader p ecc)) := by
  rw [exec_csiLineMarker, execCsiLineMarker, runClocked_running (by simp [missingUnit, Instr.units, hp, hvc]) hclk]
  simp only [if_neg hecc, Dev.gateOf_countHeader, hgate, Dev.takesCsi_countHeader, htakes, if_true]

theorem exec_csiFrameStart_running (hfn : (s.dev.gate g).fn = .running) (num : Nat) :
    exec (.csiFrameStart p vc ecc num) s = .next (s.put ((s.dev.countHeader p ecc).frameStart s.env g num)) := by
  rw [exec_csiFrameStart, execCsiFrameStart, runClocked_running (by simp [missingUnit, Instr.units, hp, hvc]) hclk]
  simp only [if_neg hecc, Dev.gateOf_countHeader, hgate, Dev.takesCsi_countHeader, htakes, Bool.not_true, Bool.false_eq_true, if_false,
    Dev.gate_countHeader, hfn, if_true]

theorem exec_csiLongPacket_open {f : OpenFrame} (hframe : (s.dev.gate g).frame = some f) (dt wc : Nat) (crcOk full : Bool) (data : List Byte) :
    exec (.csiLongPacket p vc ecc dt wc crcOk full data) s =
      .next (s.put ((s.dev.countHeader p ecc).linePacket s.env g f dt wc crcOk full data)) := by
  rw [exec_csiLongPacket, execCsiLongPacket, runClocked_running (by simp [missingUnit, Instr.units, hp, hvc]) hclk]
  simp only [if_neg hecc, Dev.gateOf_countHeader, hgate, Dev.takesCsi_countHeader, htakes, Bool.not_true, Bool.false_eq_true, if_false,
    Dev.gate_countHeader, hframe]

end

/-- Settles O28: a Frame Start opens, a line joins, a Frame End closes; headers are counted at their port. -/
theorem cameraFrames : Obligations.camera_frames := by
  intro s p vc g ecc hclk hp hvc hecc
  obtain ⟨d, hd⟩ : ∃ d, d = s.dev.countHeader p ecc := ⟨_, rfl⟩
  have hwork : GateWork g [.race] s.dev d := hd ▸ GateWork.countHeader s.dev p ecc g
  have hgate (j : Nat) : d.gate j = s.dev.gate j := hd ▸ s.dev.gate_countHeader p ecc j
  have hdfsets : d.fsets = s.dev.fsets := (hwork.1 .fsets (by decide)).symm
  refine ⟨fun num st k hof hfn hst hkind hframe hlive hslot htime hdrop => ?start, fun f data wc hof htakes hframe hbits hwc hlen hfirst hroom => ?line,
    fun f num hof htakes hframe htime hnum hsurplus hdropped hlines hkeep hslot hpipe => ?end_,
    fun hof htakes => exec_csiLineMarker_taken hclk hp hvc hecc hof htakes,
    fun num => (exec_csiLineMarker_bad hclk hp hvc).trans (exec_csiFrameStart_bad hclk hp hvc num).symm,
    fun hof => ?unmapped, fun num => ?bad⟩
  case start =>
    subst hst
    have htakes : s.dev.takesCsi g = true := by simp [Dev.takesCsi, hfn, hkind]
    have hexec := exec_csiFrameStart_running hclk hp hvc hecc hof htakes hfn num
    rw [← hd] at hexec
    have hcap : d.captureNow g s.clk.raw = s.dev.captureNow g s.clk.raw :=
      Dev.captureNow_congr (by rw [hgate]) hdfsets (hwork.1 .tu (by decide)).symm _
    have hassign : (d.assign g (s.dev.captureNow g s.clk.raw)).1 = (s.dev.assign g (s.dev.captureNow g s.clk.raw)).1 :=
      Dev.assign_congr (by rw [hgate]) (by rw [hgate]) (by rw [hgate]) hdfsets _
    have hmin : d.minIntervalUs (s.dev.gate g).settings = s.dev.minIntervalUs (s.dev.gate g).settings := by
      simp only [Dev.minIntervalUs, Dev.setPeriod, Dev.fset, hdfsets]
    have hopens := Dev.frameStart_opens (d := d) (e := s.env) (g := g) (k := k) (by rw [hgate]; exact hfn) (by rw [hgate]; exact hframe)
      (by rw [hgate]; exact hlive) (by rw [hgate]; exact hslot) (by rw [hgate, hmin]; exact htime)
      (by rw [State.env_raw, hcap, hassign]; exact hdrop) num
    obtain ⟨hstart, f, hf, hnum, hraw, hlines, hk, hcapt, hcounter, hnext⟩ := hopens
    rw [State.env_raw, hcap] at hcapt hcounter
    rw [hassign] at hcounter
    rw [hgate] at hnext
    have hall := (hwork.mono (l := .race :: postParts) (by decide)).trans hstart
    obtain ⟨F, -, -, hnone, hset⟩ := s.dev.assign_gate g (s.dev.captureNow g s.clk.raw)
    exact ⟨_, f, hexec, hf, hnum, State.touches_of_agrees hall.1, hall.2, hraw, hlines, hk, hcapt,
      fun hn => ⟨hcounter.trans (hnone hn).2, hnext hn⟩, fun n c hn hc => hcounter.trans (hset n c hn hc)⟩
  case line =>
    subst hwc
    have hdframe : (d.gate g).frame = some f := by rw [hgate]; exact hframe
    constructor
    · have hexec := exec_csiLongPacket_open hclk hp hvc hecc hof htakes hframe (Settings.dataType f.smp.st)
        (Settings.lineBytes f.smp.st) true false data
      rw [← hd, Dev.linePacket_good hdframe hbits hlen hroom hfirst] at hexec
      exact ⟨_, hexec, by rw [hd]; rfl⟩
    · have hexec := exec_csiLongPacket_open hclk hp hvc hecc hof htakes hframe (Settings.dataType f.smp.st)
        (Settings.lineBytes f.smp.st) false false data
      obtain ⟨f', hf', hline⟩ := Dev.linePacket_badCrc (d := d) (g := g) hbits hlen hroom s.env
      rw [← hd, hline] at hexec
      have hkept : GateWork g [.race] s.dev (d.modGate g fun x => { x with frame := some f' }) := hwork.trans (GateWork.modGate d g _)
      have hall := ((hkept.mono (l := .race :: faultParts) (by decide)).trans ((GateWork.of_agrees (Dev.agrees_raise _ (0x200 + g) 0x10 3
        (lineArg f.smp.counter f.lines.length)) (by decide)).mono (by decide))).trans ((GateWork.modGate _ g fun x =>
          { x with frame := some { f' with lines := f.lines ++ [none], lastPacket := some s.env.raw } }).mono (by decide))
      refine ⟨_, hexec, ?_, State.touches_of_agrees hall.1, hall.2, hkept.1.raise_col _ _ _ _ (by decide)⟩
      rw [State.put_dev, Dev.gate_modGate_same, hf']
      rfl
  case end_ =>
    have hexec := exec_csiFrameEnd_closes hp hvc hclk hecc hof htakes hframe htime num
    have hcheck : (f.number ≠ 0 && num ≠ f.number) = false := by
      rcases hnum with hzero | hsame
      · simp [hzero]
      · simp [hsame]
    rw [hcheck, ← hd] at hexec
    obtain ⟨hclosed, hnone, hrun, x, hx, hcounter, hcapture, hslotx, hdamage, hconc, hinput⟩ :=
      Dev.closeCamera_forward (d := d) (g := g) (f := f) (by rw [hgate]; exact hframe) hdropped hsurplus hlines hkeep hslot
        (by rw [hgate]; exact hpipe) s.env
    have hall := (hwork.mono (l := raceParts) (by decide)).trans hclosed
    exact ⟨_, x, hexec, hnone, hrun, State.touches_of_agrees hall.1, hall.2, by rw [State.put_dev, hx, hgate], hcounter, hcapture, hslotx,
      hdamage, hconc, hinput⟩
  case unmapped =>
    obtain ⟨hagrees, hcount, hgates, hcol⟩ := d.discardPacket_none_spec s.env p
    obtain ⟨-, hsame, -, hports⟩ := s.dev.countHeader_spec p ecc
    rw [← hd] at hsame hports
    have hexec := exec_csiLineMarker_unmapped hclk hp hvc hecc hof
    rw [← hd] at hexec
    exact ⟨_, hexec, hcount.trans (congrArg (· + 1) (hports p)), hgates.trans hsame,
      State.touches_of_agrees ((hwork.1.mono (by decide)).trans hagrees),
      hcol.trans (Dev.raiseSecond_col_congr (hwork.1 .col (by decide)).symm _ _ _ _ _ _)⟩
  case bad =>
    obtain ⟨hagrees, hcount, hmarked, hcol⟩ := s.dev.badHeader_spec p
    exact ⟨_, exec_csiFrameStart_bad hclk hp hvc num, hcount, State.touches_of_agrees hagrees, hmarked, hcol⟩

end Sys2Proof.Machine
end

section
/-! SUPPORT. Samples of one gate from its work to their end (R17, R49, R50, R60, R65, R66, R77, R99): what each may touch, and that none
opens a frame. -/

namespace Sys2Proof.Machine

open Sys2Proof

/-- Work at one gate within the Race's parts that opens no frame. -/
def RaceWork (g : Nat) (a b : Dev) : Prop := GateWork g raceParts a b ∧ ((a.gate g).frame = none → (b.gate g).frame = none)

theorem RaceWork.refl (g : Nat) (d : Dev) : RaceWork g d d := ⟨GateWork.refl _ _ _, id⟩

theorem RaceWork.trans {g : Nat} {a b c : Dev} (hab : RaceWork g a b) (hbc : RaceWork g b c) : RaceWork g a c :=
  ⟨hab.1.trans hbc.1, fun h => hbc.2 (hab.2 h)⟩

theorem RaceWork.agrees {g : Nat} {a b : Dev} (h : RaceWork g a b) : a.agrees raceParts b := h.1.1

theorem RaceWork.others {g : Nat} {a b : Dev} (h : RaceWork g a b) : ∀ j, j ≠ g → b.gate j = a.gate j := h.1.2

theorem RaceWork.ite {g : Nat} {a b c : Dev} {p : Prop} [Decidable p] (hb : RaceWork g a b) (hc : RaceWork g a c) :
    RaceWork g a (if p then b else c) := by
  split
  · exact hb
  · exact hc

theorem RaceWork.foldl {α : Type} {g : Nat} {f : Dev → α → Dev} (h : ∀ (d : Dev) x, RaceWork g d (f d x)) (xs : List α) (d : Dev) :
    RaceWork g d (xs.foldl f d) :=
  List.foldlRecOn (motive := fun b => RaceWork g d b) xs f (RaceWork.refl g d) fun b hb x _ => hb.trans (h b x)

/-- What leaves the gates alone opens no frame. -/
theorem RaceWork.of_agrees {g : Nat} {l : List Part} {a b : Dev} (h : a.agrees l b) (hl : l ⊆ raceParts ∧ Part.race ∉ l) :
    RaceWork g a b :=
  ⟨(GateWork.of_agrees h hl.2).mono hl.1, fun hnone => (Dev.gate_of_race (h .race hl.2) g) ▸ hnone⟩

/-- A change of the gate that opens no frame. -/
theorem RaceWork.modGate (d : Dev) (g : Nat) {f : Gate → Gate}
    (hf : ∀ x, x.frame = none → (f x).frame = none ) : RaceWork g d (d.modGate g f) :=
  ⟨((GateWork.modGate d g f).mono (by decide)), fun h => by rw [Dev.gate_modGate_same]; exact hf _ h⟩

theorem RaceWork.raise (g : Nat) (d : Dev) (src kind detail arg : Nat) : RaceWork g d (d.raise src kind detail arg) :=
  RaceWork.of_agrees (d.agrees_raise _ _ _ _) (by decide)

/-! ## Writes and notices -/

theorem Dev.agrees_fsetDone_hostPort (d : Dev) (e : Env) (f v : Nat) : d.agrees (.fsets :: faultParts) (d.fsetDone e f .hostPort v) :=
  (d.agrees_judgeTo f e.raw e.raw).andThen (Dev.agrees_raise _ _ _ _ _) (by decide)

theorem Dev.agrees_missed (d : Dev) (src acc : Nat) (r : Reach) (a : Nat) : d.agrees (.folds :: faultParts) (d.missed src acc r a) := by
  unfold Dev.missed
  split
  · exact ((d.agrees_raise _ _ _ _).mono (by decide))
  · exact ((d.agrees_raise _ _ _ _).mono (by decide))
  · exact (d.agrees_refl _).ite (((d.agrees_modFold _ _).mono (by decide)).andThen (Dev.agrees_raise _ _ _ _ _) (by decide))
  · rfl

/-- A write by the Race touches the memory, the fold that holds it, and what its faults touch. -/
theorem Dev.agrees_writeFrom_hostPort (d : Dev) (e : Env) (src acc a : Nat) (bs : List Byte) (p : Bool) :
    d.agrees [.mem, .folds, .phys, .fsets, .col, .safe] (d.writeFrom e src acc a bs p .hostPort) := by
  have hstatus (off : Nat) : d.agrees (.fsets :: faultParts) (d.statusStore e off bs .hostPort) :=
    (d.agrees_fsetDone_hostPort _ _ _).ite (d.agrees_refl _)
  unfold Dev.writeFrom
  split
  · refine (d.agrees_refl _).ite (((((hstatus _).mono (by decide)).ite (d.agrees_refl _))).ite ?_)
    exact (((d.agrees_touch e a).mono (by decide)).andThen (Dev.agrees_mergeHold _ _ _) (by decide)).andThen (Dev.agrees_write _ _ _ _) (by decide)
  · exact ((d.agrees_missed _ _ _ _).mono (by decide))

theorem Dev.agrees_noteOn (d : Dev) (e : Env) (q kind r0 r1 r2 : Nat) (u : Bool) : d.agrees postParts (d.noteOn e q kind r0 r1 r2 u) := by
  rw [Dev.noteOn_frame]; exact d.agrees_post _ _ _ _ _

theorem Dev.agrees_monitorNotice (d : Dev) (f : Nat) (i : Int) (dropped : Bool) : d.agrees [.fsets] (d.monitorNotice f i dropped) := by
  have hstart := (d.agrees_refl [.fsets]).ite (p := (d.fset f).running = true) (c := (d.modFset f fun s => { s with
      running := true, current := patternOf i 32, serial := i, late := 0, incomplete := 0, doneBits := [] }).rewriteDeadline f)
    ((d.agrees_modFset f _).trans (Dev.agrees_rewriteDeadline _ f))
  exact (hstart.trans (Dev.agrees_modFset _ f _)).ite hstart

/-- What a notice of a gate may touch. -/
def noticeParts : List Part := .flights :: .fsets :: postParts

theorem Dev.agrees_gateNotice (d : Dev) (e : Env) (g : Nat) (st : Settings) (slot flags counter : Nat) (inst : Option (Nat × Int)) :
    d.agrees noticeParts (d.gateNotice e g st slot flags counter inst) := by
  have hmonitor (b : Dev) (hb : d.agrees noticeParts b) : d.agrees noticeParts (
      let b' := noticeBytes slot g flags counter
      let c := if Settings.noticeIdent st = 0xFFFF then b
        else b.launchFlight (.entry (Settings.noticeIdent st) (.gate g) b' true (0x200 + g))
      if Settings.noticeQueue st = 0 then c else c.noteOn e (Settings.noticeQueue st) 1 0 (fieldAt b' 0 8) (fieldAt b' 8 8) false) := by
    have hflight := hb.ite (p := Settings.noticeIdent st = 0xFFFF) (hb.andThen (b.agrees_flights
      (b.flights ++ [.entry (Settings.noticeIdent st) (.gate g) (noticeBytes slot g flags counter) true (0x200 + g)])) (by decide))
    exact hflight.ite (hflight.andThen (Dev.agrees_noteOn _ _ _ _ _ _ _ _) (by decide))
  unfold Dev.gateNotice
  split
  · exact hmonitor _ ((d.agrees_monitorNotice _ _ _).mono (by decide))
  · exact hmonitor _ (d.agrees_refl _)

theorem RaceWork.gateNotice (d : Dev) (e : Env) (g : Nat) (st : Settings) (slot flags counter : Nat) (inst : Option (Nat × Int)) :
    RaceWork g d (d.gateNotice e g st slot flags counter inst) :=
  RaceWork.of_agrees (d.agrees_gateNotice e g st slot flags counter inst) (by decide)

theorem RaceWork.dropNotice (d : Dev) (e : Env) (g : Nat) (x : Sample) : RaceWork g d (d.dropNotice e g x) :=
  RaceWork.gateNotice d e g _ _ _ _ _

theorem RaceWork.flushDrops (d : Dev) (e : Env) (g : Nat) : RaceWork g d (d.flushDrops e g) := by
  unfold Dev.flushDrops
  exact (RaceWork.modGate d g (by exact fun _ h => h)).trans (RaceWork.foldl (fun d x => RaceWork.dropNotice d e g x) _ _)

/-! ## Samples delivered, abandoned and dropped -/

theorem Gate.setTable_frame (x : Gate) (k : Nat) (t : GTable) : (x.setTable k t).frame = x.frame := by
  unfold Gate.setTable
  split
  · rfl
  · split <;> rfl

theorem RaceWork.readTables (d : Dev) (g : Nat) (x : Sample) : RaceWork g d (d.readTables g x).2 := by
  have hraised (d : Dev) (kind detail arg : Nat) : RaceWork g d (d.raise 0x254 kind detail arg).spend :=
    (RaceWork.raise g d _ _ _ _).trans (RaceWork.of_agrees (Dev.agrees_spend _) (by decide))
  unfold Dev.readTables
  refine List.foldlRecOn (motive := fun b : Bool × Dev => RaceWork g d b.2) _ _ (RaceWork.refl g d) fun b hb kb _ => ?_
  refine List.foldlRecOn (motive := fun b : Bool × Dev => RaceWork g d b.2) _ _ ?_ fun c hc y _ => ?_
  · exact hb
  dsimp only
  split
  · refine RaceWork.trans ?_ (hraised _ _ _ _)
    exact hc.trans (RaceWork.modGate _ g fun y h => (y.setTable_frame _ _).trans h)
  · refine RaceWork.trans (RaceWork.trans ?_ (RaceWork.modGate _ g fun y h => (y.setTable_frame _ _).trans h)) (hraised _ _ _ _)
    exact hc.trans (RaceWork.modGate _ g fun y h => (y.setTable_frame _ _).trans h)
  · refine RaceWork.trans (RaceWork.trans ?_ (RaceWork.modGate _ g fun y h => (y.setTable_frame _ _).trans h)) (hraised _ _ _ _)
    exact hc.trans (RaceWork.modGate _ g fun y h => (y.setTable_frame _ _).trans h)

theorem RaceWork.writeFrom (d : Dev) (g : Nat) (e : Env) (src acc a : Nat) (bs : List Byte) (p : Bool) :
    RaceWork g d (d.writeFrom e src acc a bs p .hostPort) :=
  RaceWork.of_agrees (d.agrees_writeFrom_hostPort e src acc a bs p) (by decide)

theorem RaceWork.deliverSample (d : Dev) (e : Env) (g : Nat) (x : Sample) (payload : List Byte) (abandoned : Bool) :
    RaceWork g d (d.deliverSample e g x payload abandoned) := by
  unfold Dev.deliverSample
  dsimp only
  refine RaceWork.trans ?_ (RaceWork.gateNotice _ e g _ _ _ _ _)
  refine RaceWork.trans ?_ (RaceWork.modGate _ g (by exact fun _ h => h))
  refine RaceWork.trans ?_ (RaceWork.writeFrom _ g e _ _ _ _ _)
  refine RaceWork.trans ?_ (RaceWork.writeFrom _ g e _ _ _ _ _)
  have hpayload (y : Sample) (b : Bool) := (RaceWork.readTables d g y).trans (RaceWork.writeFrom (d.readTables g y).2 g e 0x254 0xFF
    (Settings.slotAddr x.st (x.slot.getD 0) + 0x140) payload b)
  exact ((hpayload _ _).trans (RaceWork.of_agrees (Dev.agrees_write _ _ _ _) (by decide))).ite (hpayload _ _)

theorem RaceWork.abandonSample (d : Dev) (e : Env) (g : Nat) (x : Sample) : RaceWork g d (d.abandonSample e g x) :=
  (RaceWork.dropNotice d e g x).ite ((RaceWork.deliverSample d e g _ _ _).ite ((RaceWork.deliverSample d e g _ _ _).ite
    ((RaceWork.of_agrees (Dev.agrees_spend d) (by decide)).trans (RaceWork.deliverSample _ e g _ _ _))))

theorem RaceWork.finish (d : Dev) (g : Nat) (e : Env) (o : Outst) (r : Reply) : RaceWork g d (d.finish e o r) :=
  RaceWork.of_agrees (d.agrees_finish e o r) (by decide)

/-- A gate's open work that is abandoned leaves no open frame. -/
theorem Dev.abandonGate_spec (d : Dev) (e : Env) (g : Nat) :
    RaceWork g d (d.abandonGate e g) ∧ ((d.abandonGate e g).gate g).frame = none := by
  have hclear : RaceWork g d (d.modGate g fun x => { x with pipe := [], frame := none, feeds := [], shift := none }) :=
    RaceWork.modGate d g fun _ _ => rfl
  have hnone : ((d.modGate g fun x => { x with pipe := [], frame := none, feeds := [], shift := none }).gate g).frame = none := by
    rw [Dev.gate_modGate_same]
  have hrest : RaceWork g (d.modGate g fun x => { x with pipe := [], frame := none, feeds := [], shift := none }) (d.abandonGate e g) := by
    have hfeeds (l : List Feed) (b : Dev) : RaceWork g b (l.foldl (fun d' f =>
        if f.refused then
          d'.dropNotice e g { counter := f.counter, capture := f.capture, domB := f.domB, inst := f.inst, st := (d.gate g).settings }
        else match d'.outstBy f.q f.tag with
          | some o => d'.finish e o { status := stAborted }
          | none => d') b) := by
      refine RaceWork.foldl (fun b f => ?_) l b
      split
      · exact RaceWork.dropNotice b e g _
      · split
        · exact RaceWork.finish b g e _ _
        · exact RaceWork.refl g b
    have hsamples := RaceWork.foldl (fun d y => RaceWork.abandonSample d e g y) (d.gate g).pipe
      (d.modGate g fun x => { x with pipe := [], frame := none, feeds := [], shift := none })
    unfold Dev.abandonGate
    dsimp only
    split
    · exact (hsamples.trans ((RaceWork.refl g _).ite (RaceWork.abandonSample _ e g _))).trans (hfeeds _ _)
    · exact hsamples.trans (hfeeds _ _)
  exact ⟨hclear.trans hrest, hrest.2 hnone⟩

theorem RaceWork.noteState (d : Dev) (g : Nat) (e : Env) (kind : Nat) (st : FnState) (n m : Nat) : RaceWork g d (d.noteState e kind st n m) :=
  RaceWork.of_agrees (d.agrees_noteState e kind st n m) (by decide)

theorem RaceWork.gateFailed (d : Dev) (e : Env) (g counter : Nat) : RaceWork g d (d.gateFailed e g counter) := by
  have hcount : RaceWork g d (d.modGate g fun x => { x with failedRun := (d.gate g).failedRun + 1 }) := RaceWork.modGate d g (by exact fun _ h => h)
  unfold Dev.gateFailed
  dsimp only
  exact ((((hcount.trans (RaceWork.raise g _ _ _ _ _)).trans (Dev.abandonGate_spec _ e g).1).trans
    (RaceWork.modGate _ g (by exact fun _ h => h))).trans (RaceWork.noteState _ g e _ _ _ _)).ite hcount

theorem RaceWork.boundary (d : Dev) (e : Env) (g : Nat) : RaceWork g d (d.boundary e g) :=
  (RaceWork.modGate d g (f := Gate.settle) fun _ h => h).trans (RaceWork.of_agrees (Dev.agrees_finishAll _ e _ _) (by decide))

theorem RaceWork.gateStopped (d : Dev) (e : Env) (g : Nat) : RaceWork g d (d.gateStopped e g) := by
  have hstop := (RaceWork.boundary d e g).trans (RaceWork.modGate (d.boundary e g) g
    (f := fun x => { x with fn := .stopped, frame := none, shift := none, core := none }) fun _ _ => rfl)
  have hmonitor (d : Dev) (f : Nat) : RaceWork g d (d.monitorCheck f) := (RaceWork.of_agrees (d.agrees_modFset f _) (by decide)).ite (RaceWork.refl g d)
  have hrecover (d : Dev) : RaceWork g d (d.recover e) := RaceWork.of_agrees (d.agrees_recover e) (by decide)
  unfold Dev.gateStopped
  dsimp only
  split
  · exact (hstop.trans (hmonitor _ _)).trans (hrecover _)
  · exact hstop.trans (hrecover _)

theorem RaceWork.settleGate (d : Dev) (e : Env) (g : Nat) : RaceWork g d (d.settleGate e g) :=
  ((RaceWork.gateStopped d e g).trans (RaceWork.of_agrees (Dev.agrees_finishAll _ e _ _) (by decide))).ite (RaceWork.refl g d)

theorem RaceWork.dropSample (d : Dev) (e : Env) (g : Nat) (x : Sample) : RaceWork g d (d.dropSample e g x) := by
  unfold Dev.dropSample
  exact ((((RaceWork.modGate d g (by exact fun _ h => h)).trans (RaceWork.flushDrops _ e g))).trans (RaceWork.gateFailed _ e g _)).trans
    (RaceWork.settleGate _ e g)

theorem RaceWork.dropWith (d : Dev) (e : Env) (g : Nat) (x : Sample) (detail : Nat) : RaceWork g d (d.dropWith e g x detail) :=
  (RaceWork.raise g d _ _ _ _).trans (RaceWork.dropSample _ e g x)

theorem RaceWork.forward (d : Dev) (e : Env) (g : Nat) (x : Sample) : RaceWork g d (d.forward e g x) := by
  unfold Dev.forward
  exact (RaceWork.modGate d g (by exact fun _ h => h)).trans (RaceWork.flushDrops _ e g)

theorem RaceWork.judgeTiles (d : Dev) (g counter : Nat) (t : List (Nat × Bool)) : RaceWork g d (d.judgeTiles g counter t).2 := by
  obtain ⟨hwork, -, hframe⟩ := d.judgeTiles_spec g counter t
  exact ⟨(hwork.mono (by decide)), fun h => hframe.trans h⟩

/-! ## The close of a sample -/

/-- A camera frame that closes, whatever becomes of its sample. -/
theorem Dev.closeCamera_spec (d : Dev) (e : Env) (g : Nat) (badNumber : Bool) :
    RaceWork g d (d.closeCamera e g badNumber) ∧ ((d.closeCamera e g badNumber).gate g).frame = none := by
  cases hframe : (d.gate g).frame with
  | none =>
    have hsame : d.closeCamera e g badNumber = d := by simp only [Dev.closeCamera, hframe]
    rw [hsame]
    exact ⟨RaceWork.refl g d, hframe⟩
  | some f =>
    have hclear : RaceWork g d (d.modGate g fun x => { x with frame := none, headerBad := false, orphaned := false }) :=
      RaceWork.modGate d g fun _ _ => rfl
    have hnone : ((d.modGate g fun x => { x with frame := none, headerBad := false, orphaned := false }).gate g).frame = none := by
      rw [Dev.gate_modGate_same]
    have hrest : RaceWork g (d.modGate g fun x => { x with frame := none, headerBad := false, orphaned := false })
        (d.closeCamera e g badNumber) := by
      have hnumber (b : Dev) : RaceWork g b (if badNumber then b.raise (0x200 + g) 0x11 1 f.smp.counter else b) :=
        (RaceWork.raise g b _ _ _ _).ite (RaceWork.refl g b)
      have hmissing (l : List Nat) (b : Dev) : RaceWork g b
          (l.foldl (fun d y => d.raise (0x200 + g) 0x10 5 (f.smp.counter % 2 ^ 24 * 2 ^ 16 + y)) b) :=
        RaceWork.foldl (fun d y => RaceWork.raise g d _ _ _ _) l b
      unfold Dev.closeCamera
      simp only [hframe]
      generalize hb : List.foldl (fun (d : Dev) y => d.raise (0x200 + g) 0x10 5 (f.smp.counter % 2 ^ 24 * 2 ^ 16 + y)) _ _ = b
      have hclosed : RaceWork g (d.modGate g fun x => { x with frame := none, headerBad := false, orphaned := false }) b := by
        rw [← hb]
        exact (hnumber _).trans (hmissing _ _)
      refine RaceWork.trans hclosed ?_
      refine RaceWork.ite (RaceWork.settleGate b e g) (RaceWork.ite (RaceWork.dropSample b e g _) ?_)
      split
      · exact RaceWork.dropWith b e g _ _
      · refine RaceWork.trans ?_ (RaceWork.settleGate _ e g)
        refine RaceWork.trans ?_ (RaceWork.forward _ e g _)
        exact RaceWork.trans (RaceWork.of_agrees (Dev.agrees_spend _) (by decide)) (RaceWork.judgeTiles _ g _ _)
    exact ⟨hclear.trans hrest, hrest.2 hnone⟩

theorem Dev.timeOut_spec (d : Dev) (e : Env) (g detail : Nat) :
    RaceWork g d (d.timeOut e g detail) ∧ ((d.timeOut e g detail).gate g).frame = none := by
  unfold Dev.timeOut
  split
  · next hnone => exact ⟨RaceWork.refl g d, hnone⟩
  · obtain ⟨hwork, hnone⟩ := Dev.closeCamera_spec (d.raise (0x200 + g) 0x11 detail _) e g false
    exact ⟨(RaceWork.raise g d _ _ _ _).trans hwork, hnone⟩

/-! ## Coded samples -/

theorem RaceWork.countUsage (d : Dev) (g : Nat) (x : Sample) : RaceWork g d (d.countUsage g x) := by
  unfold Dev.countUsage
  exact RaceWork.modGate d g (by exact fun _ h => h)

theorem RaceWork.dropCoded (d : Dev) (e : Env) (g : Nat) (x : Sample) : RaceWork g d (d.dropCoded e g x) := by
  unfold Dev.dropCoded
  exact (((RaceWork.modGate d g (by exact fun _ h => h)).trans (RaceWork.flushDrops _ e g)).trans (RaceWork.gateFailed _ e g _)).trans (RaceWork.settleGate _ e g)

theorem RaceWork.pictureDone (d : Dev) (g : Nat) (x : Sample) : RaceWork g d (d.pictureDone g x) := by
  unfold Dev.pictureDone
  exact RaceWork.modGate d g (by exact fun _ h => h)

theorem RaceWork.concealFull (d : Dev) (e : Env) (g : Nat) (x : Sample) : RaceWork g d (d.concealFull e g x) := by
  have hused := RaceWork.countUsage d g x
  unfold Dev.concealFull
  dsimp only
  generalize d.countUsage g x = b at hused ⊢
  exact hused.trans (((RaceWork.raise g b _ _ _ _).trans (RaceWork.dropCoded _ e g x)).ite
    ((RaceWork.modGate b g (by exact fun _ h => h)).trans (RaceWork.pictureDone _ g _)))

theorem RaceWork.freeCore (d : Dev) (g counter : Nat) : RaceWork g d (d.freeCore g counter) := by
  unfold Dev.freeCore
  exact (RaceWork.modGate d g (by exact fun _ h => h)).ite (RaceWork.refl g d)

theorem RaceWork.skipCoded (fuel : Nat) (e : Env) (g : Nat) (d : Dev) : RaceWork g d (Dev.skipCoded fuel e g d) := by
  induction fuel generalizing d with
  | zero => exact RaceWork.refl g d
  | succ fuel ih =>
    unfold Dev.skipCoded
    split
    · exact RaceWork.refl g d
    · exact (((RaceWork.concealFull d e g _).trans (RaceWork.freeCore _ g _)).trans (ih _)).ite (RaceWork.refl g d)

theorem RaceWork.afterDecode (d : Dev) (e : Env) (g : Nat) : RaceWork g d (d.afterDecode e g) :=
  ((RaceWork.skipCoded _ e g d).trans (RaceWork.flushDrops _ e g)).trans (RaceWork.settleGate _ e g)

/-- An Ethernet sample that closes, whatever becomes of it. -/
theorem Dev.closeEth_spec (d : Dev) (e : Env) (g : Nat) :
    RaceWork g d (d.closeEth e g) ∧ ((d.closeEth e g).gate g).frame = none := by
  have hclosed : RaceWork g d (d.closeEthernet e g) ∧ ((d.closeEthernet e g).gate g).frame = none := by
    cases hframe : (d.gate g).frame with
    | none =>
      have hsame : d.closeEthernet e g = d := by simp only [Dev.closeEthernet, hframe]
      rw [hsame]
      exact ⟨RaceWork.refl g d, hframe⟩
    | some f =>
      have hclear : RaceWork g d (d.modGate g fun x => { x with frame := none }) := RaceWork.modGate d g fun _ _ => rfl
      have hnone : ((d.modGate g fun x => { x with frame := none }).gate g).frame = none := by rw [Dev.gate_modGate_same]
      have hrest : RaceWork g (d.modGate g fun x => { x with frame := none }) (d.closeEthernet e g) := by
        unfold Dev.closeEthernet
        simp only [hframe]
        generalize (d.modGate g fun x => { x with frame := none }) = b
        refine RaceWork.ite (RaceWork.settleGate b e g) ?_
        split
        · exact RaceWork.dropWith b e g _ _
        · refine RaceWork.ite ?_ ((RaceWork.forward b e g _).trans (RaceWork.settleGate _ e g))
          exact (RaceWork.modGate b g (by exact fun _ h => h)).trans (RaceWork.flushDrops _ e g)
      exact ⟨hclear.trans hrest, hrest.2 hnone⟩
  have hafter := RaceWork.afterDecode (d.closeEthernet e g) e g
  exact ⟨hclosed.1.trans hafter, hafter.2 hclosed.2⟩

/-! ## The timeouts -/

/-- One failed instance below the drop limit is counted. -/
theorem Dev.gateFailed_of_below {d : Dev} {g : Nat} (h : (d.gate g).failedRun + 1 < Settings.dropLimit (d.gate g).settings)
    (e : Env) (counter : Nat) :
    d.gateFailed e g counter = d.modGate g fun x => { x with failedRun := (d.gate g).failedRun + 1 } :=
  if_neg fun hlimit => absurd hlimit.2 (Nat.not_le.mpr h)

/-- The list of faults counted in a second plays no part in raising one. -/
theorem Dev.raise_perSecond (d : Dev) (l : List SecEvent) (src kind detail arg : Nat) :
    let b := { d with col := { d.col with perSecond := l } }.raise src kind detail arg
    b.col.perSecond = l ∧ b.col.waiting = (d.raise src kind detail arg).col.waiting ∧ b.col.held = (d.raise src kind detail arg).col.held := by
  have hcollected (m : BitVec 64) : asCollected { d with col := { d.col with perSecond := l } } m = asCollected d m := asCollected_congr rfl m
  dsimp only
  simp only [Dev.raise, hcollected]
  split
  · refine ⟨?_, ?_, ?_⟩ <;> simp only [Dev.unsentFault, Dev.react, Dev.severityOf, Dev.pins_col]
  · exact ⟨rfl, rfl, rfl⟩

/-- Settles O29: each timeout closes its gate's frame or counts its instance; the seconds' faults are raised. -/
theorem raceTimeouts : Obligations.race_timeouts := by
  intro s g hg
  refine ⟨fun f t hclk hframe hlast hkind hdue => ?line, fun f hclk hframe hkind hdue => ?frame,
    fun hclk hfn hkind hdue hbelow => ?silence, fun f hclk hframe hkind hmode hinst hdue => ?period, fun x hx hpast => ?second⟩
  case line =>
    have hexec : exec (.lineTimeout g) s = .next (s.put (s.dev.timeOut s.env g 3)) := by
      rw [exec_lineTimeout, execLineTimeout, runClocked_running (by simp [missingUnit, Instr.units, hg]) hclk]
      have hcond : Settings.kind f.smp.st = 0 ∧ t + Settings.lineTimeout f.smp.st ≤ s.env.raw := ⟨hkind, hdue⟩
      simp only [hframe, hlast, if_pos hcond]
    obtain ⟨hwork, hnone⟩ := s.dev.timeOut_spec s.env g 3
    refine ⟨_, hexec, ?_⟩
    rw [State.put_dev]
    exact ⟨hnone, State.touches_of_agrees hwork.agrees, hwork.others⟩
  case frame =>
    have hexec : exec (.frameTimeMax g) s = .next (s.put (s.dev.timeOut s.env g 4)) := by
      rw [exec_frameTimeMax, execFrameTimeMax, runClocked_running (by simp [missingUnit, Instr.units, hg]) hclk]
      have hcond : Settings.kind f.smp.st = 0 ∧ f.startRaw + Settings.frameTimeMax f.smp.st < s.env.raw := ⟨hkind, hdue⟩
      simp only [hframe, if_pos hcond]
    obtain ⟨hwork, hnone⟩ := s.dev.timeOut_spec s.env g 4
    refine ⟨_, hexec, ?_⟩
    rw [State.put_dev]
    exact ⟨hnone, State.touches_of_agrees hwork.agrees, hwork.others⟩
  case silence =>
    obtain ⟨c, hc⟩ : ∃ c, c = Config.freeNat s.dev.free % 2 ^ 32 := ⟨_, rfl⟩
    obtain ⟨b, hb⟩ : ∃ b, b = (s.dev.spend.modGate g fun x => { x with silentSince := s.env.raw }).raise (0x200 + g) 0x11 6 c := ⟨_, rfl⟩
    have hexec : exec (.silenceTimeout g) s = .next (s.put (b.gateFailed s.env g c)) := by
      rw [exec_silenceTimeout, execSilenceTimeout, runClocked_running (by simp [missingUnit, Instr.units, hg]) hclk]
      have hcond : (s.dev.gate g).fn = .running ∧ Settings.kind (s.dev.gate g).settings = 0 ∧
        (s.dev.gate g).silentSince + s.dev.silenceNs (s.dev.gate g).settings ≤ s.env.raw := ⟨hfn, hkind, hdue⟩
      simp only [if_pos hcond, ← hc, ← hb]
    have hmarked : s.dev.agrees [.free, .race] (s.dev.spend.modGate g fun x => { x with silentSince := s.env.raw }) :=
      ((Dev.agrees_spend s.dev).mono (by decide)).andThen (Dev.agrees_modGate _ _ _) (by decide)
    have hbagrees : s.dev.agrees ([.race, .free] ++ faultParts) b := by
      rw [hb]
      exact (hmarked.mono (by decide)).andThen (Dev.agrees_raise _ _ _ _ _) (by decide)
    have hbgate (j : Nat) : b.gate j = if j = g then { s.dev.gate g with silentSince := s.env.raw } else s.dev.gate j := by
      rw [hb, Dev.gate, Dev.raise_race, ← Dev.gate, Dev.gate_modGate]
      rfl
    have hbelow' : (b.gate g).failedRun + 1 < Settings.dropLimit (b.gate g).settings := by rw [hbgate, if_pos rfl]; exact hbelow
    rw [Dev.gateFailed_of_below hbelow'] at hexec
    refine ⟨_, c, hexec, State.touches_of_agrees ?_, fun j hj => ?_, ?_, ?_⟩
    · exact hbagrees.andThen (Dev.agrees_modGate _ _ _) (by decide)
    · rw [State.put_dev, Dev.gate_modGate, if_neg hj, hbgate, if_neg hj]
    · rw [State.put_dev, Dev.gate_modGate_same, hbgate, if_pos rfl]
      rfl
    · rw [State.put_dev, Dev.modGate_col, hb]
      exact hmarked.raise_col _ _ _ _ (by decide)
  case period =>
    have hexec : exec (.periodSampleClose g) s = .next (s.put (s.dev.closeEth s.env g)) := by
      rw [exec_periodSampleClose, execPeriodSampleClose, runClocked_running (by simp [missingUnit, Instr.units, hg]) hclk]
      have hcond : f.startRaw + 1000 * s.dev.minIntervalUs f.smp.st + 100000 ≤ s.env.raw := hdue
      have hkinds : ¬ (Settings.kind f.smp.st ≠ 1 ∨ Settings.sampleMode f.smp.st ≠ 2) := by simp [hkind, hmode]
      simp only [hframe, if_neg hkinds, hinst, if_pos hcond]
    obtain ⟨hwork, hnone⟩ := s.dev.closeEth_spec s.env g
    refine ⟨_, hexec, ?_⟩
    rw [State.put_dev]
    exact ⟨hnone, State.touches_of_agrees hwork.agrees, hwork.others⟩
  case second =>
    have hpast' : decide (x.second < s.env.raw / 1000000000) = true := decide_eq_true hpast
    have hexec : exec .secondFaultReport s = .next (s.put (({ s.dev with col := { s.dev.col with perSecond := [] } } : Dev).raise
        x.src x.kind x.detail (if x.counted then x.count else x.arg))) := by
      rw [exec_secondFaultReport, execSecondFaultReport, run_next (by simp [missingUnit, Instr.units])]
      simp only [hx, List.filter_cons, hpast', if_true, Bool.not_true, Bool.false_eq_true, if_false, List.filter_nil, List.foldl_cons,
        List.foldl_nil]
      rfl
    obtain ⟨hnone, hwaiting, hheld⟩ := s.dev.raise_perSecond [] x.src x.kind x.detail (if x.counted then x.count else x.arg)
    exact ⟨_, hexec, hnone, State.touches_of_agrees (((s.dev.agrees_col _).mono (l := faultParts) (by decide)).trans (Dev.agrees_raise _ _ _ _ _)),
      hwaiting, hheld⟩

end Sys2Proof.Machine
end

section
/-! SUPPORT. Sensor packets and feeds (R57 to R59, R63, R64, R403, R433, R436). -/

namespace Sys2Proof.Machine

open Sys2Proof

/-! ## Sensor frames -/

section

variable {s : State} {f : SensorFrame} (hclk : s.dev.clocked = true) (hport : f.port < 4)
include hclk hport

theorem exec_ethSensorFrame_badFcs (hfcs : f.fcsOk = false) :
    exec (.ethSensorFrame f) s = .next (s.put (s.dev.modMac f.port fun m => { m with fcsErrors := m.fcsErrors + 1 })) := by
  rw [exec_ethSensorFrame, execEthSensorFrame, runClocked_running (by simp [missingUnit, Instr.units, hport]) hclk]
  have hhere : ¬ 4 ≤ f.port := Nat.not_le.mpr hport
  simp only [Dev.portFrame, sensorToBridge, if_neg hhere, hfcs, Bool.not_false, if_true]

theorem exec_ethSensorFrame_refused (hfcs : f.fcsOk = true) (hrefused : frameRefused (sensorToBridge f) = true) :
    exec (.ethSensorFrame f) s = .next (s.put (s.dev.countDiscard f.port)) := by
  rw [exec_ethSensorFrame, execEthSensorFrame, runClocked_running (by simp [missingUnit, Instr.units, hport]) hclk]
  have hhere : ¬ 4 ≤ (sensorToBridge f).inPort := Nat.not_le.mpr hport
  have hrefused' : frameRefused { sensorToBridge f with fcsOk := true } = true := hrefused
  simp only [Dev.portFrame, hfcs, Bool.not_true, Bool.false_eq_true, if_false, Dev.classify, hrefused', if_true]
  rw [if_neg hhere]
  rfl

/-- A frame that one gate's filter matches goes to that gate. -/
theorem exec_ethSensorFrame_gate {g : Nat} (hfcs : f.fcsOk = true) (hrefused : frameRefused (sensorToBridge f) = false)
    (hptp : s.dev.isPtp (sensorToBridge f) = false) (hgates : s.dev.filterGates f = [g]) :
    exec (.ethSensorFrame f) s = .next (s.put (s.dev.gateFrame s.env g f)) := by
  rw [exec_ethSensorFrame, execEthSensorFrame, runClocked_running (by simp [missingUnit, Instr.units, hport]) hclk]
  have hhere : ¬ 4 ≤ (sensorToBridge f).inPort := Nat.not_le.mpr hport
  have hrefused' : frameRefused { sensorToBridge f with fcsOk := true } = false := hrefused
  have hptp' : s.dev.isPtp { sensorToBridge f with fcsOk := true } = false := hptp
  simp only [Dev.portFrame, hfcs, Bool.not_true, Bool.false_eq_true, if_false, Dev.classify, hrefused', hptp', hgates,
    List.isEmpty_cons, List.foldl_cons, List.foldl_nil]
  rw [if_neg hhere]

end

/-- With no gap before it a packet stands for no discarded frame. -/
theorem Dev.slotDiscards_zero (d : Dev) (g : Nat) : d.slotDiscards g 0 = d.modGate g fun x => { x with unslotted := 0 } := by
  unfold Dev.slotDiscards
  congr 1
  funext x
  simp

/-- A packet that passes its checks, at a gate without a sequence field, whose sample takes packets up to its count. -/
theorem Dev.sensorFrame_fills {d : Dev} {g : Nat} {f : SensorFrame} {fr : OpenFrame} (hframe : (d.gate g).frame = some fr)
    (hst : fr.smp.st = (d.gate g).settings) (hip : f.ipVersion = 4 → f.ipChecksumOk = true) (hfrag : f.fragment = false)
    (hudp : f.udpChecksumOk = true ∨ (f.ipVersion = 4 ∧ f.udpChecksumZero = true))
    (hlen : Settings.get (d.gate g).settings 0x17 0 + Settings.windowLen (d.gate g).settings ≤ f.udpPayload.length)
    (hseq : Settings.get (d.gate g).settings 0x19 0 % 256 / 8 = 0) (hmode : Settings.sampleMode (d.gate g).settings = 0)
    (hroom : fr.lines.length + 1 < Settings.get (d.gate g).settings 0x15 4096) (e : Env) :
    d.sensorFrame e g f = (d.modGate g fun x => { x with unslotted := 0 }).modGate g fun x => { x with frame := some { fr with
      lines := fr.lines ++ [some ((f.udpPayload.drop (Settings.get (d.gate g).settings 0x17 0)).take (Settings.windowLen (d.gate g).settings))] } } := by
  have h4 : ¬ (f.ipVersion = 4 ∧ (!f.ipChecksumOk) = true) := by
    rintro ⟨h, hbad⟩
    rw [hip h] at hbad
    exact Bool.noConfusion hbad
  have hchecksum : ¬ ((f.ipVersion = 6 ∨ (!f.udpChecksumZero) = true) ∧ (!f.udpChecksumOk) = true) := by
    rintro ⟨hneeded, hbad⟩
    rcases hudp with hok | ⟨h, hzero⟩
    · rw [hok] at hbad
      exact Bool.noConfusion hbad
    · rcases hneeded with h6 | hused
      · omega
      · rw [hzero] at hused
        exact Bool.noConfusion hused
  have hsequence : d.sequence g f.udpPayload = (none, d) := by simp only [Dev.sequence, if_pos hseq]
  obtain ⟨b, hb⟩ : ∃ b, b = d.modGate g fun x => { x with unslotted := 0 } := ⟨_, rfl⟩
  have hbframe : (b.gate g).frame = some fr := by rw [hb, Dev.gate_modGate_same]; exact hframe
  have hperiod (n : Nat) : b.periodClose e g n = b := by
    simp [Dev.periodClose, hbframe, hst, hmode]
  have hpush (n : Nat) (l : List Byte) : b.pushSlot e g n (some l) =
      b.modGate g fun x => { x with frame := some { fr with lines := fr.lines ++ [some l] } } := by
    simp [Dev.pushSlot, hbframe, hst, hmode, Nat.not_le.mpr hroom]
  unfold Dev.sensorFrame
  simp only [if_neg h4, hfrag, Bool.false_eq_true, if_false, if_neg hchecksum, if_neg (Nat.not_lt.mpr hlen), hsequence, Dev.takePacket,
    Dev.slotDiscards_zero, ← hb, hperiod, List.range_zero, List.foldl_nil, hpush, hmode]
  split
  · simp
  · rfl

/-! ## What a gate holds and has in work -/

/-- The state, settings, slots and work of a gate. -/
def Gate.work (x : Gate) : FnState × Settings × Option Nat × List Nat × List Sample × List Feed × Option OpenFrame :=
  (x.fn, x.settings, x.lastSlot, x.held, x.pipe, x.feeds, x.frame)

theorem Gate.work_eq {x y : Gate} (h : y.work = x.work) : y.fn = x.fn ∧ y.settings = x.settings ∧ y.lastSlot = x.lastSlot ∧
    y.held = x.held ∧ y.pipe = x.pipe ∧ y.feeds = x.feeds ∧ y.frame = x.frame := by
  simpa [Gate.work] using h

theorem Gate.pickSlot_of_work {x y : Gate} (h : y.work = x.work) : y.pickSlot = x.pickSlot := by
  obtain ⟨-, hset, hlast, hheld, hpipe, -, hframe⟩ := Gate.work_eq h
  exact Gate.pickSlot_congr hset hlast hheld hpipe hframe

/-- Work at one gate that leaves what it holds and has in work. -/
def KeepsWork (g : Nat) (l : List Part) (a b : Dev) : Prop := GateWork g l a b ∧ (b.gate g).work = (a.gate g).work

theorem KeepsWork.refl (g : Nat) (l : List Part) (d : Dev) : KeepsWork g l d d := ⟨GateWork.refl g l d, rfl⟩

theorem KeepsWork.trans {g : Nat} {l : List Part} {a b c : Dev} (hab : KeepsWork g l a b) (hbc : KeepsWork g l b c) : KeepsWork g l a c :=
  ⟨hab.1.trans hbc.1, hbc.2.trans hab.2⟩

theorem KeepsWork.mono {g : Nat} {l m : List Part} {a b : Dev} (h : KeepsWork g m a b) (hm : m ⊆ l) : KeepsWork g l a b :=
  ⟨h.1.mono hm, h.2⟩

theorem KeepsWork.ite {g : Nat} {l : List Part} {a b c : Dev} {p : Prop} [Decidable p] (hb : KeepsWork g l a b) (hc : KeepsWork g l a c) :
    KeepsWork g l a (if p then b else c) := by
  split
  · exact hb
  · exact hc

theorem KeepsWork.of_agrees {g : Nat} {l : List Part} {a b : Dev} (h : a.agrees l b) (hl : Part.race ∉ l) : KeepsWork g l a b :=
  ⟨GateWork.of_agrees h hl, congrArg Gate.work (Dev.gate_of_race (h .race hl) g).symm⟩

theorem KeepsWork.modGate (d : Dev) (g : Nat) {f : Gate → Gate} (hf : ∀ x, (f x).work = x.work) :
    KeepsWork g [.race] d (d.modGate g f) :=
  ⟨GateWork.modGate d g f, (congrArg Gate.work (d.gate_modGate_same g f)).trans (hf _)⟩

theorem KeepsWork.freeCore (d : Dev) (g counter : Nat) : KeepsWork g [.race] d (d.freeCore g counter) := by
  unfold Dev.freeCore
  exact (KeepsWork.modGate d g (by exact fun _ => rfl)).ite (KeepsWork.refl g _ d)

/-- A handover changes the gate's mode and core alone. -/
theorem KeepsWork.handover (d : Dev) (g counter : Nat) : KeepsWork g [.race] d (d.handover g counter) := by
  unfold Dev.handover
  split
  · exact KeepsWork.refl g _ d
  · exact ((KeepsWork.modGate d g (by exact fun _ => rfl)).trans (KeepsWork.freeCore _ g counter)).ite (KeepsWork.refl g _ d)

/-- What the detector of frozen content may touch. -/
def judgeParts : List Part := [.race, .free, .col, .safe]

theorem KeepsWork.judgeTiles (d : Dev) (g counter : Nat) (t : List (Nat × Bool)) : KeepsWork g judgeParts d (d.judgeTiles g counter t).2 := by
  unfold Dev.judgeTiles
  refine KeepsWork.trans ((KeepsWork.modGate d g (by exact fun _ => rfl)).mono (by decide)) (KeepsWork.ite ?_ (KeepsWork.refl g _ _))
  exact ((KeepsWork.of_agrees (Dev.agrees_raise _ _ _ _ _) (by decide)).mono (by decide))

/-- The embedded counter's check changes the gate's last value, and may raise a fault. -/
theorem KeepsWork.checkCounter (d : Dev) (g counter : Nat) (st : Settings) (line : List Byte) :
    KeepsWork g judgeParts d (d.checkCounter g counter st line).2 := by
  have hraised (b : Dev) (detail : Nat) : KeepsWork g judgeParts b (b.raise (0x200 + g) 0x14 detail counter) :=
    ((KeepsWork.of_agrees (b.agrees_raise _ _ _ _) (by decide)).mono (by decide))
  unfold Dev.checkCounter
  dsimp only
  split
  · exact KeepsWork.refl g _ d
  · generalize hb : Dev.modGate _ g _ = b
    have hread : KeepsWork g judgeParts d b := by
      rw [← hb]
      exact ((KeepsWork.refl g _ d).ite ((KeepsWork.of_agrees d.agrees_spend (by decide)).mono (by decide))).trans ((KeepsWork.modGate _ g (by exact fun _ => rfl)).mono (by decide))
    have hjudged (v p m : Nat) : KeepsWork g judgeParts d (if v = p then (true, b.raise (0x200 + g) 0x14 1 counter)
        else if v = (p + 1) % m then (false, b) else (false, b.raise (0x200 + g) 0x14 2 counter)).2 := by
      split
      · exact hread.trans (hraised b _)
      · split
        · exact hread
        · exact hread.trans (hraised b _)
    split
    · exact hread
    · exact hjudged _ _ _

/-! ## Feeds -/

theorem Dev.agrees_fetchBytes (d : Dev) (e : Env) (src a n : Nat) :
    d.agrees [.mem, .folds, .phys, .col, .safe] (d.fetchBytes e src a n).2.2 := by
  unfold Dev.fetchBytes
  split
  · rfl
  · exact ((d.agrees_touch e a).mono (by decide)).andThen (Dev.agrees_readLines _ _ _ _ _) (by decide)

/-- The gate whose oldest feed is read, just before its sample begins: the feed is gone from its list. -/
theorem Dev.feedTurn_spec (d : Dev) (e : Env) {g : Nat} (hlive : (d.gate g).liveNext = []) (counter src a n : Nat) (rest : List Feed) :
    let r := ((((d.modGate g fun x => { x with feeds := rest }).boundary e g).handover g counter).fetchBytes e src a n).2.2
    GateWork g raceParts d r ∧ (r.gate g).work = ({ d.gate g with feeds := rest } : Gate).work := by
  obtain ⟨b, hb⟩ : ∃ b, b = d.modGate g fun x => { x with feeds := rest } := ⟨_, rfl⟩
  have hbgate : b.gate g = { d.gate g with feeds := rest } := by rw [hb, Dev.gate_modGate_same]
  have hbwork : GateWork g raceParts d b := hb ▸ ((GateWork.modGate d g _).mono (by decide))
  obtain ⟨hcwork, hcgate⟩ := b.boundary_spec e g
  rw [Gate.settle_of_none (by rw [hbgate]; exact hlive), hbgate] at hcgate
  obtain ⟨hhwork, hhgate⟩ := KeepsWork.handover (b.boundary e g) g counter
  have hfetch := ((b.boundary e g).handover g counter).agrees_fetchBytes e src a n
  dsimp only
  rw [← hb]
  refine ⟨((hbwork.trans (hcwork.mono (by decide))).trans (hhwork.mono (by decide))).trans ((GateWork.of_agrees hfetch (by decide)).mono (by decide)), ?_⟩
  rw [← Dev.gate_of_race (hfetch .race (by decide)), hhgate, hcgate]
  rfl

/-- A sample that begins leaves the gate's work, but for the slot it takes last. -/
theorem Dev.beginSample_work {d : Dev} {g k : Nat} (hslot : (d.gate g).pickSlot = some k) (counter : Nat) (capture : Int) (domB : Bool)
    (inst : Option (Nat × Int)) :
    ((d.beginSample g counter capture domB inst none).2.gate g).work = ({ d.gate g with lastSlot := some k } : Gate).work := by
  simp only [Dev.beginSample, hslot]
  rw [Dev.gate_modGate_same, Dev.gate_modGate_same]
  rfl

/-- A feed that is not coded becomes a sample at the end of a gate that has dropped none. -/
theorem Dev.feedSample_uncoded {d : Dev} {g : Nat} {f : Feed} (hf : f.coded = false) (hpipe : ∀ y ∈ (d.gate g).pipe, y.slot.isSome = true)
    {x : Sample} (hx : x.slot.isSome = true) (e : Env) (b : List Byte) :
    GateWork g judgeParts d (d.feedSample e g f x b) ∧ ∃ y : Sample, y.counter = x.counter ∧ y.slot = x.slot ∧ y.capture = x.capture ∧
      ((d.feedSample e g f x b).gate g).pipe = (d.gate g).pipe ++ [y] ∧ ((d.feedSample e g f x b).gate g).feeds = (d.gate g).feeds ∧
      ((d.feedSample e g f x b).gate g).fn = (d.gate g).fn := by
  have hforward (c : Dev) (hc : KeepsWork g judgeParts d c) (y : Sample) (hy : y.slot.isSome = true) :
      GateWork g judgeParts d (c.forward e g y) ∧ ((c.forward e g y).gate g).pipe = (d.gate g).pipe ++ [y] ∧
      ((c.forward e g y).gate g).feeds = (d.gate g).feeds ∧ ((c.forward e g y).gate g).fn = (d.gate g).fn := by
    obtain ⟨hfn, -, -, -, hp, hfeeds, -⟩ := Gate.work_eq hc.2
    obtain ⟨hwork, hgate⟩ := Dev.forward_of_slots (d := c) (by rw [hp]; exact hpipe) hy e
    rw [hgate, hp, hfeeds, hfn]
    exact ⟨hc.1.trans (hwork.mono (by decide)), rfl, rfl, rfl⟩
  unfold Dev.feedSample
  simp only [hf, Bool.false_eq_true, if_false]
  split
  · refine ⟨(hforward _ ?keep _ ?slot).1, _, ?_, ?_, ?_, (hforward _ ?keep _ ?slot).2⟩
    case keep =>
      refine KeepsWork.trans ?_ ((KeepsWork.modGate _ g (by exact fun _ => rfl)).mono (by decide))
      exact (KeepsWork.checkCounter d g _ _ _).trans (KeepsWork.judgeTiles _ g _ _)
    case slot => exact hx
    all_goals rfl
  · refine ⟨(hforward _ ?keep _ ?slot).1, _, ?_, ?_, ?_, (hforward _ ?keep _ ?slot).2⟩
    case keep => exact (KeepsWork.checkCounter d g _ _ _).trans (KeepsWork.judgeTiles _ g _ _)
    case slot => exact hx
    all_goals rfl

/-- What a good feed does to its command: it completes with the feed's counter. -/
def Dev.feedCompleted (d : Dev) (e : Env) (f : Feed) : Dev :=
  match d.outstBy f.q f.tag with
  | some o => d.finish e o { status := stOk, r0 := f.counter }
  | none => d

/-- A feed's completion leaves no outstanding command of its tag, and the gates as they were. -/
theorem Dev.feedCompleted_spec (d : Dev) (e : Env) (f : Feed) :
    d.agrees postParts (d.feedCompleted e f) ∧ (d.feedCompleted e f).outstBy f.q f.tag = none := by
  unfold Dev.feedCompleted
  split
  next o ho =>
    obtain ⟨hq, htag⟩ := Dev.outstBy_facts ho
    exact ⟨d.agrees_finish _ _ _, hq ▸ htag ▸ d.outstBy_finish e o _⟩
  next ho => exact ⟨d.agrees_refl _, ho⟩

theorem Dev.outstBy_congr {d d' : Dev} (h : d.mbox = d'.mbox) (q tag : Nat) : d.outstBy q tag = d'.outstBy q tag := by
  rw [Dev.outstBy, h]; rfl

/-- A feed that is good is read: its command completes, and its sample joins the gate's pipeline in the next free slot. -/
theorem Dev.readFeed_good {d : Dev} {g k : Nat} {f : Feed} {rest : List Feed} (hlive : (d.gate g).liveNext = [])
    (hslot : (d.gate g).pickSlot = some k) (hpipe : ∀ y ∈ (d.gate g).pipe, y.slot.isSome = true) (hcoded : f.coded = false)
    (hdrop : f.drop = none) (hcrc : f.crc = none) (e : Env) :
    GateWork g raceParts d (d.readFeed e g f rest) ∧ (d.readFeed e g f rest).outstBy f.q f.tag = none ∧
    ((d.readFeed e g f rest).gate g).feeds = rest ∧ ((d.readFeed e g f rest).gate g).fn = (d.gate g).fn ∧
    ∃ x : Sample, ((d.readFeed e g f rest).gate g).pipe = (d.gate g).pipe ++ [x] ∧ x.counter = f.counter ∧ x.slot = some k ∧
      x.capture = (f.capture : Int) := by
  obtain ⟨hrwork, hrgate⟩ := d.feedTurn_spec e hlive f.counter (0x200 + g) f.source f.length rest
  obtain ⟨r, hr⟩ : ∃ r, r = (((d.modGate g fun x => { x with feeds := rest }).boundary e g).handover g f.counter).fetchBytes
    e (0x200 + g) f.source f.length := ⟨_, rfl⟩
  rw [← hr] at hrwork hrgate
  have hrslot : (r.2.2.gate g).pickSlot = some k := (Gate.pickSlot_of_work hrgate).trans hslot
  obtain ⟨hbwork, -, hbopen, hbslot, hbcounter, hbcapture⟩ := Dev.beginSample_slot hrslot f.counter f.capture f.domB f.inst
  have hbgate := Dev.beginSample_work hrslot f.counter f.capture f.domB f.inst
  obtain ⟨b, hb⟩ : ∃ b, b = r.2.2.beginSample g f.counter f.capture f.domB f.inst none := ⟨_, rfl⟩
  rw [← hb] at hbwork hbopen hbslot hbcounter hbcapture hbgate
  obtain ⟨hcagrees, hcnone⟩ := b.2.feedCompleted_spec e f
  obtain ⟨c, hc⟩ : ∃ c, c = b.2.feedCompleted e f := ⟨_, rfl⟩
  rw [← hc] at hcagrees hcnone
  have hcgate : (c.gate g).work = ({ r.2.2.gate g with lastSlot := some k } : Gate).work :=
    (congrArg Gate.work (Dev.gate_of_race (hcagrees .race (by decide)) g)).symm.trans hbgate
  obtain ⟨hrfn, -, -, -, hrpipe, hrfeeds, -⟩ := Gate.work_eq hrgate
  obtain ⟨hcfn, -, -, -, hcpipe, hcfeeds, -⟩ := Gate.work_eq hcgate
  obtain ⟨x, hx⟩ : ∃ x : Sample, x = { b.1.1 with poisoned := r.2.1 } := ⟨_, rfl⟩
  have hread : d.readFeed e g f rest = c.feedSample e g f x r.1 := by
    unfold Dev.readFeed
    simp only [hcrc, hdrop, Bool.false_eq_true, if_false, ← hr, ← hb, hbopen, hx, hc]
    rfl
  have hxslot : x.slot = some k := by rw [hx]; exact hbslot
  obtain ⟨hfwork, y, hycounter, hyslot, hycapture, hfpipe, hffeeds, hffn⟩ := Dev.feedSample_uncoded (d := c) hcoded
    (by rw [hcpipe]; exact hrpipe ▸ hpipe) (x := x) (by rw [hxslot]; rfl) e r.1
  rw [hread]
  refine ⟨?_, ?_, ?_, ?_, y, ?_, ?_, hyslot.trans hxslot, ?_⟩
  · exact ((hrwork.trans (hbwork.mono (by decide))).trans ((GateWork.of_agrees hcagrees (by decide)).mono (by decide))).trans (hfwork.mono (by decide))
  · rw [← Dev.outstBy_congr (hfwork.1 .mbox (by decide))]
    exact hcnone
  · rw [hffeeds, hcfeeds]
    exact hrfeeds
  · rw [hffn, hcfn]
    exact hrfn
  · rw [hfpipe, hcpipe]
    exact congrArg (· ++ [y]) hrpipe
  · rw [hycounter, hx]
    exact hbcounter
  · rw [hycapture, hx]
    exact hbcapture

theorem Dev.flushRefused_of_good {d : Dev} {g : Nat} (h : ∀ y ∈ (d.gate g).feeds, y.refused = false) (n : Nat) (e : Env) :
    Dev.flushRefused n e g d = d := by
  cases n with
  | zero => rfl
  | succ n =>
    unfold Dev.flushRefused
    split
    next f rest hfeeds =>
      rw [h f (hfeeds ▸ List.mem_cons_self), if_neg Bool.false_ne_true]
    next => rfl

/-- Settles O30: one case per row of R436 that a sensor frame meets, and the reading of a feed. -/
theorem packetsAndFeeds : Obligations.packets_and_feeds := by
  intro s g hclk
  refine ⟨fun f hport hfcs => ?fcs, fun f fr st hport hfcs hrefused hptp hgates hfn hframe hst hsmp hip hfrag hudp hlen hseq hmode hroom => ?fills,
    fun f hport hfcs hrefused => ?refused, fun f hport hfcs hrefused hptp hgates hfn => ?stopped,
    fun f rest k hg hfn hfeeds hrest hgood hcoded hdrop hcrc hlive hslot hpipe => ?feed⟩
  case fcs =>
    refine ⟨_, exec_ethSensorFrame_badFcs hclk hport hfcs, ?_, State.touches_of_agrees (Dev.agrees_modMac _ _ _), fun p hp => ?_⟩
    · rw [State.put_dev, Dev.mac_modMac, if_pos rfl]
    · rw [State.put_dev, Dev.mac_modMac, if_neg hp]
  case fills =>
    subst hst
    have hfills := Dev.sensorFrame_fills hframe hsmp hip hfrag hudp hlen hseq hmode hroom s.env
    refine ⟨_, exec_ethSensorFrame_gate hclk hport hfcs hrefused hptp hgates, ?_, ?_, fun j hj => ?_⟩
    all_goals rw [State.put_dev, Dev.gateFrame, if_pos (Or.inl hfn), hfills]
    · rw [Dev.gate_modGate_same, Dev.gate_modGate_same]
    · rfl
    · rw [Dev.gate_modGate, if_neg hj, Dev.gate_modGate, if_neg hj]
  case refused =>
    refine ⟨_, exec_ethSensorFrame_refused hclk hport hfcs hrefused, ?_, State.touches_of_agrees (Dev.agrees_modMac _ _ _), fun p hp => ?_⟩
    · rw [State.put_dev, Dev.countDiscard, Dev.mac_modMac, if_pos rfl]
    · rw [State.put_dev, Dev.countDiscard, Dev.mac_modMac, if_neg hp]
  case stopped =>
    have hidle : ¬ ((s.dev.gate g).fn = .running ∨ ((s.dev.gate g).fn = .stopping ∧ (s.dev.gate g).frame.isSome = true)) := by simp [hfn]
    have hexec := exec_ethSensorFrame_gate hclk hport hfcs hrefused hptp hgates
    rw [Dev.gateFrame, if_neg hidle] at hexec
    refine ⟨_, hexec, ?_, State.touches_of_agrees (Dev.agrees_modGate _ _ _), fun j hj => ?_⟩
    · rw [State.put_dev, Dev.gate_modGate_same]
    · rw [State.put_dev, Dev.gate_modGate, if_neg hj]
  case feed =>
    obtain ⟨hwork, hnone, hfeeds', hfn', x, hpipe', hx⟩ := Dev.readFeed_good (rest := rest) hlive hslot hpipe hcoded hdrop hcrc s.env
    obtain ⟨b, hb⟩ : ∃ b, b = s.dev.readFeed s.env g f rest := ⟨_, rfl⟩
    rw [← hb] at hwork hnone hfeeds' hfn' hpipe'
    have hexec : exec (.feedRead g) s = .next (s.put b) := by
      rw [exec_feedRead, execFeedRead, runClocked_running (by simp [missingUnit, Instr.units, hg]) hclk]
      have hactive : (s.dev.gate g).fn.active = true := by rw [hfn]; rfl
      simp only [hactive, hfeeds, hgood, Bool.not_true, Bool.false_eq_true, if_false, ← hb]
      rw [Dev.flushRefused_of_good (by rw [hfeeds']; exact hrest), Dev.settleGate_of_pipe (by rw [hpipe']; simp)]
    refine ⟨_, x, hexec, ?_⟩
    rw [State.put_dev]
    exact ⟨hfeeds', hnone, hpipe', hx.1, hx.2.1, hx.2.2, State.touches_of_agrees hwork.1, hwork.2⟩

end Sys2Proof.Machine
end

section
/-! SUPPORT. The posting of a finished sample (R17, R119, R121): a feed that a handover refused follows it into the pipeline. -/

namespace Sys2Proof.Machine

open Sys2Proof

/-- A picture of one pixel, to be written at the start of the landing area. -/
def onePixelSettings : Settings :=
  [(0x04, leBytes 2 1), (0x05, leBytes 2 1), (0x08, leBytes 4 2 ++ leBytes 4 4096 ++ leBytes 8 (commonBase + 0x4000000))]

def onePixelSample (counter slot : Nat) : Sample :=
  { counter := counter, capture := 0, domB := false, slot := some slot, st := onePixelSettings }

/-- Gate 0 runs with two finished samples, and a feed that a handover refused comes after them. -/
def refusedFeedState : State := {
  pending := []
  clk := { running := true }
  fuse := {}
  dev := {
    race := { gates := [(0, {
      fn := .running, settings := onePixelSettings, pipe := [onePixelSample 0 0, onePixelSample 1 1],
      feeds := [{ counter := 2, capture := 2, refused := true }] })] }
    pow := { state := .idle, phase := .settled, firstIdle := true } } }

/-- How many samples gate 0 has in its pipeline, in the state that a command leaves. -/
def pipeAfter (o : Host.Outcome State Fault Refusal) : Nat :=
  match o with
  | .next t => (t.dev.gate 0).pipe.length
  | _ => 0

/-- The refused feed's dropped sample waits behind the second one. -/
theorem pipeAfter_refusedFeed : pipeAfter (exec (.readinessNotice 0) refusedFeedState) = 2 := by
  decide +kernel

/-- Refutes O31: the last clause leaves the rest of the pipeline alone whatever feeds wait behind it. -/
theorem not_samplesAreDecodedAndPosted : ¬ Obligations.samples_are_decoded_and_posted := by
  unfold Obligations.samples_are_decoded_and_posted
  intro h
  obtain ⟨-, -, -, -, -, hnotice⟩ := h refusedFeedState 0 (by decide) (by decide)
  obtain ⟨u, flags, hu, hpipe, -⟩ := hnotice (onePixelSample 0 0) [onePixelSample 1 1] 0 (commonBase + 0x4000000) 0x4000000
    (by decide) (by decide) (by decide) (by decide) (by decide) (by decide) (by decide) (by decide) (by decide) (by decide) (by decide)
  have htwo := pipeAfter_refusedFeed
  rw [hu, pipeAfter, hpipe] at htwo
  exact absurd htwo (by decide)

end Sys2Proof.Machine
end

section
/-! SUPPORT. Deadlines and the agreement unit (R320, R323 to R325, R489, R490, R493), and what a fault leaves of the safety unit. -/

namespace Sys2Proof.Machine

open Sys2Proof

/-! ## What a fault leaves of the safety unit -/

/-- The safety unit but for the pins that it drives. -/
def Safety.unpinned (x : Safety) : Safety := { x with safe0 := false, safe1 := false, pulse := false }

theorem Dev.pins_unpinned (d : Dev) : d.pins.safe.unpinned = d.safe.unpinned := rfl

theorem Dev.raise_unpinned (d : Dev) (src kind detail arg : Nat) : (d.raise src kind detail arg).safe.unpinned = d.safe.unpinned := by
  unfold Dev.raise
  dsimp only
  split
  · exact Dev.pins_unpinned _
  · rfl

theorem Dev.corrected_unpinned (d : Dev) (line bit : Nat) : (d.corrected line bit).safe.unpinned = d.safe.unpinned := by
  unfold Dev.corrected
  dsimp only
  split
  · exact Dev.raise_unpinned _ _ _ _ _
  · split
    · exact Dev.raise_unpinned _ _ _ _ _
    · rfl

theorem Dev.fixLine_unpinned (d : Dev) (holds : Bool) (line : Nat) : (d.fixLine holds line).safe.unpinned = d.safe.unpinned := by
  unfold Dev.fixLine
  split
  · rfl
  · refine (Dev.corrected_unpinned _ _ _).trans ?_
    split
    · split
      · rfl
      · rfl
    · rfl

theorem Dev.checkLine_unpinned (d : Dev) (src : Nat) (holds : Bool) (line : Nat) :
    (d.checkLine src holds line).2.safe.unpinned = d.safe.unpinned := by
  unfold Dev.checkLine
  dsimp only
  split
  · exact d.fixLine_unpinned holds line
  · split
    · exact d.fixLine_unpinned holds line
    · exact (Dev.raise_unpinned _ _ _ _ _).trans (d.fixLine_unpinned holds line)

theorem Dev.transfer_unpinned (d : Dev) (line : Nat) : (d.transfer line).2.safe.unpinned = d.safe.unpinned := by
  unfold Dev.transfer
  split
  · dsimp only
    split
    · rfl
    · split
      · rfl
      · exact Dev.raise_unpinned _ _ _ _ _
  · rfl

theorem Dev.readLine_unpinned (d : Dev) (src : Nat) (holds : Bool) (line : Nat) :
    (d.readLine src holds line).2.safe.unpinned = d.safe.unpinned := by
  unfold Dev.readLine
  dsimp only
  split
  · exact d.transfer_unpinned line
  · split
    · exact d.transfer_unpinned line
    · exact (Dev.checkLine_unpinned _ _ _ _).trans (d.transfer_unpinned line)

theorem Dev.writePiece_unpinned (d : Dev) (a : Nat) (bs : List Byte) (p : Bool) : (d.writePiece a bs p).safe.unpinned = d.safe.unpinned := by
  have hmerge (x : Dev) (old : Bool) : (x.mergePiece a bs p old).safe.unpinned = x.safe.unpinned := x.transfer_unpinned _
  unfold Dev.writePiece
  dsimp only
  split
  · exact hmerge _ _
  · exact (hmerge _ _).trans (d.readLine_unpinned _ _ _)

/-- What the agreement unit keeps, as the pins leave it. -/
theorem Safety.unpinned_eq {x y : Safety} (h : x.unpinned = y.unpinned) :
    x.runs = y.runs ∧ x.history = y.history ∧ x.lastRun = y.lastRun ∧ x.n = y.n ∧ x.k = y.k ∧ x.rules = y.rules :=
  ⟨(congrArg Safety.runs h :), (congrArg Safety.history h :), (congrArg Safety.lastRun h :), (congrArg Safety.n h :),
    (congrArg Safety.k h :), (congrArg Safety.rules h :)⟩

/-! ## Messages that wait -/

theorem Dev.waiting_raise_of_mem {d : Dev} {m : BitVec 64} (h : m ∈ d.col.waiting) (src kind detail arg : Nat) :
    m ∈ (d.raise src kind detail arg).col.waiting := by
  unfold Dev.raise
  dsimp only
  split
  · simpa only [Dev.unsentFault, Dev.react, Dev.pins_col] using h
  · exact List.mem_append_left _ h

theorem Dev.waiting_raise_of_silent {d : Dev} {src : Nat} (hsrc : src < 1024) (h : d.silent src = true) (kind detail arg : Nat) :
    faultMsg src kind detail arg ∈ (d.raise src kind detail arg).col.waiting := by
  have hnone : (d.col.waiting.any fun w => msgSource w == src % 1024) = false := by
    rw [Nat.mod_eq_of_lt hsrc, List.any_eq_false]
    exact fun w hw => by simpa using List.all_eq_true.mp h w hw
  unfold Dev.raise
  rw [hnone]
  exact List.mem_append_right _ (List.mem_singleton.mpr rfl)

/-! ## Judging -/

theorem Dev.checkHolds_spec (d : Dev) (f : Nat) : (∃ h, (d.checkHolds f).fset f = { d.fset f with holdSeen := h }) ∧
    ∀ m ∈ d.col.waiting, m ∈ (d.checkHolds f).col.waiting := by
  unfold Dev.checkHolds
  dsimp only
  generalize ((d.fset f).cfg.map (·.hold)).getD 600 = limit
  refine List.foldlRecOn (motive := fun b : Dev => (∃ h, b.fset f = { d.fset f with holdSeen := h }) ∧ ∀ m ∈ d.col.waiting, m ∈ b.col.waiting)
    (d.pathFolds f) _ ⟨⟨_, rfl⟩, fun _ hm => hm⟩ fun b ⟨⟨h, hb⟩, hwait⟩ p _ => ?_
  have hset : (b.modFset f fun s => { s with holdSeen := tset s.holdSeen p (b.physFold p).holdCycles }).fset f =
      { d.fset f with holdSeen := tset h p (b.physFold p).holdCycles } := by
    rw [Dev.fset_modFset, if_pos rfl, hb]
  split
  · split
    · exact ⟨⟨_, (Dev.fset_raise _ _ _ _ _ _).trans hset⟩, fun m hm => Dev.waiting_raise_of_mem (d := b.modFset f _) (hwait m hm) _ _ _ _⟩
    · exact ⟨⟨_, hset⟩, hwait⟩
  · exact ⟨⟨_, hset⟩, hwait⟩

/-- A frame set whose current instance is judged: it goes on to the next one, its deadline rewritten. -/
theorem Dev.judge_spec {d : Dev} {f : Nat} {c : FsetCfg} (hcfg : (d.fset f).cfg = some c) :
    ∃ h, (d.judge f).fset f = { d.fset f with
      late := if (d.fset f).doneBits.contains (d.fset f).current then (d.fset f).late else ((d.fset f).late + 1) % 2 ^ 32
      current := ((d.fset f).current + 1) % 2 ^ 32
      serial := (d.fset f).serial + 1
      doneBits := (d.fset f).doneBits.filter (· != (d.fset f).current)
      rawDeadline := d.rawOfTime c.dom (c.deadline ((d.fset f).serial + 1))
      holdSeen := h } := by
  obtain ⟨b, hb⟩ : ∃ b, b = if (d.fset f).doneBits.contains (d.fset f).current then d
      else (d.modFset f fun s => { s with late := (s.late + 1) % 2 ^ 32 }).raise 0x304 0x24 f (d.fset f).current := ⟨_, rfl⟩
  have hbset : b.fset f = { d.fset f with
      late := if (d.fset f).doneBits.contains (d.fset f).current then (d.fset f).late else ((d.fset f).late + 1) % 2 ^ 32 } := by
    rw [hb]
    split
    · rfl
    · rw [Dev.fset_raise, Dev.fset_modFset, if_pos rfl]
  have hbtu : b.tu = d.tu := by
    rw [hb]
    split
    · rfl
    · rw [Dev.raise_tu]
      rfl
  obtain ⟨x, hx⟩ : ∃ x, x = b.modFset f fun s => { s with
    current := (s.current + 1) % 2 ^ 32, serial := s.serial + 1, doneBits := s.doneBits.filter (· != s.current) } := ⟨_, rfl⟩
  have hxset : x.fset f = { b.fset f with
      current := ((b.fset f).current + 1) % 2 ^ 32
      serial := (b.fset f).serial + 1
      doneBits := (b.fset f).doneBits.filter (· != (b.fset f).current) } := by
    rw [hx, Dev.fset_modFset, if_pos rfl]
  have hxcfg : (x.fset f).cfg = some c := by rw [hxset, hbset]; exact hcfg
  have hxtu : x.tu = d.tu := by rw [hx]; exact hbtu
  have htime (t : Int) : x.rawOfTime c.dom t = d.rawOfTime c.dom t := by rw [Dev.rawOfTime, Dev.dom, hxtu]; rfl
  obtain ⟨⟨h, hh⟩, -⟩ := (x.rewriteDeadline f).checkHolds_spec f
  have hjudge : d.judge f = (x.rewriteDeadline f).checkHolds f := by rw [hx, hb]; rfl
  refine ⟨h, ?_⟩
  rw [hjudge, hh, Dev.rewriteDeadline]
  simp only [hxcfg]
  rw [Dev.fset_modFset, if_pos rfl, htime, hxset, hbset]

/-- A late instance's fault waits at the monitor, if none waits there before. -/
theorem Dev.judge_waiting {d : Dev} {f : Nat} (hlate : (d.fset f).doneBits.contains (d.fset f).current = false) (hsilent : d.silent 0x304 = true) :
    faultMsg 0x304 0x24 f (d.fset f).current ∈ (d.judge f).col.waiting := by
  refine (Dev.checkHolds_spec _ f).2 _ ?_
  simp only [hlate, Bool.false_eq_true, if_false]
  have hwaits := Dev.waiting_raise_of_silent (d := d.modFset f fun s => { s with late := (s.late + 1) % 2 ^ 32 }) (src := 0x304) (by decide)
    hsilent 0x24 f (d.fset f).current
  unfold Dev.rewriteDeadline
  split
  · exact hwaits
  · exact hwaits

/-! ## The agreement unit -/

theorem Dev.readLines_bytes (d : Dev) (src : Nat) (holds : Bool) (a n : Nat) : (d.readLines src holds a n).2.mem.bytes = d.mem.bytes :=
  List.foldlRecOn (motive := fun x : Bool × Dev => x.2.mem.bytes = d.mem.bytes) (linesOf a n) _ rfl
    fun x hx l _ => (x.2.readLine_bytes src holds l).trans hx

theorem Dev.touch_bytes (d : Dev) (e : Env) (a : Nat) : (d.touch e a).mem.bytes = d.mem.bytes :=
  (congrArg Mem.bytes (d.agrees_touch e a .mem (by decide))).symm

/-- What comparing under a rule may touch. -/
def compareParts : List Part := [.mem, .folds, .phys, .free] ++ faultParts

/-- One rule reads its buffers, and changes no byte of them. -/
theorem Dev.runRule_spec (d : Dev) (e : Env) (counter : Nat) (r : AgreeRule) :
    d.agrees compareParts (d.runRule e counter r).2.2 ∧ (d.runRule e counter r).2.2.mem.bytes = d.mem.bytes := by
  have hlines (b : Dev) (holds : Bool) (a n : Nat) : b.agrees compareParts (b.readLines 0x341 holds a n).2 ∧
      (b.readLines 0x341 holds a n).2.mem.bytes = b.mem.bytes :=
    ⟨(b.agrees_readLines _ _ _ _).mono (by decide), b.readLines_bytes _ _ _ _⟩
  have hmain : ∀ x : Bool × Dev, d.agrees compareParts x.2 → x.2.mem.bytes = d.mem.bytes →
      d.agrees compareParts { (x.2.readLines 0x341 false (collieBase + r.collie) (0x40 + r.bytes)).2 with
        free := (x.2.readLines 0x341 false (collieBase + r.collie) (0x40 + r.bytes)).2.free + r.count } ∧
      (x.2.readLines 0x341 false (collieBase + r.collie) (0x40 + r.bytes)).2.mem.bytes = d.mem.bytes := by
    intro x hx hbytes
    obtain ⟨hread, hsame⟩ := hlines x.2 false (collieBase + r.collie) (0x40 + r.bytes)
    exact ⟨(hx.trans hread).andThen (Dev.agrees_free _ _) (by decide), hsame.trans hbytes⟩
  unfold Dev.runRule
  dsimp only
  split
  · refine hmain _ ?_ ?_
    · exact ((d.agrees_touch e _).mono (by decide)).trans (hlines _ _ _ _).1
    · exact (hlines _ _ _ _).2.trans (d.touch_bytes e _)
  · exact hmain (true, _) ((d.agrees_missed _ _ _ _).mono (by decide)) (congrArg Mem.bytes ((d.agrees_missed _ _ _ _) .mem (by decide)).symm)

/-- A comparison of an instance leaves its run, and the instance as the last one compared. -/
theorem Dev.agreeRun_spec (d : Dev) (e : Env) (f : Nat) (i : Int) :
    (∃ r, tget (d.agreeRun e f i).safe.runs f = some r ∧ r.counter = patternOf i 32 ∧ r.compared = maskOf ((d.rulesOf f).map (·.1))) ∧
    tget (d.agreeRun e f i).safe.lastRun f = some i ∧ (d.agreeRun e f i).mem.bytes = d.mem.bytes ∧ d.agrees compareParts (d.agreeRun e f i) := by
  unfold Dev.agreeRun
  dsimp only
  generalize hfold : List.foldl _ _ _ = x
  have hread : d.agrees compareParts x.2.2 ∧ x.2.2.mem.bytes = d.mem.bytes := by
    rw [← hfold]
    refine List.foldlRecOn (motive := fun acc : List Nat × Nat × Dev => d.agrees compareParts acc.2.2 ∧ acc.2.2.mem.bytes = d.mem.bytes)
      (d.rulesOf f) _ ⟨d.agrees_refl _, rfl⟩ fun acc ⟨hacc, hbytes⟩ y _ => ?_
    obtain ⟨hrule, hsame⟩ := acc.2.2.runRule_spec e (patternOf i 32) y.2
    exact ⟨hacc.trans hrule, hsame.trans hbytes⟩
  exact ⟨⟨_, tget_tset_same _ _ _, rfl, rfl⟩, tget_tset_same _ _ _, hread.2, hread.1.andThen (Dev.agrees_safe _ _) (by decide)⟩

/-! ## The verdict -/

theorem verdictBytes_length (r : AgreeRun) : (verdictBytes r).length = 16 := rfl

/-- The outcome joins the record of the last ones, and may raise the escalation fault. -/
theorem Dev.recordOutcome_spec (d : Dev) (f counter : Nat) (bad : Bool) :
    d.agrees faultParts (d.recordOutcome f counter bad) ∧ (d.recordOutcome f counter bad).safe.runs = d.safe.runs ∧
    tget (d.recordOutcome f counter bad).safe.history f = some ((bad :: tgetD d.safe.history f []).take d.safe.n) ∧
    ∀ m ∈ d.col.waiting, m ∈ (d.recordOutcome f counter bad).col.waiting := by
  obtain ⟨b, hb⟩ : ∃ b, b = { d with safe := { d.safe with
    history := tset d.safe.history f ((bad :: tgetD d.safe.history f []).take d.safe.n) } } := ⟨_, rfl⟩
  have hagrees : d.agrees faultParts b := hb ▸ (d.agrees_safe _).mono (by decide)
  have hruns : b.safe.runs = d.safe.runs := by rw [hb]
  have hhistory : tget b.safe.history f = some ((bad :: tgetD d.safe.history f []).take d.safe.n) := by rw [hb]; exact tget_tset_same _ _ _
  have hwaiting : b.col.waiting = d.col.waiting := by rw [hb]
  unfold Dev.recordOutcome
  simp only [← hb]
  split
  · obtain ⟨hr, hh, -⟩ := Safety.unpinned_eq (b.raise_unpinned 0x342 0x33 d.safe.k counter)
    exact ⟨hagrees.trans (Dev.agrees_raise _ _ _ _ _), hr.trans hruns, hh ▸ hhistory,
      fun m hm => Dev.waiting_raise_of_mem (hwaiting ▸ hm) _ _ _ _⟩
  · exact ⟨hagrees, hruns, hhistory, fun m hm => hwaiting ▸ hm⟩

/-- A write inside a line of sound memory raises nothing. -/
theorem Dev.writePiece_col_sound {d : Dev} (hsound : d.mem.sound = true) (a : Nat) (bs : List Byte) (p : Bool) :
    (d.writePiece a bs p).col = d.col := by
  obtain ⟨hpoison, -, -, -, hedc, hlate, -⟩ := (Mem.sound_iff _).1 hsound
  have hclean : d.isPoisoned (a / 64) = false := by rw [Dev.isPoisoned, hpoison]; rfl
  have hread : d.readLine (d.memSource a) false (a / 64) = (false, d) := by
    simp [Dev.readLine, Dev.checkLine, Dev.fixLine, Dev.transfer_sound d _ hedc, hlate, hclean, Dev.lineFix_sound d _ hsound,
      Dev.lineFault_sound d _ hsound]
  have hmerge (old : Bool) : (d.mergePiece a bs p old).col = d.col := by
    rw [Dev.mergePiece, Dev.transfer_sound d _ hedc]
    rfl
  unfold Dev.writePiece
  rw [hread]
  split
  · exact hmerge _
  · exact hmerge _

/-- The verdict of a run is written at the address of the set's first rule, and its outcome recorded. -/
theorem Dev.verdict_spec {d : Dev} {f k : Nat} {x : AgreeRule} {rest : List (Nat × AgreeRule)} (hrules : d.rulesOf f = (k, x) :: rest)
    (halign : x.verdict % 64 = 0) (r : AgreeRun) :
    d.agrees ([.mem, .phys] ++ faultParts) (d.verdict f r) ∧ tget (d.verdict f r).safe.runs f = none ∧
    (d.verdict f r).mem.bytes = mput d.mem.bytes x.verdict (verdictBytes r) ∧
    tget (d.verdict f r).safe.history f = some (((r.rules != 0) :: tgetD d.safe.history f []).take d.safe.n) ∧
    (r.rules ≠ 0 → d.silent 0x341 = true → d.mem.sound = true → faultMsg 0x341 0x32 r.rules r.counter ∈ (d.verdict f r).col.waiting) := by
  obtain ⟨a, ha⟩ : ∃ a, a = { d with safe := { d.safe with runs := terase d.safe.runs f } } := ⟨_, rfl⟩
  have harules : a.rulesOf f = (k, x) :: rest := by rw [ha]; exact hrules
  obtain ⟨b, hb⟩ : ∃ b, b = a.writePiece x.verdict (verdictBytes r) false := ⟨_, rfl⟩
  have hwrite : a.write x.verdict (verdictBytes r) false = b := by
    rw [hb]
    exact Dev.write_oneLine (List.ne_nil_of_length_pos (by rw [verdictBytes_length]; decide)) (by rw [halign, verdictBytes_length]; decide) _ _
  obtain ⟨c, hc⟩ : ∃ c, c = if r.rules = 0 then b else b.raise 0x341 0x32 r.rules r.counter := ⟨_, rfl⟩
  have hverdict : d.verdict f r = c.recordOutcome f r.counter (r.rules != 0) := by
    rw [hc, ← hwrite]
    simp only [Dev.verdict, ← ha, harules]
  have hbagrees : d.agrees ([.mem, .phys] ++ faultParts) b := by
    rw [hb, ha]
    exact ((d.agrees_safe _).mono (by decide)).andThen (Dev.agrees_writePiece _ _ _ _) (by decide)
  have hcagrees : d.agrees ([.mem, .phys] ++ faultParts) c := by
    rw [hc]
    split
    · exact hbagrees
    · exact hbagrees.andThen (Dev.agrees_raise _ _ _ _ _) (by decide)
  have hcmem : c.mem = b.mem := by
    rw [hc]
    split
    · rfl
    · exact Dev.raise_mem _ _ _ _ _
  have hcsafe : c.safe.unpinned = a.safe.unpinned := by
    have hbsafe : b.safe.unpinned = a.safe.unpinned := hb ▸ a.writePiece_unpinned _ _ _
    rw [hc]
    split
    · exact hbsafe
    · exact (Dev.raise_unpinned _ _ _ _ _).trans hbsafe
  obtain ⟨hcruns, hchistory, -, hcn, -⟩ := Safety.unpinned_eq hcsafe
  obtain ⟨hlast, hruns, hhistory, hwaiting⟩ := c.recordOutcome_spec f r.counter (r.rules != 0)
  rw [hverdict]
  refine ⟨hcagrees.andThen hlast (by decide), ?_, ?_, ?_, fun hbad hsilent hsound => hwaiting _ ?_⟩
  · rw [hruns, hcruns, ha]
    exact (tget_terase _ _ _).trans (if_pos rfl)
  · rw [← hlast .mem (by decide), hcmem, hb, Dev.writePiece_bytes, ha]
  · rw [hhistory, hchistory, hcn, ha]
  · rw [hc, if_neg hbad]
    have hcol : b.col = d.col := by
      rw [hb, Dev.writePiece_col_sound (by rw [ha]; exact hsound), ha]
    exact Dev.waiting_raise_of_silent (by decide) (by rw [Dev.silent, hcol]; exact hsilent) _ _ _

/-- Settles O32: judging, comparing, writing the verdict, and the unit's self-check. -/
theorem deadlinesAndAgreement : Obligations.deadlines_and_agreement := by
  refine ⟨fun s f c hf hrunning hpast hcfg => ?judge, fun s f hf =>
    ⟨fun i hclk hinst hlast hruns => ?compare, fun r k x rest hclk hrun hrules halign => ?verdict, fun hclk => ⟨?reported, ?unreported⟩⟩⟩
  case judge =>
    have hexec : exec (.deadlineJudge f) s = .next (s.put (s.dev.judge f)) := by
      rw [exec_deadlineJudge, execDeadlineJudge, run_next (by simp [missingUnit, Instr.units, hf])]
      have hpast' : (s.dev.fset f).rawDeadline < s.env.raw := hpast
      simp only [hrunning, hpast', decide_true, Bool.and_self, if_true]
      rfl
    obtain ⟨h, hset⟩ := Dev.judge_spec hcfg
    refine ⟨_, hexec, ?_⟩
    rw [State.put_dev, hset]
    refine ⟨rfl, rfl, hrunning, rfl, fun hdone => if_pos hdone, fun hlate => ⟨?_, fun hsilent => Dev.judge_waiting hlate hsilent⟩,
      State.touches_of_agrees ((s.dev.agrees_judge f).mono (by decide)), s.dev.judge_keepsOthers f⟩
    exact if_neg (by rw [hlate]; exact Bool.false_ne_true)
  case compare =>
    have hexec : exec (.agreementRun f) s = .next (s.put (s.dev.agreeRun s.env f i)) := by
      rw [exec_agreementRun, execAgreementRun, run_next (by simp [missingUnit, Instr.units, hf])]
      have hdue : s.dev.clocked = true ∧ tget s.dev.safe.lastRun f ≠ some i ∧ (tget s.dev.safe.runs f).isNone = true :=
        ⟨hclk, hlast, by rw [hruns]; rfl⟩
      simp only [hinst, if_pos hdue]
      rfl
    obtain ⟨⟨r, hrun, hcounter, hcompared⟩, hinst', hbytes, hagrees⟩ := s.dev.agreeRun_spec s.env f i
    refine ⟨_, r, hexec, ?_⟩
    rw [State.put_dev]
    exact ⟨hrun, hcounter, hcompared, hinst', hbytes, State.touches_of_agrees hagrees⟩
  case verdict =>
    have hexec : exec (.verdictWrite f) s = .next (s.put (s.dev.verdict f r)) := by
      rw [exec_verdictWrite, execVerdictWrite, runClocked_running (by simp [missingUnit, Instr.units, hf]) hclk]
      simp only [hrun]
    obtain ⟨hagrees, hnone, hbytes, hhistory, hwaiting⟩ := Dev.verdict_spec hrules halign r
    refine ⟨_, hexec, ?_⟩
    rw [State.put_dev]
    refine ⟨hnone, ?_, State.touches_of_agrees hagrees, fun a ha => ?_, hhistory, hwaiting⟩
    · rw [Dev.raw, hbytes]
      exact s.dev.raw_poke x.verdict (verdictBytes r)
    · rw [hbytes, mget_mput, verdictBytes_length, if_neg (by omega)]
  case reported =>
    rw [exec_agreeSelfCheck, execAgreeSelfCheck, run_next (by simp [missingUnit, Instr.units])]
    simp
  case unreported =>
    have hexec : exec (.agreeSelfCheck false) s = .next (s.put (s.dev.raise 0x343 0x34 0 0)) := by
      rw [exec_agreeSelfCheck, execAgreeSelfCheck, run_next (by simp [missingUnit, Instr.units])]
      simp only [hclk, Bool.not_false, and_self, if_true]
      rfl
    exact ⟨_, hexec, rfl⟩

end Sys2Proof.Machine
end

section
/-! SUPPORT. Steps and rates of domain time (R414 to R416, R419, R422), and PTP messages (R416, R418 to R420, R423, R432). -/

namespace Sys2Proof.Machine

open Sys2Proof

/-! ## What a new parameter set leaves -/

theorem mem_tkeys_of_tget {α : Type} {t : Tab α} {k : Nat} {v : α} {p : α → Bool} (h : tget t k = some v) (hv : p v = true) : k ∈ tkeys t p := by
  induction t with
  | nil => simp [tget] at h
  | cons x t ih =>
    obtain ⟨j, w⟩ := x
    rw [tget] at h
    split at h
    next hj =>
      obtain rfl : w = v := Option.some.inj h
      exact List.mem_map.mpr ⟨(j, w), List.mem_filter.mpr ⟨List.mem_cons_self, hv⟩, hj⟩
    next =>
      obtain ⟨y, hy, hk⟩ := List.mem_map.mp (ih h)
      exact List.mem_map.mpr ⟨y, List.mem_filter.mpr ⟨List.mem_cons_of_mem _ (List.mem_filter.mp hy).1, (List.mem_filter.mp hy).2⟩, hk⟩

/-- The frame sets keep their configurations and their monitors. -/
def KeepsMonitors (a b : Dev) : Prop := ∀ f, (b.fset f).cfg = (a.fset f).cfg ∧ (b.fset f).running = (a.fset f).running

/-- The time unit but for its domains and triggers. -/
def TimeUnit.links (x : TimeUnit) : TimeUnit := { x with doms := [], trigs := [] }

/-- Work on domain times that leaves domain `k`, the monitors, and what the time unit knows of the ports. -/
def LeavesDomain (k : Nat) (a b : Dev) : Prop :=
  a.agrees [.tu, .fsets] b ∧ KeepsMonitors a b ∧ b.tu.links = a.tu.links ∧ b.dom k = a.dom k

theorem LeavesDomain.refl (k : Nat) (d : Dev) : LeavesDomain k d d := ⟨d.agrees_refl _, fun _ => ⟨rfl, rfl⟩, rfl, rfl⟩

theorem LeavesDomain.trans {k : Nat} {a b c : Dev} (hab : LeavesDomain k a b) (hbc : LeavesDomain k b c) : LeavesDomain k a c := by
  obtain ⟨habA, habM, habL, habD⟩ := hab
  obtain ⟨hbcA, hbcM, hbcL, hbcD⟩ := hbc
  exact ⟨habA.trans hbcA, fun f => ⟨(hbcM f).1.trans (habM f).1, (hbcM f).2.trans (habM f).2⟩, hbcL.trans habL, hbcD.trans habD⟩

theorem Dev.dom_congr {a b : Dev} (h : a.tu = b.tu) (k : Nat) : a.dom k = b.dom k := by rw [Dev.dom, h, Dev.dom]

theorem Dev.rewriteDeadline_leaves (d : Dev) (f k : Nat) : LeavesDomain k d (d.rewriteDeadline f) := by
  unfold Dev.rewriteDeadline
  split
  · exact LeavesDomain.refl k d
  · refine ⟨(d.agrees_modFset _ _).mono (by decide), fun j => ?_, rfl, rfl⟩
    rw [Dev.fset_modFset]
    split
    next h => subst h; exact ⟨rfl, rfl⟩
    next => exact ⟨rfl, rfl⟩

theorem Dev.rewriteDomain_leaves (d : Dev) (j k : Nat) : LeavesDomain k d (d.rewriteDomain j) :=
  List.foldlRecOn (motive := fun b => LeavesDomain k d b) _ _ (LeavesDomain.refl k d) fun b hb f _ => hb.trans (b.rewriteDeadline_leaves f k)

/-- A new set at one domain: its list takes the set, and all else of the domains stays. -/
theorem Dev.addSet_spec (d : Dev) (k : Nat) (p : ParamSet) (old : List ParamSet) :
    d.agrees [.tu, .fsets] (d.addSet k p old) ∧ KeepsMonitors d (d.addSet k p old) ∧ (d.addSet k p old).tu.links = d.tu.links ∧
    ∀ j, (d.addSet k p old).dom j = if j = k then { d.dom k with params := (p :: old).take 64 } else d.dom j := by
  have hrewrite := (d.modDom k fun x => { x with params := (p :: old).take 64 }).rewriteDomain_leaves k
  obtain ⟨hagrees, hmonitors, hlinks, -⟩ := hrewrite k
  refine ⟨((d.agrees_modDom k _).mono (by decide)).trans hagrees, hmonitors, hlinks, fun j => ?_⟩
  obtain ⟨-, -, -, hdom⟩ := hrewrite j
  exact hdom.trans (Dev.dom_modDom _ _ _ _)

theorem Dev.addSet_leaves (d : Dev) {j k : Nat} (h : k ≠ j) (p : ParamSet) (old : List ParamSet) : LeavesDomain k d (d.addSet j p old) := by
  obtain ⟨hagrees, hmonitors, hlinks, hdom⟩ := d.addSet_spec j p old
  exact ⟨hagrees, hmonitors, hlinks, (hdom k).trans (if_neg h)⟩

theorem Dev.pushRate_leaves (d : Dev) (e : Env) {j k : Nat} (h : k ≠ j) (rho : Int) : LeavesDomain k d (d.pushRate e j rho) := by
  unfold Dev.pushRate
  dsimp only
  split
  · exact d.addSet_leaves h _ _
  · exact d.addSet_leaves h _ _

theorem Dev.carry_leaves (d : Dev) (e : Env) (k : Nat) : LeavesDomain k d (d.carry e k) := by
  unfold Dev.carry
  dsimp only
  split
  · exact d.pushRate_leaves e (by omega) _
  · exact LeavesDomain.refl k d

/-- A domain of which only the parameter sets have changed, so that it now reads as the newest of them. -/
def SetsDomain (e : Env) (k : Nat) (t : Int) (a b : Dev) : Prop :=
  a.agrees [.tu, .fsets] b ∧ KeepsMonitors a b ∧ b.tu.links = a.tu.links ∧ (∃ l, b.dom k = { a.dom k with params := l }) ∧
    b.domTime k e.raw = t

theorem SetsDomain.leaves {e : Env} {k : Nat} {t : Int} {a b c : Dev} (hab : SetsDomain e k t a b) (hbc : LeavesDomain k b c) :
    SetsDomain e k t a c := by
  obtain ⟨habA, habM, habL, ⟨l, hl⟩, ht⟩ := hab
  obtain ⟨hbcA, hbcM, hbcL, hbcD⟩ := hbc
  exact ⟨habA.trans hbcA, fun f => ⟨(hbcM f).1.trans (habM f).1, (hbcM f).2.trans (habM f).2⟩, hbcL.trans habL, ⟨l, hbcD.trans hl⟩,
    (Dev.domTime_of_params (congrArg Domain.params hbcD) _).trans ht⟩

/-- A set in force from now on reads its own time now (R414, R415). -/
theorem Dev.pushSet_spec (d : Dev) (e : Env) (k : Nat) {t : Int} (ht : 0 ≤ t) (rho : Int) : SetsDomain e k t d (d.pushSet e k t rho) := by
  obtain ⟨hagrees, hmonitors, hlinks, hdom⟩ := d.addSet_spec k { rs := e.raw, ts := t.toNat, rho := rateIn rho } (d.dom k).sets
  have hnew := (hdom k).trans (if_pos rfl)
  refine ⟨hagrees, hmonitors, hlinks, ⟨_, hnew⟩, ?_⟩
  have hset : setAt ((d.pushSet e k t rho).dom k).params e.raw = { rs := e.raw, ts := t.toNat, rho := rateIn rho } := by
    rw [Dev.pushSet, hnew, List.take_succ_cons, setAt]
    simp
  rw [Dev.domTime, hset, ParamSet.time]
  simp [Int.toNat_of_nonneg ht]

theorem Dev.pushRate_spec {d : Dev} {e : Env} {k : Nat} (h : (d.dom k).canReplace e.raw = true) (ht : 0 ≤ d.domTime k e.raw) (rho : Int) :
    SetsDomain e k (d.domTime k e.raw) d (d.pushRate e k rho) := by
  unfold Dev.pushRate
  simp only [h, if_true]
  exact d.pushSet_spec e k ht rho

/-- A change of rate leaves the time of now (R415). -/
theorem Dev.setRate_spec {d : Dev} {e : Env} {k : Nat} (h : (d.dom k).canReplace e.raw = true) (ht : 0 ≤ d.domTime k e.raw) (rho : Int) :
    SetsDomain e k (d.domTime k e.raw) d (d.setRate e k rho) := by
  unfold Dev.setRate
  split
  · exact ⟨d.agrees_refl _, fun _ => ⟨rfl, rfl⟩, rfl, ⟨_, rfl⟩, rfl⟩
  · exact (Dev.pushRate_spec h ht rho).leaves (Dev.carry_leaves _ e k)

/-! ## Steps -/

/-- What the edges of a trigger may touch at a step. -/
def stepParts : List Part := .tu :: postParts

/-- Work on triggers and notifications that leaves every domain and what the time unit knows of the ports. -/
def KeepsDomains (a b : Dev) : Prop := a.agrees stepParts b ∧ b.tu.doms = a.tu.doms ∧ b.tu.links = a.tu.links

theorem KeepsDomains.refl (d : Dev) : KeepsDomains d d := ⟨d.agrees_refl _, rfl, rfl⟩

theorem KeepsDomains.trans {a b c : Dev} (hab : KeepsDomains a b) (hbc : KeepsDomains b c) : KeepsDomains a c :=
  ⟨hab.1.trans hbc.1, hbc.2.1.trans hab.2.1, hbc.2.2.trans hab.2.2⟩

theorem KeepsDomains.modTrig (d : Dev) (n : Nat) (f : Trigger → Trigger) : KeepsDomains d (d.modTrig n f) :=
  ⟨(d.agrees_modTrig n f).mono (by decide), rfl, rfl⟩

theorem KeepsDomains.of_post {a b : Dev} (h : a.agrees postParts b) : KeepsDomains a b :=
  ⟨h.mono (by decide), (congrArg TimeUnit.doms (h .tu (by decide))).symm, (congrArg TimeUnit.links (h .tu (by decide))).symm⟩

theorem Dev.pulseEnds_keeps (d : Dev) (e : Env) (n : Nat) (c : TrigCfg) : KeepsDomains d (d.pulseEnds e n c) := by
  unfold Dev.pulseEnds
  split
  · exact (KeepsDomains.modTrig d n _).trans (KeepsDomains.of_post (Dev.agrees_finishAll _ _ _ _))
  · split
    · exact KeepsDomains.modTrig d n _
    · exact (KeepsDomains.modTrig d n _).trans (KeepsDomains.of_post (Dev.agrees_noteState _ _ _ _ _ _))

theorem Dev.trigStep_keeps (d : Dev) (e : Env) (n : Nat) (now : Int) : KeepsDomains d (d.trigStep e n now) := by
  unfold Dev.trigStep
  dsimp only
  split
  · exact KeepsDomains.refl d
  next c _ =>
    split
    · exact KeepsDomains.refl d
    · split
      · split
        · exact (KeepsDomains.modTrig d n _).trans (Dev.pulseEnds_keeps _ e n c)
        · exact KeepsDomains.modTrig d n _
      · split
        · exact d.pulseEnds_keeps e n c
        · split
          · exact ((KeepsDomains.of_post ((d.agrees_raise _ _ _ _).mono (by decide))).trans (KeepsDomains.modTrig _ n _)).trans
              (KeepsDomains.of_post (Dev.agrees_noteState _ _ _ _ _ _))
          · exact KeepsDomains.refl d

theorem Dev.fset_stopAll (l : List Nat) (d : Dev) (f : Nat) :
    ((l.foldl (fun d f => d.modFset f fun s => { s with running := false }) d).fset f).running =
      if f ∈ l then false else (d.fset f).running := by
  induction l generalizing d with
  | nil => simp
  | cons j l ih =>
    rw [List.foldl_cons, ih, Dev.fset_modFset]
    by_cases hl : f ∈ l
    · simp [hl]
    · by_cases hj : f = j
      · simp [hj]
      · simp [hl, hj]

/-- A step to a time: the domain reads it from now on, and the running monitors of the domain stop (R419, R422). -/
theorem Dev.stepTo_spec (d : Dev) (e : Env) (k : Nat) {t : Int} (ht : 0 ≤ t) (rho : Int) :
    d.agrees (.fsets :: stepParts) (d.stepTo e k t rho) ∧ (d.stepTo e k t rho).tu.links = d.tu.links ∧
    (∃ l, (d.stepTo e k t rho).dom k = { d.dom k with params := l }) ∧ (d.stepTo e k t rho).domTime k e.raw = t ∧
    ∀ f, (d.fset f).cfg.map (·.dom) = some k → ((d.stepTo e k t rho).fset f).running = false := by
  obtain ⟨hagrees, hmonitors, hlinks, ⟨l, hdom⟩, htime⟩ := (d.pushSet_spec e k ht rho).leaves ((d.pushSet e k t rho).carry_leaves e k)
  obtain ⟨b, hb⟩ : ∃ b, b = (d.pushSet e k t rho).carry e k := ⟨_, rfl⟩
  rw [← hb] at hagrees hmonitors hlinks hdom htime
  obtain ⟨c, hc⟩ : ∃ c, c = (tkeys b.fsets fun s => s.running && (s.cfg.map (·.dom)) == some k).foldl
    (fun d f => d.modFset f fun s => { s with running := false }) b := ⟨_, rfl⟩
  have hcagrees : b.agrees [.fsets] c := hc ▸ Dev.agrees_foldl (fun d f => d.agrees_modFset f _) _ b
  have hctu : c.tu = b.tu := (hcagrees .tu (by decide)).symm
  have hkeeps : KeepsDomains c (d.stepTo e k t rho) := by
    have hstep : d.stepTo e k t rho = (c.trigsOf k).foldl (fun d n => d.trigStep e n t) c := by rw [hc, hb]; rfl
    rw [hstep]
    exact List.foldlRecOn (motive := fun x => KeepsDomains c x) _ _ (KeepsDomains.refl c) fun x hx n _ => hx.trans (x.trigStep_keeps e n t)
  obtain ⟨hlast, hdoms, hlinks'⟩ := hkeeps
  have hdom' : (d.stepTo e k t rho).dom k = b.dom k := by rw [Dev.dom, hdoms, hctu, Dev.dom]
  refine ⟨((hagrees.mono (by decide)).andThen hcagrees (by decide)).andThen hlast (by decide), ?_, ⟨l, hdom'.trans hdom⟩, ?_, fun f hf => ?_⟩
  · rw [hlinks', hctu, hlinks]
  · rw [Dev.domTime_of_params (congrArg Domain.params hdom'), htime]
  · rw [← Dev.fset_congr (hlast .fsets (by decide)) f, hc, Dev.fset_stopAll]
    split
    · rfl
    next hnot =>
      by_contra hrun
      have hrunning : (b.fset f).running = true := Bool.of_not_eq_false hrun
      obtain ⟨v, hv⟩ : ∃ v, tget b.fsets f = some v := by
        cases hget : tget b.fsets f with
        | none => simp [Dev.fset, tgetD, hget] at hrunning
        | some v => exact ⟨v, rfl⟩
      have hvf : b.fset f = v := by rw [Dev.fset, tgetD, hv]; rfl
      refine hnot (mem_tkeys_of_tget hv ?_)
      rw [← hvf, hrunning, (hmonitors f).1, hf]
      simp

/-! ## The servo -/

theorem Dev.dom_modDom_same (d : Dev) (k : Nat) (f : Domain → Domain) : (d.modDom k f).dom k = f (d.dom k) :=
  (d.dom_modDom k f k).trans (if_pos rfl)

/-- The first offset after a start steps the domain's time by it (R419). -/
theorem Dev.servo_steps {d : Dev} {e : Env} {k : Nat} (hfree : ¬ ((d.dom k).sync = .carried ∧ (d.dom k).forDisagreement = true))
    (hstepped : (d.dom k).stepped = false) (hreplace : (d.dom k).canReplace e.raw = true) {off : Int} (ht : 0 ≤ d.domTime k e.raw - off)
    (rate : Int) :
    d.agrees (.free :: .fsets :: stepParts) (d.servo e k off rate) ∧ (d.servo e k off rate).tu.links = d.tu.links ∧
    (∃ l y, (d.servo e k off rate).dom k = { d.dom k with stepped := true, syncDiff := y, params := l }) ∧
    (d.servo e k off rate).domTime k e.raw = d.domTime k e.raw - off ∧
    ∀ f, (d.fset f).cfg.map (·.dom) = some k → ((d.servo e k off rate).fset f).running = false := by
  obtain ⟨b, hb⟩ : ∃ b, b = d.modDom k fun x => { x with stepped := true, syncDiff := x.syncDiff - off } := ⟨_, rfl⟩
  obtain ⟨c, hc⟩ : ∃ c, c = b.stepTo e k (d.domTime k e.raw - off) (servoRate d.free rate) := ⟨_, rfl⟩
  have hservo : d.servo e k off rate = c.spend := by
    rw [hc, hb, Dev.servo, if_neg hfree, if_neg (by rw [hstepped]; exact Bool.false_ne_true), if_pos hreplace]
  obtain ⟨hagrees, hlinks, ⟨l, hdom⟩, htime, hmonitors⟩ := b.stepTo_spec e k ht (servoRate d.free rate)
  rw [← hc] at hagrees hlinks hdom htime hmonitors
  have hbdom : b.dom k = { d.dom k with stepped := true, syncDiff := (d.dom k).syncDiff - off } := by rw [hb, Dev.dom_modDom_same]
  have hbagrees : d.agrees [.tu] b := hb ▸ d.agrees_modDom k _
  have hbfsets : b.fsets = d.fsets := (hbagrees .fsets (by decide)).symm
  have hblinks : b.tu.links = d.tu.links := by rw [hb]; rfl
  rw [hbdom] at hdom
  rw [hservo]
  exact ⟨((hbagrees.mono (by decide)).andThen hagrees (by decide)).andThen (Dev.agrees_spend _) (by decide), hlinks.trans hblinks,
    ⟨l, (d.dom k).syncDiff - off, hdom⟩, htime, fun f hf => hmonitors f (by rw [Dev.fset_congr hbfsets]; exact hf)⟩

/-- A good offset in ACQUIRING, short of the eighth in a row, changes the rate alone (R419, R420). -/
theorem Dev.servo_slews {d : Dev} {e : Env} {k : Nat} (hstepped : (d.dom k).stepped = true) (hsync : (d.dom k).sync = .acquiring) {off : Int}
    (hoff : off.natAbs < 1000) (hfew : (d.dom k).goodSyncs + 1 < 8) (ht : 0 ≤ d.domTime k e.raw) (rate : Int) :
    d.agrees [.tu, .fsets, .free] (d.servo e k off rate) ∧
    (∃ l o, (d.servo e k off rate).dom k = { d.dom k with offsets := o, goodSyncs := (d.dom k).goodSyncs + 1, params := l }) ∧
    (d.servo e k off rate).domTime k e.raw = d.domTime k e.raw := by
  obtain ⟨a, ha⟩ : ∃ a, a = d.modDom k fun x => { x with offsets := (off :: x.offsets).take 3 } := ⟨_, rfl⟩
  have hadom : a.dom k = { d.dom k with offsets := (off :: (d.dom k).offsets).take 3 } := by rw [ha, Dev.dom_modDom_same]
  obtain ⟨b, hb⟩ : ∃ b, b = a.modDom k fun x => { x with goodSyncs := (d.dom k).goodSyncs + 1 } := ⟨_, rfl⟩
  have hbdom : b.dom k = { d.dom k with offsets := (off :: (d.dom k).offsets).take 3, goodSyncs := (d.dom k).goodSyncs + 1 } := by
    rw [hb, Dev.dom_modDom_same, hadom]
  have hbagrees : d.agrees [.tu] b := by
    rw [hb, ha]
    exact (d.agrees_modDom k _).trans (Dev.agrees_modDom _ k _)
  have hbtime : b.domTime k e.raw = d.domTime k e.raw := Dev.domTime_of_params (by rw [hbdom]) _
  have hcount : a.countGood e k off = b := by
    have hn : (d.dom k).goodSyncs + 1 ≠ 8 := by omega
    rw [Dev.countGood]
    simp only [hoff, if_true, hadom, if_neg hn, hb]
  have hservo : d.servo e k off rate = if (b.dom k).canReplace e.raw then (b.setRate e k (servoRate b.free (b.dom k).masterRho)).spend else b := by
    have hsmall : ¬ 1000000 < off.natAbs := by omega
    have hasync : (a.dom k).sync = .acquiring := by rw [hadom]; exact hsync
    have hnotback : ¬ ((d.dom k).sync = .holdover ∨ (d.dom k).sync = .carried) := by simp [hsync]
    have hnotcarried : ¬ ((d.dom k).sync = .carried ∧ (d.dom k).forDisagreement = true) := by simp [hsync]
    rw [Dev.servo]
    simp only [if_neg hnotcarried, hstepped, if_true, Dev.slew, if_neg hnotback, ← ha, hasync, if_neg hsmall, hcount]
  rw [hservo]
  split
  next hreplace =>
    obtain ⟨hagrees, -, -, ⟨l, hdom⟩, htime⟩ := Dev.setRate_spec (e := e) hreplace (hbtime ▸ ht) (servoRate b.free (b.dom k).masterRho)
    refine ⟨((hbagrees.mono (by decide)).andThen hagrees (by decide)).andThen (Dev.agrees_spend _) (by decide),
      ⟨l, (off :: (d.dom k).offsets).take 3, ?_⟩,
      htime.trans hbtime⟩
    exact hdom.trans (congrArg (fun x : Domain => { x with params := l }) hbdom)
  next => exact ⟨hbagrees.mono (by decide), ⟨(d.dom k).params, (off :: (d.dom k).offsets).take 3, hbdom⟩, hbtime⟩

/-! ## Requests -/

theorem Dev.agrees_sendRequest (d : Dev) (k port : Nat) (peer : Bool) : d.agrees [.tu, .flock] (d.sendRequest k port peer) :=
  ((d.agrees_tu _).mono (by decide)).andThen (Dev.agrees_flock _ _) (by decide)

theorem Dev.dom_sendRequest (d : Dev) (k port : Nat) (peer : Bool) (j : Nat) : (d.sendRequest k port peer).dom j = d.dom j := rfl

/-- The Pdelay_Req of a port, where one is due. -/
def Dev.askLink (d : Dev) (e : Env) (k port : Nat) : Dev :=
  let r := tget d.tu.pdelayReq port
  if askDue r e.raw then
    let req : DelayReq := { seq := d.tu.ptpSeq, sent := d.stampOut e port, alive := (r.map (·.answered)).getD false }
    { d with tu := { d.tu with pdelayReq := tset d.tu.pdelayReq port req } }.sendRequest k port true
  else d

theorem Dev.askDelay_eq (d : Dev) (e : Env) (k port : Nat) :
    let b := d.askLink e k port
    d.askDelay e k port = if !(b.dom k).is8021AS && !b.linkAnswers e.raw port && askDue (b.dom k).delayReq e.raw then
      (b.modDom k fun x => { x with delayReq := some { seq := b.tu.ptpSeq, sent := b.stampOut e port } }).sendRequest k port false
    else b := rfl

/-- Where no Pdelay_Resp answers before the request of a link, none answers after it. -/
theorem Dev.askLink_spec (d : Dev) (e : Env) (k port : Nat) :
    d.agrees [.tu, .flock] (d.askLink e k port) ∧ (∀ j, (d.askLink e k port).dom j = d.dom j) ∧
    (d.askLink e k port).stampOut e port = d.stampOut e port ∧
    (d.linkAnswers e.raw port = false → (d.askLink e k port).linkAnswers e.raw port = false) := by
  unfold Dev.askLink
  dsimp only
  split
  · refine ⟨((d.agrees_tu _).mono (by decide)).trans (Dev.agrees_sendRequest _ _ _ _), fun _ => rfl, rfl, fun h => ?_⟩
    have hnone : ((tget d.tu.pdelayReq port).map (·.answered)).getD false = false := by
      unfold Dev.linkAnswers at h
      split at h
      next r hr =>
        rw [hr]
        exact (Bool.or_eq_false_iff.mp h).1
      next hr => rw [hr]; rfl
    simp only [Dev.linkAnswers, Dev.sendRequest, tget_tset_same, Bool.false_or, hnone, Bool.false_and]
  · exact ⟨d.agrees_refl _, fun _ => rfl, rfl, id⟩

/-- The requests after a Sync: the domain keeps all but its own request, which leaves now where one is due. -/
theorem Dev.askDelay_spec (d : Dev) (e : Env) (k port : Nat) :
    d.agrees [.tu, .flock] (d.askDelay e k port) ∧ (∃ r, (d.askDelay e k port).dom k = { d.dom k with delayReq := r }) ∧
    ((d.dom k).is8021AS = false → d.linkAnswers e.raw port = false → askDue (d.dom k).delayReq e.raw = true →
      ((d.askDelay e k port).dom k).delayReq.map (fun r => (r.sent, r.answered)) = some (d.stampOut e port, false)) := by
  obtain ⟨hagrees, hdom, hstamp, hanswers⟩ := d.askLink_spec e k port
  rw [d.askDelay_eq e k port]
  dsimp only
  split
  · refine ⟨(hagrees.andThen (Dev.agrees_modDom _ _ _) (by decide)).trans (Dev.agrees_sendRequest _ _ _ _),
      ⟨some { seq := (d.askLink e k port).tu.ptpSeq, sent := (d.askLink e k port).stampOut e port }, ?_⟩, fun _ _ _ => ?_⟩
    · rw [Dev.dom_sendRequest, Dev.dom_modDom_same, hdom]
    · rw [Dev.dom_sendRequest, Dev.dom_modDom_same, ← hstamp]
      rfl
  next hnot =>
    refine ⟨hagrees, ⟨(d.dom k).delayReq, hdom k⟩, fun has hlink hdue => (hnot ?_).elim⟩
    rw [hdom, has, hanswers hlink, hdue]
    rfl

/-! ## Offsets -/

/-- What an offset is measured from, as a Sync's own marks on the domain leave it. -/
theorem Dev.pathDelay_congr {a b : Dev} {k : Nat} (hcfg : (b.dom k).cfg = (a.dom k).cfg) (hdelay : (b.dom k).delay = (a.dom k).delay)
    (hlinks : b.tu.links = a.tu.links) (e : Env) (port : Nat) : b.pathDelay e k port = a.pathDelay e k port := by
  have hreq : b.tu.pdelayReq = a.tu.pdelayReq := (congrArg TimeUnit.pdelayReq hlinks :)
  have hlink : b.tu.linkDelay = a.tu.linkDelay := (congrArg TimeUnit.linkDelay hlinks :)
  have hanswers : b.linkAnswers e.raw port = a.linkAnswers e.raw port := by
    rw [Dev.linkAnswers, hreq]
    rfl
  simp only [Dev.pathDelay, Domain.is8021AS, hanswers, hcfg, hdelay, hlink]
  rfl

/-- An offset is measured alike before and after a mark on the domain that is neither its time nor its delay. -/
theorem Dev.measured_congr {a b : Dev} {k : Nat} (hparams : (b.dom k).params = (a.dom k).params) (hcfg : (b.dom k).cfg = (a.dom k).cfg)
    (hdelay : (b.dom k).delay = (a.dom k).delay) (hlinks : b.tu.links = a.tu.links) (e : Env) (stamp port : Nat) (o : Int) :
    b.domTime k stamp - o - b.pathDelay e k port = a.domTime k stamp - o - a.pathDelay e k port := by
  rw [Dev.pathDelay_congr hcfg hdelay hlinks, Dev.domTime_of_params hparams]

/-- A domain with a Sync's marks on it, before its servo runs. -/
def Dev.synced (d : Dev) (e : Env) (k stamp : Nat) (origin : Nat) (correction rate : Int) : Dev :=
  d.modDom k fun x => { x with
    lastSync := e.raw, lastOrigin := origin, masterRho := rate, master := true
    syncDiff := d.domTime k stamp - ((origin : Int) + correction) }

theorem Dev.offsetMeasured_eq (d : Dev) (e : Env) (k stamp port origin : Nat) (correction rate : Int) :
    d.offsetMeasured e k stamp port origin correction rate =
      ((d.synced e k stamp origin correction rate).servo e k
        (d.domTime k stamp - ((origin : Int) + correction) - d.pathDelay e k port) rate).askDelay e k port := rfl

/-- The first offset measured steps its domain, and the requests that follow a Sync leave. -/
theorem Dev.offsetMeasured_steps {d : Dev} {e : Env} {k stamp port origin : Nat} {correction rate off : Int}
    (hoff : off = d.domTime k stamp - ((origin : Int) + correction) - d.pathDelay e k port)
    (hfree : ¬ ((d.dom k).sync = .carried ∧ (d.dom k).forDisagreement = true)) (hstepped : (d.dom k).stepped = false)
    (hreplace : (d.dom k).canReplace e.raw = true) (ht : 0 ≤ d.domTime k e.raw - off) :
    let u := d.offsetMeasured e k stamp port origin correction rate
    d.agrees ([.tu, .fsets, .free] ++ postParts) u ∧ (u.dom k).stepped = true ∧ (u.dom k).lastOrigin = origin ∧
    (u.dom k).pending = (d.dom k).pending ∧ u.domTime k e.raw = d.domTime k e.raw - off ∧
    ((d.dom k).is8021AS = false → d.linkAnswers e.raw port = false → askDue (d.dom k).delayReq e.raw = true →
      (u.dom k).delayReq.map (fun r => (r.sent, r.answered)) = some (d.stampOut e port, false)) ∧
    ∀ f, (d.fset f).cfg.map (·.dom) = some k → (u.fset f).running = false := by
  obtain ⟨a, ha⟩ : ∃ a, a = d.synced e k stamp origin correction rate := ⟨_, rfl⟩
  have hadom : a.dom k = { d.dom k with
      lastSync := e.raw, lastOrigin := origin, masterRho := rate, master := true
      syncDiff := d.domTime k stamp - ((origin : Int) + correction) } := by
    rw [ha, Dev.synced, Dev.dom_modDom_same]
  have haagrees : d.agrees [.tu] a := ha ▸ d.agrees_modDom k _
  have halinks : a.tu.links = d.tu.links := by rw [ha]; rfl
  have hatime : a.domTime k e.raw = d.domTime k e.raw := Dev.domTime_of_params (by rw [hadom]) _
  obtain ⟨b, hb⟩ : ∃ b, b = a.servo e k off rate := ⟨_, rfl⟩
  obtain ⟨hbagrees, hblinks, ⟨l, y, hbdom⟩, hbtime, hbmonitors⟩ := Dev.servo_steps (d := a) (e := e) (k := k) (off := off)
    (by rw [hadom]; exact hfree) (by rw [hadom]; exact hstepped) (by rw [hadom]; exact hreplace) (by rw [hatime]; exact ht) rate
  rw [← hb] at hbagrees hblinks hbdom hbtime hbmonitors
  obtain ⟨huagrees, ⟨r, hudom⟩, huask⟩ := b.askDelay_spec e k port
  have hall : b.tu.links = d.tu.links := hblinks.trans halinks
  have hreq : b.tu.pdelayReq = d.tu.pdelayReq := (congrArg TimeUnit.pdelayReq hall :)
  have hout : b.tu.delayOut = d.tu.delayOut := (congrArg TimeUnit.delayOut hall :)
  dsimp only
  rw [Dev.offsetMeasured_eq, ← ha, ← hoff, ← hb]
  refine ⟨((haagrees.mono (by decide)).andThen hbagrees (by decide)).andThen huagrees (by decide), ?_, ?_, ?_, ?_, fun has hlink hdue => ?_,
    fun f hf => ?_⟩
  · rw [hudom, hbdom]
  · rw [hudom, hbdom, hadom]
  · rw [hudom, hbdom, hadom]
  · rw [Dev.domTime_of_params (congrArg Domain.params hudom :), hbtime, hatime]
  · have hstamp : d.stampOut e port = b.stampOut e port := by rw [Dev.stampOut, Dev.stampOut, hout]
    rw [hstamp]
    refine huask ?_ ?_ ?_
    · rw [hbdom, hadom]
      exact has
    · rw [Dev.linkAnswers, hreq]
      exact hlink
    · rw [hbdom, hadom]
      exact hdue
  · rw [← Dev.fset_congr (huagrees .fsets (by decide)) f]
    exact hbmonitors f (by rw [← Dev.fset_congr (haagrees .fsets (by decide)) f]; exact hf)

/-- A good offset in ACQUIRING, short of the eighth, keeps the time of now. -/
theorem Dev.offsetMeasured_slews {d : Dev} {e : Env} {k stamp port origin : Nat} {correction rate off : Int}
    (hoff : off = d.domTime k stamp - ((origin : Int) + correction) - d.pathDelay e k port)
    (hstepped : (d.dom k).stepped = true) (hsync : (d.dom k).sync = .acquiring) (hsmall : off.natAbs < 1000)
    (hfew : (d.dom k).goodSyncs + 1 < 8) (ht : 0 ≤ d.domTime k e.raw) :
    let u := d.offsetMeasured e k stamp port origin correction rate
    d.agrees [.tu, .fsets, .free, .flock] u ∧ (u.dom k).goodSyncs = (d.dom k).goodSyncs + 1 ∧ (u.dom k).sync = .acquiring ∧
    (u.dom k).lastOrigin = origin ∧ u.domTime k e.raw = d.domTime k e.raw := by
  obtain ⟨a, ha⟩ : ∃ a, a = d.synced e k stamp origin correction rate := ⟨_, rfl⟩
  have hadom : a.dom k = { d.dom k with
      lastSync := e.raw, lastOrigin := origin, masterRho := rate, master := true
      syncDiff := d.domTime k stamp - ((origin : Int) + correction) } := by
    rw [ha, Dev.synced, Dev.dom_modDom_same]
  have haagrees : d.agrees [.tu] a := ha ▸ d.agrees_modDom k _
  have hatime : a.domTime k e.raw = d.domTime k e.raw := Dev.domTime_of_params (by rw [hadom]) _
  obtain ⟨b, hb⟩ : ∃ b, b = a.servo e k off rate := ⟨_, rfl⟩
  obtain ⟨hbagrees, ⟨l, o, hbdom⟩, hbtime⟩ := Dev.servo_slews (d := a) (e := e) (k := k) (off := off)
    (by rw [hadom]; exact hstepped) (by rw [hadom]; exact hsync) hsmall (by rw [hadom]; exact hfew) (by rw [hatime]; exact ht) rate
  rw [← hb] at hbagrees hbdom hbtime
  obtain ⟨huagrees, ⟨r, hudom⟩, -⟩ := b.askDelay_spec e k port
  dsimp only
  rw [Dev.offsetMeasured_eq, ← ha, ← hoff, ← hb]
  refine ⟨((haagrees.mono (by decide)).andThen hbagrees (by decide)).andThen huagrees (by decide), ?_, ?_, ?_, ?_⟩
  · rw [hudom, hbdom, hadom]
  · rw [hudom, hbdom, hadom]
    exact hsync
  · rw [hudom, hbdom, hadom]
  · rw [Dev.domTime_of_params (congrArg Domain.params hudom :), hbtime, hatime]

/-! ## The messages -/

section

variable {s : State} {m : PtpMsg} {k : Nat} (hport : m.port < 4) (hdoms : s.dev.ptpDomains m = [k])
include hport hdoms

/-- A Sync of the master that the domain follows, in range. -/
theorem exec_sync_of_good (hfollows : (s.dev.dom k).follows m = true) (hint : syncInterval m = true) (hcorr : correctionOk m = true) :
    exec (.sync m) s = .next (s.put (if m.twoStep = false ∧ m.origin < (s.dev.dom k).lastOrigin then s.dev.ptpDiscard s.env k 0
      else
        let d := s.dev.modDom k fun x => { x with syncInterval := m.logInterval }
        if m.twoStep then d.modDom k fun x => { x with pending := some (m, d.stampIn s.env m.port), lastSync := s.env.raw }
        else d.offsetMeasured s.env k (d.stampIn s.env m.port) m.port m.origin m.correction m.rateRatio)) := by
  rw [exec_sync, execSync, run_next (by simp [missingUnit, Instr.units, hport])]
  simp only [hdoms, List.foldl_cons, List.foldl_nil, hfollows, hint, hcorr, Bool.not_true, Bool.or_self, Bool.false_eq_true, if_false,
    Bool.false_or, Bool.and_eq_true, Bool.not_eq_true', decide_eq_true_eq]
  rfl

theorem exec_followUp_of_pair {y : PtpMsg} {stamp : Nat} (hfollows : (s.dev.dom k).follows m = true)
    (hpending : (s.dev.dom k).pending = some (y, stamp)) (hseq : y.sequenceId = m.sequenceId) (hsource : y.sourcePort = m.sourcePort)
    (hcorr : correctionOk m = true) (hlater : (s.dev.dom k).lastOrigin ≤ m.origin) (hfresh : s.clk.raw ≤ stamp + 1000000000) :
    exec (.followUp m) s = .next (s.put ((s.dev.modDom k fun x => { x with pending := none }).offsetMeasured s.env k stamp y.port
      m.origin (y.correction + m.correction) m.rateRatio)) := by
  rw [exec_followUp, execFollowUp, run_next (by simp [missingUnit, Instr.units, hport])]
  have hpairs : ¬ (y.sequenceId ≠ m.sequenceId ∨ y.sourcePort ≠ m.sourcePort ∨ (!correctionOk m) = true ∨ m.origin < (s.dev.dom k).lastOrigin) := by
    simp [hseq, hsource, hcorr, hlater]
  have hfresh' : ¬ stamp + 1000000000 < s.env.raw := Nat.not_lt.mpr hfresh
  simp only [hdoms, List.foldl_cons, List.foldl_nil, hfollows, hpending, Bool.not_true, Bool.false_eq_true, if_false, if_neg hpairs,
    if_neg hfresh']
  rfl

end

/-- Settles O33: one case per message and what its checks admit. -/
theorem ptpMessages : Obligations.ptp_messages := by
  intro s m k now off good hport hdoms hnow hgood
  subst hnow hgood
  refine ⟨fun ⟨hfollows, hint, hcorr⟩ htwo => ?twoStep, fun ⟨hfollows, hint, hcorr⟩ hone hlater hfree hoff hpos hback =>
    ⟨fun hstepped hreplace => ?step, fun hstepped hsync hsmall hfew => ?slew⟩,
    fun y stamp hfollows hpending hseq hsource hcorr hlater hfresh hstepped hreplace hfree hoff hback => ?followUp,
    fun r hreq hanswers hin => ?delayResp, fun r v hreq hv hanswers hin => ?pdelayResp,
    fun hqual hlow hhigh hbetter => ?announce, fun hnot hlow hhigh => ?passedOver, fun hnot => ?notFollowed,
    fun hfollows hint hcorr => ?outOfRange, fun hnot => ?unpaired⟩
  case twoStep =>
    have hexec := exec_sync_of_good hport hdoms hfollows hint hcorr
    simp only [htwo, Bool.true_eq_false, false_and, if_false, if_true] at hexec
    refine ⟨_, hexec, ?_⟩
    rw [State.put_dev]
    refine ⟨?_, ?_, ?_, State.touches_of_agrees ((Dev.agrees_modDom _ _ _).trans (Dev.agrees_modDom _ _ _)), fun j hj => ?_⟩
    · rw [Dev.dom_modDom_same]
      rfl
    · rw [Dev.dom_modDom_same]
      rfl
    · rw [Dev.dom_modDom_same, Dev.dom_modDom_same]
    · rw [Dev.dom_modDom, if_neg hj, Dev.dom_modDom, if_neg hj]
  case step =>
    obtain ⟨d, hd⟩ : ∃ d, d = s.dev.modDom k fun x => { x with syncInterval := m.logInterval } := ⟨_, rfl⟩
    have hddom : d.dom k = { s.dev.dom k with syncInterval := m.logInterval } := by rw [hd, Dev.dom_modDom_same]
    have hdtime (r : Nat) : d.domTime k r = s.dev.domTime k r := Dev.domTime_of_params (by rw [hddom]) r
    have hdagrees : s.dev.agrees [.tu] d := hd ▸ s.dev.agrees_modDom k _
    have hdstamp : d.stampIn s.env m.port = s.dev.stampIn s.env m.port := by rw [hd]; rfl
    have hlinks : d.tu.links = s.dev.tu.links := by rw [hd]; rfl
    have hmeasured : d.domTime k (s.dev.stampIn s.env m.port) - ((m.origin : Int) + m.correction) - d.pathDelay s.env k m.port =
        s.dev.domTime k (s.dev.stampIn s.env m.port) - ((m.origin : Int) + m.correction) - s.dev.pathDelay s.env k m.port :=
      Dev.measured_congr (by rw [hddom]) (by rw [hddom]) (by rw [hddom]) hlinks _ _ _ _
    have hexec := exec_sync_of_good hport hdoms hfollows hint hcorr
    rw [if_neg (by simp [hlater])] at hexec
    simp only [hone, Bool.false_eq_true, if_false, ← hd, hdstamp] at hexec
    obtain ⟨hagrees, hstep', horigin, -, htime, hask, hmonitors⟩ := Dev.offsetMeasured_steps (d := d) (e := s.env) (k := k) (off := off)
      (stamp := s.dev.stampIn s.env m.port) (port := m.port) (origin := m.origin) (correction := m.correction) (rate := m.rateRatio)
      (by rw [hmeasured, hoff]; omega)
      (by rw [hddom]; exact hfree) (by rw [hddom]; exact hstepped) (by rw [hddom]; exact hreplace)
      (by rw [hdtime]; exact hback)
    refine ⟨_, hexec, ?_⟩
    rw [State.put_dev]
    refine ⟨hstep', ?_, horigin, State.touches_of_agrees ((hdagrees.mono (by decide)).trans hagrees), fun has hlink hdue => ?_, fun f hf => ?_⟩
    · exact htime.trans (by rw [hdtime]; rfl)
    · have hlink' : d.linkAnswers s.env.raw m.port = false := by rw [hd]; exact hlink
      have hout : d.stampOut s.env m.port = s.dev.stampOut s.env m.port := by rw [hd]; rfl
      rw [← hout]
      exact hask (by rw [hddom]; exact has) hlink' (by rw [hddom]; exact hdue)
    · exact hmonitors f (by rw [← Dev.fset_congr (hdagrees .fsets (by decide)) f]; exact hf)
  case slew =>
    obtain ⟨d, hd⟩ : ∃ d, d = s.dev.modDom k fun x => { x with syncInterval := m.logInterval } := ⟨_, rfl⟩
    have hddom : d.dom k = { s.dev.dom k with syncInterval := m.logInterval } := by rw [hd, Dev.dom_modDom_same]
    have hdtime (r : Nat) : d.domTime k r = s.dev.domTime k r := Dev.domTime_of_params (by rw [hddom]) r
    have hdagrees : s.dev.agrees [.tu] d := hd ▸ s.dev.agrees_modDom k _
    have hdstamp : d.stampIn s.env m.port = s.dev.stampIn s.env m.port := by rw [hd]; rfl
    have hlinks : d.tu.links = s.dev.tu.links := by rw [hd]; rfl
    have hmeasured : d.domTime k (s.dev.stampIn s.env m.port) - ((m.origin : Int) + m.correction) - d.pathDelay s.env k m.port =
        s.dev.domTime k (s.dev.stampIn s.env m.port) - ((m.origin : Int) + m.correction) - s.dev.pathDelay s.env k m.port :=
      Dev.measured_congr (by rw [hddom]) (by rw [hddom]) (by rw [hddom]) hlinks _ _ _ _
    have hexec := exec_sync_of_good hport hdoms hfollows hint hcorr
    rw [if_neg (by simp [hlater])] at hexec
    simp only [hone, Bool.false_eq_true, if_false, ← hd, hdstamp] at hexec
    obtain ⟨hagrees, hcount, hsync', horigin, htime⟩ := Dev.offsetMeasured_slews (d := d) (e := s.env) (k := k) (off := off)
      (stamp := s.dev.stampIn s.env m.port) (port := m.port) (origin := m.origin) (correction := m.correction) (rate := m.rateRatio)
      (by rw [hmeasured, hoff]; omega)
      (by rw [hddom]; exact hstepped) (by rw [hddom]; exact hsync) hsmall (by rw [hddom]; exact hfew)
      (by rw [hdtime]; exact hpos)
    refine ⟨_, hexec, ?_⟩
    rw [State.put_dev]
    exact ⟨hcount.trans (by rw [hddom]), hsync', htime.trans (hdtime _), horigin,
      State.touches_of_agrees ((hdagrees.mono (by decide)).andThen hagrees (by decide))⟩
  case followUp =>
    obtain ⟨d, hd⟩ : ∃ d, d = s.dev.modDom k fun x => { x with pending := none } := ⟨_, rfl⟩
    have hddom : d.dom k = { s.dev.dom k with pending := none } := by rw [hd, Dev.dom_modDom_same]
    have hdtime (r : Nat) : d.domTime k r = s.dev.domTime k r := Dev.domTime_of_params (by rw [hddom]) r
    have hdagrees : s.dev.agrees [.tu] d := hd ▸ s.dev.agrees_modDom k _
    have hlinks : d.tu.links = s.dev.tu.links := by rw [hd]; rfl
    have hmeasured : d.domTime k stamp - ((m.origin : Int) + (y.correction + m.correction)) - d.pathDelay s.env k y.port =
        s.dev.domTime k stamp - ((m.origin : Int) + (y.correction + m.correction)) - s.dev.pathDelay s.env k y.port :=
      Dev.measured_congr (by rw [hddom]) (by rw [hddom]) (by rw [hddom]) hlinks _ _ _ _
    have hexec := exec_followUp_of_pair hport hdoms hfollows hpending hseq hsource hcorr hlater hfresh
    rw [← hd] at hexec
    obtain ⟨hagrees, -, -, hpend, htime, -, -⟩ := Dev.offsetMeasured_steps (d := d) (e := s.env) (k := k) (off := off)
      (stamp := stamp) (port := y.port) (origin := m.origin) (correction := y.correction + m.correction) (rate := m.rateRatio)
      (by rw [hmeasured, hoff]; omega)
      (by rw [hddom]; exact hfree) (by rw [hddom]; exact hstepped) (by rw [hddom]; exact hreplace)
      (by rw [hdtime]; exact hback)
    refine ⟨_, hexec, ?_⟩
    rw [State.put_dev]
    exact ⟨hpend.trans (by rw [hddom]), htime.trans (by rw [hdtime]; rfl), State.touches_of_agrees ((hdagrees.mono (by decide)).trans hagrees)⟩
  case delayResp =>
    rw [exec_delayResp, execDelayResp, run_next (by simp [missingUnit, Instr.units, hport])]
    have hanswers' : answersReq m s.env.raw r = true := hanswers
    simp only [hdoms, List.foldl_cons, List.foldl_nil, hreq, hanswers', hin, Bool.and_self, if_true]
    rfl
  case pdelayResp =>
    have hexec : exec (.pdelayResp m) s = .next (s.put (s.dev.peerAnswered m (s.dev.stampIn s.env m.port) r v)) := by
      rw [exec_pdelayResp, execPdelayResp, run_next (by simp [missingUnit, Instr.units, hport])]
      have hanswers' : answersReq m s.env.raw r = true := hanswers
      simp only [hdoms, hreq, ← hv, hanswers', hin, Bool.and_self, if_true]
      rfl
    refine ⟨_, hexec, ?_⟩
    rw [State.put_dev]
    exact ⟨tget_tset_same _ _ _, rfl, tget_tset_same _ _ _, State.touches_of_agrees (Dev.agrees_tu _ _)⟩
  case announce =>
    have hrange : ¬ (m.logInterval < -3 ∨ 4 < m.logInterval) := by omega
    have hpass : (!m.qualified || !(s.dev.dom k).betterMaster m) = false := by rw [hqual, hbetter]; rfl
    obtain ⟨d, hd⟩ : ∃ d, d = s.dev.modDom k fun x => x.announced s.env.raw m := ⟨_, rfl⟩
    have hexec : exec (.announce m) s = .next (s.put (if (s.dev.dom k).sync = .holdover ∨ ((s.dev.dom k).sync = .carried ∧
        (!(s.dev.dom k).forDisagreement) = true) then
        d.modDom k fun x => { x with sync := .acquiring, goodSyncs := 0, offsets := [], lastSync := s.env.raw } else d)) := by
      rw [exec_announce, execAnnounce, run_next (by simp [missingUnit, Instr.units, hport])]
      simp only [hdoms, List.foldl_cons, List.foldl_nil, if_neg hrange, hpass, Bool.false_eq_true, if_false, ← hd]
      rfl
    have hddom : d.dom k = (s.dev.dom k).announced s.env.raw m := by rw [hd, Dev.dom_modDom_same]
    have hdother (j : Nat) (hj : j ≠ k) : d.dom j = s.dev.dom j := by rw [hd, Dev.dom_modDom, if_neg hj]
    have hdagrees : s.dev.agrees [.tu] d := hd ▸ s.dev.agrees_modDom k _
    refine ⟨_, hexec, ?_⟩
    rw [State.put_dev]
    split
    · refine ⟨?_, ?_, ?_, State.touches_of_agrees (hdagrees.trans (Dev.agrees_modDom _ _ _)),
        fun j hj => (Dev.dom_modDom _ _ _ _).trans ((if_neg hj).trans (hdother j hj)), ?_⟩
      all_goals rw [Dev.dom_modDom_same, hddom]; rfl
    · refine ⟨?_, ?_, ?_, State.touches_of_agrees hdagrees, hdother, ?_⟩
      all_goals rw [hddom]; rfl
  case passedOver =>
    have hrange : ¬ (m.logInterval < -3 ∨ 4 < m.logInterval) := by omega
    have hpass : (!m.qualified || !(s.dev.dom k).betterMaster m) = true := by
      rcases hnot with h | h
      · rw [h]; rfl
      · rw [h]; exact Bool.or_true _
    rw [exec_announce, execAnnounce, run_next (by simp [missingUnit, Instr.units, hport])]
    simp only [hdoms, List.foldl_cons, List.foldl_nil, if_neg hrange, hpass, if_true]
  case notFollowed =>
    have hpass : (!(s.dev.dom k).follows m || !syncInterval m) = true := by
      rcases hnot with h | h
      · rw [h]; rfl
      · rw [h]; exact Bool.or_true _
    rw [exec_sync, execSync, run_next (by simp [missingUnit, Instr.units, hport])]
    simp only [hdoms, List.foldl_cons, List.foldl_nil, hpass, if_true]
  case outOfRange =>
    rw [exec_sync, execSync, run_next (by simp [missingUnit, Instr.units, hport])]
    simp only [hdoms, List.foldl_cons, List.foldl_nil, hfollows, hint, hcorr, Bool.not_true, Bool.or_self, Bool.false_eq_true, if_false,
      Bool.not_false, Bool.true_or, if_true]
    rfl
  case unpaired =>
    rw [exec_delayResp, execDelayResp, run_next (by simp [missingUnit, Instr.units, hport])]
    simp only [hdoms, List.foldl_cons, List.foldl_nil]
    cases hreq : (s.dev.dom k).delayReq with
    | none => rfl
    | some r =>
      have hfails : (answersReq m s.env.raw r && delayIn (s.dev.respDelay k m r)) = false := hnot r hreq
      simp only [hfails, Bool.false_eq_true, if_false]
      rfl

end Sys2Proof.Machine
end

section
/-! SUPPORT. Time states (R412, R413, R419, R421): a lost master, the cross-check, REFCLK's loss and the counter's return. -/

namespace Sys2Proof.Machine

open Sys2Proof

/-! ## Rates -/

/-- Work that changes the parameter sets of domains alone. -/
def RatesOnly (a b : Dev) : Prop :=
  a.agrees [.tu, .fsets] b ∧ b.tu.links = a.tu.links ∧ ∀ j, ∃ l, b.dom j = { a.dom j with params := l }

theorem RatesOnly.refl (d : Dev) : RatesOnly d d := ⟨d.agrees_refl _, rfl, fun j => ⟨(d.dom j).params, rfl⟩⟩

theorem RatesOnly.trans {a b c : Dev} (hab : RatesOnly a b) (hbc : RatesOnly b c) : RatesOnly a c := by
  obtain ⟨habA, habL, habD⟩ := hab
  obtain ⟨hbcA, hbcL, hbcD⟩ := hbc
  refine ⟨habA.trans hbcA, hbcL.trans habL, fun j => ?_⟩
  obtain ⟨l, hl⟩ := habD j
  obtain ⟨l', hl'⟩ := hbcD j
  exact ⟨l', by rw [hl', hl]⟩

theorem RatesOnly.addSet (d : Dev) (k : Nat) (p : ParamSet) (old : List ParamSet) : RatesOnly d (d.addSet k p old) := by
  obtain ⟨hagrees, -, hlinks, hdom⟩ := d.addSet_spec k p old
  refine ⟨hagrees, hlinks, fun j => ?_⟩
  by_cases hj : j = k
  · exact ⟨(p :: old).take 64, by rw [hdom, if_pos hj, hj]⟩
  · exact ⟨(d.dom j).params, by rw [hdom, if_neg hj]⟩

theorem RatesOnly.pushRate (d : Dev) (e : Env) (k : Nat) (rho : Int) : RatesOnly d (d.pushRate e k rho) := by
  unfold Dev.pushRate
  dsimp only
  split
  · exact RatesOnly.addSet d k _ _
  · exact RatesOnly.addSet d k _ _

theorem RatesOnly.carry (d : Dev) (e : Env) (k : Nat) : RatesOnly d (d.carry e k) := by
  unfold Dev.carry
  dsimp only
  split
  · exact RatesOnly.pushRate d e _ _
  · exact RatesOnly.refl d

theorem RatesOnly.setRate (d : Dev) (e : Env) (k : Nat) (rho : Int) : RatesOnly d (d.setRate e k rho) := by
  unfold Dev.setRate
  split
  · exact RatesOnly.refl d
  · exact (RatesOnly.pushRate d e k rho).trans (RatesOnly.carry _ e k)

/-- The other domain takes the rate only where it is carried. -/
theorem Dev.setRate_other {d : Dev} {k : Nat} (h : (d.dom (1 - k)).sync ≠ .carried) (e : Env) (rho : Int) :
    (d.setRate e k rho).dom (1 - k) = d.dom (1 - k) := by
  unfold Dev.setRate
  split
  · rfl
  · obtain ⟨-, -, -, hdom⟩ := d.pushRate_leaves e (j := k) (k := 1 - k) (by omega) rho
    rw [Dev.carry, if_neg (by rw [hdom]; exact fun hc => h hc.2.1), hdom]

/-- A domain that changes its state and takes a rate. -/
theorem Dev.modDom_setRate_spec (d : Dev) (e : Env) (k : Nat) (f : Domain → Domain) (rho : Int) :
    let u := (d.modDom k f).setRate e k rho
    d.agrees [.tu, .fsets] u ∧ u.tu.links = d.tu.links ∧ (∃ l, u.dom k = { f (d.dom k) with params := l }) ∧
    (∀ j, j ≠ k → ∃ l, u.dom j = { d.dom j with params := l }) ∧
    ((d.dom (1 - k)).sync ≠ .carried → u.dom (1 - k) = d.dom (1 - k)) := by
  obtain ⟨hagrees, hlinks, hdom⟩ := RatesOnly.setRate (d.modDom k f) e k rho
  have hother (j : Nat) (hj : j ≠ k) : (d.modDom k f).dom j = d.dom j := (d.dom_modDom k f j).trans (if_neg hj)
  refine ⟨((d.agrees_modDom k f).mono (by decide)).trans hagrees, hlinks, ?_, fun j hj => ?_, fun hsync => ?_⟩
  · obtain ⟨l, hl⟩ := hdom k
    exact ⟨l, by rw [hl, Dev.dom_modDom_same]⟩
  · obtain ⟨l, hl⟩ := hdom j
    exact ⟨l, by rw [hl, hother j hj]⟩
  · rw [Dev.setRate_other (by rw [hother _ (by omega)]; exact hsync), hother _ (by omega)]

/-! ## A lost master -/

/-- What the other domain does when a domain leaves LOCKED. -/
theorem Dev.leftLock_spec (d : Dev) (e : Env) (k : Nat) :
    d.agrees [.tu, .fsets] (d.leftLock e k) ∧ (∃ l, (d.leftLock e k).dom k = { d.dom k with params := l }) ∧
    (d.leftLock e k).tu.links = d.tu.links ∧ ((d.leftLock e k).dom (1 - k)).fn = (d.dom (1 - k)).fn ∧
    ((d.dom (1 - k)).sync ≠ .carried → (d.leftLock e k).dom (1 - k) = d.dom (1 - k)) := by
  unfold Dev.leftLock
  dsimp only
  split
  next hleft =>
    obtain ⟨hagrees, hlinks, ⟨l, hself⟩, hother, -⟩ := d.modDom_setRate_spec e (1 - k)
      (fun x => { x with sync := .holdover, stepped := true }) (d.dom (1 - k)).masterRho
    refine ⟨hagrees, hother k (by omega), hlinks, ?_, fun hsync => (hsync hleft.2.1).elim⟩
    exact (congrArg Domain.fn hself :)
  next => exact ⟨d.agrees_refl _, ⟨(d.dom k).params, rfl⟩, rfl, rfl, fun _ => rfl⟩

/-- A running domain's master is lost: its state with the other one LOCKED, and without. -/
def Dev.masterLost (d : Dev) (e : Env) (k : Nat) : Dev :=
  let b := (d.raise (domSource k) 0x20 (syncCode (d.dom k).sync) 0).modDom k fun x => { x with master := false, best := none, pending := none }
  let c := if (b.dom (1 - k)).fn = .running ∧ (b.dom (1 - k)).sync = .locked then b.enterCarried e k false else b.enterHoldover e k
  if (d.dom k).sync = .locked then c.leftLock e k else c

theorem Dev.masterLost_spec (d : Dev) (e : Env) (k : Nat) :
    let u := d.masterLost e k
    d.agrees ([.tu, .fsets] ++ faultParts) u ∧ (u.dom k).master = false ∧ (u.dom k).best = none ∧
    (u.dom k).sync = (if (d.dom (1 - k)).fn = .running ∧ (d.dom (1 - k)).sync = .locked then .carried else .holdover) ∧
    ((d.dom (1 - k)).sync ≠ .carried → u.dom (1 - k) = d.dom (1 - k)) ∧
    u.col = (d.raise (domSource k) 0x20 (syncCode (d.dom k).sync) 0).col := by
  obtain ⟨a, ha⟩ : ∃ a, a = d.raise (domSource k) 0x20 (syncCode (d.dom k).sync) 0 := ⟨_, rfl⟩
  have haagrees : d.agrees faultParts a := ha ▸ d.agrees_raise _ _ _ _
  have hadom (j : Nat) : a.dom j = d.dom j := Dev.dom_congr (haagrees .tu (by decide)).symm j
  obtain ⟨b, hb⟩ : ∃ b, b = a.modDom k fun x => { x with master := false, best := none, pending := none } := ⟨_, rfl⟩
  have hbagrees : a.agrees [.tu, .fsets] b := hb ▸ (a.agrees_modDom k _).mono (by decide)
  have hbself : b.dom k = { d.dom k with master := false, best := none, pending := none } := by rw [hb, Dev.dom_modDom_same, hadom]
  have hbother : b.dom (1 - k) = d.dom (1 - k) := by rw [hb, Dev.dom_modDom, if_neg (by omega), hadom]
  obtain ⟨c, hc⟩ : ∃ c, c = if (b.dom (1 - k)).fn = .running ∧ (b.dom (1 - k)).sync = .locked then b.enterCarried e k false
    else b.enterHoldover e k := ⟨_, rfl⟩
  have hcspec : a.agrees [.tu, .fsets] c ∧ (c.dom k).master = false ∧ (c.dom k).best = none ∧
      (c.dom k).sync = (if (d.dom (1 - k)).fn = .running ∧ (d.dom (1 - k)).sync = .locked then .carried else .holdover) ∧
      ((d.dom (1 - k)).sync ≠ .carried → c.dom (1 - k) = d.dom (1 - k)) := by
    rw [hc, ← hbother]
    split
    · obtain ⟨hagrees, -, ⟨l, hself⟩, -, hother⟩ := b.modDom_setRate_spec e k
        (fun x => { x with sync := .carried, forDisagreement := false, stepped := true }) (b.rho (1 - k))
      exact ⟨hbagrees.trans hagrees, (congrArg Domain.master hself :).trans (congrArg Domain.master hbself :),
        (congrArg Domain.best hself :).trans (congrArg Domain.best hbself :), (congrArg Domain.sync hself :), hother⟩
    · obtain ⟨hagrees, -, ⟨l, hself⟩, -, hother⟩ := b.modDom_setRate_spec e k
        (fun x => { x with sync := .holdover, stepped := true }) (b.dom k).masterRho
      exact ⟨hbagrees.trans hagrees, (congrArg Domain.master hself :).trans (congrArg Domain.master hbself :),
        (congrArg Domain.best hself :).trans (congrArg Domain.best hbself :), (congrArg Domain.sync hself :), hother⟩
  obtain ⟨hcagrees, hcmaster, hcbest, hcsync, hcother⟩ := hcspec
  have hlost : d.masterLost e k = if (d.dom k).sync = .locked then c.leftLock e k else c := by rw [hc, hb, ha]; rfl
  dsimp only
  rw [hlost, ← ha]
  split
  · obtain ⟨hagrees, ⟨l, hself⟩, -, -, hother⟩ := c.leftLock_spec e k
    have hall := hcagrees.trans hagrees
    refine ⟨(haagrees.mono (by decide)).andThen hall (by decide), ?_, ?_, ?_, fun h => ?_, (hall .col (by decide)).symm⟩
    · rw [hself]; exact hcmaster
    · rw [hself]; exact hcbest
    · rw [hself]; exact hcsync
    · rw [hother (by rw [hcother h]; exact h), hcother h]
  · exact ⟨(haagrees.mono (by decide)).andThen hcagrees (by decide), hcmaster, hcbest, hcsync, hcother, (hcagrees .col (by decide)).symm⟩

/-! ## REFCLK's loss -/

/-- An active domain enters FAULTED, and the other one keeps its state of operation (R413, R514). -/
theorem Dev.faultDomain_spec (d : Dev) (e : Env) (k msg : Nat) :
    d.agrees ([.tu, .fsets] ++ postParts) (d.faultDomain e k msg) ∧
    ((d.dom k).fn.active = true → ((d.faultDomain e k msg).dom k).fn = .faulted) ∧
    ((d.faultDomain e k msg).dom (1 - k)).fn = (d.dom (1 - k)).fn := by
  have hnote (b : Dev) (j : Nat) : (b.noteState e 2 .faulted k msg).dom j = b.dom j :=
    Dev.dom_congr (b.agrees_noteState e 2 .faulted k msg .tu (by decide)).symm j
  unfold Dev.faultDomain
  split
  · obtain ⟨b, hb⟩ : ∃ b, b = d.modDom k fun x => { x with fn := .faulted, sync := .free, forDisagreement := false, pending := none } := ⟨_, rfl⟩
    have hbagrees : d.agrees [.tu, .fsets] b := hb ▸ (d.agrees_modDom k _).mono (by decide)
    have hbself : (b.dom k).fn = .faulted := by rw [hb, Dev.dom_modDom_same]
    have hbother : b.dom (1 - k) = d.dom (1 - k) := by rw [hb, Dev.dom_modDom, if_neg (by omega)]
    have hfree : d.agrees [.tu, .fsets] (d.domFree e k .faulted) ∧ ((d.domFree e k .faulted).dom k).fn = .faulted ∧
        ((d.domFree e k .faulted).dom (1 - k)).fn = (d.dom (1 - k)).fn := by
      rw [Dev.domFree]
      simp only [← hb]
      split
      · obtain ⟨hagrees, ⟨l, hself⟩, -, hother, -⟩ := b.leftLock_spec e k
        exact ⟨hbagrees.trans hagrees, (congrArg Domain.fn hself :).trans hbself, hother.trans (congrArg Domain.fn hbother)⟩
      · exact ⟨hbagrees, hbself, congrArg Domain.fn hbother⟩
    obtain ⟨hagrees, hself, hother⟩ := hfree
    exact ⟨(hagrees.mono (by decide)).andThen (Dev.agrees_noteState _ _ _ _ _ _) (by decide), fun _ => by rw [hnote]; exact hself,
      by rw [hnote]; exact hother⟩
  next hidle => exact ⟨d.agrees_refl _, fun hactive => (hidle hactive).elim, rfl⟩

/-- Both domains are taken down where they are active. -/
theorem Dev.faultDomains_spec (d : Dev) (e : Env) (msg : Nat) :
    d.agrees ([.tu, .fsets] ++ postParts) ((d.faultDomain e 0 msg).faultDomain e 1 msg) ∧
    ∀ k, k < 2 → (d.dom k).fn.active = true → (((d.faultDomain e 0 msg).faultDomain e 1 msg).dom k).fn = .faulted := by
  obtain ⟨hagrees0, hself0, hother0⟩ := d.faultDomain_spec e 0 msg
  obtain ⟨hagrees1, hself1, hother1⟩ := (d.faultDomain e 0 msg).faultDomain_spec e 1 msg
  refine ⟨hagrees0.trans hagrees1, fun k hk hactive => ?_⟩
  obtain rfl | rfl : k = 0 ∨ k = 1 := by omega
  · exact hother1.trans (hself0 hactive)
  · exact hself1 (by rw [hother0]; exact hactive)

/-- REFCLK's loss before the domains follow. -/
def Dev.refclkGone (d : Dev) (e : Env) : Dev :=
  let b := (d.raise 0x300 0x23 0 e.raw).raise 0x3B9 0x37 0x80 0
  { b with
    pow := { b.pow with refclkLost := true }
    safe := { b.safe with clockBad := tset b.safe.clockBad 0 true } }

theorem Dev.refclkGone_spec (d : Dev) (e : Env) :
    d.agrees (.pow :: faultParts) (d.refclkGone e) ∧ (d.refclkGone e).pow.refclkLost = true := by
  refine ⟨?_, rfl⟩
  have hraised := (d.agrees_raise 0x300 0x23 0 e.raw).trans (Dev.agrees_raise _ 0x3B9 0x37 0x80 0)
  have hmarks (b : Dev) (x : PowerUnit) (y : Safety) : b.agrees [.pow, .safe] { b with pow := x, safe := y } := by
    intro p hp
    cases p <;> simp_all [Part.same]
  exact (hraised.mono (by decide)).andThen (hmarks _ _ _) (by decide)

/-! ## The settlement -/

/-- Settles O34: one case per row that watches the time. -/
theorem timeIsWatched : Obligations.time_is_watched := by
  intro s
  refine ⟨fun k hk hfn hsync hclk hgone => ?lost, fun tick delta v hclk hcross htick hdelta hlast hpast => ?crossed,
    fun t v hclk hcross hlast hgap => ?gap, fun hrun => ?refclk, fun hstop hawake hlost => ?back, fun hsleep => ?asleep,
    fun hstop hclock hpll hstandby hawake => ?standby⟩
  case lost =>
    have hexec : exec (.masterLoss k) s = .next (s.put (s.dev.masterLost s.env k)) := by
      rw [exec_masterLoss, execMasterLoss, run_next (by simp [missingUnit, Instr.units, hk])]
      have hdue : (s.dev.dom k).fn = .running ∧ ((s.dev.dom k).sync = .acquiring ∨ (s.dev.dom k).sync = .locked) ∧ s.dev.clocked = true ∧
        (s.dev.dom k).masterGone s.env.raw = true := ⟨hfn, hsync, hclk, hgone⟩
      simp only [if_pos hdue]
      rfl
    obtain ⟨hagrees, hmaster, hbest, hsync', hother, hcol⟩ := s.dev.masterLost_spec s.env k
    refine ⟨_, hexec, ?_⟩
    rw [State.put_dev]
    exact ⟨hmaster, hsync', State.touches_of_agrees hagrees, hbest, hother, hcol⟩
  case crossed =>
    subst htick hdelta
    obtain ⟨b, hb⟩ : ∃ b, b = { s.dev with tu := { s.dev.tu with lastDelta := some (s.env.raw / 1000000000 * 1000000000,
      s.dev.domTime 0 (s.env.raw / 1000000000 * 1000000000) - s.dev.domTime 1 (s.env.raw / 1000000000 * 1000000000)) } } := ⟨_, rfl⟩
    obtain ⟨delta, hdelta⟩ : ∃ delta, delta =
      s.dev.domTime 0 (s.env.raw / 1000000000 * 1000000000) - s.dev.domTime 1 (s.env.raw / 1000000000 * 1000000000) := ⟨_, rfl⟩
    have hexec : exec .crossCheck s = .next (s.put (if 1000 < (delta - v).natAbs then
        (b.enterCarried s.env (1 - s.dev.tu.preferred) true).raise 0x303 0x22 0 (patternOf (delta - v) 40) else b)) := by
      rw [exec_crossCheck, execCrossCheck, runClocked_running (by simp [missingUnit, Instr.units]) hclk]
      have hlast' : s.dev.tu.lastDelta = some (s.env.raw / 1000000000 * 1000000000 - 1000000000, v) := hlast
      have hpast' : 1000000000 ≤ s.env.raw / 1000000000 * 1000000000 := hpast
      have hnew : ¬ (s.env.raw / 1000000000 * 1000000000 - 1000000000 = s.env.raw / 1000000000 * 1000000000) := by omega
      have hnext : s.env.raw / 1000000000 * 1000000000 - 1000000000 + 1000000000 = s.env.raw / 1000000000 * 1000000000 := by omega
      simp only [hcross, Bool.not_true, Bool.false_eq_true, if_false, hlast', Option.map_some, Option.some.injEq, if_neg hnew, hnext, true_and,
        hdelta, hb]
    have hbagrees : s.dev.agrees [.tu] b := hb ▸ s.dev.agrees_tu _
    have hbpref : b.tu.preferred = s.dev.tu.preferred := by rw [hb]
    have hblast : b.tu.lastDelta = some (s.env.raw / 1000000000 * 1000000000, delta) := by rw [hb, hdelta]
    refine ⟨_, hexec, ?_⟩
    rw [State.put_dev]
    split
    next hfar =>
      obtain ⟨hagrees, hlinks, ⟨l, hself⟩, -⟩ := b.modDom_setRate_spec s.env (1 - s.dev.tu.preferred)
        (fun x => { x with sync := .carried, forDisagreement := true, stepped := true }) (b.rho (1 - (1 - s.dev.tu.preferred)))
      obtain ⟨c, hc⟩ : ∃ c, c = b.enterCarried s.env (1 - s.dev.tu.preferred) true := ⟨_, rfl⟩
      have hcagrees : b.agrees [.tu, .fsets] c := hc ▸ hagrees
      have hclast : c.tu.lastDelta = b.tu.lastDelta := by rw [hc]; exact (congrArg TimeUnit.lastDelta hlinks :)
      have hcsync : (c.dom (1 - s.dev.tu.preferred)).sync = .carried := by rw [hc]; exact (congrArg Domain.sync hself :)
      have hcdis : (c.dom (1 - s.dev.tu.preferred)).forDisagreement = true := by rw [hc]; exact (congrArg Domain.forDisagreement hself :)
      rw [← hc]
      have hdom (j : Nat) : (c.raise 0x303 0x22 0 (patternOf (delta - v) 40)).dom j = c.dom j := Dev.dom_congr (Dev.raise_tu _ _ _ _ _) j
      refine ⟨State.touches_of_agrees (((hbagrees.mono (by decide)).andThen hcagrees (by decide)).andThen (Dev.agrees_raise _ _ _ _ _) (by decide)), ?_,
        fun hnear => absurd hfar (Nat.not_lt.mpr ?_), fun _ _ => ⟨?_, ?_⟩⟩
      · rw [Dev.raise_tu, hclast, hblast, hdelta]
        rfl
      · rw [hdelta]
        exact hnear
      · rw [hdom, hcsync]
      · rw [hdom, hcdis]
    next hnear =>
      refine ⟨State.touches_of_agrees (hbagrees.mono (by decide)), ?_, fun _ => ?_, fun hfar => (hnear ?_).elim⟩
      · rw [hblast, hdelta]
        rfl
      · rw [hb]
        exact ⟨rfl, rfl⟩
      · rw [hdelta]
        exact hfar
  case gap =>
    have hexec : exec .crossCheck s = .next (s.put { s.dev with tu := { s.dev.tu with lastDelta := some (s.env.raw / 1000000000 * 1000000000,
        s.dev.domTime 0 (s.env.raw / 1000000000 * 1000000000) - s.dev.domTime 1 (s.env.raw / 1000000000 * 1000000000)) } }) := by
      rw [exec_crossCheck, execCrossCheck, runClocked_running (by simp [missingUnit, Instr.units]) hclk]
      have hgap' : t + 1000000000 < s.env.raw / 1000000000 * 1000000000 := hgap
      have hnew : ¬ (t = s.env.raw / 1000000000 * 1000000000) := by omega
      have hnext (p : Prop) : ¬ (t + 1000000000 = s.env.raw / 1000000000 * 1000000000 ∧ p) := fun h => by omega
      simp only [hcross, Bool.not_true, Bool.false_eq_true, if_false, hlast, Option.map_some, Option.some.injEq, if_neg hnew, if_neg (hnext _)]
    exact ⟨_, hexec, State.touches_of_agrees (s.dev.agrees_tu _), rfl⟩
  case refclk =>
    obtain ⟨b, hb⟩ : ∃ b, b = s.dev.refclkGone s.env := ⟨_, rfl⟩
    obtain ⟨n, hn⟩ : ∃ n, n = (faultMsg 0x300 0x23 0 s.env.raw).toNat := ⟨_, rfl⟩
    have hexec : exec .refclkLoss s = .next { s with dev := (b.faultDomain s.env 0 n).faultDomain s.env 1 n, clk := { s.clk with running := false } } := by
      rw [exec_refclkLoss, execRefclkLoss, if_pos (Or.inl hrun)]
      simp only [hrun, if_true, List.foldl_cons, List.foldl_nil, hn, hb]
      rfl
    obtain ⟨hbagrees, hblost⟩ := s.dev.refclkGone_spec s.env
    rw [← hb] at hbagrees hblost
    have hbdom (j : Nat) : b.dom j = s.dev.dom j := Dev.dom_congr (hbagrees .tu (by decide)).symm j
    obtain ⟨hall, hfaulted⟩ := b.faultDomains_spec s.env n
    refine ⟨_, hexec, rfl, ?_, rfl, (hbagrees.mono (by decide)).andThen hall (by decide), fun k hk hfn => ?_⟩
    · rw [← hall .pow (by decide)]
      exact hblost
    · exact hfaulted k hk (by rw [hbdom, hfn]; rfl)
  case back =>
    rw [exec_counterResume, execCounterResume]
    simp only [hstop, hawake, Bool.false_eq_true, if_false, if_pos hlost]
  case asleep =>
    rw [exec_counterResume, execCounterResume]
    simp only [hsleep, if_true, ite_self]
    rw [run_next (by simp [missingUnit, Instr.units])]
  case standby =>
    have hexec := exec_counterResume s
    have hkept : ¬ (s.dev.pow.refclkLost = true ∨ s.dev.pow.timePllLost = true) := by simp [hclock, hpll]
    rw [execCounterResume] at hexec
    simp only [hstop, hawake, Bool.false_eq_true, if_false, if_neg hkept, if_pos hstandby] at hexec
    exact ⟨_, hexec, rfl, rfl, fun p hp => s.dev.agrees_pow _ p (by simpa using hp)⟩

end Sys2Proof.Machine
end

section
/-! SUPPORT. Trigger edges (R426) and the bridge (R434 to R436): learning, the egress ports, and their queues. -/

namespace Sys2Proof.Machine

open Sys2Proof

/-! ## Ports with nothing to send -/

/-- A port that has no frame to send, or whose line is busy. -/
def MacPort.rests (m : MacPort) (raw : Nat) : Prop := m.queue = [] ∨ raw < m.busyTo

theorem Dev.drainPort_of_rests {d : Dev} {raw p : Nat} (h : (d.mac p).rests raw) : Dev.drainPort raw p (d.mac p).queue.length d = d := by
  rcases h with hempty | hbusy
  · rw [hempty]
    rfl
  · cases (d.mac p).queue.length with
    | zero => rfl
    | succ n => rw [Dev.drainPort, if_pos hbusy]

theorem Dev.drainPorts_of_rests {d : Dev} {raw : Nat} (h : ∀ p, p < 4 → (d.mac p).rests raw) : d.drainPorts raw = d := by
  refine List.foldlRecOn (motive := fun b : Dev => b = d) (List.range 4) _ rfl fun b hb p hp => ?_
  rw [hb]
  exact Dev.drainPort_of_rests (h p (List.mem_range.mp hp))

/-! ## Learning -/

theorem Dev.learnMac_spec (d : Dev) (e : Env) (f : BridgeFrame) (v : Nat) :
    d.agrees [.flock] (d.learnMac e f v) ∧ (d.learnMac e f v).flock.ports = d.flock.ports ∧ (d.learnMac e f v).flock.out = d.flock.out ∧
    (d.learnMac e f v).flock.bridgeDrops = d.flock.bridgeDrops ∧ (d.learnMac e f v).flock.peers = d.flock.peers ∧
    (d.flock.learn.length < 4096 → (f.srcMac, v, f.inPort, e.raw) ∈ (d.learnMac e f v).flock.learn) := by
  unfold Dev.learnMac
  dsimp only
  split
  · exact ⟨d.agrees_flock _, rfl, rfl, rfl, rfl, fun _ => List.mem_append_right _ (List.mem_singleton.mpr rfl)⟩
  next hfull => exact ⟨d.agrees_refl _, rfl, rfl, rfl, rfl, fun h => (hfull (lt_of_le_of_lt (List.length_filter_le _ _) h)).elim⟩

theorem Dev.mac_congr {a b : Dev} (h : b.flock.ports = a.flock.ports) (p : Nat) : b.mac p = a.mac p := by rw [Dev.mac, h, Dev.mac]

/-- A source that is not the destination is learnt without a change of where the destination leads. -/
theorem Dev.egress_learnMac {d : Dev} {f : BridgeFrame} (h : f.dstMac ≠ f.srcMac) (e : Env) (v w : Nat) :
    (d.learnMac e f v).egress f w = d.egress f w := by
  have hfind : ((d.flock.learn.filter fun x => !(x.1 == f.srcMac && x.2.1 == v)) ++ [(f.srcMac, v, f.inPort, e.raw)]).find?
      (fun x => x.1 == f.dstMac && x.2.1 == w) = d.flock.learn.find? fun x => x.1 == f.dstMac && x.2.1 == w := by
    have hsrc : ¬ f.srcMac = f.dstMac := fun hs => h hs.symm
    rw [List.find?_append, List.find?_filter]
    have hsame : (d.flock.learn.find? fun x => decide ((!(x.1 == f.srcMac && x.2.1 == v)) = true ∧ (x.1 == f.dstMac && x.2.1 == w) = true)) =
        d.flock.learn.find? fun x => x.1 == f.dstMac && x.2.1 == w := by
      congr 1
      funext x
      by_cases hx : x.1 = f.dstMac
      · simp [hx, h, beq_eq_decide]
      · simp [hx]
    rw [hsame]
    simp [hsrc]
  unfold Dev.learnMac
  dsimp only
  split
  · simp only [Dev.egress, hfind]
    rfl
  · rfl

/-- The egress ports are ports with a line, ascending, and the internal one after them. -/
theorem Dev.egress_eq_filter (d : Dev) (f : BridgeFrame) (v : Nat) :
    ∃ A Q : Nat → Bool, d.egress f v = ((List.range 4).filter A ++ [4]).filter Q := by
  unfold Dev.egress
  dsimp only
  split
  · exact ⟨_, _, rfl⟩
  · exact ⟨_, _, rfl⟩

/-! ## Joining the queues -/

/-- The buffer of the ports with one port's entry written holds at most that entry more. -/
theorem bridgeUsed_tset_le (t : Tab MacPort) (k : Nat) (m : MacPort) :
    ((tset t k m).flatMap fun p => p.2.queue.map (·.length)).sum ≤
      (t.flatMap fun p => p.2.queue.map (·.length)).sum + (m.queue.map (·.length)).sum := by
  induction t with
  | nil => simp [tset]
  | cons x t ih =>
    obtain ⟨j, w⟩ := x
    rw [tset]
    split
    · simp only [List.flatMap_cons, List.sum_append]
      omega
    · split
      · simp only [List.flatMap_cons, List.sum_append]
        omega
      · simp only [List.flatMap_cons, List.sum_append]
        omega

/-- The entry that a frame joins its egress queue as. -/
def waitingFrame (f : BridgeFrame) (e : Env) : Waiting :=
  { pcp := framePrio f, length := f.length, since := e.raw, frame := f, correction := correctionBytes f.correction }

/-- A frame joins the empty queues of its egress ports, and the internal port takes it at once. -/
theorem Dev.joinAll_spec {e : Env} {f : BridgeFrame} (hlen : f.length ≤ 9216) (l : List Nat) (d : Dev) (hnodup : l.Nodup)
    (hports : ∀ p ∈ l, p ≤ 4) (hempty : ∀ p ∈ l, p < 4 → (d.mac p).queue = []) (hroom : d.bridgeUsed + 9216 * l.length ≤ 0x200000) :
    let r := l.foldl (fun d p => d.joinQueue e p f f.correction) d
    d.agrees [.flock] r ∧ r.flock.out = d.flock.out ++ (l.filter (· == 4)).map (fun p => .bridged p f (correctionBytes f.correction)) ∧
    r.flock.learn = d.flock.learn ∧ r.flock.peers = d.flock.peers ∧
    ∀ p, p < 4 → r.mac p = if p ∈ l then { d.mac p with queue := [waitingFrame f e] } else d.mac p := by
  induction l generalizing d with
  | nil => exact ⟨d.agrees_refl _, by simp, rfl, rfl, fun p _ => by simp⟩
  | cons x l ih =>
    obtain ⟨hx, hnodup'⟩ := List.nodup_cons.mp hnodup
    obtain ⟨b, hb⟩ : ∃ b, b = d.joinQueue e x f f.correction := ⟨_, rfl⟩
    have hjoin : d.agrees [.flock] b ∧ b.flock.out = d.flock.out ++ (if x = 4 then [.bridged x f (correctionBytes f.correction)] else []) ∧
        b.flock.learn = d.flock.learn ∧ b.flock.peers = d.flock.peers ∧ b.bridgeUsed ≤ d.bridgeUsed + 9216 ∧
        ∀ p, p < 4 → b.mac p = if p = x then { d.mac p with queue := [waitingFrame f e] } else d.mac p := by
      rw [List.length_cons] at hroom
      rw [hb, Dev.joinQueue]
      by_cases hfour : x = 4
      · rw [if_pos hfour, if_pos hfour]
        exact ⟨d.agrees_flock _, rfl, rfl, rfl, Nat.le_add_right _ _, fun p hp => by rw [if_neg (by omega)]; rfl⟩
      · have hlow : x < 4 := lt_of_le_of_ne (hports x List.mem_cons_self) hfour
        have hfits : ¬ 0x200000 < d.bridgeUsed + f.length := by omega
        have hqueue := hempty x List.mem_cons_self hlow
        simp only [if_neg hfour, if_neg hfits, List.append_nil]
        refine ⟨d.agrees_modMac _ _, rfl, rfl, rfl, ?_, fun p _ => ?_⟩
        · refine (bridgeUsed_tset_le _ _ _).trans ?_
          have hq : (tgetD d.flock.ports x {}).queue = [] := hqueue
          simpa [hq, Dev.bridgeUsed] using hlen
        · rw [Dev.mac_modMac]
          split
          next hp =>
            subst hp
            rw [hqueue]
            rfl
          next => rfl
    obtain ⟨hagrees, hout, hlearn, hpeers, hused, hmac⟩ := hjoin
    obtain ⟨hagrees', hout', hlearn', hpeers', hmac'⟩ := ih b hnodup' (fun p hp => hports p (List.mem_cons_of_mem _ hp))
      (fun p hp hlow => by
        have hpx : p ≠ x := fun heq => hx (heq ▸ hp)
        rw [hmac p hlow, if_neg hpx]
        exact hempty p (List.mem_cons_of_mem _ hp) hlow)
      (by rw [List.length_cons] at hroom; omega)
    dsimp only
    rw [List.foldl_cons, ← hb]
    refine ⟨hagrees.trans hagrees', ?_, hlearn'.trans hlearn, hpeers'.trans hpeers, fun p hp => ?_⟩
    · rw [hout', hout, List.append_assoc]
      by_cases hfour : x = 4
      · simp [hfour]
      · simp [hfour]
    · rw [hmac' p hp, hmac p hp]
      by_cases hpx : p = x
      · subst hpx
        simp [hx]
      · simp [hpx]

/-! ## Sending -/

/-- Ports with at most the one frame, whose lines are free, send it. -/
theorem Dev.drainAll_spec {e : Env} {f : BridgeFrame} (l : List Nat) (d : Dev) (hnodup : l.Nodup) {E : List Nat}
    (hqueue : ∀ p ∈ l, (d.mac p).queue = if p ∈ E then [waitingFrame f e] else []) (hfree : ∀ p ∈ l, (d.mac p).busyTo ≤ e.raw) :
    let r := l.foldl (fun d p => Dev.drainPort e.raw p (d.mac p).queue.length d) d
    d.agrees [.flock] r ∧
    r.flock.out = d.flock.out ++ (l.filter (E.contains ·)).map (fun p => .bridged p f (correctionBytes f.correction)) ∧
    r.flock.learn = d.flock.learn ∧ r.flock.peers = d.flock.peers ∧
    ∀ p, r.mac p = if p ∈ l ∧ p ∈ E then { d.mac p with queue := [], busyTo := e.raw + lineTime (d.mac p).cfg f.length } else d.mac p := by
  induction l generalizing d with
  | nil => exact ⟨d.agrees_refl _, by simp, rfl, rfl, fun p => by simp⟩
  | cons x l ih =>
    obtain ⟨hx, hnodup'⟩ := List.nodup_cons.mp hnodup
    have hqueuex := hqueue x List.mem_cons_self
    have hfreex := hfree x List.mem_cons_self
    obtain ⟨b, hb⟩ : ∃ b, b = Dev.drainPort e.raw x (d.mac x).queue.length d := ⟨_, rfl⟩
    have hdrain : d.agrees [.flock] b ∧ b.flock.out = d.flock.out ++ (if x ∈ E then [.bridged x f (correctionBytes f.correction)] else []) ∧
        b.flock.learn = d.flock.learn ∧ b.flock.peers = d.flock.peers ∧
        ∀ p, b.mac p = if p = x ∧ p ∈ E then { d.mac p with queue := [], busyTo := e.raw + lineTime (d.mac p).cfg f.length } else d.mac p := by
      by_cases hE : x ∈ E
      · rw [if_pos hE] at hqueuex
        have hnext : nextOut [waitingFrame f e] = some (waitingFrame f e) := by simp [nextOut]
        have hbegin : b = d.beginFrame x (waitingFrame f e) := by
          have hidle : ¬ e.raw < (d.mac x).busyTo := Nat.not_lt.mpr hfreex
          rw [hb, hqueuex, List.length_singleton, Dev.drainPort, if_neg hidle, hqueuex, hnext]
          rfl
        rw [hbegin, if_pos hE]
        refine ⟨(d.agrees_modMac _ _).trans (Dev.agrees_flock _ _), rfl, rfl, rfl, fun p => ?_⟩
        have hmac : (d.beginFrame x (waitingFrame f e)).mac p = (d.modMac x fun m => { m with
            queue := m.queue.erase (waitingFrame f e), busyTo := max m.busyTo (waitingFrame f e).since + lineTime m.cfg (waitingFrame f e).length }).mac p := rfl
        rw [hmac, Dev.mac_modMac]
        by_cases hp : p = x
        · subst hp
          have hsince : max (d.mac p).busyTo (waitingFrame f e).since = e.raw := max_eq_right hfreex
          rw [if_pos rfl, if_pos ⟨rfl, hE⟩, hqueuex, hsince, List.erase_cons_head]
          rfl
        · rw [if_neg hp, if_neg (fun h => hp h.1)]
      · rw [if_neg hE] at hqueuex
        have hsame : b = d := by rw [hb]; exact Dev.drainPort_of_rests (Or.inl hqueuex)
        rw [hsame, if_neg hE]
        exact ⟨d.agrees_refl _, by simp, rfl, rfl, fun p => (if_neg fun ⟨hp, hpE⟩ => hE (hp ▸ hpE)).symm⟩
    obtain ⟨hagrees, hout, hlearn, hpeers, hmac⟩ := hdrain
    have hother (p : Nat) (hp : p ∈ l) : b.mac p = d.mac p :=
      (hmac p).trans (if_neg fun ⟨hpx, _⟩ => hx (hpx ▸ hp))
    obtain ⟨hagrees', hout', hlearn', hpeers', hmac'⟩ := ih b hnodup'
      (fun p hp => by rw [hother p hp]; exact hqueue p (List.mem_cons_of_mem _ hp))
      (fun p hp => by rw [hother p hp]; exact hfree p (List.mem_cons_of_mem _ hp))
    dsimp only
    rw [List.foldl_cons, ← hb]
    refine ⟨hagrees.trans hagrees', ?_, hlearn'.trans hlearn, hpeers'.trans hpeers, fun p => ?_⟩
    · rw [hout', hout, List.append_assoc]
      by_cases hE : x ∈ E
      · simp [hE]
      · simp [hE]
    · rw [hmac' p]
      by_cases hp : p ∈ l
      · have hpx : p ≠ x := fun h => hx (h ▸ hp)
        simp [hp, hother p hp]
      · rw [if_neg (fun h => hp h.1), hmac p]
        by_cases hpx : p = x
        · simp [hpx]
        · simp [hpx, hp]

/-! ## Frames at a port -/

/-- A frame that is no PTP event message joins its queues unchanged. -/
theorem Dev.bridgeOut_plain {f : BridgeFrame} (h : f.ptpEvent = none) (d : Dev) (e : Env) (p : Nat) :
    d.bridgeOut e f p = d.joinQueue e p f f.correction := by
  unfold Dev.bridgeOut
  rw [h]

/-- Bridging a plain frame while no port has anything to send. -/
theorem Dev.bridgeFrame_of_rests {d : Dev} {e : Env} {f : BridgeFrame} {v : Nat} (hv : v = if f.vlan.getD 0 = 0 then 1 else f.vlan.getD 1)
    (hplain : f.ptpEvent = none) (hdest : f.dstMac ≠ f.srcMac) (hrests : ∀ p, p < 4 → (d.mac p).rests e.raw) :
    d.bridgeFrame e f = ((d.egress f v).foldl (fun d p => d.joinQueue e p f f.correction) (d.learnMac e f v)).drainPorts e.raw := by
  have hout : (fun (d : Dev) p => d.bridgeOut e f p) = fun d p => d.joinQueue e p f f.correction := by
    funext d p
    exact Dev.bridgeOut_plain hplain d e p
  unfold Dev.bridgeFrame
  dsimp only
  rw [← hv, Dev.drainPorts_of_rests hrests, Dev.egress_learnMac hdest, hout]

section

variable {s : State} {f : BridgeFrame} (hclk : s.dev.clocked = true) (hplain : f.ptpEvent = none) (hudp : f.udp = none)
  (hfcs : f.fcsOk = true) (hrefused : frameRefused f = false)
include hclk hplain hudp hfcs hrefused

/-- A plain frame for another address is bridged, whichever port it came in by. -/
theorem exec_bridgeForward_frame (hport : f.inPort < 5) (hown : s.dev.ownMac f.dstMac = false) :
    exec (.bridgeForward f) s = .next (s.put (s.dev.bridgeFrame s.env f)) := by
  rw [exec_bridgeForward, execBridgeForward, runClocked_running (by simp [missingUnit, Instr.units, hport]) hclk]
  have hptp : s.dev.isPtp f = false := by rw [Dev.isPtp, hplain]; rfl
  have hsensor : bridgeToSensor f = none := by rw [bridgeToSensor, hudp]; rfl
  simp only [Dev.portFrame, hfcs, Bool.not_true, Bool.false_eq_true, if_false, Dev.classify, hrefused, hptp, hsensor, Dev.classifyRest, hown,
    ite_self]

/-- A frame for one of the device's addresses that the Ndourn engine does not take is counted. -/
theorem exec_bridgeForward_own (hport : f.inPort < 4) (hown : s.dev.ownMac f.dstMac = true) (htype : f.etherType ≠ s.dev.flock.etherType) :
    exec (.bridgeForward f) s = .next (s.put (s.dev.countDiscard f.inPort)) := by
  rw [exec_bridgeForward, execBridgeForward, runClocked_running (by simp [missingUnit, Instr.units, Nat.lt_succ_of_lt hport]) hclk]
  have hptp : s.dev.isPtp f = false := by rw [Dev.isPtp, hplain]; rfl
  have hsensor : bridgeToSensor f = none := by rw [bridgeToSensor, hudp]; rfl
  simp only [Dev.portFrame, if_neg (Nat.not_le.mpr hport), hfcs, Bool.not_true, Bool.false_eq_true, if_false, Dev.classify, hrefused, hptp,
    hsensor, Dev.classifyRest, hown, if_true, if_neg htype]

end

/-- The egress ports with a line are the ports that a drain finds among them. -/
theorem egress_lines (A Q : Nat → Bool) :
    (List.range 4).filter (fun p => (((List.range 4).filter A ++ [4]).filter Q).contains p) =
      (((List.range 4).filter A ++ [4]).filter Q).filter (· != 4) := by
  have hright : (((List.range 4).filter A ++ [4]).filter Q).filter (· != 4) = (List.range 4).filter fun p => A p && Q p := by
    rw [List.filter_append, List.filter_append, List.filter_filter, List.filter_filter]
    have hlast : ([4].filter Q).filter (· != 4) = [] := by
      rw [List.filter_filter]
      simp
    rw [hlast, List.append_nil]
    refine List.filter_congr fun p hp => ?_
    have hlow : (p != 4) = true := bne_iff_ne.mpr (by have := List.mem_range.mp hp; omega)
    rw [hlow, Bool.true_and, Bool.and_comm]
  rw [hright]
  refine List.filter_congr fun p hp => ?_
  have hlow : p < 4 := List.mem_range.mp hp
  have hne : p ≠ 4 := by omega
  rw [Bool.eq_iff_iff]
  simp [hlow, hne, and_comm]

/-! ## The settlement -/

/-- Settles O35: the edges of a trigger, and the bridge with free lines, with a busy one, and for the device's own addresses. -/
theorem triggersAndBridge : Obligations.triggers_and_bridge := by
  intro s
  refine ⟨fun n c hn hcfg hfn hpulse hlock hclk hdue => ?leading, fun n c hn hcfg hfn hpulse hdue => ?trailing,
    fun f v hport hclk hv hplain hudp hfcs hrefused hown => ⟨fun hused hidle hdest hlearn => ?free, fun p hp hrests hbusy hdest hegress => ?busy⟩,
    fun f hport hclk hfcs hrefused hplain hudp hown htype => exec_bridgeForward_own hclk hplain hudp hfcs hrefused hport hown htype, ?ageing⟩
  case leading =>
    have hexec : exec (.triggerLeadingEdge n) s = .next (s.put (s.dev.modTrig n fun t => { t with inPulse := true, level := c.ball true })) := by
      rw [exec_triggerLeadingEdge, execTriggerLeadingEdge, run_next (by simp [missingUnit, Instr.units, hn])]
      have hready : (s.dev.trig n).fn = .running ∧ (!(s.dev.trig n).inPulse) = true ∧ (!(s.dev.trig n).waitLock) = true ∧
        s.dev.clocked = true ∧ c.edgeAt (s.dev.trig n).edge ≤ s.dev.domTime c.dom s.env.raw := ⟨hfn, by rw [hpulse]; rfl, by rw [hlock]; rfl, hclk, hdue⟩
      simp only [hcfg, if_pos hready]
      rfl
    exact ⟨_, hexec, rfl⟩
  case trailing =>
    have hexec : exec (.triggerTrailingEdge n) s = .next (s.put (s.dev.pulseEnds s.env n c)) := by
      rw [exec_triggerTrailingEdge, execTriggerTrailingEdge, run_next (by simp [missingUnit, Instr.units, hn])]
      have hdue' : c.edgeAt (s.dev.trig n).edge + c.width ≤ s.dev.domTime c.dom s.env.raw := hdue
      have hactive : FnState.running.active = true := rfl
      simp only [hcfg, hfn, hactive, hpulse, hdue', decide_true, Bool.and_self, if_true]
      rfl
    refine ⟨_, hexec, ?_⟩
    rw [State.put_dev, Dev.pulseEnds, if_neg (by rw [hfn]; exact FnState.noConfusion)]
    by_cases hper : c.periodic = true
    · rw [if_pos hper]
      refine ⟨?_, ?_, fun k hk => ?_, rfl, fun _ => ⟨?_, ?_, State.touches_of_agrees (Dev.agrees_modTrig _ _ _)⟩, fun h => ?_⟩
      · rw [Dev.trig_modTrig, if_pos rfl]
      · rw [Dev.trig_modTrig, if_pos rfl]
      · rw [Dev.trig_modTrig, if_neg hk]
      · rw [Dev.trig_modTrig, if_pos rfl]
        exact hfn
      · rw [Dev.trig_modTrig, if_pos rfl]
      · rw [hper] at h
        exact Bool.noConfusion h
    · rw [if_neg hper]
      have hnote := (s.dev.trigStopped n).agrees_noteState s.env 3 .stopped n 0
      have hstopped : s.dev.agrees [.tu] (s.dev.trigStopped n) := s.dev.agrees_modTrig _ _
      have htrig (j : Nat) : ((s.dev.trigStopped n).noteState s.env 3 .stopped n 0).trig j = (s.dev.trigStopped n).trig j := by
        rw [Dev.trig, ← hnote .tu (by decide), Dev.trig]
      have hself : ((s.dev.trigStopped n).noteState s.env 3 .stopped n 0).trig n = { s.dev.trig n with
          fn := .stopped, inPulse := false, waitLock := false, resume := none, level := ((s.dev.trig n).cfg.map fun c => c.ball false).getD false } := by
        rw [htrig, Dev.trigStopped, Dev.trig_modTrig, if_pos rfl]
      refine ⟨?_, ?_, fun k hk => ?_, ?_, fun h => (hper h).elim, fun _ => ⟨?_, State.touches_of_agrees ((hstopped.mono (by decide)).andThen hnote (by decide))⟩⟩
      · rw [hself]
      · rw [hself, hcfg]
        rfl
      · rw [htrig, Dev.trigStopped, Dev.trig_modTrig, if_neg hk]
      · rw [← hnote .tu (by decide)]
        rfl
      · rw [hself]
  case free =>
    have hlen : f.length ≤ 9216 := by
      have hrange := (Bool.or_eq_false_iff.mp hrefused).2
      simp only [decide_eq_false_iff_not, not_or, not_lt] at hrange
      exact hrange.2
    have hrests : ∀ p, p < 4 → (s.dev.mac p).rests s.env.raw := fun p hp => Or.inl (hidle p hp).1
    obtain ⟨A, Q, hE⟩ := s.dev.egress_eq_filter f v
    obtain ⟨E, hEdef⟩ : ∃ E, E = s.dev.egress f v := ⟨_, rfl⟩
    have hmem (p : Nat) (hp : p ∈ E) : p ≤ 4 := by
      rw [hEdef, hE] at hp
      have hup := (List.mem_filter.mp hp).1
      simp only [List.mem_append, List.mem_filter, List.mem_range, List.mem_singleton] at hup
      omega
    have hnodup : E.Nodup := by
      rw [hEdef, hE]
      refine List.Nodup.filter _ (List.Nodup.append (List.nodup_range.filter _) (List.nodup_singleton 4) ?_)
      simp
    have hshort : E.length ≤ 5 := by
      rw [hEdef, hE]
      refine (List.length_filter_le _ _).trans ?_
      have := List.length_filter_le A (List.range 4)
      simp only [List.length_append, List.length_singleton, List.length_range] at this ⊢
      omega
    obtain ⟨hlearned, hports, hout0, -, hpeers0, hin⟩ := s.dev.learnMac_spec s.env f v
    obtain ⟨a, ha⟩ : ∃ a, a = s.dev.learnMac s.env f v := ⟨_, rfl⟩
    rw [← ha] at hlearned hports hout0 hpeers0 hin
    have hamac (p : Nat) : a.mac p = s.dev.mac p := Dev.mac_congr hports p
    obtain ⟨hjoined, hout1, hlearn1, hpeers1, hmac1⟩ := Dev.joinAll_spec (e := s.env) hlen E a hnodup hmem
      (fun p _ hp => by rw [hamac]; exact (hidle p hp).1) (by rw [Dev.bridgeUsed, hports, ← Dev.bridgeUsed, hused]; omega)
    obtain ⟨b, hb⟩ : ∃ b, b = E.foldl (fun d p => d.joinQueue s.env p f f.correction) a := ⟨_, rfl⟩
    rw [← hb] at hjoined hout1 hlearn1 hpeers1 hmac1
    obtain ⟨hsent, hout2, hlearn2, hpeers2, hmac2⟩ := Dev.drainAll_spec (e := s.env) (f := f) (E := E) (List.range 4) b List.nodup_range
      (fun p hp => by
        have hlow := List.mem_range.mp hp
        rw [hmac1 p hlow, hamac]
        split
        · rfl
        · exact (hidle p hlow).1)
      (fun p hp => by
        have hlow := List.mem_range.mp hp
        rw [hmac1 p hlow, hamac]
        split
        · exact (hidle p hlow).2
        · exact (hidle p hlow).2)
    obtain ⟨c, hc⟩ : ∃ c, c = b.drainPorts s.env.raw := ⟨_, rfl⟩
    rw [← Dev.drainPorts, ← hc] at hsent hout2 hlearn2 hpeers2
    have hmac2' : ∀ p, c.mac p = if p ∈ List.range 4 ∧ p ∈ E then
      { b.mac p with queue := [], busyTo := s.env.raw + lineTime (b.mac p).cfg f.length } else b.mac p := by rw [hc]; exact hmac2
    have hexec := exec_bridgeForward_frame hclk hplain hudp hfcs hrefused hport hown
    rw [Dev.bridgeFrame_of_rests hv hplain hdest hrests, ← hEdef, ← ha, ← hb, ← hc] at hexec
    refine ⟨_, hexec, ?_⟩
    rw [State.put_dev, ← hEdef]
    refine ⟨?_, fun p hp hlow => ?_, ?_, State.touches_of_agrees ((hlearned.trans hjoined).trans hsent), ?_⟩
    · rw [hout2, hout1, hout0, List.append_assoc, ← List.map_append, hEdef, hE, egress_lines]
    · rw [hmac2' p, if_pos ⟨List.mem_range.mpr hlow, hp⟩, hmac1 p hlow, if_pos hp, hamac]
      exact ⟨rfl, rfl⟩
    · rw [hlearn2, hlearn1]
      exact hin hlearn
    · rw [hpeers2, hpeers1, hpeers0]
  case busy =>
    have hrests' : ∀ q, q < 4 → (s.dev.mac q).rests s.env.raw := hrests
    obtain ⟨hlearned, hports, hout0, hdrops0, -, -⟩ := s.dev.learnMac_spec s.env f v
    obtain ⟨a, ha⟩ : ∃ a, a = s.dev.learnMac s.env f v := ⟨_, rfl⟩
    rw [← ha] at hlearned hports hout0 hdrops0
    have hamac (q : Nat) : a.mac q = s.dev.mac q := Dev.mac_congr hports q
    have haused : a.bridgeUsed = s.dev.bridgeUsed := by rw [Dev.bridgeUsed, hports, ← Dev.bridgeUsed]
    obtain ⟨b, hb⟩ : ∃ b, b = a.joinQueue s.env p f f.correction := ⟨_, rfl⟩
    have hnotfour : ¬ p = 4 := by omega
    have hjoined : a.agrees [.flock] b ∧ b.flock.out = a.flock.out ∧ (∀ q, q ≠ p → b.mac q = a.mac q) ∧ (b.mac p).busyTo = (a.mac p).busyTo ∧
        (s.dev.bridgeUsed + f.length ≤ 0x200000 → (b.mac p).queue = (a.mac p).queue ++ [waitingFrame f s.env] ∧ b.flock.bridgeDrops = a.flock.bridgeDrops) ∧
        (0x200000 < s.dev.bridgeUsed + f.length → (b.mac p).queue = (a.mac p).queue ∧ b.flock.bridgeDrops = a.flock.bridgeDrops + 1) := by
      rw [hb, Dev.joinQueue, if_neg hnotfour, haused]
      split
      next hfull => exact ⟨a.agrees_flock _, rfl, fun _ _ => rfl, rfl, fun hfits => absurd hfull (Nat.not_lt.mpr hfits), fun _ => ⟨rfl, rfl⟩⟩
      next hfits =>
        refine ⟨a.agrees_modMac _ _, rfl, fun q hq => ?_, ?_, fun _ => ⟨?_, rfl⟩, fun hfull => (hfits hfull).elim⟩
        · rw [Dev.mac_modMac, if_neg hq]
        · rw [Dev.mac_modMac, if_pos rfl]
        · rw [Dev.mac_modMac, if_pos rfl]
          rfl
    obtain ⟨hbagrees, hbout, hbother, hbbusy, hbfits, hbfull⟩ := hjoined
    have hbrests : ∀ q, q < 4 → (b.mac q).rests s.env.raw := by
      intro q hq
      by_cases hqp : q = p
      · subst hqp
        exact Or.inr (by rw [hbbusy, hamac]; exact hbusy)
      · rw [hbother q hqp, hamac]
        exact hrests' q hq
    have hexec := exec_bridgeForward_frame hclk hplain hudp hfcs hrefused hport hown
    rw [Dev.bridgeFrame_of_rests hv hplain hdest hrests', hegress, ← ha, List.foldl_cons, List.foldl_nil, ← hb, Dev.drainPorts_of_rests hbrests] at hexec
    refine ⟨_, hexec, ?_⟩
    rw [State.put_dev]
    refine ⟨hbout.trans hout0, State.touches_of_agrees (hlearned.trans hbagrees), fun hfits => ?_, fun hfull => ?_⟩
    · obtain ⟨hqueue, hdrops⟩ := hbfits hfits
      exact ⟨by rw [hqueue, hamac]; rfl, hdrops.trans hdrops0⟩
    · obtain ⟨hqueue, hdrops⟩ := hbfull hfull
      exact ⟨by rw [hqueue, hamac], by rw [hdrops, hdrops0]⟩
  case ageing =>
    rw [exec_learningTableAgeing, execLearningTableAgeing, run_next (by simp [missingUnit, Instr.units])]
    exact ⟨_, rfl, rfl⟩

end Sys2Proof.Machine
end

section
/-! SUPPORT. The shared receive buffer on a table of links out of order (R443): a write to a link that stands behind a later key adds
a second entry of that link, so the requests in service count twice and the next frame in sequence finds no room. That refutes O36 to
O39, whose frames `Dev.inOrder` takes as having room for any payload. -/

namespace Sys2Proof.Machine

open Sys2Proof

/-- A RUNNING link to device 1 that holds a long request in service. -/
def loadedLink (bs : List Byte) : Peer :=
  { fn := .running
    cfg := some { dev := 1, port := 0, priority := 0, vlan := 0xFFFF, mac := [] }
    session := 7
    serve := [{ access := { offset := 0, reqId := 0, count := 0, nsize := 0, poison := 0, data := bs } }] }

/-- A write of device 1's that waits for its answer. -/
def waitingWrite : NdReq := { id := 0, peer := 3, write := true, thread := none, drover := none }

/-- Device 0 with that link at key 3, listed behind key 5, a flock hurdle 0, and a write that waits for its answer. -/
def loadedDev (bs : List Byte) : Dev :=
  { pow := { state := .idle }
    hurdles := [(0, { inst := 0, members := 1, flock := some 0 })]
    flock := { dev := some 0, peers := [(5, {}), (3, loadedLink bs)], reqs := [waitingWrite] } }

/-- The state around that device. -/
def loadedState (bs : List Byte) : State := { clk := {}, fuse := {}, dev := loadedDev bs, pending := [] }

/-- The next frame of the link in sequence. -/
def nextFrame : NdHdr :=
  { port := 0, fcsOk := true, dstMac := 0x02C707000000, etherType := 0x88B5, crcOk := true, version := 1, lengthOk := true
    srcDev := 1, dstDev := 0, session := 7, seq := 0, ackValid := false, ack := 0, window := 16 }

/-- The device once it has heard the frame. -/
def heardDev (bs : List Byte) : Dev := (loadedDev bs).modPeer 3 fun p => { p with lastRx := (loadedState bs).env.raw }

theorem rxUsed_loadedDev (bs : List Byte) : (loadedDev bs).rxUsed = 60 + bs.length := by
  simp [Dev.rxUsed, loadedDev, loadedLink, frameBytes, NdServe.payload]
  omega

/-- The link's requests in service count twice. -/
theorem rxUsed_heardDev (bs : List Byte) : (heardDev bs).rxUsed = 2 * (60 + bs.length) := by
  simp [Dev.rxUsed, heardDev, loadedDev, loadedLink, Dev.modPeer, tmod, tset, tgetD, tget, frameBytes, NdServe.payload]
  omega

theorem ndReceive_loadedDev (bs : List Byte) : (loadedDev bs).ndReceive (loadedState bs).env nextFrame = (some 3, heardDev bs) := by
  have hclaims : (loadedDev bs).claims nextFrame = true := rfl
  have hdev : (loadedDev bs).flock.dev = some nextFrame.dstDev := rfl
  have hpeer : (loadedDev bs).peerOf nextFrame.srcDev = some 3 := rfl
  have hsession : nextFrame.session = ((loadedDev bs).peer 3).session := rfl
  have hadmit : (loadedDev bs).ndAdmit (loadedState bs).env nextFrame = (some 3, loadedDev bs) := by
    simp [Dev.ndAdmit, hclaims, hdev, hpeer, show nextFrame.crcOk = true from rfl, show nextFrame.version = 1 from rfl,
      show nextFrame.lengthOk = true from rfl]
  simp [Dev.ndReceive, hadmit, hsession, show nextFrame.ackValid = false from rfl, heardDev]

theorem inOrder_loadedDev {bs : List Byte} (h : bs.length ≤ 4185000) : (loadedDev bs).inOrder nextFrame 3 = true := by
  have hheard : (loadedDev bs).heard nextFrame 3 = true := rfl
  have hruns : ((loadedDev bs).peer 3).fn = .running := rfl
  have hseq : nextFrame.seq = ((loadedDev bs).peer 3).rxNext % 2 ^ 32 := rfl
  have hroom : (loadedDev bs).rxUsed + frameBytes 8224 ≤ 0x400000 := by rw [rxUsed_loadedDev, frameBytes]; omega
  simp only [Dev.inOrder, hheard, hruns, ← hseq, hroom]
  rfl

/-- The frame is dropped for want of room. -/
theorem ndSequenced_loadedDev {bs : List Byte} (h : 2097152 ≤ bs.length) (n : Nat) :
    (loadedDev bs).ndSequenced (loadedState bs).env nextFrame n = (none, heardDev bs) := by
  have hactive : (!((heardDev bs).peer 3).fn.active) = false := rfl
  have hseq : nextFrame.seq = ((heardDev bs).peer 3).rxNext % 2 ^ 32 := rfl
  have hfull : 0x400000 < (heardDev bs).rxUsed + frameBytes n := by rw [rxUsed_heardDev]; omega
  unfold Dev.ndSequenced
  rw [ndReceive_loadedDev]
  simp only [hactive, Bool.false_eq_true, if_false, if_pos hseq, if_pos hfull]

/-- A request of 4,000,000 bytes. -/
theorem exists_longRequest : ∃ bs : List Byte, bs.length = 4000000 := ⟨List.replicate 4000000 0, List.length_replicate⟩

/-- What a dropped frame leaves, whatever its effect would have been. -/
theorem onLink_loadedDev {bs : List Byte} (h : 2097152 ≤ bs.length) (n : Nat) (f : Env → Nat → Dev → Dev) :
    whenIdle (fun e d => onLink (d.ndSequenced e nextFrame n) (f e)) (loadedState bs).env (loadedDev bs) = heardDev bs := by
  have hclocked : (loadedDev bs).clocked = true := rfl
  rw [whenIdle, hclocked, if_pos rfl, ndSequenced_loadedDev h]
  rfl

/-- Refutes O36: a CLOSE that `Dev.inOrder` takes as next in sequence finds no room, so it is not counted. -/
theorem not_linksComeUpAndDown : ¬ Obligations.links_come_up_and_down := by
  unfold Obligations.links_come_up_and_down
  intro h
  obtain ⟨bs, hlen⟩ := exists_longRequest
  have horder : (loadedState bs).dev.inOrder nextFrame 3 = true := inOrder_loadedDev (by omega)
  obtain ⟨-, -, hclose, -⟩ := h (loadedState bs) 3 (by decide) rfl
  obtain ⟨u, hu, -, -, hrx, -⟩ := hclose nextFrame horder rfl
  have hexec : exec (.close nextFrame) (loadedState bs) = .next ((loadedState bs).put (heardDev bs)) := by
    rw [exec_close, execClose, run_next rfl]
    have hbody : whenIdle (fun e d => (d.ndSequenced e nextFrame 0).2) (loadedState bs).env (loadedDev bs) =
        heardDev bs := by
      rw [whenIdle, ndSequenced_loadedDev (by omega)]
      rfl
    exact congrArg (fun d => Host.Outcome.next ((loadedState bs).put d)) hbody
  obtain rfl := Host.Outcome.next.inj (hexec.symm.trans hu)
  exact absurd (show (0 : Nat) = 1 from hrx) (by decide)

/-- The access of the dropped DONE. -/
def doneAccess : NdAccess := { offset := 0, reqId := 0, count := 0, nsize := 1, poison := 0, data := [] }

/-- Refutes O37: a DONE that `Dev.inOrder` takes as next in sequence finds no room, so its request goes on waiting. -/
theorem not_stileRequestsAndReplies : ¬ Obligations.stile_requests_and_replies := by
  unfold Obligations.stile_requests_and_replies
  rintro ⟨h, -⟩
  obtain ⟨bs, hlen⟩ := exists_longRequest
  have horder : (loadedState bs).dev.inOrder nextFrame 3 = true := inOrder_loadedDev (by omega)
  obtain ⟨-, -, hdone⟩ := h (loadedState bs) nextFrame doneAccess 3 0 0 (by decide) horder rfl rfl rfl
    fun _ hx => absurd hx List.not_mem_nil
  obtain ⟨u, hu, -, -, hgone, -⟩ := hdone waitingWrite 0 rfl (by decide)
  have hexec : exec (.done nextFrame 0 0) (loadedState bs) = .next ((loadedState bs).put (heardDev bs)) := by
    rw [exec_done, execDone, run_next rfl]
    exact congrArg (fun d => Host.Outcome.next ((loadedState bs).put d)) (onLink_loadedDev (by omega) 8 fun e k d => d.writeAnswered e k 0 0)
  obtain rfl := Host.Outcome.next.inj (hexec.symm.trans hu)
  exact Bool.noConfusion (show false = true from hgone)

/-- Refutes O38: a child's ARRIVE that `Dev.inOrder` takes as next in sequence finds no room, so it is not noted. -/
theorem not_messagesAndFlockHurdles : ¬ Obligations.messages_and_flock_hurdles := by
  unfold Obligations.messages_and_flock_hurdles
  intro h
  obtain ⟨bs, hlen⟩ := exists_longRequest
  have horder : (loadedState bs).dev.inOrder nextFrame 3 = true := inOrder_loadedDev (by omega)
  obtain ⟨-, -, hhurdle⟩ := h (loadedState bs) nextFrame 3 (by decide) horder rfl
  obtain ⟨harrive, -⟩ := hhurdle 0 0 { inst := 0, members := 1, flock := some 0 } (by decide) rfl rfl rfl
  obtain ⟨u, hu, hnoted, -⟩ := harrive _ rfl (show 0 < 256 by decide) rfl rfl
  have hexec : exec (.hurdleArriveFrame nextFrame 0 0) (loadedState bs) =
      .next ((loadedState bs).put (heardDev bs)) := by
    rw [exec_hurdleArriveFrame, execHurdleArriveFrame, run_next rfl]
    exact congrArg (fun d => Host.Outcome.next ((loadedState bs).put d)) (onLink_loadedDev (by omega) 4 fun e _ d => d.arriveIn e 1 0 0)
  obtain rfl := Host.Outcome.next.inj (hexec.symm.trans hu)
  exact Bool.noConfusion (show false = true from hnoted)

/-- A request for a snapshot well ahead. -/
def snapshotRequest : NdEvent := { kind := 0, domain := 0, origin := 1, eventId := 0, tag := 0, instant := 1000000 }

theorem snapshotRequest_inTime (bs : List Byte) : (loadedState bs).dev.eventLate (loadedState bs).env snapshotRequest = false := by
  have hnow : (loadedState bs).dev.domTime snapshotRequest.domain (loadedState bs).env.raw = 0 := rfl
  simp only [Dev.eventLate, hnow, eventMargin]
  decide

/-- Refutes O39: an event request that `Dev.inOrder` takes as next in sequence finds no room, so no event is ordered. -/
theorem not_flockEventsRun : ¬ Obligations.flock_events_run := by
  unfold Obligations.flock_events_run
  intro h
  obtain ⟨bs, hlen⟩ := exists_longRequest
  have horder : (loadedState bs).dev.inOrder nextFrame 3 = true := inOrder_loadedDev (by omega)
  obtain ⟨hrequest, -⟩ := h (loadedState bs) nextFrame 3 snapshotRequest (by decide) horder rfl rfl
  obtain ⟨u, hu, -, hordered, -⟩ := hrequest rfl rfl (snapshotRequest_inTime bs)
  have hexec : exec (.eventRequest nextFrame snapshotRequest) (loadedState bs) =
      .next ((loadedState bs).put (heardDev bs)) := by
    rw [exec_eventRequest, execEventRequest, run_next rfl]
    exact congrArg (fun d => Host.Outcome.next ((loadedState bs).put d)) (onLink_loadedDev (by omega) 24 fun e _ d => d.requestIn e snapshotRequest)
  obtain rfl := Host.Outcome.next.inj (hexec.symm.trans hu)
  exact nomatch hordered

end Sys2Proof.Machine
end

section
/-! SUPPORT. The Shepherd pair (R480 to R485, R499, R501): the lag of its cores, and what a checkpoint does. -/

namespace Sys2Proof.Machine

open Sys2Proof

/-! ## The lag of the pair (R480) -/

/-- The follower does not lead, and the leader is at most 1,024 instructions ahead. -/
def ShepPair.Lagged (p : ShepPair) : Prop := p.follow.count ≤ p.lead.count ∧ p.lead.count ≤ p.follow.count + 1024

theorem ShepPair.checked_follow (p : ShepPair) (a : BitVec 64) : (p.checked a).follow = p.follow := by
  unfold ShepPair.checked
  split
  · split
    · rfl
    · split
      · rfl
      · rfl
  · rfl

/-- A step of the leader takes it at most one instruction on, and only while it is less than 1,024 ahead. -/
theorem ShepPair.leads_counts (p : ShepPair) (o : ShepOp) : (p.leads o).follow.count = p.follow.count ∧
    ((p.leads o).lead.count = p.lead.count ∨
      ((p.leads o).lead.count = p.lead.count + 1 ∧ p.lead.count < p.follow.count + 1024)) := by
  unfold ShepPair.leads
  dsimp only
  split
  · exact ⟨rfl, .inl rfl⟩
  · next hahead =>
    have hroom : p.lead.count < p.follow.count + 1024 := by
      rw [not_or, not_le] at hahead
      exact hahead.1
    cases o with
    | load a v => exact ⟨congrArg ShepCore.count (p.checked_follow a), .inr ⟨rfl, hroom⟩⟩
    | interrupt => exact ⟨rfl, .inl rfl⟩
    | store | entry | config | other => exact ⟨rfl, .inr ⟨rfl, hroom⟩⟩

/-- A step of the follower takes it at most one instruction on, and only while it is behind. -/
theorem ShepPair.follows_counts (p : ShepPair) (o : ShepOp) : (p.follows o).lead.count = p.lead.count ∧
    ((p.follows o).follow.count = p.follow.count ∨
      ((p.follows o).follow.count = p.follow.count + 1 ∧ p.follow.count < p.lead.count)) := by
  unfold ShepPair.follows
  dsimp only
  split
  · exact ⟨rfl, .inl rfl⟩
  · next hbehind =>
    have hroom : p.follow.count < p.lead.count := not_le.mp hbehind
    cases o with
    | interrupt => exact ⟨rfl, .inl rfl⟩
    | load | store | entry | config | other => exact ⟨rfl, .inr ⟨rfl, hroom⟩⟩

theorem ShepPair.run_lagged {p : ShepPair} (h : p.Lagged) (l : List ShepStep) : (p.run l).Lagged := by
  refine List.foldlRecOn (motive := ShepPair.Lagged) l _ h fun p ⟨hbehind, hahead⟩ x _ => ?_
  unfold ShepPair.Lagged
  split
  · obtain ⟨hlead, hfollow⟩ := p.follows_counts x.op
    omega
  · obtain ⟨hfollow, hlead⟩ := p.leads_counts x.op
    omega

/-! ## Faults of the pair -/

theorem Dev.agrees_pairFaults (d : Dev) (l : List (BitVec 64 × Bool)) : d.agrees faultParts (d.pairFaults l) :=
  Dev.agrees_foldl (fun d _ => Dev.agrees.ite (d.agrees_raise _ _ _ _) (d.agrees_raise _ _ _ _)) l d

theorem Dev.pairFaults_unpinned (d : Dev) (l : List (BitVec 64 × Bool)) : (d.pairFaults l).safe.unpinned = d.safe.unpinned := by
  refine List.foldlRecOn (motive := fun x : Dev => x.safe.unpinned = d.safe.unpinned) l _ rfl fun x hx y _ => ?_
  split
  · exact (x.raise_unpinned _ _ _ _).trans hx
  · exact (x.raise_unpinned _ _ _ _).trans hx

theorem Dev.pairFaults_col_congr {a b : Dev} (hphys : a.phys = b.phys) (hcol : a.col = b.col) (l : List (BitVec 64 × Bool)) :
    (a.pairFaults l).col = (b.pairFaults l).col := by
  induction l generalizing a b with
  | nil => exact hcol
  | cons x l ih =>
    have hraised (src kind detail arg : Nat) :
        ((a.raise src kind detail arg).pairFaults l).col = ((b.raise src kind detail arg).pairFaults l).col :=
      ih (by rw [Dev.raise_phys, Dev.raise_phys, hphys]) (Dev.raise_col_congr hphys hcol _ _ _ _)
    simp only [Dev.pairFaults, List.foldl_cons]
    split
    · exact hraised _ _ _ _
    · exact hraised _ _ _ _

/-- A comparison that breaks: both its fault and its pins. -/
theorem Dev.breakLockstep_spec (d : Dev) (detail checkpoint : Nat) :
    d.agrees faultParts (d.breakLockstep detail checkpoint) ∧ (d.breakLockstep detail checkpoint).safe.lockstepBroken = true ∧
      (d.breakLockstep detail checkpoint).safe.safe1 = true ∧ (d.breakLockstep detail checkpoint).safe.pulse = false ∧
      (d.breakLockstep detail checkpoint).col = (d.raise 0x000 0x30 detail checkpoint).col := by
  obtain ⟨b, hb⟩ : ∃ b : Dev, b = { d with safe := { d.safe with lockstepBroken := true } }.raise 0x000 0x30 detail checkpoint := ⟨_, rfl⟩
  have hbroken : b.safe.lockstepBroken = true := by
    rw [hb]
    exact congrArg Safety.lockstepBroken (Dev.raise_unpinned { d with safe := { d.safe with lockstepBroken := true } } 0x000 0x30 detail checkpoint)
  have hagrees : d.agrees faultParts b :=
    hb ▸ ((d.agrees_safe _).mono (by decide)).trans (Dev.agrees_raise _ _ _ _ _)
  have hcol : b.col = (d.raise 0x000 0x30 detail checkpoint).col := by
    rw [hb]
    exact Dev.raise_col_congr (d := { d with safe := { d.safe with lockstepBroken := true } }) (d' := d) rfl rfl _ _ _ _
  have hpins : d.breakLockstep detail checkpoint = b.pins := by rw [hb]; rfl
  rw [hpins]
  exact ⟨hagrees.andThen b.agrees_pins (by decide), hbroken, by simp [Dev.pins, hbroken], by simp [Dev.pins, hbroken], hcol⟩

/-! ## A checkpoint -/

/-- The pair after the steps that a report lists. -/
def Dev.pairAfter (d : Dev) (r : PairReport) : ShepPair := (r.upsets.foldl ShepPair.upset d.safe.pair).run r.steps

/-- The device once the pair has taken the steps of a report and what its loads have found has been raised. -/
def Dev.pairRun (d : Dev) (r : PairReport) : Dev :=
  { d with safe := { d.safe with pair := { d.pairAfter r with found := [], differs := none } } }.pairFaults (d.pairAfter r).found

/-- What the faults found leave: the collector as those faults alone leave it, and the safety unit but for the pair and the pins. -/
theorem Dev.pairRun_spec (d : Dev) (r : PairReport) : d.agrees faultParts (d.pairRun r) ∧
    (d.pairRun r).col = (d.pairFaults (d.pairAfter r).found).col ∧
    (d.pairRun r).safe.unpinned = { d.safe with pair := { d.pairAfter r with found := [], differs := none } }.unpinned :=
  ⟨((d.agrees_safe _).mono (by decide)).trans (Dev.agrees_pairFaults _ _), 
    Dev.pairFaults_col_congr (a := { d with safe := { d.safe with pair := { d.pairAfter r with found := [], differs := none } } }) (b := d)
      rfl rfl _, Dev.pairFaults_unpinned _ _⟩

/-- What a checkpoint does with the pair's steps. -/
def Dev.checkpoint (d : Dev) (e : Env) (r : PairReport) : Dev :=
  let b := (d.pairRun r).pairDiffers (d.pairAfter r).differs
  if b.safe.lockstepBroken || !(d.pairAfter r).level then b
  else if r.lead = r.follow ∧ (d.pairAfter r).lead.hash = (d.pairAfter r).follow.hash then
    { b with safe := { b.safe with
      lastHash := e.raw
      hashTimeout := false
      released := b.safe.released || b.mbox.boot.testPass } }.pins
  else b.breakLockstep 0 2

theorem exec_stateHashCheckpoint_of_runs {s : State} (h : s.dev.pairRuns = true) (r : PairReport) :
    exec (.stateHashCheckpoint r) s = .next (s.put (s.dev.checkpoint s.env r)) := by
  have hruns : (!s.dev.pairRuns) = false := by rw [h]; rfl
  rw [exec_stateHashCheckpoint, execStateHashCheckpoint, run_next rfl]
  simp only [hruns]
  rfl

/-- Settles O42: the lag is an invariant of every step of the pair, and a checkpoint is the faults found, then one of a break, a wait and
a pass. -/
theorem shepherdPair : Obligations.shepherd_pair := by
  unfold Obligations.shepherd_pair
  intro s hruns hwhole
  have hcheck := exec_stateHashCheckpoint_of_runs hruns
  have hwholeRun (r : PairReport) : (s.dev.pairRun r).safe.lockstepBroken = false :=
    ((congrArg Safety.lockstepBroken (s.dev.pairRun_spec r).2.2 :)).trans hwhole
  refine ⟨fun p l hbehind hahead => ShepPair.run_lagged ⟨hbehind, hahead⟩ l, fun r p hp hsame => ?compared, fun r p k hp hdiffers => ?copies,
    fun c hc => ?late, fun hdue => ?silent, ?edge⟩
  case compared =>
    have hpair : s.dev.pairAfter r = p := hp.symm
    obtain ⟨hagrees, hcol, hsafe⟩ := s.dev.pairRun_spec r
    obtain ⟨b, hb⟩ : ∃ b, b = s.dev.pairRun r := ⟨_, rfl⟩
    have hbroken : b.safe.lockstepBroken = false := hb ▸ hwholeRun r
    rw [← hb, hpair] at hsafe
    rw [← hb, hpair] at hcol
    rw [← hb] at hagrees
    have hpairb : b.safe.pair = { p with found := [] } := by
      have hkept : b.safe.pair = { p with found := [], differs := none } := (congrArg Safety.pair hsafe :)
      rw [hkept, ← hsame]
    have hstep : s.dev.checkpoint s.env r = if !p.level then b
        else if r.lead = r.follow ∧ p.lead.hash = p.follow.hash then
          { b with safe := { b.safe with
            lastHash := s.env.raw
            hashTimeout := false
            released := b.safe.released || b.mbox.boot.testPass } }.pins
        else b.breakLockstep 0 2 := by
      simp only [Dev.checkpoint, hpair, hsame, Dev.pairDiffers, ← hb, hbroken, Bool.false_or]
    refine ⟨fun hlevel hregs hhash => ?_, fun hlevel hdiffer => ?_, fun hlevel => ?_⟩
    · have hpass : s.dev.checkpoint s.env r = { b with safe := { b.safe with
            lastHash := s.env.raw
            hashTimeout := false
            released := b.safe.released || b.mbox.boot.testPass } }.pins := by
        rw [hstep, hlevel, if_neg (by decide), if_pos ⟨hregs, hhash⟩]
      have hreleased : b.safe.released = s.dev.safe.released := (congrArg Safety.released hsafe :)
      have hmbox : b.mbox = s.dev.mbox := (hagrees .mbox (by decide)).symm
      have hnext := hcheck r
      rw [hpass] at hnext
      refine ⟨_, hnext, rfl, rfl, hpairb, hcol, ?_, State.touches_of_agrees ?_⟩
      · exact congrArg₂ (fun x (y : Mailbox) => x || y.boot.testPass) hreleased hmbox
      · exact (hagrees.andThen (b.agrees_safe _) (by decide)).andThen (Dev.agrees_pins _) (by decide)
    · have hbreak : s.dev.checkpoint s.env r = b.breakLockstep 0 2 := by
        rw [hstep, hlevel, if_neg (by decide), if_neg fun h => hdiffer.elim (fun hx => hx h.1) fun hx => hx h.2]
      obtain ⟨hbagrees, hbbroken, hbsafe1, hbpulse, hbcol⟩ := b.breakLockstep_spec 0 2
      have hnext := hcheck r
      rw [hbreak] at hnext
      refine ⟨_, hnext, hbbroken, hbsafe1, hbpulse, State.touches_of_agrees (hagrees.trans hbagrees), ?_⟩
      exact hbcol.trans (Dev.raise_col_congr ((hagrees .phys (by decide)).symm.trans
        (s.dev.agrees_pairFaults p.found .phys (by decide))) hcol _ _ _ _)
    · have hwait : s.dev.checkpoint s.env r = b := by rw [hstep, hlevel, Bool.not_false, if_pos rfl]
      have hnext := hcheck r
      rw [hwait] at hnext
      exact ⟨_, hnext, hpairb, (congrArg Safety.lastHash hsafe :), hbroken, hcol, State.touches_of_agrees hagrees⟩
  case copies =>
    have hpair : s.dev.pairAfter r = p := hp.symm
    obtain ⟨hagrees, hcol, -⟩ := s.dev.pairRun_spec r
    obtain ⟨hbagrees, hbbroken, hbsafe1, hbpulse, hbcol⟩ := (s.dev.pairRun r).breakLockstep_spec 0 k
    have hbreak : s.dev.checkpoint s.env r = (s.dev.pairRun r).breakLockstep 0 k := by
      simp only [Dev.checkpoint, hpair, hdiffers, Dev.pairDiffers, hwholeRun r, Bool.false_eq_true, if_false, hbbroken, Bool.true_or, if_true]
    rw [hpair] at hcol
    have hnext := hcheck r
    rw [hbreak] at hnext
    refine ⟨_, hnext, hbbroken, hbsafe1, hbpulse, State.touches_of_agrees (hagrees.trans hbagrees), ?_⟩
    exact hbcol.trans (Dev.raise_col_congr ((hagrees .phys (by decide)).symm.trans
      (s.dev.agrees_pairFaults p.found .phys (by decide))) hcol _ _ _ _)
  case late =>
    obtain ⟨hbagrees, hbbroken, hbsafe1, -, hbcol⟩ := s.dev.breakLockstep_spec 1 c
    refine ⟨s.put (s.dev.breakLockstep 1 c), ?_, hbbroken, hbsafe1, State.touches_of_agrees hbagrees, hbcol⟩
    rw [exec_followerTimeout, execFollowerTimeout, run_next (by simp [missingUnit, Instr.units, hc])]
    simp only [hruns, hwhole]
    rfl
  case silent =>
    have hdue' : s.dev.safe.lastHash + 2500000 ≤ s.env.raw := hdue
    refine ⟨s.put { s.dev with safe := { s.dev.safe with hashTimeout := true } }.pins, ?_, rfl, ?_, State.touches_of_agrees ?_⟩
    · rw [exec_pulseCheckpointTimeout, execPulseCheckpointTimeout, run_next rfl]
      simp only [if_pos hdue']
      rfl
    · simp [State.put, Dev.pins]
    · exact (s.dev.agrees_safe _).trans (Dev.agrees_pins _)
  case edge =>
    refine ⟨s.put { s.dev with safe := { s.dev.safe with pulse := !s.dev.safe.pulse } }.pins, ?_, State.touches_of_agrees ?_, fun hheld => ?_,
      fun hsafe0 hsafe1 htime hcopies => ?_⟩
    · rw [exec_pulseEdge, execPulseEdge, run_next rfl]
      rfl
    · exact (s.dev.agrees_safe _).trans (Dev.agrees_pins _)
    · simp [State.put, Dev.pins, hheld]
    · have hpulse : (s.put { s.dev with safe := { s.dev.safe with pulse := !s.dev.safe.pulse } }.pins).dev.safe.pulse =
          (!s.dev.safe.pulse && !((s.put { s.dev with safe := { s.dev.safe with pulse := !s.dev.safe.pulse } }.pins).dev.safe.safe0 ||
            (s.put { s.dev with safe := { s.dev.safe with pulse := !s.dev.safe.pulse } }.pins).dev.safe.safe1 ||
            s.dev.safe.hashTimeout || s.dev.safe.stateDisagree)) := rfl
      rw [hpulse, hsafe0, hsafe1, htime, hcopies]
      simp

end Sys2Proof.Machine
end

section
/-! SUPPORT. The supply, clock and temperature monitors (R413, R494 to R497, R569, R570). -/

namespace Sys2Proof.Machine

open Sys2Proof

/-! ## Temperature (R497) -/

/-- The hottest reading is one of the readings. -/
theorem hottest_mem {l : List Int} (h : l ≠ []) (excluded : List Nat) : (hottest l excluded).2 ∈ l := by
  have hpair (x : Nat × Int) (hx : x ∈ (l.zipIdx).map fun x => (x.2, x.1)) : x.2 ∈ l := by
    obtain ⟨y, hy, rfl⟩ := List.mem_map.mp hx
    exact List.fst_mem_of_mem_zipIdx hy
  obtain ⟨all, hall⟩ : ∃ all, all = (l.zipIdx).map fun (x : Int × Nat) => (x.2, x.1) := ⟨_, rfl⟩
  obtain ⟨use, huse⟩ : ∃ use, use = all.filter fun x => !excluded.contains x.1 := ⟨_, rfl⟩
  have hne : (if use.isEmpty then all else use) ≠ [] := by
    split
    · rw [hall]
      simpa using h
    · next hsome => simpa [List.isEmpty_iff] using hsome
  have hmem (x : Nat × Int) (hx : x ∈ if use.isEmpty then all else use) : x.2 ∈ l := by
    refine hpair x (hall ▸ ?_)
    split at hx
    · exact hx
    · rw [huse] at hx
      exact (List.mem_filter.mp hx).1
  unfold hottest
  dsimp only
  rw [← hall, ← huse]
  split
  · next hnil => exact absurd hnil hne
  · next x t hcons =>
    rw [hcons] at hmem
    refine List.foldlRecOn (motive := fun m : Nat × Int => m.2 ∈ l) t _ (hmem x List.mem_cons_self) fun m hm y hy => ?_
    split
    · exact hmem y (List.mem_cons_of_mem _ hy)
    · exact hm

/-- One count takes one step of its own filter. -/
theorem Dev.countTemp_spec (d : Dev) (k src : Nat) (past : Bool) (arg : Nat) :
    d.agrees faultParts (d.countTemp k src past arg) ∧
      ∀ j, j ≠ k → tgetD (d.countTemp k src past arg).safe.tempCount j 0 = tgetD d.safe.tempCount j 0 := by
  have hset (n : Nat) : d.agrees faultParts { d with safe := { d.safe with tempCount := tset d.safe.tempCount k n } } :=
    (d.agrees_safe _).mono (by decide)
  have hcount (n j : Nat) (hj : j ≠ k) : tgetD (tset d.safe.tempCount k n) j 0 = tgetD d.safe.tempCount j 0 := by
    rw [tgetD_tset, if_neg hj]
  unfold Dev.countTemp
  dsimp only
  generalize (if past = true then min 5 (tgetD d.safe.tempCount k 0 + 1) else 0) = n
  split
  · refine ⟨(hset _).trans (Dev.agrees_raise _ _ _ _ _), fun j hj => ?_⟩
    rw [← hcount n j hj]
    have hkept : ({ d with safe := { d.safe with tempCount := tset d.safe.tempCount k n } }.raise src 0x38 k arg).safe.tempCount =
        tset d.safe.tempCount k n :=
      (congrArg Safety.tempCount (Dev.raise_unpinned { d with safe := { d.safe with tempCount := tset d.safe.tempCount k n } } _ _ _ _) :)
    rw [hkept]
  · exact ⟨hset _, hcount _⟩

/-- A reading of the sensors counts its hottest past the shutdown limit. -/
theorem Dev.judgeTemp_spec (d : Dev) (e : Env) (l : List Int) : d.agrees faultParts (d.judgeTemp e l) ∧
    tgetD (d.judgeTemp e l).safe.tempCount 3 0 =
      if (tempLimits e.fuse).2.2.2 < (hottest l (strayingSensors l)).2 then tgetD d.safe.tempCount 3 0 + 1 else 0 := by
  obtain ⟨b, hb⟩ : ∃ b, b = ((strayingSensors l).filter fun i => !d.safe.excluded.contains i).foldl
    (fun d i => d.raise 0x3BE 0x38 3 (tempArg i (l.getD i 0))) d := ⟨_, rfl⟩
  have hbagrees : d.agrees faultParts b := hb ▸ Dev.agrees_foldl (fun d _ => d.agrees_raise _ _ _ _) _ d
  have hbcount : b.safe.tempCount = d.safe.tempCount := by
    rw [hb]
    exact (congrArg Safety.tempCount (List.foldlRecOn (motive := fun x : Dev => x.safe.unpinned = d.safe.unpinned) _ _ rfl
      fun x hx i _ => (x.raise_unpinned _ _ _ _).trans hx) :)
  obtain ⟨h, hh⟩ : ∃ h, h = hottest l (strayingSensors l) := ⟨_, rfl⟩
  obtain ⟨c, hc⟩ : ∃ c : Dev, c = { b with safe := { b.safe with excluded := strayingSensors l } } := ⟨_, rfl⟩
  have hcagrees : d.agrees faultParts c := hc ▸ hbagrees.andThen (b.agrees_safe _) (by decide)
  have hccount : c.safe.tempCount = d.safe.tempCount := by rw [hc, ← hbcount]
  obtain ⟨hagrees0, hcount0⟩ := c.countTemp_spec 0 0x3BE (h.2 < (tempLimits e.fuse).1) (tempArg h.1 h.2)
  obtain ⟨c0, hc0⟩ : ∃ c0, c0 = c.countTemp 0 0x3BE (h.2 < (tempLimits e.fuse).1) (tempArg h.1 h.2) := ⟨_, rfl⟩
  rw [← hc0] at hagrees0 hcount0
  obtain ⟨hagrees1, hcount1⟩ := c0.countTemp_spec 1 0x3BE ((tempLimits e.fuse).2.1 < h.2) (tempArg h.1 h.2)
  obtain ⟨c1, hc1⟩ : ∃ c1, c1 = c0.countTemp 1 0x3BE ((tempLimits e.fuse).2.1 < h.2) (tempArg h.1 h.2) := ⟨_, rfl⟩
  rw [← hc1] at hagrees1 hcount1
  obtain ⟨hagrees2, hcount2⟩ := c1.countTemp_spec 2 0x3BD ((tempLimits e.fuse).2.2.1 < h.2) (tempArg h.1 h.2)
  obtain ⟨c2, hc2⟩ : ∃ c2, c2 = c1.countTemp 2 0x3BD ((tempLimits e.fuse).2.2.1 < h.2) (tempArg h.1 h.2) := ⟨_, rfl⟩
  rw [← hc2] at hagrees2 hcount2
  have hkept : tgetD c2.safe.tempCount 3 0 = tgetD d.safe.tempCount 3 0 := by
    rw [hcount2 3 (by decide), hcount1 3 (by decide), hcount0 3 (by decide), hccount]
  have hjudge : d.judgeTemp e l = { c2 with safe := { c2.safe with
      tempCount := tset c2.safe.tempCount 3 (if (tempLimits e.fuse).2.2.2 < h.2 then tgetD c2.safe.tempCount 3 0 + 1 else 0) } } := by
    rw [hc2, hc1, hc0, hc, hb, hh]
    rfl
  rw [hjudge, ← hh, ← hkept]
  exact ⟨(((hcagrees.trans hagrees0).trans hagrees1).trans hagrees2).andThen (c2.agrees_safe _) (by decide), by
    rw [tgetD_tset, if_pos rfl]⟩

/-! ## Rails and clocks -/

theorem exec_railTrip_of_armed {s : State} {r : Nat} {high : Bool} (hr : r < 9) (harmed : (tgetD s.dev.safe.rails r {}).armed = true)
    (hon : s.dev.railOn r = true) : exec (.railTrip r high) s = .next (railTripped s r (if high then 1 else 0)) := by
  rw [exec_railTrip, execRailTrip, if_pos ⟨hr, harmed, hon⟩]

/-- A rail trips while the collector has its supply. -/
theorem railTripped_powered {s : State} (hoff : s.dev.pow.state ≠ .off) (hhib : s.dev.pow.state ≠ .hibernate) (r detail : Nat) :
    (railTripped s r detail).pending = s.pending ∧ (tgetD (railTripped s r detail).dev.safe.rails r {}).inWindow = false ∧
    s.touches (railTripped s r detail) faultParts ∧
      (railTripped s r detail).dev.col = (s.dev.raise (0x3B4 + railGroup r) 0x35 detail r).col := by
  obtain ⟨b, hb⟩ : ∃ b : Dev, b = { s.dev with safe := { s.dev.safe with
    rails := tmod s.dev.safe.rails r {} fun x => { x with inWindow := false } } } := ⟨_, rfl⟩
  have htrip : railTripped s r detail = s.put (b.raise (0x3B4 + railGroup r) 0x35 detail r) := by
    rw [railTripped, if_neg (not_or.mpr ⟨hoff, hhib⟩), hb]
    rfl
  rw [htrip]
  have hrails : (b.raise (0x3B4 + railGroup r) 0x35 detail r).safe.rails = b.safe.rails :=
    (congrArg Safety.rails (b.raise_unpinned _ _ _ _) :)
  refine ⟨rfl, ?_, State.touches_of_agrees ?_, ?_⟩
  · rw [State.put_dev, hrails, hb, tgetD_tmod, if_pos rfl]
  · exact (hb ▸ (s.dev.agrees_safe _).mono (by decide)).trans (Dev.agrees_raise b _ _ _ _)
  · exact Dev.raise_col_congr (hb ▸ rfl) (hb ▸ rfl) _ _ _ _

/-- The time PLL stops the counter: both domains follow. -/
def Dev.timePllGone (d : Dev) (e : Env) : Dev :=
  { d.raise 0x300 0x23 0 e.raw with pow := { (d.raise 0x300 0x23 0 e.raw).pow with timePllLost := true } }

theorem Dev.timePllGone_spec (d : Dev) (e : Env) :
    d.agrees (.pow :: faultParts) (d.timePllGone e) ∧ (d.timePllGone e).pow = { d.pow with timePllLost := true } :=
  ⟨((d.agrees_raise _ _ _ _).mono (by decide)).andThen (Dev.agrees_pow _ _) (by decide),
    congrArg (fun x : PowerUnit => { x with timePllLost := true }) (d.raise_pow _ _ _ _)⟩

/-- A clock other than the time PLL's is read: what its monitor makes of the reading. -/
theorem exec_clockMonitorTrip_of_on {s : State} {c : Nat} (hc : c < 8) (hon : s.dev.clockOn c = true) {ppm : Int} {bad : Bool}
    (hbad : decide (clockLimit c < ppm.natAbs) = bad) : exec (.clockMonitorTrip c ppm false) s = .next (s.put
      (if !bad then { s.dev with safe := { s.dev.safe with clockBad := terase s.dev.safe.clockBad c } }
        else { s.dev with safe := { s.dev.safe with clockBad := tset s.dev.safe.clockBad c true } }.raise (clockSource c) 0x37 c
          (patternOf ppm 40))) := by
  have hpll : ¬ (c = 8 ∧ ((false : Bool) = true ∨ 20000 < ppm.natAbs) ∧ s.clk.running = true) := fun h => by omega
  have hraw : ¬ c = 8 := by omega
  rw [exec_clockMonitorTrip, execClockMonitorTrip, if_neg hpll, run_next (by simp [missingUnit, Instr.units, show c < 9 by omega])]
  simp only [hon, hbad, Bool.not_true, Bool.false_eq_true, Bool.false_or, if_false, if_neg hraw, Nat.add_zero]
  cases bad with
  | true =>
    simp only [Bool.not_true, Bool.false_eq_true, if_true, if_false]
    rfl
  | false =>
    simp only [Bool.not_false, Bool.false_eq_true, if_true, if_false]
    rfl

/-- The raw counter's own check past its limit, with the time PLL in lock. -/
theorem exec_clockMonitorTrip_counter {s : State} (hon : s.dev.clockOn 8 = true) {ppm : Int} (hlow : 1000 < ppm.natAbs)
    (hhigh : ppm.natAbs ≤ 20000) : exec (.clockMonitorTrip 8 ppm false) s = .next (s.put
      ({ s.dev with safe := { s.dev.safe with clockBad := tset s.dev.safe.clockBad 8 true } }.raise 0x300 0x23 1 s.env.raw)) := by
  have hmild : ¬ 20000 < ppm.natAbs := not_lt.mpr hhigh
  have hlimit : clockLimit 8 = 1000 := by decide
  have hpll : ¬ (8 = 8 ∧ ((false : Bool) = true ∨ 20000 < ppm.natAbs) ∧ s.clk.running = true) := by simp [hmild]
  rw [exec_clockMonitorTrip, execClockMonitorTrip, if_neg hpll, run_next rfl]
  simp only [hon, hlimit, decide_eq_true hlow, decide_eq_false hmild]
  rfl

/-! ## The settlement -/

/-- Settles O43: one case per monitor. -/
theorem monitorsAct : Obligations.monitors_act := by
  unfold Obligations.monitors_act
  intro s
  refine ⟨fun n i hn hi hidle => ?self, fun c ppm hc hon => ?clock, fun ppm lost hlost hrun => ?pll, fun ppm hlow hhigh hon => ?counter,
    fun l hlen hidle => ?temperature, fun hoff hbad => ?trim, fun r high hr harmed hon hidle => ?trip, fun p high hp hpowered hhalts hsilent => ?fold,
    fun r hr hout hon hstandby => ?ramp, fun r hr hon => ?enters⟩
  case self =>
    have hnot : ¬ s.dev.pow.state ≠ .idle := not_not.mpr hidle
    have hexec (under high : Bool) : exec (.monitorSelfCheck n under high) s = .next (s.put
        (if high then (if under then s.dev else s.dev.raise 0x3BF 0x36 0 i)
          else (if under then s.dev else s.dev.raise 0x3BF 0x36 0 i).raise 0x3BF 0x36 1 i)) := by
      rw [exec_monitorSelfCheck, execMonitorSelfCheck, run_next (by simp [missingUnit, Instr.units, hn])]
      simp only [if_neg hnot, ← hi]
      rfl
    exact ⟨hexec true true, ⟨_, hexec false true, rfl⟩, _, hexec true false, rfl⟩
  case clock =>
    refine ⟨fun hin => ?_, fun hout => ?_⟩
    · refine ⟨_, exec_clockMonitorTrip_of_on hc hon (decide_eq_false (not_lt.mpr hin)), ?_, State.touches_of_agrees (s.dev.agrees_safe _)⟩
      exact (tget_terase _ _ _).trans (if_pos rfl)
    · obtain ⟨b, hb⟩ : ∃ b : Dev, b = { s.dev with safe := { s.dev.safe with clockBad := tset s.dev.safe.clockBad c true } } := ⟨_, rfl⟩
      have hnext := exec_clockMonitorTrip_of_on hc hon (decide_eq_true hout)
      rw [Bool.not_true, if_neg Bool.false_ne_true, ← hb] at hnext
      refine ⟨_, hnext, ?_, State.touches_of_agrees ?_, Dev.raise_col_congr (hb ▸ rfl) (hb ▸ rfl) _ _ _ _⟩
      · have hkept : (b.raise (clockSource c) 0x37 c (patternOf ppm 40)).safe.clockBad = b.safe.clockBad :=
          (congrArg Safety.clockBad (b.raise_unpinned _ _ _ _) :)
        rw [State.put_dev, hkept, hb]
        exact tget_tset_same _ _ _
      · exact (hb ▸ (s.dev.agrees_safe _).mono (by decide)).trans (Dev.agrees_raise b _ _ _ _)
  case pll =>
    obtain ⟨b, hb⟩ : ∃ b, b = s.dev.timePllGone s.env := ⟨_, rfl⟩
    obtain ⟨n, hn⟩ : ∃ n, n = (faultMsg 0x300 0x23 0 s.env.raw).toNat := ⟨_, rfl⟩
    have hexec : exec (.clockMonitorTrip 8 ppm lost) s =
        .next { s with dev := (b.faultDomain s.env 0 n).faultDomain s.env 1 n, clk := { s.clk with running := false } } := by
      rw [exec_clockMonitorTrip, execClockMonitorTrip, if_pos ⟨rfl, hlost, hrun⟩]
      simp only [List.foldl_cons, List.foldl_nil, hn, hb]
      rfl
    obtain ⟨hbagrees, hbpow⟩ := s.dev.timePllGone_spec s.env
    rw [← hb] at hbagrees hbpow
    have hbdom (j : Nat) : b.dom j = s.dev.dom j := Dev.dom_congr (hbagrees .tu (by decide)).symm j
    obtain ⟨hall, hfaulted⟩ := b.faultDomains_spec s.env n
    refine ⟨_, hexec, rfl, rfl, (hall .pow (by decide)).symm.trans hbpow, (hbagrees.mono (by decide)).andThen hall (by decide), fun k hk hfn => ?_⟩
    exact hfaulted k hk (by rw [hbdom, hfn]; rfl)
  case counter =>
    obtain ⟨b, hb⟩ : ∃ b : Dev, b = { s.dev with safe := { s.dev.safe with clockBad := tset s.dev.safe.clockBad 8 true } } := ⟨_, rfl⟩
    have hexec := exec_clockMonitorTrip_counter hon hlow hhigh
    rw [← hb] at hexec
    refine ⟨_, hexec, ?_, State.touches_of_agrees ?_, Dev.raise_col_congr (hb ▸ rfl) (hb ▸ rfl) _ _ _ _⟩
    · have hkept : (b.raise 0x300 0x23 1 s.env.raw).safe.clockBad = b.safe.clockBad := (congrArg Safety.clockBad (b.raise_unpinned _ _ _ _) :)
      rw [State.put_dev, hkept, hb]
      exact tget_tset_same _ _ _
    · exact (hb ▸ (s.dev.agrees_safe _).mono (by decide)).trans (Dev.agrees_raise b _ _ _ _)
  case temperature =>
    obtain ⟨hagrees, hcount⟩ := s.dev.judgeTemp_spec s.env l
    have hmem := hottest_mem (show l ≠ [] from fun h => by rw [h] at hlen; cases hlen) (strayingSensors l)
    have hon : l.length = 24 ∧ (s.dev.pow.state = .idle ∨ s.dev.pow.state = .standby) := ⟨hlen, .inl hidle⟩
    have hexec := exec_temperatureSample l s
    rw [execTemperatureSample, if_pos hon] at hexec
    dsimp only at hexec
    refine ⟨fun hcool => ?_, fun hhot hbefore => ?_⟩
    · have hzero : tgetD (s.dev.judgeTemp s.env l).safe.tempCount 3 0 = 0 := by
        rw [hcount]
        exact if_neg (not_lt.mpr (hcool _ hmem))
      rw [if_neg (by rw [hzero]; decide)] at hexec
      exact ⟨_, hexec, hzero, State.touches_of_agrees hagrees⟩
    · have htwo : 2 ≤ tgetD (s.dev.judgeTemp s.env l).safe.tempCount 3 0 := by
        rw [hcount, if_pos (show (tempLimits s.env.fuse).2.2.2 < _ from hhot _ hmem)]
        omega
      rw [if_pos htwo] at hexec
      exact ⟨_, hexec, rfl, rfl, rfl, rfl, rfl, rfl⟩
  case trim =>
    have hgood : ¬ (s.dev.pow.state = .off ∨ tgetD s.dev.safe.clockBad 7 false = true) := by simp [hoff, hbad]
    refine ⟨_, ?_, rfl⟩
    rw [exec_oscillatorTrim, execOscillatorTrim, run_next rfl]
    simp only [if_neg hgood]
    rfl
  case trip =>
    obtain ⟨-, hout, htouches, hcol⟩ := railTripped_powered (s := s) (by rw [hidle]; decide) (by rw [hidle]; decide) r (if high then 1 else 0)
    exact ⟨_, exec_railTrip_of_armed hr harmed hon, hout, htouches, hcol⟩
  case fold =>
    obtain ⟨b, hb⟩ : ∃ b : Dev, b = { s.dev with safe := { s.dev.safe with foldRailBad := tset s.dev.safe.foldRailBad p true } } := ⟨_, rfl⟩
    have hexec : exec (.railTrip (9 + p) high) s = .next (s.put (b.raise (0x380 + p) 0x35 (if high then 1 else 0) p)) := by
      have hunit : 9 ≤ 9 + p := by omega
      have hfold : ¬ (9 + p < 9 ∧ (tgetD s.dev.safe.rails (9 + p) {}).armed = true ∧ s.dev.railOn (9 + p) = true) := fun h => by omega
      have hnone : (s.dev.col.halts.any fun x => x.1 == .foldEngines) = false := by
        rw [List.any_eq_false]
        exact fun x hx => by simpa using hhalts x hx
      have hquiet : (s.dev.col.waiting.any fun m => msgSource m == 0x3B6) = false := by
        rw [List.any_eq_false]
        exact fun m hm => by simpa using List.all_eq_true.mp hsilent m hm
      have htrip : s.dev.foldRailTrip p (if high then 1 else 0) = b.raise (0x380 + p) 0x35 (if high then 1 else 0) p := by
        rw [Dev.foldRailTrip]
        simp only [hpowered, hnone, hquiet, hb]
        rfl
      rw [exec_railTrip, execRailTrip, if_neg hfold, run_next (by simp [missingUnit, Instr.units]; omega)]
      simp only [if_pos hunit, Nat.add_sub_cancel_left, htrip]
      rfl
    refine ⟨_, hexec, ?_, State.touches_of_agrees ?_, Dev.raise_col_congr (hb ▸ rfl) (hb ▸ rfl) _ _ _ _⟩
    · have hkept : (b.raise (0x380 + p) 0x35 (if high then 1 else 0) p).safe.foldRailBad = b.safe.foldRailBad :=
        (congrArg Safety.foldRailBad (b.raise_unpinned _ _ _ _) :)
      rw [State.put_dev, hkept, hb]
      exact tget_tset_same _ _ _
    · exact (hb ▸ (s.dev.agrees_safe _).mono (by decide)).trans (Dev.agrees_raise b _ _ _ _)
  case ramp =>
    obtain ⟨-, -, htouches, hcol⟩ := railTripped_powered (s := s) (by rw [hstandby]; decide) (by rw [hstandby]; decide) r 0
    refine ⟨_, ?_, htouches, hcol⟩
    rw [exec_railRampTimeout, execRailRampTimeout, if_pos ⟨hr, by rw [hout]; rfl, hon, by rw [hstandby]; decide⟩]
  case enters =>
    have hexec : exec (.railEntersWindow r) s = .next (s.put (s.dev.railIn r)) := by
      rw [exec_railEntersWindow, execRailEntersWindow, if_neg (by omega), if_pos hr]
      rfl
    have hrails : (s.dev.railIn r).safe.rails = tset s.dev.safe.rails r { inWindow := true, armed := true } := by
      rw [Dev.railIn, if_pos hon]
      dsimp only
      split
      · rfl
      · rfl
    have hagrees : s.dev.agrees [.mbox, .safe] (s.dev.railIn r) := by
      rw [Dev.railIn, if_pos hon]
      dsimp only
      split
      · intro p hp
        cases p <;> simp_all [Part.same]
      · exact (s.dev.agrees_safe _).mono (by decide)
    refine ⟨_, hexec, ?_, State.touches_of_agrees hagrees, fun k hk => ?_⟩
    · rw [State.put_dev, hrails, tget_tset_same]
    · rw [State.put_dev, hrails, tget_tset_other _ _ hk]

end Sys2Proof.Machine
end

section
/-! SUPPORT. The hold-up stops the key of every active entry of the table of gates (R574), whatever the first entry of that key says:
where a stopped entry stands before an active one, the stopped gate loses its settled state as well. That refutes O44. -/

namespace Sys2Proof.Machine

open Sys2Proof

/-- A device in IDLE whose table lists gate 0 twice: stopped with a decoder core first, then running. -/
def twiceListedState : State :=
  { clk := {}
    fuse := {}
    dev := {
      pow := { state := .idle }
      race := { gates := [(0, { fn := .stopped, core := some 0 }), (0, { fn := .running })] } }
    pending := [] }

/-- The decoder core of gate 0 after a step. -/
def coreAfter : Host.Outcome State Fault Refusal → Option Nat
  | .next u => (u.dev.gate 0).core
  | _ => some 0

theorem coreAfter_holdupStart : coreAfter (exec .holdupStart twiceListedState) = none := by
  decide +kernel

/-- Refutes O44: the stopped gate does not keep its core over the fall of SUPPLY_WARN_N. -/
theorem not_powerAndResetAct : ¬ Obligations.power_and_reset_act := by
  unfold Obligations.power_and_reset_act
  rintro ⟨h, -⟩
  obtain ⟨hholdup, -⟩ := h twiceListedState
  obtain ⟨u, hu, -, -, -, -, -, -, -, hkeeps, -⟩ := hholdup rfl rfl
  have hkept : (u.dev.gate 0).core = some 0 := congrArg Gate.core (hkeeps 0 rfl)
  have hfreed := coreAfter_holdupStart
  rw [hu] at hfreed
  exact absurd (hkept.symm.trans hfreed) (by decide)

end Sys2Proof.Machine
end

section
/-! SUPPORT. Writes of a run of bytes to memory, and the TAP's instructions (R549, R551, R553 to R555). -/

namespace Sys2Proof.Machine

open Sys2Proof

/-! ## Writes of a run of bytes -/

/-- The bytes of a run cut into lines are stored at their addresses. -/
theorem mget_writePieces (p : Bool) (k : Nat) : ∀ (fuel a : Nat) (bs : List Byte) (d : Dev), a % 64 + bs.length ≤ 64 * fuel →
    mget ((linePieces fuel a bs).foldl (fun d x => d.writePiece x.1 x.2 p) d).mem.bytes k =
      if a ≤ k ∧ k < a + bs.length then bs.getD (k - a) 0 else mget d.mem.bytes k := by
  intro fuel
  induction fuel with
  | zero =>
    intro a bs d h
    rw [if_neg (by omega)]
    rfl
  | succ fuel ih =>
    intro a bs d h
    cases bs with
    | nil =>
      rw [if_neg (by simp)]
      rfl
    | cons b t =>
      obtain ⟨n, hn⟩ : ∃ n, n = 64 - a % 64 := ⟨_, rfl⟩
      obtain ⟨l, hl⟩ : ∃ l, l = b :: t := ⟨_, rfl⟩
      have hcut : linePieces (fuel + 1) a (b :: t) = (a, l.take n) :: linePieces fuel (a + n) (l.drop n) := by rw [hl, hn]; rfl
      have htake : (l.take n).length = min n l.length := List.length_take
      have hdrop : (l.drop n).length = l.length - n := List.length_drop
      have hbound : (a + n) % 64 + (l.drop n).length ≤ 64 * fuel := by
        rw [← hl] at h
        omega
      rw [hcut, ← hl, List.foldl_cons, ih _ _ _ hbound, Dev.writePiece_bytes, mget_mput]
      dsimp only
      by_cases hrest : a + n ≤ k ∧ k < a + l.length
      · rw [if_pos (by omega), if_pos (by omega), List.getD_eq_getElem?_getD, List.getElem?_drop, List.getD_eq_getElem?_getD]
        congr 2
        omega
      · rw [if_neg (by omega)]
        by_cases hfirst : a ≤ k ∧ k < a + l.length
        · rw [if_pos (by omega), if_pos hfirst, List.getD_eq_getElem?_getD, List.getElem?_take_of_lt (by omega), List.getD_eq_getElem?_getD]
        · rw [if_neg (by omega), if_neg hfirst]

/-- What a write leaves at an address. -/
theorem Dev.mget_write (d : Dev) (a : Nat) (bs : List Byte) (p : Bool) (k : Nat) :
    mget (d.write a bs p).mem.bytes k = if a ≤ k ∧ k < a + bs.length then bs.getD (k - a) 0 else mget d.mem.bytes k :=
  mget_writePieces p k _ a bs d (by omega)

theorem Dev.mget_write_other (d : Dev) {a k : Nat} {bs : List Byte} (h : k < a ∨ a + bs.length ≤ k) (p : Bool) :
    mget (d.write a bs p).mem.bytes k = mget d.mem.bytes k := by
  rw [Dev.mget_write, if_neg (by omega)]

theorem Dev.raw_congr {d d' : Dev} {a n : Nat} (h : ∀ k, a ≤ k → k < a + n → mget d'.mem.bytes k = mget d.mem.bytes k) :
    d'.raw a n = d.raw a n :=
  List.map_congr_left fun i hi => h _ (by omega) (by have := List.mem_range.mp hi; omega)

/-- A write reads back. -/
theorem Dev.raw_write (d : Dev) (a : Nat) (bs : List Byte) (p : Bool) : (d.write a bs p).raw a bs.length = bs := by
  refine List.ext_getElem (by simp [Dev.raw, mread]) fun i hi hi' => ?_
  have hat := d.mget_write a bs p (a + i)
  rw [if_pos (by omega), Nat.add_sub_cancel_left] at hat
  simpa [Dev.raw, mread, hi'] using hat

/-- A write of lines to sound memory changes the memory alone. -/
theorem Dev.writePiece_of_sound {d : Dev} (h : d.mem.sound = true) (a : Nat) (bs : List Byte) :
    d.writePiece a bs false = (d.freshLine (a / 64) false).poke a bs := by
  obtain ⟨hpoison, -, -, -, hedc, hlate, -⟩ := (Mem.sound_iff _).1 h
  have hclean : d.isPoisoned (a / 64) = false := by rw [Dev.isPoisoned, hpoison]; rfl
  have hread : d.readLine (d.memSource a) false (a / 64) = (false, d) := by
    simp [Dev.readLine, Dev.checkLine, Dev.fixLine, Dev.transfer_sound d _ hedc, hlate, hclean, Dev.lineFix_sound d _ h,
      Dev.lineFault_sound d _ h]
  have hmerge : d.mergePiece a bs false false = (d.freshLine (a / 64) false).poke a bs := by
    rw [Dev.mergePiece, Dev.transfer_sound d _ hedc]
    rfl
  unfold Dev.writePiece
  rw [hread]
  split
  · exact hmerge
  · exact hmerge

theorem Dev.freshLine_sound {d : Dev} (h : d.mem.sound = true) (line : Nat) : (d.freshLine line false).mem.sound = true := by
  obtain ⟨hpoison, herr, hcheck, hlost, hedc, hlate, hstuck⟩ := (Mem.sound_iff _).1 h
  rw [Mem.sound_iff]
  simp [Dev.freshLine, Dev.setPoison, Dev.modMem, hpoison, herr, hcheck, hlost, hedc, hlate, hstuck, terase]

/-- A write to sound memory raises nothing and leaves it sound. -/
theorem Dev.write_of_sound {d : Dev} (h : d.mem.sound = true) (a : Nat) (bs : List Byte) :
    d.agrees [.mem] (d.write a bs false) ∧ (d.write a bs false).mem.sound = true := by
  refine List.foldlRecOn (motive := fun x : Dev => d.agrees [.mem] x ∧ x.mem.sound = true) _ _ ⟨d.agrees_refl _, h⟩
    fun x ⟨hagrees, hsound⟩ y _ => ?_
  rw [Dev.writePiece_of_sound hsound]
  exact ⟨(hagrees.trans (Dev.agrees_freshLine _ _ _)).trans (Dev.agrees_poke _ _ _), Dev.freshLine_sound hsound _⟩

/-! ## The TAP -/

theorem exec_authChal_of_free {s : State} (hfull : s.dev.tapFull = true) (hready : s.dev.mbox.ready = true)
    (hnone : s.dev.sec.session = none) : ∃ c, c.length = 16 ∧ exec .authChal s = .next (s.put
      { (s.dev.newChallenge s.env).2.2 with sec := { s.dev.sec with
        challenge := some (c, s.env.raw)
        tapCode := 0x10
        tdo := c } }) := by
  refine ⟨leBytes 8 (Config.freeWord s.dev.free).toNat ++ leBytes 8 (Config.freeWord (s.dev.free + 1)).toNat, by simp [leBytes], ?_⟩
  rw [exec_authChal, execAuthChal, run_next rfl]
  have hopen : (s.dev.tapFull && s.dev.mbox.ready && s.dev.sec.session.isNone) = true := by rw [hfull, hready, hnone]; rfl
  simp only [if_pos hopen]
  rfl

/-- Judging a response touches the security unit and what its fault touches, and keeps what the TAP shifts out. -/
theorem Dev.openSession_keeps (d : Dev) (e : Env) (b : List Byte) :
    d.agrees (.sec :: faultParts) (d.openSession e b).2.2 ∧ (d.openSession e b).2.2.sec.tapCode = d.sec.tapCode := by
  have hsec (x : Security) (h : x.tapCode = d.sec.tapCode) : d.agrees (.sec :: faultParts) { d with sec := x } ∧
      ({ d with sec := x } : Dev).sec.tapCode = d.sec.tapCode := ⟨(d.agrees_sec x).mono (by decide), h⟩
  have hraise {c : Dev} (h : d.agrees (.sec :: faultParts) c ∧ c.sec.tapCode = d.sec.tapCode) (src kind detail arg : Nat) :
      d.agrees (.sec :: faultParts) (c.raise src kind detail arg) ∧ (c.raise src kind detail arg).sec.tapCode = d.sec.tapCode :=
    ⟨h.1.andThen (c.agrees_raise _ _ _ _) (by decide), by rw [Dev.raise_sec, h.2]⟩
  have hpins {c : Dev} (h : d.agrees (.sec :: faultParts) c ∧ c.sec.tapCode = d.sec.tapCode) :
      d.agrees (.sec :: faultParts) c.pins ∧ c.pins.sec.tapCode = d.sec.tapCode := ⟨h.1.andThen c.agrees_pins (by decide), h.2⟩
  have hbroken {c : Dev} (h : d.agrees (.sec :: faultParts) c ∧ c.sec.tapCode = d.sec.tapCode) :
      d.agrees (.sec :: faultParts) { c with safe := { c.safe with lockstepBroken := true } } ∧
        ({ c with safe := { c.safe with lockstepBroken := true } } : Dev).sec.tapCode = d.sec.tapCode :=
    ⟨h.1.andThen (c.agrees_safe _) (by decide), h.2⟩
  have hspent := hsec { d.sec with challenge := none } rfl
  have hopened (level : Nat) := hsec { d.sec with
    challenge := none
    session := some { level := level, until_ := e.raw + fieldAt (ctBody b) 0x14 4 * 1000000000 }
    granted := false
    everOpened := true } rfl
  unfold Dev.openSession
  dsimp only
  split_ifs
  · exact hraise hspent _ _ _ _
  · exact hspent
  · exact hpins (hraise (hbroken (hraise (hopened _) _ _ _ _)) _ _ _ _)
  · exact hraise (hopened _) _ _ _ _

/-- The device that a response given through the TAP reaches. -/
def Dev.tapAnswers (d : Dev) : Dev := { d with sec := { d.sec with tapCode := 0x11, tdo := [] } }

theorem exec_authResp_of_ready {s : State} (hfull : s.dev.tapFull = true) (hready : s.dev.mbox.ready = true) (b : List Byte) :
    exec (.authResp b) s = .next (s.put (if s.dev.pow.state = .idle then (s.dev.tapAnswers.openSession s.env b).2.2
      else { s.dev.tapAnswers with sec := { s.dev.tapAnswers.sec with respWaiting := some b } })) := by
  rw [exec_authResp, execAuthResp, run_next rfl]
  simp only [hfull, hready]
  rfl

/-- The debug access port in a granted session on served Common memory. -/
theorem Dev.dap_common {d : Dev} {x : Session} {a o : Nat} (hsession : d.sec.session = some x) (hgranted : d.sec.granted = true)
    (hidle : d.pow.state = .idle) (hzone : zoneOf a = .common o) (hsound : d.mem.sound = true) (e : Env) (data : List Byte) :
    d.dap e false a data = { d with sec := { d.sec with tapCode := 0x12, tdo := d.bytes a data.length } } ∧
    (x.level = 2 → d.dap e true a data = { d.write a data false with sec := { (d.write a data false).sec with tapCode := 0x12, tdo := [] } }) := by
  have hreach : d.reach a = .served := by simp [Dev.reach, hzone]
  have htouch : d.touch e a = d := by simp [Dev.touch, hzone]
  refine ⟨?_, fun hlevel => ?_⟩
  · simp only [Dev.dap, hsession, hgranted, hidle, hreach, htouch, Dev.readLines_sound d _ _ _ _ hsound]
    rfl
  · simp only [Dev.dap, hsession, hgranted, hidle, hreach, htouch, hlevel]
    rfl

/-- Settles O45: one case per instruction of the TAP. -/
theorem tapInstructions : Obligations.tap_instructions := by
  unfold Obligations.tap_instructions
  intro s values
  refine ⟨fun hfull hready hnone => ?chal, fun b hfull hready => ?resp,
    fun x a o data hsession hgranted hidle hzone ho hsound => ?dap, fun hlive => ?scan, ⟨_, rfl, rfl⟩, fun hfull => ?preload,
    fun code => ⟨_, rfl, rfl⟩⟩
  case chal =>
    obtain ⟨c, hlen, hexec⟩ := exec_authChal_of_free hfull hready hnone
    obtain ⟨-, -, -, -, hagrees⟩ := s.dev.newChallenge_spec s.env
    exact ⟨_, c, hexec, rfl, rfl, hlen, rfl, State.touches_of_agrees (hagrees.andThen (Dev.agrees_sec _ _) (by decide))⟩
  case resp =>
    have hexec := exec_authResp_of_ready hfull hready b
    obtain ⟨hagrees, hcode⟩ := s.dev.tapAnswers.openSession_keeps s.env b
    have hanswers : s.dev.agrees (.sec :: faultParts) s.dev.tapAnswers := (s.dev.agrees_sec _).mono (by decide)
    by_cases hidle : s.dev.pow.state = .idle
    · rw [if_pos hidle] at hexec
      exact ⟨_, hexec, hcode, fun _ => Dev.openSession_challenge _ _ _, fun hstandby => absurd (hidle.symm.trans hstandby) (by decide),
        State.touches_of_agrees (hanswers.trans hagrees)⟩
    · rw [if_neg hidle] at hexec
      exact ⟨_, hexec, rfl, fun h => absurd h hidle, fun _ => rfl,
        State.touches_of_agrees (hanswers.andThen (Dev.agrees_sec _ _) (by decide))⟩
  case dap =>
    have hrow (w : Bool) : exec (.dap w a data) s = .next (s.put (s.dev.dap s.env w a data)) := by
      rw [exec_dap, execDap, run_next rfl]
      rfl
    obtain ⟨hread, hwrite⟩ := Dev.dap_common hsession hgranted hidle hzone hsound s.env data
    refine ⟨⟨_, hrow false, ?_, ?_⟩, fun hlevel => ⟨_, hrow true, ?_, ?_, fun k hk => ?_⟩⟩
    · rw [State.put_dev, hread]
      exact Dev.bytes_plain (by rw [zoneOf_common hzone]; omega) _
    · rw [hread]
      exact State.touches_of_agrees (s.dev.agrees_sec _)
    · rw [State.put_dev, hwrite hlevel]
      exact s.dev.raw_write a data false
    · rw [hwrite hlevel]
      exact State.touches_of_agrees (((Dev.write_of_sound hsound a data).1.mono (by decide)).andThen (Dev.agrees_sec _ _) (by decide))
    · rw [State.put_dev, hwrite hlevel]
      exact s.dev.mget_write_other hk false
  case scan =>
    have hextest : exec (.extest values) s = .next (s.put { s.dev with sec := { s.dev.sec with tapCode := 0, boundary := values, tdo := [] } }) := by
      rw [exec_extest, execExtest, run_next rfl]
      simp only [hlive, if_true]
      rfl
    have hhighz : exec .highz s = .next (s.put { s.dev with sec := { s.dev.sec with tapCode := 3, tdo := [] } }) := by
      rw [exec_highz, execHighz, run_next rfl]
      simp only [hlive, if_true]
      rfl
    have hclamp : exec .clamp s = .next (s.put { s.dev with sec := { s.dev.sec with tapCode := 4, tdo := [] } }) := by
      rw [exec_clamp, execClamp, run_next rfl]
      simp only [hlive, if_true]
      rfl
    exact ⟨⟨_, hextest, rfl, rfl, State.touches_of_agrees (s.dev.agrees_sec _)⟩,
      ⟨_, hhighz, rfl, State.touches_of_agrees (s.dev.agrees_sec _)⟩, _, hclamp, rfl, rfl, State.touches_of_agrees (s.dev.agrees_sec _)⟩
  case preload =>
    obtain ⟨x, hx⟩ : ∃ x, x = s.dev.freeBytes (ceilDiv values.length 8) := ⟨_, rfl⟩
    have hspend : x.2 = s.dev.spend := by rw [hx]; rfl
    have hexec : exec (.samplePreload values) s = .next (s.put
        { s.dev.spend with sec := { s.dev.spend.sec with tapCode := 2, boundary := values, tdo := x.1 } }) := by
      rw [exec_samplePreload, execSamplePreload, run_next rfl]
      simp only [hfull, if_true, ← hx, hspend]
      rfl
    exact ⟨_, hexec, rfl, rfl, State.touches_of_agrees ((s.dev.agrees_spend.mono (by decide)).andThen (Dev.agrees_sec _ _) (by decide))⟩

end Sys2Proof.Machine
end

section
/-! SUPPORT. Completions on their ring (R367 to R371), and bad lines as a read delivers them (R29, R159, R165, R166, R183). -/

namespace Sys2Proof.Machine

open Sys2Proof

/-! ## Completions -/

/-- The evaluation of a queue's interrupt changes that queue's interrupt state alone. -/
theorem Dev.queue_evalIrq (d : Dev) (e : Env) {q : Nat} {m : MQueue} (h : d.queue q = some m) :
    (∃ i t, (d.evalIrq e q).queue q = some { m with irq := i, irqSentAt := t }) ∧ ∀ k, k ≠ q → (d.evalIrq e q).queue k = d.queue k := by
  obtain ⟨b, hb⟩ : ∃ b, b = d.modQueue q fun m => { m with irq := irqPending e.raw m } := ⟨_, rfl⟩
  have hbq : b.queue q = some { m with irq := irqPending e.raw m } := by rw [hb, Dev.queue_modQueue, if_pos rfl, h]; rfl
  have hbother (k : Nat) (hk : k ≠ q) : b.queue k = d.queue k := by rw [hb, Dev.queue_modQueue, if_neg hk]
  have heval : d.evalIrq e q = if irqPending e.raw m && !m.irq && m.ethIrq then b.sendIrq e q else b := by
    have hmod : d.modQueue q (fun x => { x with irq := irqPending e.raw m }) = b := by
      rw [hb]
      exact d.modQueue_congr h rfl
    rw [Dev.evalIrq]
    simp only [h, hmod]
  have hsent : (∃ i t, (b.sendIrq e q).queue q = some { m with irq := i, irqSentAt := t }) ∧
      ∀ k, k ≠ q → (b.sendIrq e q).queue k = d.queue k := by
    unfold Dev.sendIrq
    split
    · refine ⟨⟨irqPending e.raw m, e.raw, ?_⟩, fun k hk => ?_⟩
      · rw [Dev.queue_modQueue, if_pos rfl]
        exact congrArg (Option.map fun m : MQueue => { m with irqSentAt := e.raw }) hbq
      · rw [Dev.queue_modQueue, if_neg hk]
        exact hbother k hk
    · exact ⟨⟨irqPending e.raw m, m.irqSentAt, hbq⟩, hbother⟩
  rw [heval]
  split
  · exact hsent
  · exact ⟨⟨irqPending e.raw m, m.irqSentAt, hbq⟩, hbother⟩

theorem entryBytes_length (tag status opcode sqHead flags r0 r1 r2 : Nat) : (entryBytes tag status opcode sqHead flags r0 r1 r2).length = 32 := by
  simp [entryBytes, leBytes]

/-- The queue after an entry has been posted on it. -/
def MQueue.posted (m : MQueue) (raw : Nat) (interrupting urgent : Bool) : MQueue :=
  { m with
    cqTail := if m.cqTail + 1 = m.cqEntries then 0 else m.cqTail + 1
    phase := if m.cqTail + 1 = m.cqEntries then !m.phase else m.phase
    unread := m.unread ++ [{ posted := raw, interrupting := interrupting, urgent := urgent }] }

/-- The ring's memory and queue before the interrupt is evaluated. -/
theorem Dev.post_of_queue {d : Dev} {q : Nat} {m : MQueue} (h : d.queue q = some m) (e : Env) (tag status opcode : Nat) (note : Bool)
    (r0 r1 r2 : Nat) (i u : Bool) : ∃ b : Dev, d.post e q tag status opcode note r0 r1 r2 i u = b.evalIrq e q ∧
      b.mem = (d.write (commonBase + m.cqBase + 32 * m.cqTail)
        (entryBytes tag status opcode m.sqHead ((if m.phase then 1 else 0) + (if note then 2 else 0)) r0 r1 r2) false).mem ∧
      b.queue q = some (m.posted e.raw i u) ∧ ∀ k, k ≠ q → b.queue k = d.queue k := by
  obtain ⟨c, hc⟩ : ∃ c, c = d.write (commonBase + m.cqBase + 32 * m.cqTail)
    (entryBytes tag status opcode m.sqHead ((if m.phase then 1 else 0) + (if note then 2 else 0)) r0 r1 r2) false := ⟨_, rfl⟩
  have hcq (k : Nat) : c.queue k = d.queue k := by rw [Dev.queue, hc, Dev.write_mbox]; rfl
  refine ⟨c.modQueue q fun m => m.posted e.raw i u, ?_, ?_, ?_, fun k hk => ?_⟩
  · rw [Dev.post]
    simp only [h, ← hc]
    rfl
  · rw [← hc]
    rfl
  · rw [Dev.queue_modQueue, if_pos rfl, hcq, h]
    rfl
  · rw [Dev.queue_modQueue, if_neg hk, hcq]

/-- Settles O52: a completion is a post on its queue: the write of the entry, the queue's new tail, and the interrupt. -/
theorem completionsEnterTheRing : Obligations.completions_enter_the_ring := by
  unfold Obligations.completions_enter_the_ring
  intro d e q op c r
  refine ⟨fun m hq hgood htail halign hbase => ?posts, fun h => ?drops⟩
  case posts =>
    obtain ⟨b, hpost, hmem, hbq, hbother⟩ := Dev.post_of_queue hq e c.tag r.status op false r.r0 r.r1 r.r2 (!bitOf c.flags 0) false
    obtain ⟨⟨i, t, hirq⟩, hother⟩ := b.queue_evalIrq e hbq
    have hcomplete : d.complete e q op c r = b.evalIrq e q := by
      rw [Dev.complete]
      simp only [hq, hgood]
      exact hpost
    have hmem' : (b.evalIrq e q).mem = (d.write (commonBase + m.cqBase + 32 * m.cqTail)
        (entryBytes c.tag r.status op m.sqHead (if m.phase then 1 else 0) r.r0 r.r1 r.r2) false).mem := by
      rw [Dev.evalIrq_mem, hmem]
      simp only [Bool.false_eq_true, if_false, Nat.add_zero]
    have hlen := entryBytes_length c.tag r.status op m.sqHead (if m.phase then 1 else 0) r.r0 r.r1 r.r2
    rw [hcomplete]
    refine ⟨_, hirq, rfl, rfl, rfl, ?_, fun a ha => ?_, fun k hk => (hother k hk).trans (hbother k hk)⟩
    · have hraw := d.raw_write (commonBase + m.cqBase + 32 * m.cqTail)
        (entryBytes c.tag r.status op m.sqHead (if m.phase then 1 else 0) r.r0 r.r1 r.r2) false
      rw [hlen] at hraw
      rw [Dev.raw, hmem']
      exact hraw
    · rw [hmem']
      exact d.mget_write_other (by rw [hlen]; exact ha) false
  case drops =>
    rw [Dev.complete]
    rcases h with hnone | ⟨m, hq, herror⟩
    · simp only [hnone]
    · simp only [hq, herror, if_true]

/-! ## Bad lines -/

/-- A line that comes over and is in time is checked. -/
theorem Dev.readLine_checks {d : Dev} {line : Nat} (hedc : d.mem.edc = []) (hlate : d.mem.late.contains line = false) (src : Nat) (holds : Bool) :
    d.readLine src holds line = d.checkLine src holds line := by
  rw [Dev.readLine, Dev.transfer_sound d line hedc]
  simp only [hlate, Bool.false_eq_true, if_false]

/-- A line marked for its poison bit, whose fault is raised. -/
def Dev.spoils (d : Dev) (src detail line : Nat) : Dev :=
  (d.modMem fun m => { m with
    poisonStore := if m.poisonStore.contains line then m.poisonStore else m.poisonStore ++ [line] }).raise src 3 detail (64 * line)

theorem Dev.spoils_spec (d : Dev) (src detail line : Nat) : (d.spoils src detail line).col = (d.raise src 3 detail (64 * line)).col ∧
    (d.spoils src detail line).mem = { d.mem with
      poisonStore := if d.mem.poisonStore.contains line then d.mem.poisonStore else d.mem.poisonStore ++ [line] } := by
  refine ⟨Dev.raise_col_congr (d := d.modMem fun m => { m with
    poisonStore := if m.poisonStore.contains line then m.poisonStore else m.poisonStore ++ [line] }) (d' := d) rfl rfl _ _ _ _, ?_⟩
  rw [Dev.spoils, Dev.raise_mem]
  rfl

/-- A bad line is delivered poisoned with its fault until its poison bit is stored. -/
theorem Dev.checkLine_of_fault {d : Dev} {line detail : Nat} (hfix : d.lineFix line = none) (hclean : d.isPoisoned line = false)
    (hfault : d.lineFault line = some detail) (src : Nat) (holds : Bool) :
    d.checkLine src holds line = (true, d.spoils src detail line) := by
  have hfixed : d.fixLine holds line = d := by rw [Dev.fixLine]; simp only [hfix]
  rw [Dev.checkLine]
  simp only [hfixed, hclean, hfault]
  rfl

theorem Dev.checkLine_of_poisoned {d : Dev} {line : Nat} (hpoison : d.isPoisoned line = true) (src : Nat) (holds : Bool) :
    d.checkLine src holds line = (true, d.fixLine holds line) := by
  rw [Dev.checkLine]
  simp only [hpoison, if_true]

theorem Dev.checkLine_of_good {d : Dev} {line : Nat} (hclean : d.isPoisoned line = false) (hgood : d.lineFault line = none) (src : Nat)
    (holds : Bool) : d.checkLine src holds line = (false, d.fixLine holds line) := by
  rw [Dev.checkLine]
  simp only [hclean, hgood]
  rfl

theorem Dev.fixLine_unheld {d : Dev} {line b : Nat} (h : d.lineFix line = some b) : d.fixLine false line = d.corrected line b := by
  rw [Dev.fixLine]
  simp only [h]
  split
  · rfl
  · rfl

/-- Settles O54: a read is its transfer, its correction, and then one of a poisoned, a bad and a good line. -/
theorem badLinesAreDeliveredPoisoned : Obligations.bad_lines_are_delivered_poisoned := by
  unfold Obligations.bad_lines_are_delivered_poisoned
  intro d src line holds hlate
  refine ⟨fun hedc hfix => ?bad, fun b hedc hfix hunheld => ?corrected, fun off k hzone hk => ?gddr, fun s hin => ?stores⟩
  case bad =>
    have hread := Dev.readLine_checks hedc hlate src holds
    have hspoiled (detail : Nat) (hclean : d.isPoisoned line = false) (hfault : d.lineFault line = some detail) :
        d.readLine src holds line = (true, d.spoils src detail line) := hread.trans (Dev.checkLine_of_fault hfix hclean hfault src holds)
    have hspec (detail : Nat) := d.spoils_spec src detail line
    refine ⟨fun x herr hx hclean hkept => ?_, fun hlost hclean => ?_, fun hcheck herr hclean hkept => ?_, fun hpoison => ?_⟩
    · have hfault : d.lineFault line = some (if x = .uncorrectable then 0 else 1) := by
        rw [Dev.lineFault, hkept]
        rcases hx with rfl | rfl
        · simp [herr]
        · simp [herr]
      obtain ⟨hcol, hmem⟩ := hspec (if x = .uncorrectable then 0 else 1)
      refine ⟨_, hspoiled _ hclean hfault, hcol, by rw [hmem], ?_, ?_, by rw [hmem]; exact herr⟩
      · rw [hmem]
        dsimp only
        split
        · next hin => exact hin
        · simp
      · rw [Dev.isPoisoned, hmem]
        exact hclean
    · have hfault : d.lineFault line = some 0 := by simp [Dev.lineFault, hlost, Row.zero_bad]
      exact ⟨_, hspoiled 0 hclean hfault, (hspec 0).1, by rw [(hspec 0).2]⟩
    · have hfault : d.lineFault line = some 1 := by simp [Dev.lineFault, hkept, herr, hcheck]
      exact ⟨_, hspoiled 1 hclean hfault, (hspec 1).1, by rw [(hspec 1).2]⟩
    · have hfixed : d.fixLine holds line = d := by rw [Dev.fixLine]; simp only [hfix]
      rw [hread, Dev.checkLine_of_poisoned hpoison, hfixed]
  case corrected =>
    subst hunheld
    have hread := Dev.readLine_checks hedc hlate src false
    refine ⟨d.readLine_bytes src false line, fun hclean hgood => ?_, fun hpoison => ?_⟩
    · rw [hread, Dev.checkLine_of_good hclean hgood, Dev.fixLine_unheld hfix]
    · rw [hread, Dev.checkLine_of_poisoned hpoison, Dev.fixLine_unheld hfix]
  case gddr =>
    have hcount : tgetD d.mem.edc (gddrIface off) 0 = k := by rw [tgetD, hk]; rfl
    refine ⟨fun hmany => ?_, fun hpos hfew => ?_⟩
    · obtain ⟨c, hc⟩ : ∃ c, c = d.modMem fun m => { m with
          edc := if k = 4 then terase m.edc (gddrIface off) else tset m.edc (gddrIface off) (k - 4) } := ⟨_, rfl⟩
      have htransfer : d.transfer line = (true, c.raise (0x1D0 + gddrIface off) 3 3 (64 * line)) := by
        rw [Dev.transfer]
        simp only [hzone, hcount, if_neg (show ¬ k = 0 by omega), if_neg (show ¬ k < 4 by omega), hc]
      refine ⟨_, ?_, Dev.raise_col_congr (d := c) (d' := d) (by rw [hc]; rfl) (by rw [hc]; rfl) _ _ _ _, ?_⟩
      · rw [Dev.readLine, htransfer]
        rfl
      · rw [Dev.raise_mem, hc]
        rfl
    · have htransfer : d.transfer line = (false, d.modMem fun m => { m with edc := terase m.edc (gddrIface off) }) := by
        rw [Dev.transfer]
        simp only [hzone, hcount, if_neg (show ¬ k = 0 by omega), if_pos hfew]
      have hlate' : (d.modMem fun m => { m with edc := terase m.edc (gddrIface off) }).mem.late.contains line = false := hlate
      rw [Dev.readLine, htransfer]
      simp only [hlate', Bool.false_eq_true, if_false]
  case stores =>
    have hexec : exec (.poisonBitStore line) s = .next (s.put
        ((s.dev.modMem fun m => { m with poisonStore := m.poisonStore.filter (· != line) }).setPoison line true)) := by
      rw [exec_poisonBitStore, execPoisonBitStore, run_next rfl, if_pos hin]
      rfl
    refine ⟨_, hexec, State.touches_of_agrees ((s.dev.agrees_modMem _).trans (Dev.agrees_setPoison _ _ _)),
      (tgetD_tset _ _ _ _ _).trans (if_pos rfl), rfl, ?_⟩
    exact (by simp : (s.dev.mem.poisonStore.filter (· != line)).contains line = false)

end Sys2Proof.Machine
end

section
/-! SUPPORT. Exact accumulation (R222, R225 to R227): the special values as marks, the products' sum, the cell sums of the limbs, and the
additions that saturate. -/

namespace Sys2Proof.Machine

open Sys2Proof

/-! ## Special values as marks -/

/-- What one product notes in the special-value path: a NaN, a positive and a negative infinity. -/
def markOf : Val → Val → Bool × Bool × Bool
  | .nan, _ | _, .nan => (true, false, false)
  | .inf s, .inf t => (false, s == t, s != t)
  | .inf s, .fin q _ | .fin q _, .inf s => (q == 0, q != 0 && s == decide (q < 0), q != 0 && s != decide (q < 0))
  | .fin _ _, .fin _ _ => (false, false, false)

/-- An accumulator with marks noted. -/
def Acc.mark (a : Acc) (m : Bool × Bool × Bool) : Acc :=
  { a with
    nan := a.nan || m.1
    posInf := a.posInf || m.2.1
    negInf := a.negInf || m.2.2 }

theorem Acc.mark_comm (a : Acc) (m n : Bool × Bool × Bool) : (a.mark m).mark n = (a.mark n).mark m := by
  simp only [Acc.mark, Bool.or_right_comm]

theorem specialPath_eq_marks (fa fb : Nat) (l : List (Nat × Nat × Nat)) (a : Acc) :
    specialPath fa fb l a = l.foldl (fun a x => a.mark (markOf (decodeVal fa x.2.1) (decodeVal fb x.2.2))) a := by
  unfold specialPath
  congr 1
  funext a x
  generalize decodeVal fa x.2.1 = u
  generalize decodeVal fb x.2.2 = v
  cases u with
  | nan => simp [markOf, Acc.mark]
  | inf s =>
    cases v with
    | nan => simp [markOf, Acc.mark]
    | inf t => cases s <;> cases t <;> simp [markOf, Acc.mark]
    | fin q n => by_cases hq : q = 0 <;> by_cases hs : s = decide (q < 0) <;> simp [markOf, Acc.mark, hq, hs]
  | fin q n =>
    cases v with
    | nan => simp [markOf, Acc.mark]
    | inf s => by_cases hq : q = 0 <;> by_cases hs : s = decide (q < 0) <;> simp [markOf, Acc.mark, hq, hs]
    | fin p k => simp [markOf, Acc.mark]

theorem specialPath_perm {l l' : List (Nat × Nat × Nat)} (h : l.Perm l') (fa fb : Nat) (a : Acc) :
    specialPath fa fb l a = specialPath fa fb l' a := by
  rw [specialPath_eq_marks, specialPath_eq_marks]
  exact h.foldl_eq' (fun x _ y _ a => a.mark_comm _ _) a

/-- The special-value path leaves the sum and its saturation. -/
theorem specialPath_keeps (fa fb : Nat) (l : List (Nat × Nat × Nat)) (a : Acc) :
    (specialPath fa fb l a).sum = a.sum ∧ (specialPath fa fb l a).saturated = a.saturated := by
  rw [specialPath_eq_marks]
  refine List.foldlRecOn (motive := fun b : Acc => b.sum = a.sum ∧ b.saturated = a.saturated) l _ ⟨rfl, rfl⟩ fun b hb x _ => hb

/-! ## Sums of products -/

/-- The exact product of one pair of elements. -/
def productOf (fa fb : Nat) (x : Nat × Nat × Nat) : Rat := (decodeVal fa x.2.1).num * (decodeVal fb x.2.2).num

theorem exactSum_eq (fa fb : Nat) (l : List (Nat × Nat × Nat)) : (exactSum fa fb l).1 = (l.map (productOf fa fb)).sum := by
  have hfold (s : Rat × Rat) : (l.foldl (fun s x =>
      let t := (decodeVal fa x.2.1).num * (decodeVal fb x.2.2).num
      (s.1 + t, s.2 + absQ t)) s).1 = s.1 + (l.map (productOf fa fb)).sum := by
    induction l generalizing s with
    | nil => simp
    | cons x l ih =>
      rw [List.foldl_cons, ih, List.map_cons, List.sum_cons, ← add_assoc]
      rfl
  rw [exactSum, hfold, zero_add]

theorem exactParts_perm {l l' : List (Nat × Nat × Nat)} (h : l.Perm l') (fa fb r kt : Nat) :
    exactParts fa fb r kt l = exactParts fa fb r kt l' := by
  have hcell (kb ja jb : Nat) :
      ((l.filter fun x => x.1 / 128 == kb).map fun x => cellOperand fa x.2.1 r ja * cellOperand fb x.2.2 r jb).sum =
        ((l'.filter fun x => x.1 / 128 == kb).map fun x => cellOperand fa x.2.1 r ja * cellOperand fb x.2.2 r jb).sum :=
    ((h.filter _).map _).sum_eq
  simp only [exactParts, hcell]

theorem accumulate_exact {fa : Nat} (h : pairExact fa = true) (fb kt : Nat) (drift : Rat) (l : List (Nat × Nat × Nat)) (a : Acc) :
    accumulate fa fb kt drift l a =
      (exactParts fa fb (pairLimbs fa fb) kt l).foldl (fun a q => a.addExact fa q) (specialPath fa fb l a) := by
  rw [accumulate]
  simp only [h, if_true]

/-! ## Whole numbers of a unit -/

/-- A value is a whole number of units. -/
def wholeIn (u q : Rat) : Prop := ∃ z : Int, q = z * u

theorem wholeIn_sum {u : Rat} {l : List Rat} (h : ∀ q ∈ l, wholeIn u q) : wholeIn u l.sum := by
  induction l with
  | nil => exact ⟨0, by simp⟩
  | cons q l ih =>
    obtain ⟨z, hz⟩ := h q (List.mem_cons_self ..)
    obtain ⟨y, hy⟩ := ih fun p hp => h p (List.mem_cons_of_mem _ hp)
    exact ⟨z + y, by rw [List.sum_cons, hz, hy]; push_cast; ring⟩

theorem wholeIn.mul {u v q p : Rat} (hq : wholeIn u q) (hp : wholeIn v p) : wholeIn (u * v) (q * p) := by
  obtain ⟨z, rfl⟩ := hq
  obtain ⟨y, rfl⟩ := hp
  exact ⟨z * y, by push_cast; ring⟩

/-- A whole number of units is one of the units that divide them. -/
theorem wholeIn.finer {u v q : Rat} (hq : wholeIn u q) (hu : wholeIn v u) : wholeIn v q := by
  obtain ⟨z, rfl⟩ := hq
  obtain ⟨y, rfl⟩ := hu
  exact ⟨z * y, by push_cast; ring⟩

theorem wholeIn_zpow {i j : Int} (h : i ≤ j) : wholeIn ((2 : Rat) ^ i) ((2 : Rat) ^ j) := by
  refine ⟨2 ^ (j - i).toNat, ?_⟩
  have hk : ((j - i).toNat : Int) = j - i := Int.toNat_of_nonneg (by omega)
  push_cast
  rw [← zpow_natCast, hk, ← zpow_add₀ two_ne_zero, sub_add_cancel]

/-- A float's value is a whole number of its smallest subnormals (R222, R223). -/
theorem wholeIn_float {code : Nat} {f : FFmt} (hf : ffmt code = some f) (w : Nat) :
    wholeIn ((2 : Rat) ^ (1 - (f.bias : Int) - f.mb)) (decodeVal code w).num := by
  have hzero : wholeIn ((2 : Rat) ^ (1 - (f.bias : Int) - f.mb)) 0 := ⟨0, by simp⟩
  have hnat (n : Nat) (j : Int) (hj : 1 - (f.bias : Int) - f.mb ≤ j) (neg : Prop) [Decidable neg] :
      wholeIn ((2 : Rat) ^ (1 - (f.bias : Int) - f.mb)) (if neg then -((n : Rat) * 2 ^ j) else (n : Rat) * 2 ^ j) := by
    have hpos : wholeIn ((2 : Rat) ^ j) (if neg then -((n : Rat) * 2 ^ j) else (n : Rat) * 2 ^ j) := by
      split
      · exact ⟨-n, by simp⟩
      · exact ⟨n, by simp⟩
    exact hpos.finer (wholeIn_zpow hj)
  rw [decodeVal]
  simp only [hf, pow2_eq_zpow]
  split
  · exact hzero
  · split
    · split
      · exact hzero
      · exact hzero
    · by_cases hx : w / 2 ^ f.mb % 2 ^ f.eb = 0
      · simpa only [hx, if_true, Val.num] using hnat (w % 2 ^ f.mb) _ le_rfl (w / 2 ^ (f.mb + f.eb) % 2 = 1)
      · simpa only [hx, if_false, Val.num] using
          hnat (w % 2 ^ f.mb + 2 ^ f.mb) ((w / 2 ^ f.mb % 2 ^ f.eb : Nat) - (f.bias : Int) - f.mb) (by omega)
            (w / 2 ^ (f.mb + f.eb) % 2 = 1)

/-- An integer operand is a whole number. -/
theorem wholeIn_int {code : Nat} (h : code ≤ 3) (w : Nat) : wholeIn 1 (decodeVal code w).num := by
  obtain rfl | rfl | rfl | rfl : code = 0 ∨ code = 1 ∨ code = 2 ∨ code = 3 := by omega
  · exact ⟨0, by simp [decodeVal, ffmt, ifmt, vzero, Val.num]⟩
  · exact ⟨signedOf w 8, by simp [decodeVal, ffmt, ifmt, Val.num]⟩
  · exact ⟨(w % 2 ^ 8 : Nat), by simp [decodeVal, ffmt, ifmt, Val.num]⟩
  · exact ⟨signedOf w 16, by simp [decodeVal, ffmt, ifmt, Val.num]⟩

/-- Every operand of exact mode is a whole number of 2^−16. -/
theorem wholeIn_exact {code : Nat} (h : pairExact code = true) (w : Nat) : wholeIn ((2 : Rat) ^ (-16 : Int)) (decodeVal code w).num := by
  obtain hint | rfl | rfl : code ≤ 3 ∨ code = 0x10 ∨ code = 0x11 := by simpa [pairExact, or_assoc] using h
  · exact (wholeIn_int hint w).finer (wholeIn_zpow (i := -16) (j := 0) (by omega))
  · exact (wholeIn_float (code := 0x10) rfl w).finer (wholeIn_zpow (by decide))
  · exact wholeIn_float (code := 0x11) rfl w

/-- R226: no product of exact mode has a bit below the fixed least significant bit. -/
theorem wholeIn_product {fa fb : Nat} (ha : pairExact fa = true) (hb : pairExact fb = true) (x : Nat × Nat × Nat) :
    wholeIn (if fa ≤ 3 ∧ fb ≤ 3 then 1 else pow2 (-32)) (productOf fa fb x) := by
  split
  · next h => simpa [productOf] using (wholeIn_int h.1 x.2.1).mul (wholeIn_int h.2 x.2.2)
  · have hmul := (wholeIn_exact ha x.2.1).mul (wholeIn_exact hb x.2.2)
    rwa [← zpow_add₀ two_ne_zero, show (-16 : Int) + -16 = -32 from rfl, ← pow2_eq_zpow] at hmul

/-! ## The cell sums make up the products -/

/-- The cell sums of one block of products with their weights. -/
def cellSumsOf (fa fb r : Nat) (blk : List (Nat × Nat × Nat)) : List Rat :=
  ((List.range r).reverse).flatMap fun jb => ((List.range r).reverse).map fun ja =>
    (blk.map fun x => cellOperand fa x.2.1 r ja * cellOperand fb x.2.2 r jb).sum * pow2 (8 * (ja + jb : Nat))

theorem exactParts_eq (fa fb r kt : Nat) (l : List (Nat × Nat × Nat)) :
    exactParts fa fb r kt l = (List.range kt).flatMap fun kb => cellSumsOf fa fb r (l.filter fun x => x.1 / 128 == kb) := rfl

theorem cellSumsOf_one (fa fb : Nat) (blk : List (Nat × Nat × Nat)) : (cellSumsOf fa fb 1 blk).sum = (blk.map (productOf fa fb)).sum := by
  have hproduct : productOf fa fb = fun x => (decodeVal fa x.2.1).num * (decodeVal fb x.2.2).num := rfl
  simp [cellSumsOf, cellOperand, pow2, hproduct]

/-- R200: the two limbs of an INT16 element. -/
theorem limbs_int16 (w : Nat) : limbOf 3 w 2 1 * 2 ^ 8 + limbOf 3 w 2 0 = (decodeVal 3 w).num := by
  obtain ⟨v, hv⟩ : ∃ v, v = signedOf w 16 := ⟨_, rfl⟩
  have hdec : decodeVal 3 w = .fin v (decide (v < 0)) := by
    rw [hv]
    rfl
  have hsmall : v.natAbs < 65536 := by
    rw [hv, signedOf]
    split <;> omega
  have habs : absQ (v : Rat) = v.natAbs := by
    rw [absQ, Nat.cast_natAbs]
    split
    · next hneg => rw [abs_of_neg (by exact_mod_cast hneg)]; push_cast; rfl
    · next hpos => rw [abs_of_nonneg (by exact_mod_cast not_lt.mp hpos)]
  have hlimb (j : Nat) : limbOf 3 w 2 j = (if (v : Rat) < 0 then (-1 : Rat) else 1) * ((v.natAbs / 2 ^ (8 * j) % 256 : Nat) : Rat) := by
    have hfloor : ((v.natAbs : Rat)).floor.toNat = v.natAbs := by
      rw [show ((v.natAbs : Rat)).floor = (v.natAbs : Int) from Rat.floor_intCast _, Int.toNat_natCast]
    simp only [limbOf, hdec, habs, hfloor]
    rfl
  have hsplit : ((v.natAbs / 2 ^ (8 * 1) % 256 : Nat) : Rat) * 2 ^ 8 + ((v.natAbs / 2 ^ (8 * 0) % 256 : Nat) : Rat) = v.natAbs := by
    have hnat : v.natAbs / 2 ^ (8 * 1) % 256 * 2 ^ 8 + v.natAbs / 2 ^ (8 * 0) % 256 = v.natAbs := by omega
    exact_mod_cast hnat
  have hsign : (if (v : Rat) < 0 then (-1 : Rat) else 1) * v.natAbs = v := by
    rw [← habs, absQ]
    split
    · ring
    · ring
  rw [hlimb, hlimb, hdec, mul_assoc, ← mul_add, hsplit, hsign]
  rfl

theorem cellSumsOf_int16 (blk : List (Nat × Nat × Nat)) : (cellSumsOf 3 3 2 blk).sum = (blk.map (productOf 3 3)).sum := by
  induction blk with
  | nil => simp [cellSumsOf, List.range_succ]
  | cons x blk ih =>
    rw [List.map_cons, List.sum_cons, ← ih, productOf, ← limbs_int16, ← limbs_int16]
    simp only [cellSumsOf, List.range_succ, List.range_zero, List.nil_append, List.cons_append, List.reverse_cons, List.reverse_nil,
      List.flatMap_cons, List.flatMap_nil, List.map_cons, List.map_nil, List.append_nil, List.sum_cons, List.sum_nil, cellOperand,
      pow2_eq_zpow, if_neg (show ¬ (2 = 1) by decide)]
    norm_num
    ring

/-- The cell sums of a pair that exists make up the block's products. -/
theorem cellSumsOf_sum {fa fb : Nat} (ha : pairExact fa = true) (hpair : pairLimbs fa fb ≠ 0) (blk : List (Nat × Nat × Nat)) :
    (cellSumsOf fa fb (pairLimbs fa fb) blk).sum = (blk.map (productOf fa fb)).sum := by
  by_cases hwide : fa = 3
  · subst hwide
    obtain rfl : fb = 3 := by
      by_contra hne
      exact hpair (by simp [pairLimbs]; omega)
    exact cellSumsOf_int16 blk
  · have hone : pairLimbs fa fb = 1 := by
      have hcodes : fa ≤ 3 ∨ fa = 0x10 ∨ fa = 0x11 := by simpa [pairExact, or_assoc] using ha
      unfold pairLimbs at hpair ⊢
      split_ifs at hpair ⊢ <;> omega
    rw [hone]
    exact cellSumsOf_one fa fb blk

/-- The blocks part the products: each lies in one of them. -/
theorem sum_over_blocks (g : Nat × Nat × Nat → Rat) {kt : Nat} {l : List (Nat × Nat × Nat)} (h : ∀ x ∈ l, x.1 < 128 * kt) :
    ((List.range kt).map fun kb => ((l.filter fun x => x.1 / 128 == kb).map g).sum).sum = (l.map g).sum := by
  induction l with
  | nil => simp
  | cons x l ih =>
    have hblock : x.1 / 128 ∈ List.range kt := by
      have hx := h x (List.mem_cons_self ..)
      rw [List.mem_range]
      omega
    have hsplit (kb : Nat) : (((x :: l).filter fun x => x.1 / 128 == kb).map g).sum =
        (if kb = x.1 / 128 then g x else 0) + ((l.filter fun x => x.1 / 128 == kb).map g).sum := by
      by_cases hkb : kb = x.1 / 128
      · simp [hkb]
      · simp [hkb, Ne.symm hkb]
    have hone : ((List.range kt).map fun kb => if kb = x.1 / 128 then g x else 0).sum = g x := by
      rw [List.sum_map_ite_eq, List.count_eq_one_of_mem List.nodup_range hblock, one_nsmul]
      simp
    simp only [hsplit, List.sum_map_add, hone, ih fun y hy => h y (List.mem_cons_of_mem _ hy), List.map_cons, List.sum_cons]

theorem exactParts_sum {fa fb kt : Nat} {l : List (Nat × Nat × Nat)} (ha : pairExact fa = true) (hpair : pairLimbs fa fb ≠ 0)
    (h : ∀ x ∈ l, x.1 < 128 * kt) : (exactParts fa fb (pairLimbs fa fb) kt l).sum = (exactSum fa fb l).1 := by
  rw [exactParts_eq, List.flatMap_def, List.sum_flatten, List.map_map, exactSum_eq, ← sum_over_blocks (productOf fa fb) h]
  exact congrArg List.sum (List.map_congr_left fun kb _ => cellSumsOf_sum ha hpair _)

/-! ## Additions and saturation (R227) -/

/-- The largest value of an exact-mode accumulator. -/
def exactTop (fa : Nat) : Rat := ((2 ^ 111 - 1 : Nat) : Rat) * exactLsb fa

theorem Acc.addExact_eq (a : Acc) (fa : Nat) (q : Rat) : a.addExact fa q =
    if a.saturated then a
    else if exactTop fa < a.sum + q then { a with sum := exactTop fa, saturated := true }
    else if a.sum + q < -(exactTop fa + exactLsb fa) then { a with sum := -exactTop fa, saturated := true }
    else { a with sum := a.sum + q } := rfl

theorem Acc.addExact_within {a : Acc} {fa : Nat} {q : Rat} (hfree : a.saturated = false) (hlo : -(exactTop fa + exactLsb fa) ≤ a.sum + q)
    (hhi : a.sum + q ≤ exactTop fa) : a.addExact fa q = { a with sum := a.sum + q } := by
  rw [Acc.addExact_eq, hfree, if_neg Bool.false_ne_true, if_neg (not_lt.mpr hhi), if_neg (not_lt.mpr hlo)]

theorem Acc.addExact_above {a : Acc} {fa : Nat} {q : Rat} (hfree : a.saturated = false) (h : exactTop fa < a.sum + q) :
    a.addExact fa q = { a with sum := exactTop fa, saturated := true } := by
  rw [Acc.addExact_eq, hfree, if_neg Bool.false_ne_true, if_pos h]

theorem exactLsb_pos (fa : Nat) : 0 < exactLsb fa := by
  unfold exactLsb
  split
  · exact one_pos
  · rw [pow2_eq_zpow]
    positivity

theorem Acc.addExact_below {a : Acc} {fa : Nat} {q : Rat} (hfree : a.saturated = false)
    (h : a.sum + q < -(exactTop fa + exactLsb fa)) : a.addExact fa q = { a with sum := -exactTop fa, saturated := true } := by
  have hlsb := exactLsb_pos fa
  have hnonneg : 0 ≤ exactTop fa := mul_nonneg (Nat.cast_nonneg _) hlsb.le
  have htop : a.sum + q ≤ exactTop fa := by linarith
  rw [Acc.addExact_eq, hfree, if_neg Bool.false_ne_true, if_neg (not_lt.mpr htop), if_pos h]

/-- A saturated accumulator keeps its value for the rest of the chain. -/
theorem Acc.addAll_saturated {a : Acc} (h : a.saturated = true) (fa : Nat) (p : List Rat) :
    p.foldl (fun a q => a.addExact fa q) a = a := by
  induction p with
  | nil => rfl
  | cons q p ih =>
    have hstep : a.addExact fa q = a := by rw [Acc.addExact_eq, if_pos h]
    rw [List.foldl_cons, hstep, ih]

/-- Additions that all stay inside the range are exact. -/
theorem Acc.addAll_within {a : Acc} {fa : Nat} {p : List Rat} (hfree : a.saturated = false)
    (h : ∀ i ≤ p.length, -(exactTop fa + exactLsb fa) ≤ a.sum + (p.take i).sum ∧ a.sum + (p.take i).sum ≤ exactTop fa) :
    p.foldl (fun a q => a.addExact fa q) a = { a with sum := a.sum + p.sum } := by
  induction p generalizing a with
  | nil => simp
  | cons q p ih =>
    obtain ⟨hlo, hhi⟩ := h 1 (by simp)
    have hstep := Acc.addExact_within hfree (q := q) (by simpa using hlo) (by simpa using hhi)
    have hrest := ih (a := { a with sum := a.sum + q }) hfree fun i hi => by
      simpa [add_assoc] using h (i + 1) (by simpa using hi)
    rw [List.foldl_cons, hstep, hrest, List.sum_cons, add_assoc]

/-- The first addition past an end of the range decides the chain's value. -/
theorem Acc.addAll_past {a b : Acc} {fa k : Nat} {p : List Rat} (hfree : a.saturated = false) (hk : k < p.length)
    (h : ∀ i ≤ k, -(exactTop fa + exactLsb fa) ≤ a.sum + (p.take i).sum ∧ a.sum + (p.take i).sum ≤ exactTop fa)
    (hpast : ({ a with sum := a.sum + (p.take k).sum } : Acc).addExact fa p[k] = b) (hsat : b.saturated = true) :
    p.foldl (fun a q => a.addExact fa q) a = b := by
  have hfirst := Acc.addAll_within (p := p.take k) hfree fun i hi => by
    have hik : i ≤ k := hi.trans (by rw [List.length_take]; exact min_le_left ..)
    rw [List.take_take, min_eq_left hik]
    exact h i hik
  rw [← List.take_append_drop k p, List.drop_eq_getElem_cons hk, List.foldl_append, hfirst, List.foldl_cons, hpast,
    Acc.addAll_saturated hsat]

/-- Settles O58: the cell sums of a permuted list are the same, they part the products, and their additions run inside the range up to
the first that passes it. -/
theorem exactSumsHaveNoOrder : Obligations.exact_sums_have_no_order := by
  unfold Obligations.exact_sums_have_no_order
  intro fa fb kt drift drift' l l' a hexact
  obtain ⟨hsum, hsaturated⟩ := specialPath_keeps fa fb l a
  refine ⟨fun hperm => ?order, exactSum_eq fa fb l, fun hb => ?bits, fun hpair h => exactParts_sum hexact hpair h,
    fun top p at_ hfree htop hp hat => ?range, fun hsat => ?saturated⟩
  case order =>
    rw [accumulate_exact hexact, accumulate_exact hexact, exactParts_perm hperm, specialPath_perm hperm]
  case bits =>
    rw [exactSum_eq]
    refine wholeIn_sum fun q hq => ?_
    obtain ⟨x, -, rfl⟩ := List.mem_map.mp hq
    exact wholeIn_product hexact hb x
  case range =>
    obtain ⟨b, hb⟩ : ∃ b, b = specialPath fa fb l a := ⟨_, rfl⟩
    have hbfree : b.saturated = false := by rw [hb, hsaturated, hfree]
    have hbsum : b.sum = a.sum := by rw [hb, hsum]
    have htop' : exactTop fa = top := by
      rw [htop, exactTop]
      norm_num
    have hacc : accumulate fa fb kt drift l a = p.foldl (fun a q => a.addExact fa q) b := by rw [accumulate_exact hexact, hp, hb]
    have hin (n : Nat) (h : ∀ i, i ≤ n → -(top + exactLsb fa) ≤ at_ i ∧ at_ i ≤ top) (i : Nat) (hi : i ≤ n) :
        -(exactTop fa + exactLsb fa) ≤ b.sum + (p.take i).sum ∧ b.sum + (p.take i).sum ≤ exactTop fa := by
      rw [hbsum, ← hat, htop']
      exact h i hi
    refine ⟨fun h => ?_, fun k hk h => ?_⟩
    · rw [hacc, Acc.addAll_within hbfree (hin _ h), hbsum]
      exact ⟨rfl, hbfree⟩
    · have hnext : at_ (k + 1) = b.sum + (p.take k).sum + p[k] := by
        rw [hat, List.sum_take_succ _ _ hk, hbsum, add_assoc]
      refine ⟨fun hover => ?_, fun hunder => ?_⟩
      · rw [hacc, Acc.addAll_past hbfree hk (hin k h)
          (Acc.addExact_above (a := { b with sum := b.sum + (p.take k).sum }) hbfree (by rwa [← hnext, htop'])) rfl]
        exact ⟨htop', rfl⟩
      · rw [hacc, Acc.addAll_past hbfree hk (hin k h)
          (Acc.addExact_below (a := { b with sum := b.sum + (p.take k).sum }) hbfree (by rwa [← hnext, htop'])) rfl]
        exact ⟨congrArg Neg.neg htop', rfl⟩
  case saturated =>
    rw [accumulate_exact hexact, Acc.addAll_saturated (hsaturated.trans hsat)]
    exact ⟨hsum, hsaturated.trans hsat⟩

end Sys2Proof.Machine
end

section
/-! SUPPORT. What the ends of links and stiles may touch (R442 to R451), and the resets that a HALT calls for (R514, R572, R576). -/

namespace Sys2Proof.Machine

open Sys2Proof

/-! ## Reads and writes of a block -/

/-- A done word of a thread changes its frame set, and what a fault changes. -/
theorem Dev.agrees_fsetDone (d : Dev) (e : Env) (f : Nat) (w : Writer) (v : Nat) : d.agrees (.fsets :: faultParts) (d.fsetDone e f w v) := by
  have hjudged := d.agrees_judgeTo f e.raw e.raw
  have hraised := hjudged.andThen (Dev.agrees_raise _ 0x304 0x25 f (v % 2 ^ 32)) (by decide)
  have hset (g : FSet → FSet) := hjudged.andThen (Dev.agrees_modFset _ f g) (by decide)
  unfold Dev.fsetDone
  dsimp only
  split
  · exact hraised
  · exact (hset _).ite ((hset _).ite ((hset _).ite hraised))

theorem Dev.agrees_writeFrom (d : Dev) (e : Env) (src acc a : Nat) (bs : List Byte) (p : Bool) (w : Writer) :
    d.agrees [.mem, .folds, .phys, .fsets, .col, .safe] (d.writeFrom e src acc a bs p w) := by
  have hstatus (off : Nat) : d.agrees (.fsets :: faultParts) (d.statusStore e off bs w) := (d.agrees_fsetDone _ _ _ _).ite (d.agrees_refl _)
  unfold Dev.writeFrom
  split
  · refine (d.agrees_refl _).ite (((((hstatus _).mono (by decide)).ite (d.agrees_refl _))).ite ?_)
    exact (((d.agrees_touch e a).mono (by decide)).andThen (Dev.agrees_mergeHold _ _ _) (by decide)).andThen (Dev.agrees_write _ _ _ _) (by decide)
  · exact (d.agrees_missed _ _ _ _).mono (by decide)

theorem Dev.agrees_readFrom (d : Dev) (e : Env) (src acc a n : Nat) :
    d.agrees [.mem, .folds, .phys, .col, .safe, .free] (d.readFrom e src acc a n).2.2 := by
  unfold Dev.readFrom
  split
  · exact (d.agrees_fetchBytes _ _ _ _).mono (by decide)
  · exact (d.agrees_spend.mono (by decide)).andThen (Dev.agrees_missed _ _ _ _ _) (by decide)

theorem Dev.agrees_raiseKeyed (d : Dev) (e : Env) (src kind detail arg : Nat) (counted : Bool) (same : SecEvent → Bool) :
    d.agrees [.col] (d.raiseKeyed e src kind detail arg counted same) := by
  unfold Dev.raiseKeyed
  dsimp only
  split
  · exact d.agrees_col _
  · exact d.agrees_col _

/-! ## Requests that end with their link -/

theorem Dev.agrees_fenceCheck (d : Dev) (t : Nat) : d.agrees [.threads, .flights] (d.fenceCheck t) := by
  unfold Dev.fenceCheck
  split
  · split
    · exact (d.agrees_wake _ _).mono (by decide)
    · exact ((d.agrees_wake _ _).mono (by decide)).andThen (Dev.agrees_flights _ _) (by decide)
    · rfl
  · rfl

theorem Dev.agrees_flockBreak (d : Dev) (e : Env) (num cause : Nat) (from_ : Option Nat) :
    d.agrees (.hurdles :: .threads :: .flock :: faultParts) (d.flockBreak e num cause from_) := by
  unfold Dev.flockBreak
  split
  · exact d.agrees_breakHurdle _ _ _ _
  · exact (d.agrees_sendTo _ _ _ _ _ _).mono (by decide)

theorem Dev.agrees_linkLeaves (d : Dev) (e : Env) (k : Nat) :
    d.agrees (.hurdles :: .threads :: .flock :: faultParts) (d.linkLeaves e k) :=
  (Dev.agrees_foldl (fun d _ => d.agrees_flockBreak _ _ _ _) _ d).ite (d.agrees_refl _)

/-- A drover's write to its destination touches memory, its fold and what a fault touches. -/
def droverParts : List Part := [.mem, .folds, .phys, .fsets, .flock, .col, .safe]

theorem Dev.agrees_putLine (d : Dev) (e : Env) (src n a : Nat) (p : Piece) : d.agrees droverParts (d.putLine e src n a p) := by
  have hwritten := (d.agrees_writeFrom e src n a p.bytes p.poison (.thread (64 * n))).mono (l := droverParts) (by decide)
  unfold Dev.putLine
  dsimp only
  split
  · exact hwritten.ite (hwritten.andThen (Dev.agrees_modMem _ _) (by decide))
  · exact hwritten

theorem Dev.agrees_droverPut (d : Dev) (e : Env) (n r : Nat) (p : Piece) : d.agrees droverParts (d.droverPut e n r p) := by
  unfold Dev.droverPut
  refine (d.agrees_refl _).ite ?_
  split
  · refine (d.agrees_putLine _ _ _ _ _).ite ?_
    exact ((d.agrees_raise _ _ _ _).mono (by decide)).andThen (Dev.agrees_raiseKeyed _ _ _ _ _ _ _ _) (by decide)
  · exact d.agrees_putLine _ _ _ _ _

theorem Dev.agrees_sendWrites (d : Dev) (e : Env) (n r a : Nat) (ls : List (List Byte × Bool)) :
    d.agrees droverParts (d.sendWrites e n r a ls) := by
  have hto (d : Dev) (dev off : Nat) (ls : List (List Byte × Bool)) : d.agrees droverParts (d.sendWritesTo e n r dev off ls) := by
    have hfault (a status : Nat) : d.agrees droverParts (d.stileFault (d.workSrc n) a status) := (d.agrees_raise _ _ _ _).mono (by decide)
    unfold Dev.sendWritesTo
    split
    · exact hfault _ _
    · refine (hfault _ _).ite (Dev.agrees_foldl (fun d c => ?_) _ d)
      exact ((d.agrees_flock _).trans (Dev.agrees_ndSend _ _ _ _ _ _ _)).mono (by decide)
  refine Dev.agrees_foldl (fun d x => ?_) _ d
  dsimp only
  split
  · exact hto _ _ _ _
  · exact Dev.agrees_foldl (fun d y => d.agrees_droverPut _ _ _ _) _ d

theorem Dev.agrees_droverRelay (d : Dev) (e : Env) (n r : Nat) : d.agrees droverParts (d.droverRelay e n r) := by
  have hinput (b : List Byte) : d.agrees faultParts (d.droverInput n r b).2 := by
    unfold Dev.droverInput
    dsimp only
    split
    · exact (d.agrees_raise _ _ _ _).ite (d.agrees_refl _)
    · rfl
  unfold Dev.droverRelay
  split
  · rfl
  · exact (d.agrees_refl _).ite (((hinput _).mono (by decide)).trans (Dev.agrees_sendWrites _ _ _ _ _ _))

theorem Dev.agrees_giveRead (d : Dev) (e : Env) (r : NdReq) (bs : List Byte) (poison : Nat → Bool) :
    d.agrees (.threads :: droverParts) (d.giveRead e r bs poison) := by
  have hresult (t rd : Nat) (bs : List Byte) (poison : Bool) : d.agrees [.threads] (d.loadResult t rd bs poison) :=
    Dev.agrees.ite ((d.agrees_modThread t _).trans (Dev.agrees_modThread _ t _)) (d.agrees_modThread t _)
  unfold Dev.giveRead
  split
  · split
    · exact (d.agrees_refl _).ite (((hresult _ _ _ _).trans (Dev.agrees_wake _ _ [])).mono (by decide))
    · rfl
  · exact ((d.agrees_modFold _ _).mono (by decide)).andThen (Dev.agrees_droverRelay _ _ _ _) (by decide)
  · rfl

theorem Dev.agrees_loseReq (d : Dev) (e : Env) (dev : Nat) (r : NdReq) : d.agrees linkParts (d.loseReq e dev r) := by
  have hraised := (d.agrees_raise (d.reqSrc r) 0x0F (if r.write then 1 else 0) dev).mono (l := linkParts) (by decide)
  unfold Dev.loseReq
  dsimp only
  refine Dev.agrees.ite ?_ ?_
  · split
    · exact hraised.andThen (Dev.agrees_fenceCheck _ _) (by decide)
    · exact hraised
  · exact (hraised.andThen (Dev.agrees_spend _) (by decide)).andThen (Dev.agrees_giveRead _ _ _ _ _) (by decide)

/-- A link whose work ends: STOPPED, with no session and no frame waiting. -/
def Peer.ended (p : Peer) : Peer :=
  { p with
    fn := .stopped
    unacked := []
    connecting := false
    session := 0
    closeAt := none
    retries := 0
    peerWindow := 16
    serve := p.serve.map fun x => { x with mute := true } }

/-- The device whose link `k` ends, its own requests on that link out of those that wait. -/
def Dev.unlinked (d : Dev) (k : Nat) : Dev :=
  { d with flock := { d.flock with reqs := d.flock.reqs.filter fun r => r.peer != k } }.modPeer k Peer.ended

theorem Dev.agrees_unlinked (d : Dev) (k : Nat) : d.agrees [.flock] (d.unlinked k) := (d.agrees_flock _).trans (Dev.agrees_modPeer _ _ _)

/-- What the end of a link's work may touch. -/
theorem Dev.agrees_endLink (d : Dev) (e : Env) (k : Nat) : d.agrees linkParts (d.endLink e k) := by
  refine ((d.agrees_unlinked k).mono (by decide)).trans ?_
  unfold Dev.endLink
  dsimp only
  have hends (c : Dev) (hc : (d.unlinked k).agrees linkParts c) :
      (d.unlinked k).agrees linkParts (if (d.peer k).fn.active = true then c.linkLeaves e k else c) :=
    (hc.andThen (Dev.agrees_linkLeaves _ _ _) (by decide)).ite hc
  refine hends _ (Dev.agrees.trans (Dev.agrees.trans (Dev.agrees.trans (Dev.agrees_refl _ _) (Dev.agrees_foldl (fun d r => ?_) _ _))
    (Dev.agrees_foldl (fun d x => ?_) _ _)) (Dev.agrees_foldl (fun d t => ?_) _ _))
  · exact d.agrees_loseReq _ _ _
  · exact (d.agrees_raise _ _ _ _).mono (by decide)
  · exact (d.agrees_fenceCheck _).mono (by decide)

/-! ## The service of a peer's requests -/

/-- What the service of a peer's requests may touch: the memory and the queues they reach, their answers and what a stile's end completes. -/
def serviceParts : List Part := .queues :: linkParts

theorem Dev.agrees_settleStiles (d : Dev) (e : Env) : d.agrees serviceParts (d.settleStiles e) := by
  refine Dev.agrees_foldl (fun d i => ?_) _ d
  have hstopped := (d.agrees_modStile i fun s => { s with fn := .stopped }).mono (l := serviceParts) (by decide)
  exact (hstopped.andThen (Dev.agrees_finishAll _ _ _ _) (by decide)).ite (hstopped.andThen (Dev.agrees_noteState _ _ _ _ _ _) (by decide))

theorem Dev.agrees_broadcast (d : Dev) (e : Env) (ident : Nat) (atEnd : Bool) (origin : Nat) (data : List Byte) (t : Option Nat) :
    d.agrees (.flock :: queueParts) (d.broadcast e ident atEnd origin data t) := by
  unfold Dev.broadcast
  split
  · split
    · exact (d.agrees_ndSend _ _ _ _ _ _).mono (by decide)
    · rfl
  · exact (((d.agrees_flock _).mono (by decide)).andThen (Dev.agrees_deliver _ _ _ _ _ _) (by decide)).andThen
      (Dev.agrees_sendTo _ _ _ _ _ _ _) (by decide)

theorem Dev.agrees_messageIn (d : Dev) (e : Env) (src : Nat) (m : NdMessage) : d.agrees (.flock :: queueParts) (d.messageIn e src m) := by
  have hown (w : Prod) := (d.agrees_deliver m.ident w m.entry m.atEnd 0x2C5).mono (l := .flock :: queueParts) (by decide)
  exact (hown _).ite (((hown _).andThen (Dev.agrees_sendTo _ _ _ _ _ _ _) (by decide)).ite (d.agrees_broadcast _ _ _ _ _ _))

theorem Dev.agrees_answerServe (d : Dev) (e : Env) (k : Nat) (x : NdServe) (status : Nat) (bs : List Byte) (poison : Nat) :
    d.agrees [.flock] (d.answerServe e k x status bs poison) :=
  (d.agrees_refl _).ite ((d.agrees_ndSend _ _ _ _ _ _).ite (d.agrees_ndSend _ _ _ _ _ _))

theorem Dev.agrees_serveWrite (d : Dev) (e : Env) (x : NdServe) (a : Nat) :
    d.agrees [.mem, .folds, .phys, .fsets, .col, .safe] (d.serveWrite e x a) :=
  (d.agrees_writeFrom _ _ _ _ _ _ _).ite (Dev.agrees_foldl (fun d _ => d.agrees_writeFrom _ _ _ _ _ _ _) _ d)

theorem Dev.agrees_serveRead (d : Dev) (e : Env) (x : NdServe) (a : Nat) :
    d.agrees [.mem, .folds, .phys, .col, .safe, .free] (d.serveRead e x a).2.2 := by
  unfold Dev.serveRead
  split
  · exact d.agrees_readFrom _ _ _ _ _
  · exact List.foldlRecOn (motive := fun acc : List Byte × Nat × Dev => d.agrees [.mem, .folds, .phys, .col, .safe, .free] acc.2.2) _ _
      (d.agrees_refl _) fun acc hacc i _ => hacc.trans (acc.2.2.agrees_readFrom _ _ _ _ _)

theorem Dev.agrees_serveOne (d : Dev) (e : Env) (k dev : Nat) (x : NdServe) (st a : Nat) : d.agrees serviceParts (d.serveOne e k dev x st a) := by
  have hanswer (c : Dev) (hc : d.agrees serviceParts c) (st : Nat) (bs : List Byte) (p : Nat) :
      d.agrees serviceParts (c.answerServe e k x st bs p) := hc.andThen (Dev.agrees_answerServe _ _ _ _ _ _ _) (by decide)
  unfold Dev.serveOne
  refine (hanswer _ ?_ _ _ _).ite ((hanswer _ ?_ _ _ _).ite (hanswer _ ?_ _ _ _))
  · exact (d.agrees_raiseKeyed _ _ _ _ _ _ _).mono (by decide)
  · exact (d.agrees_serveWrite _ _ _).mono (by decide)
  · exact (d.agrees_serveRead _ _ _).mono (by decide)

theorem Dev.agrees_servePeer (fuel : Nat) (e : Env) (k : Nat) (d : Dev) : d.agrees serviceParts (Dev.servePeer fuel e k d) := by
  induction fuel generalizing d with
  | zero => exact d.agrees_settleStiles e
  | succ n ih =>
    have htaken (f : Peer → Peer) : d.agrees serviceParts (d.modPeer k f) := (d.agrees_modPeer k f).mono (by decide)
    unfold Dev.servePeer
    split
    · exact d.agrees_settleStiles e
    · dsimp only
      split
      · exact ((htaken _).andThen (Dev.agrees_messageIn _ _ _ _) (by decide)).trans (ih _)
      · exact (htaken _).ite (((htaken _).trans (Dev.agrees_serveOne _ _ _ _ _ _ _)).trans (ih _))

theorem Dev.agrees_closeStile (d : Dev) (e : Env) (i : Nat) (st : FnState) : d.agrees serviceParts (d.closeStile e i st) :=
  ((d.agrees_modStile i _).mono (by decide)).trans (Dev.agrees_foldl (fun d k => Dev.agrees_servePeer _ e k d) _ _)

/-! ## Domain resets -/

/-- A gate in a reset domain: another gate stays, and an active one enters FAULTED. -/
theorem Dev.faultGate_spec (d : Dev) (e : Env) (g m : Nat) :
    d.agrees raceParts (d.faultGate e g m) ∧ (∀ j, j ≠ g ∨ (d.gate j).fn.active = false → (d.faultGate e g m).gate j = d.gate j) ∧
    ((d.gate g).fn.active = true → ((d.faultGate e g m).gate g).fn = .faulted) := by
  unfold Dev.faultGate
  split
  · next hactive =>
    have hwork := (d.abandonGate_spec e g).1
    obtain ⟨b, hb⟩ : ∃ b, b = (d.abandonGate e g).modGate g fun x => { x with fn := .faulted, core := none } := ⟨_, rfl⟩
    have hbself : (b.gate g).fn = .faulted := by rw [hb, Dev.gate_modGate_same]
    have hbother (j : Nat) (hj : j ≠ g) : b.gate j = d.gate j := by rw [hb, Dev.gate_modGate, if_neg hj, hwork.others j hj]
    have hnote (j : Nat) : (b.noteState e 0 .faulted g m).gate j = b.gate j := Dev.gate_of_race (b.agrees_noteState e 0 .faulted g m .race (by decide)).symm j
    have hagrees : d.agrees raceParts b := hb ▸ hwork.agrees.andThen (Dev.agrees_modGate _ _ _) (by decide)
    rw [← hb]
    refine ⟨hagrees.andThen (Dev.agrees_noteState _ _ _ _ _ _) (by decide), fun j hj => ?_, fun _ => by rw [hnote, hbself]⟩
    rw [hnote]
    refine hbother j fun hjg => ?_
    rcases hj with hne | hidle
    · exact hne hjg
    · rw [hjg, hactive] at hidle
      cases hidle
  · next hidle => exact ⟨d.agrees_refl _, fun _ _ => rfl, fun hactive => (hidle hactive).elim⟩

/-- The gates of a list: those that are active enter FAULTED, and every other gate stays. -/
theorem Dev.faultGates_spec (e : Env) (m : Nat) (l : List Nat) (d : Dev) :
    d.agrees raceParts (l.foldl (fun d g => d.faultGate e g m) d) ∧
    (∀ j, (d.gate j).fn.active = false → (l.foldl (fun d g => d.faultGate e g m) d).gate j = d.gate j) ∧
    ∀ j ∈ l, (d.gate j).fn.active = true → ((l.foldl (fun d g => d.faultGate e g m) d).gate j).fn = .faulted := by
  induction l generalizing d with
  | nil => exact ⟨d.agrees_refl _, fun _ _ => rfl, fun _ h => by cases h⟩
  | cons g l ih =>
    obtain ⟨hagrees, hkept, hfaulted⟩ := d.faultGate_spec e g m
    obtain ⟨hrest, hrestKept, hrestFaulted⟩ := ih (d.faultGate e g m)
    refine ⟨hagrees.trans hrest, fun j hidle => ?_, fun j hj hactive => ?_⟩
    · have hone := hkept j (.inr hidle)
      exact (hrestKept j (by rw [hone]; exact hidle)).trans hone
    · by_cases hg : j = g
      · subst hg
        have hdown := hfaulted hactive
        exact (congrArg Gate.fn (hrestKept j (by rw [hdown]; rfl))).trans hdown
      · have hone := hkept j (.inl hg)
        exact hrestFaulted j ((List.mem_cons.mp hj).resolve_left hg) (by rw [hone]; exact hactive)

/-- An active gate is among those that a reset of the Race takes down. -/
theorem Dev.active_gate_mem {d : Dev} {g : Nat} (h : (d.gate g).fn.active = true) : g ∈ tkeys d.race.gates fun x => x.fn.active := by
  rw [Dev.gate, tgetD] at h
  cases hg : tget d.race.gates g with
  | none =>
    rw [hg] at h
    cases h
  | some x => exact mem_tkeys_of_tget hg (by rw [hg] at h; exact h)

theorem Dev.resetRace_spec (d : Dev) (e : Env) (m : Nat) :
    d.agrees raceParts (d.resetRace e m) ∧ (∀ g, (d.gate g).fn.active = false → (d.resetRace e m).gate g = d.gate g) ∧
    ∀ g, (d.gate g).fn.active = true → ((d.resetRace e m).gate g).fn = .faulted := by
  obtain ⟨hagrees, hkept, hfaulted⟩ := Dev.faultGates_spec e m (tkeys d.race.gates fun x => x.fn.active) d
  exact ⟨hagrees.andThen (Dev.agrees_race _ _) (by decide), fun g hidle => hkept g hidle,
    fun g hactive => hfaulted g (Dev.active_gate_mem hactive) hactive⟩

/-- Work of the Ethernet and time domain's reset that leaves the time domains. -/
def EthernetWork (a b : Dev) : Prop := a.agrees ([.tu, .queues] ++ linkParts) b ∧ b.tu.doms = a.tu.doms

theorem EthernetWork.trans {a b c : Dev} (h : EthernetWork a b) (h' : EthernetWork b c) : EthernetWork a c :=
  ⟨h.1.trans h'.1, h'.2.trans h.2⟩

theorem EthernetWork.of_agrees {a b : Dev} {l : List Part} (h : a.agrees l b) (hl : l ⊆ serviceParts) : EthernetWork a b :=
  ⟨h.mono fun _ hp => List.mem_cons_of_mem _ (hl hp), congrArg TimeUnit.doms (h .tu fun htu => absurd (hl htu) (by decide)).symm⟩

theorem EthernetWork.foldl {α : Type} {f : Dev → α → Dev} (h : ∀ d x, EthernetWork d (f d x)) (l : List α) (d : Dev) :
    EthernetWork d (l.foldl f d) :=
  List.foldlRecOn (motive := fun b => EthernetWork d b) l f ⟨d.agrees_refl _, rfl⟩ fun _ hb x _ => hb.trans (h _ x)

theorem EthernetWork.noteState (d : Dev) (e : Env) (kind : Nat) (st : FnState) (n m : Nat) : EthernetWork d (d.noteState e kind st n m) :=
  .of_agrees (d.agrees_noteState _ _ _ _ _) (by decide)

/-- The device whose frame-set monitors have stopped. -/
def Dev.unmonitored (d : Dev) : Dev := { d with fsets := d.fsets.map fun (x : Nat × FSet) => (x.1, { x.2 with running := false }) }

/-- After the time domains, the reset takes down the triggers, the links, the stiles and the bridge. -/
theorem EthernetWork.resetEthernet (d : Dev) (e : Env) (m : Nat) :
    EthernetWork ((d.unmonitored.faultDomain e 0 m).faultDomain e 1 m) (d.resetEthernet e m) := by
  unfold Dev.resetEthernet
  dsimp only
  refine EthernetWork.trans (EthernetWork.trans (EthernetWork.trans (EthernetWork.foldl (fun d n => ?_) _ _)
    (EthernetWork.foldl (fun d k => ?_) _ _)) (EthernetWork.foldl (fun d i => ?_) _ _))
    (.of_agrees (Dev.agrees_flock _ _) (by decide))
  · exact EthernetWork.trans (b := d.modTrig n _) ⟨(d.agrees_modTrig _ _).mono (by decide), rfl⟩ (.noteState _ _ _ _ _ _)
  · exact (EthernetWork.of_agrees ((d.agrees_endLink e k).andThen (Dev.agrees_modPeer _ k _) (by decide)) (by decide)).trans (.noteState _ _ _ _ _ _)
  · exact (EthernetWork.of_agrees (d.agrees_closeStile e i .faulted) (List.Subset.refl _)).trans (.noteState _ _ _ _ _ _)

theorem Dev.resetEthernet_spec (d : Dev) (e : Env) (m : Nat) :
    d.agrees ([.tu, .queues] ++ linkParts) (d.resetEthernet e m) ∧
    ∀ k, k < 2 → (d.dom k).fn.active = true → ((d.resetEthernet e m).dom k).fn = .faulted := by
  obtain ⟨hdomains, hfaulted⟩ := d.unmonitored.faultDomains_spec e m
  obtain ⟨hagrees, hdoms⟩ := EthernetWork.resetEthernet d e m
  have hfsets : d.agrees [.fsets] d.unmonitored := d.agrees_fsets _
  refine ⟨((hfsets.mono (by decide)).andThen hdomains (by decide)).trans hagrees, fun k hk hactive => ?_⟩
  have hkept : (d.resetEthernet e m).dom k = ((d.unmonitored.faultDomain e 0 m).faultDomain e 1 m).dom k := by
    rw [Dev.dom, hdoms]
    rfl
  have hsame : d.unmonitored.dom k = d.dom k := rfl
  rw [hkept]
  exact hfaulted k hk (by rw [hsame]; exact hactive)

/-! ## The device's own resets -/

theorem Dev.pins_low {d : Dev} (h : d.safe.released = false) : d.pins.safe.safe0 = true ∧ d.pins.safe.safe1 = true := by
  simp [Dev.pins, h]

/-- A fold whose monitor's HALT a warm reset serves is retired; nothing else changes. -/
theorem Dev.agrees_retireHalted (d : Dev) : d.agrees [.phys] d.retireHalted := by
  refine Dev.agrees_foldl (fun d h => ?_) _ d
  split
  · exact d.agrees_modPhys _ _
  · rfl

/-- What ROM's start may do: the mailbox's boot block, the security unit, the start's phase and the pins. -/
def RomWork (a b : Dev) : Prop :=
  a.agrees [.mbox, .sec, .pow, .safe] b ∧ b.pow.state = a.pow.state ∧ b.safe.released = a.safe.released

theorem RomWork.trans {a b c : Dev} (h : RomWork a b) (h' : RomWork b c) : RomWork a c :=
  ⟨h.1.trans h'.1, h'.2.1.trans h.2.1, h'.2.2.trans h.2.2⟩

theorem RomWork.pins (d : Dev) : RomWork d d.pins := ⟨(d.agrees_pins).mono (by decide), rfl, rfl⟩

/-- A new boot block, security unit and phase. -/
theorem RomWork.records (d : Dev) (m : Mailbox) (x : Security) {p : PowerUnit} (h : p.state = d.pow.state) :
    RomWork d { d with
      mbox := m
      sec := x
      pow := p } := by
  refine ⟨?_, h, rfl⟩
  intro p hp
  cases p <;> simp_all [Part.same]

theorem RomWork.romStop (d : Dev) : RomWork d d.romStop :=
  (RomWork.records d _ d.sec (p := { d.pow with romStopped := true, phase := .rom }) rfl).trans (RomWork.pins _)

theorem RomWork.bootImage (d : Dev) (f : Fuses) (source : Nat) (b : List Byte) : RomWork d (d.bootImage f source b) :=
  RomWork.records d _ _ rfl

theorem RomWork.ite {a b c : Dev} {p : Prop} [Decidable p] (hb : RomWork a b) (hc : RomWork a c) : RomWork a (if p then b else c) := by
  split
  · exact hb
  · exact hc

theorem RomWork.romBoot (d : Dev) (f : Fuses) (b : StartUp) : RomWork d (d.romBoot f b) := by
  have hbegun (m : Mailbox) (x : Security) : RomWork d { d with
      mbox := m
      sec := x
      pow := { d.pow with startUp := some b, phase := .rom, romStopped := false } } := RomWork.records d m x rfl
  unfold Dev.romBoot
  dsimp only
  refine RomWork.ite ((hbegun _ _).trans (.romStop _)) ?_
  cases hflash : (!f.pushOnly && (!d.pow.bootSel || f.flashOnly))
  · simp only [Bool.false_eq_true, if_false]
    exact RomWork.ite ((hbegun _ _).trans (.romStop _)) (RomWork.records d _ _ rfl)
  · simp only [if_true]
    split
    · exact RomWork.ite ((hbegun _ _).trans (.bootImage _ _ _ _)) ((hbegun _ _).trans (.bootImage _ _ _ _))
    · exact (hbegun _ _).trans (.bootImage _ _ _ _)
    · exact (hbegun _ _).trans (.bootImage _ _ _ _)
    · exact RomWork.ite ((hbegun _ _).trans (.romStop _)) (RomWork.records d _ _ rfl)

theorem RomWork.warmStart (d : Dev) (f : Fuses) (b : StartUp) : RomWork d (d.warmStart f b) :=
  (RomWork.romStop d).ite ((RomWork.romBoot d f b).trans (.pins _))

/-- A warm start leaves the pins low until the start-up test has passed. -/
theorem Dev.warmStart_low {d : Dev} (h : d.safe.released = false) (f : Fuses) (b : StartUp) :
    (d.warmStart f b).safe.safe0 = true ∧ (d.warmStart f b).safe.safe1 = true := by
  unfold Dev.warmStart
  split
  · exact Dev.pins_low h
  · exact Dev.pins_low ((RomWork.romBoot d f b).2.2.trans h)

/-- Settles O41: each reset by what it leaves. -/
theorem haltResets : Obligations.halt_resets := by
  unfold Obligations.halt_resets
  intro s m rest
  obtain ⟨c, hc⟩ : ∃ c : Dev, c = { s.dev with col := { s.dev.col with halts := rest } } := ⟨_, rfl⟩
  have hcol : s.dev.agrees [.col] c := hc ▸ s.dev.agrees_col _
  refine ⟨fun hhalts => ?cold, fun hhalts => ?warm, fun hhalts => ?race, fun hhalts => ?ethernet⟩
  case cold =>
    obtain ⟨x, hx⟩ : ∃ x : Dev, x = { c.coldReset with pow := { c.coldReset.pow with retryDue := true } } := ⟨_, rfl⟩
    have hexec : exec .domainReset s = .next { s with dev := x.pins, clk := {}, fuse := s.fuseNow } := by
      rw [exec_domainReset, execDomainReset]
      simp only [hhalts, hx, hc]
      rfl
    obtain ⟨hlow0, hlow1⟩ := Dev.pins_low (d := x) (by rw [hx]; rfl)
    exact ⟨_, hexec, by rw [hx]; rfl, by rw [hx]; rfl, rfl, rfl, by rw [hx]; rfl, hlow0, hlow1⟩
  case warm =>
    obtain ⟨x, hx⟩ : ∃ x : Dev, x = c.retireHalted.warmReset := ⟨_, rfl⟩
    have hexec : exec .domainReset s =
        .next { s with dev := x.spend.warmStart s.fuseNow (Config.startUpOutcome x.free), fuse := s.fuseNow.mended } := by
      rw [exec_domainReset, execDomainReset]
      simp only [hhalts, hx, hc]
      rfl
    have hphys : s.dev.agrees [.col, .phys] c.retireHalted := (hcol.mono (by decide)).andThen c.agrees_retireHalted (by decide)
    have hxmem : x.mem = c.retireHalted.mem := by rw [hx]; rfl
    have hxmap : x.foldMap = c.retireHalted.foldMap := by rw [hx]; rfl
    obtain ⟨hagrees, hstate, -⟩ := RomWork.warmStart x.spend s.fuseNow (Config.startUpOutcome x.free)
    obtain ⟨hlow0, hlow1⟩ := Dev.warmStart_low (d := x.spend) (by rw [hx]; rfl) s.fuseNow (Config.startUpOutcome x.free)
    refine ⟨_, hexec, hstate.trans (by rw [hx]; rfl), rfl, rfl, ?_, ?_, ?_, hlow0, hlow1⟩
    · exact ((hagrees .mem (by decide)).symm.trans hxmem).trans (hphys .mem (by decide)).symm
    · exact ((hagrees .foldMap (by decide)).symm.trans hxmap).trans (hphys .foldMap (by decide)).symm
    · exact (hagrees .threads (by decide)).symm.trans (by rw [hx]; rfl)
  case race =>
    have hexec : exec .domainReset s = .next (s.put (c.resetRace s.env m)) := by
      rw [exec_domainReset, execDomainReset]
      simp only [hhalts, hc]
      rfl
    obtain ⟨hagrees, hkept, hfaulted⟩ := c.resetRace_spec s.env m
    have hgate (g : Nat) : c.gate g = s.dev.gate g := Dev.gate_of_race (hcol .race (by decide)).symm g
    refine ⟨_, hexec, State.touches_of_agrees ((hcol.mono (by decide)).trans hagrees), fun g hidle => ?_, fun g hactive => ?_⟩
    · exact (hkept g (by rw [hgate]; exact hidle)).trans (hgate g)
    · exact hfaulted g (by rw [hgate]; exact hactive)
  case ethernet =>
    have hexec : exec .domainReset s = .next (s.put (c.resetEthernet s.env m)) := by
      rw [exec_domainReset, execDomainReset]
      simp only [hhalts, hc]
      rfl
    obtain ⟨hagrees, hfaulted⟩ := c.resetEthernet_spec s.env m
    have hdom (k : Nat) : c.dom k = s.dev.dom k := Dev.dom_congr (hcol .tu (by decide)).symm k
    exact ⟨_, hexec, State.touches_of_agrees ((hcol.mono (by decide)).trans hagrees), fun k hk hactive =>
      hfaulted k hk (by rw [hdom]; exact hactive)⟩

end Sys2Proof.Machine
end

section
/-! SUPPORT. The collector (R477, R500, R504 to R518): posting in sound memory, the log ring, what a collected and a lost message leave, and
the fence of a fold that a self-test retires. -/

namespace Sys2Proof.Machine

open Sys2Proof

/-! ## Work in sound memory -/

/-- Work that, in sound memory, touches the named parts and leaves memory sound: nothing that it reads or writes raises a fault. -/
def SoundWork (l : List Part) (a b : Dev) : Prop := a.mem.sound = true → a.agrees l b ∧ b.mem.sound = true

theorem SoundWork.refl (l : List Part) (d : Dev) : SoundWork l d d := fun h => ⟨d.agrees_refl l, h⟩

theorem SoundWork.trans {l : List Part} {a b c : Dev} (h : SoundWork l a b) (h' : SoundWork l b c) : SoundWork l a c := fun hsound =>
  ⟨(h hsound).1.trans (h' (h hsound).2).1, (h' (h hsound).2).2⟩

theorem SoundWork.mono {l m : List Part} {a b : Dev} (h : SoundWork m a b) (hm : m ⊆ l) : SoundWork l a b := fun hsound =>
  ⟨(h hsound).1.mono hm, (h hsound).2⟩

theorem SoundWork.ite {l : List Part} {a b c : Dev} {p : Prop} [Decidable p] (hb : SoundWork l a b) (hc : SoundWork l a c) :
    SoundWork l a (if p then b else c) := by
  split
  · exact hb
  · exact hc

theorem SoundWork.foldl {α : Type} {l : List Part} {f : Dev → α → Dev} (h : ∀ d x, SoundWork l d (f d x)) (xs : List α) (d : Dev) :
    SoundWork l d (xs.foldl f d) :=
  List.foldlRecOn (motive := fun b => SoundWork l d b) xs f (.refl l d) fun _ hb x _ => hb.trans (h _ x)

/-- What leaves memory alone leaves it sound. -/
theorem SoundWork.of_agrees {l m : List Part} {a b : Dev} (h : a.agrees m b) (hm : m ⊆ l ∧ Part.mem ∉ m) : SoundWork l a b := fun hsound =>
  ⟨h.mono hm.1, (h .mem hm.2) ▸ hsound⟩

theorem SoundWork.write (d : Dev) (a : Nat) (bs : List Byte) : SoundWork [.mem] d (d.write a bs false) := fun hsound =>
  Dev.write_of_sound hsound a bs

/-! ### Completion rings -/

/-- What posting on a completion ring touches in sound memory. -/
def ringParts : List Part := [.mem, .mbox, .flock]

theorem Dev.agrees_evalIrq (d : Dev) (e : Env) (q : Nat) : d.agrees [.mbox, .flock] (d.evalIrq e q) := by
  rw [Dev.evalIrq_frame]
  intro p hp
  cases p <;> simp_all [Part.same]

theorem SoundWork.post (d : Dev) (e : Env) (q tag status opcode : Nat) (note : Bool) (r0 r1 r2 : Nat) (i u : Bool) :
    SoundWork ringParts d (d.post e q tag status opcode note r0 r1 r2 i u) := by
  unfold Dev.post
  split
  · exact .refl _ _
  · dsimp only
    exact ((SoundWork.write d _ _).mono (by decide)).trans
      (.of_agrees (((Dev.agrees_modQueue _ q _).mono (by decide)).trans (Dev.agrees_evalIrq _ e q)) (by decide))

theorem SoundWork.modQueue (d : Dev) (q : Nat) (f : MQueue → MQueue) : SoundWork ringParts d (d.modQueue q f) :=
  .of_agrees (d.agrees_modQueue q f) (by decide)

theorem SoundWork.postNote (d : Dev) (e : Env) (q kind r0 r1 r2 : Nat) (u : Bool) :
    SoundWork ringParts d (d.postNote e q kind r0 r1 r2 u) := by
  unfold Dev.postNote
  split
  · exact .refl _ _
  · exact (SoundWork.post _ _ _ _ _ _ _ _ _ _ _ _).trans (.modQueue _ _ _)

theorem SoundWork.postLost (d : Dev) (e : Env) (q : Nat) : SoundWork ringParts d (d.postLost e q) := by
  unfold Dev.postLost
  split
  · exact .refl _ _
  · exact ((SoundWork.postNote _ _ _ _ _ _ _ _).trans (.modQueue _ _ _)).ite (.refl _ _)

theorem SoundWork.notify (d : Dev) (e : Env) (kind r0 r1 r2 : Nat) (u : Bool) : SoundWork ringParts d (d.notify e kind r0 r1 r2 u) := by
  have hmbox (d : Dev) (m : Mailbox) : SoundWork ringParts d { d with mbox := m } := .of_agrees (d.agrees_mbox m) (by decide)
  have hnote (q : Nat) : SoundWork ringParts d (d.noteOn e q kind r0 r1 r2 u) := by
    unfold Dev.noteOn
    dsimp only
    split
    · exact hmbox _ _
    · refine (hmbox _ _).ite ((SoundWork.postLost d e q).trans ?_)
      exact (SoundWork.postNote _ _ _ _ _ _ _ _).ite ((hmbox _ _).trans (.modQueue _ _ _))
  exact (hnote _).ite ((hmbox _ _).ite (.refl _ _))

theorem SoundWork.complete (d : Dev) (e : Env) (q opcode : Nat) (s : Sub) (r : Reply) : SoundWork ringParts d (d.complete e q opcode s r) := by
  unfold Dev.complete
  split
  · exact .refl _ _
  · exact (SoundWork.refl _ _).ite (.post _ _ _ _ _ _ _ _ _ _ _ _)

theorem SoundWork.finish (d : Dev) (e : Env) (o : Outst) (r : Reply) : SoundWork ringParts d (d.finish e o r) := by
  unfold Dev.finish
  dsimp only
  exact SoundWork.trans (.of_agrees (d.agrees_mbox _) (by decide)) (.complete _ _ _ _ _ _)

/-! ### Instances and tables -/

theorem SoundWork.lutSwitch (d : Dev) (e : Env) (n : Nat) : SoundWork (.folds :: ringParts) d (d.lutSwitch e n) := by
  refine SoundWork.trans (b := { d.lutFlip n with mbox := { (d.lutFlip n).mbox with outst := (d.lutFlip n).mbox.outst.map (Outst.switchedOn n) } })
    (.of_agrees (((d.agrees_modFold n _).mono (l := [.folds, .mbox]) (by decide)).andThen (Dev.agrees_mbox _ _) (by decide)) (by decide)) ?_
  exact .foldl (fun d o => (SoundWork.finish d _ _ _).mono (by decide)) _ _

theorem SoundWork.settleInst (d : Dev) (e : Env) (k : Nat) : SoundWork (.insts :: ringParts) d (d.settleInst e k) := by
  have hinst (d : Dev) (f : Inst → Inst) : SoundWork (.insts :: ringParts) d (d.modInst k f) := .of_agrees (d.agrees_modInst k f) (by decide)
  have hfinish (d : Dev) (o : Outst) (r : Reply) : SoundWork (.insts :: ringParts) d (d.finish e o r) := (SoundWork.finish d e o r).mono (by decide)
  have hinvoked : SoundWork (.insts :: ringParts) d (d.invocationEnd e k) := by
    unfold Dev.invocationEnd
    split
    · split
      · exact (hinst _ _).trans (hfinish _ _ _)
      · exact hinst _ _
    · exact .refl _ _
  have hdrained (b : Dev) : SoundWork (.insts :: ringParts) b (b.drainEnd e k) := by
    unfold Dev.drainEnd
    split
    · split
      · exact (hinst _ _).trans (hfinish _ _ _)
      · exact hinst _ _
    · exact .refl _ _
  rw [Dev.settleInst_eq]
  exact (SoundWork.refl _ _).ite (hinvoked.trans (hdrained _))

theorem SoundWork.settleDrains (d : Dev) (e : Env) (ks : List Nat) : SoundWork (.insts :: ringParts) d (d.settleDrains e ks) :=
  .foldl (fun d k => .settleInst d e k) _ d

theorem SoundWork.engineOff (d : Dev) (n : Nat) : SoundWork [.folds, .mem] d (d.engineOff n) := fun hsound =>
  ⟨d.agrees_engineOff n, hsound⟩

/-! ## Reactions (R512, R513) -/

theorem Dev.react_held (d : Dev) (c : BitVec 64) (sev : Nat) :
    tget (d.react c sev).col.held (msgSource c) = some (max (tgetD d.col.held (msgSource c) 0) (sev + 1)) := by
  rw [Dev.react, Dev.pins_col]
  exact tget_tset_same _ _ _

/-- A table that holds a value at a key holds an entry of it. -/
theorem mem_of_tget {α : Type} {t : Tab α} {k : Nat} {v : α} (h : tget t k = some v) : (k, v) ∈ t := by
  induction t with
  | nil => cases h
  | cons x t ih =>
    obtain ⟨j, w⟩ := x
    rw [tget] at h
    split at h
    · next hj => exact hj ▸ Option.some.inj h ▸ List.mem_cons_self ..
    · exact List.mem_cons_of_mem _ (ih h)

/-- SAFE_N[0] is low while a source holds SAFE or HALT (R498, R512). -/
theorem Dev.pins_safe0_of_held {d : Dev} {src v : Nat} (h : tget d.col.held src = some v) (hv : 3 ≤ v) : d.pins.safe.safe0 = true := by
  have hsafe : d.heldSafe = true := List.any_eq_true.mpr ⟨_, mem_of_tget h, by simpa using hv⟩
  simp [Dev.pins, hsafe]

theorem Dev.react_safe0 (d : Dev) (c : BitVec 64) {sev : Nat} (hsev : 2 ≤ sev) : (d.react c sev).safe.safe0 = true :=
  Dev.pins_safe0_of_held (tget_tset_same _ _ _) (le_max_of_le_right (by omega))

theorem HaltReset.serves_self (h : HaltReset) : h.serves h = true := by simp [HaltReset.serves]

theorem addHalt_serves (h : HaltReset) (m : Nat) (l : List (HaltReset × Nat)) : ∃ x ∈ addHalt h m l, x.1.serves h = true := by
  unfold addHalt
  split
  · next hserved => exact List.any_eq_true.mp hserved
  · refine ⟨(h, m), ?_, h.serves_self⟩
    dsimp only
    split
    · simp
    · simp

theorem Dev.react_halts (d : Dev) (c : BitVec 64) {sev : Nat} (hsev : sev = 3) :
    ∃ x ∈ (d.react c sev).col.halts, x.1.serves (haltReset (msgSource c)) = true := by
  obtain ⟨x, hx, hserves⟩ := addHalt_serves (haltReset (msgSource c)) c.toNat d.col.halts
  refine ⟨x, ?_, hserves⟩
  rw [Dev.react, Dev.pins_col]
  dsimp only
  rwa [if_pos hsev]

/-! ## Reports (R504, R513, R518) -/

/-- The notifications owed for a source are posted. -/
theorem Dev.reportUnsent_spec {d : Dev} (hsound : d.mem.sound = true) (e : Env) (src : Nat) :
    d.agrees (.free :: .col :: ringParts) (d.reportUnsent e src) ∧ (d.reportUnsent e src).mem.sound = true ∧
    (d.reportUnsent e src).col = { d.col with unsent := terase d.col.unsent src } := by
  obtain ⟨b, hb⟩ : ∃ b : Dev, b = { d with col := { d.col with unsent := terase d.col.unsent src } } := ⟨_, rfl⟩
  have hagrees : d.agrees [.col] b := hb ▸ d.agrees_col _
  have hnotes (xs : List Nat) : SoundWork (.free :: ringParts) b (xs.foldl (fun d _ =>
      d.spend.notify e 3 (b.severityOf src) (src * 2 ^ 54 + Config.freeNat d.free % 2 ^ 54) e.raw (d.urgent src)) b) :=
    .foldl (fun d _ => SoundWork.trans (.of_agrees d.agrees_spend (by decide)) ((SoundWork.notify _ _ _ _ _ _ _).mono (by decide))) xs b
  have hreport : d.reportUnsent e src = if b.severityOf src = 0 then b else (List.range (tgetD d.col.unsent src 0)).foldl (fun d _ =>
      d.spend.notify e 3 (b.severityOf src) (src * 2 ^ 54 + Config.freeNat d.free % 2 ^ 54) e.raw (d.urgent src)) b := by
    rw [hb]
    rfl
  have hbsound : b.mem.sound = true := by rw [hb]; exact hsound
  obtain ⟨hwork, hkept⟩ := (SoundWork.refl (.free :: ringParts) b).ite (p := b.severityOf src = 0) (hnotes _) hbsound
  rw [hreport]
  exact ⟨(hagrees.mono (by decide)).trans (hwork.mono (by decide)), hkept, (hwork .col (by decide)).symm.trans (by rw [hb])⟩

/-- A source whose severity is LOG owes no notification. -/
theorem Dev.reportUnsent_of_log {d : Dev} {src : Nat} (h : d.severityOf src = 0) (e : Env) :
    d.reportUnsent e src = { d with col := { d.col with unsent := terase d.col.unsent src } } := by
  have hsame : ({ d with col := { d.col with unsent := terase d.col.unsent src } } : Dev).severityOf src = 0 := h
  rw [Dev.reportUnsent]
  dsimp only
  exact if_pos hsame

/-! ## The log ring (R518) -/

theorem logEntry_length (m : BitVec 64) (at_ sev : Nat) : (logEntry m at_ sev).length = 32 := by
  simp [logEntry, leBytes]

/-- A log ring after an entry has been written. -/
def LogRing.advanced (l : LogRing) : LogRing :=
  { l with
    next := if l.next + 1 = l.capacity then 0 else l.next + 1
    written := l.written + 1 }

/-- The header of a log ring is its first 64 bytes. -/
theorem Dev.logHeader_spec {d : Dev} (hsound : d.mem.sound = true) (l : LogRing) :
    d.agrees [.mem] (d.logHeader l) ∧ (d.logHeader l).mem.sound = true ∧
    ∀ k, l.base + 64 ≤ k → mget (d.logHeader l).mem.bytes k = mget d.mem.bytes k := by
  obtain ⟨bs, hbs⟩ : ∃ bs, bs = leBytes 4 l.next ++ leBytes 4 l.capacity ++ leBytes 8 l.written ++ leBytes 8 d.col.dropped ++
    List.replicate 40 (0 : Byte) := ⟨_, rfl⟩
  have hlen : bs.length = 64 := by simp [hbs, leBytes]
  have hheader : d.logHeader l = d.write l.base bs false := by rw [hbs]; rfl
  obtain ⟨hagrees, hkept⟩ := Dev.write_of_sound hsound l.base bs
  rw [hheader]
  exact ⟨hagrees, hkept, fun k hk => d.mget_write_other (.inr (by rw [hlen]; exact hk)) false⟩

/-- A message that enters the ring: its entry stands at the ring's place, and the ring moves on. -/
theorem Dev.logMessage_spec {d : Dev} (hsound : d.mem.sound = true) {l : LogRing} (hlog : d.col.log = some l) (m : BitVec 64) (at_ sev : Nat) :
    d.agrees [.mem, .col] (d.logMessage m at_ sev) ∧ (d.logMessage m at_ sev).mem.sound = true ∧
    (d.logMessage m at_ sev).col = { d.col with log := some l.advanced } ∧
    (d.logMessage m at_ sev).raw (l.base + 64 + 32 * l.next) 32 = logEntry m at_ sev := by
  obtain ⟨w, hw⟩ : ∃ w : Dev, w = d.write (l.base + 64 + 32 * l.next) (logEntry m at_ sev) false := ⟨_, rfl⟩
  obtain ⟨hentry, hwsound⟩ := Dev.write_of_sound hsound (l.base + 64 + 32 * l.next) (logEntry m at_ sev)
  have hraw := d.raw_write (l.base + 64 + 32 * l.next) (logEntry m at_ sev) false
  rw [← hw] at hentry hwsound hraw
  rw [logEntry_length] at hraw
  obtain ⟨x, hx⟩ : ∃ x : Dev, x = { w with col := { w.col with log := some l.advanced } } := ⟨_, rfl⟩
  have hmessage : d.logMessage m at_ sev = x.logHeader l.advanced := by
    rw [Dev.logMessage, hx, hw]
    simp only [hlog]
    rfl
  have hxw : w.agrees [.col] x := hx ▸ w.agrees_col _
  obtain ⟨hheader, hkept, hrest⟩ := Dev.logHeader_spec (d := x) (by rw [← hxw .mem (by decide)]; exact hwsound) l.advanced
  rw [hmessage]
  refine ⟨((hentry.mono (by decide)).trans (hxw.mono (by decide))).trans (hheader.mono (by decide)), hkept, ?_, ?_⟩
  · rw [← hheader .col (by decide), hx, ← hentry .col (by decide)]
  · refine Eq.trans (Dev.raw_congr (d := w) fun k hk _ => ?_) hraw
    have hmem : w.mem = x.mem := hxw .mem (by decide)
    rw [hmem]
    exact hrest k (by show l.base + 64 ≤ k; omega)

/-- The collector's records that a report leaves. -/
def Collector.reactions (c : Collector) : Collector := { c with log := none, dropped := 0, asleep := [] }

/-- A report of a message touches the log ring and the completion rings, and no reaction. -/
theorem Dev.reportMessage_spec {d : Dev} (hsound : d.mem.sound = true) (e : Env) (m : BitVec 64) (at_ sev : Nat) :
    d.agrees (.col :: ringParts) (d.reportMessage e m at_ sev) ∧ (d.reportMessage e m at_ sev).mem.sound = true ∧
    (d.reportMessage e m at_ sev).col.reactions = d.col.reactions := by
  obtain ⟨b, hb⟩ : ∃ b, b = d.logMessage m at_ sev := ⟨_, rfl⟩
  have hlogged : d.agrees [.mem, .col] b ∧ b.mem.sound = true ∧ b.col.reactions = d.col.reactions := by
    cases hlog : d.col.log with
    | none =>
      have hnone : b = { d with col := { d.col with dropped := d.col.dropped + 1 } } := by
        rw [hb, Dev.logMessage]
        simp only [hlog]
      rw [hnone]
      exact ⟨(d.agrees_col _).mono (by decide), hsound, rfl⟩
    | some l =>
      obtain ⟨hagrees, hkept, hcol, -⟩ := Dev.logMessage_spec hsound hlog m at_ sev
      rw [← hb] at hagrees hkept hcol
      exact ⟨hagrees, hkept, by rw [hcol]; rfl⟩
  obtain ⟨hagrees, hkept, hreactions⟩ := hlogged
  obtain ⟨hnote, hnoteSound⟩ := SoundWork.notify b e 3 sev m.toNat at_ (b.urgent (msgSource m)) hkept
  have hreport : d.reportMessage e m at_ sev = if sev = 0 then b else b.notify e 3 sev m.toNat at_ (b.urgent (msgSource m)) := by
    rw [hb]
    rfl
  rw [hreport]
  split
  · exact ⟨hagrees.mono (by decide), hkept, hreactions⟩
  · exact ⟨(hagrees.mono (by decide)).trans (hnote.mono (by decide)), hnoteSound, by rw [← hnote .col (by decide)]; exact hreactions⟩

/-! ## Collection (R504, R512, R513) -/

/-- What a message's reaction at a severity leaves: its source's sticky bit, SAFE_N[0] from SAFE on, and the reset of a HALT. -/
structure Reacted (d u : Dev) (c : BitVec 64) (sev : Nat) : Prop where
  touches : d.agrees (.free :: postParts) u
  sound : u.mem.sound = true
  waiting : u.col.waiting = d.col.waiting
  held : tget u.col.held (msgSource c) = some (max (tgetD d.col.held (msgSource c) 0) (sev + 1))
  safe : 2 ≤ sev → u.safe.safe0 = true
  halts : sev = 3 → ∃ x ∈ u.col.halts, x.1.serves (haltReset (msgSource c)) = true

theorem Reacted.react {d : Dev} (hsound : d.mem.sound = true) (c : BitVec 64) (sev : Nat) : Reacted d (d.react c sev) c sev where
  touches := by
    rw [Dev.react_frame]
    intro p hp
    cases p <;> simp_all [Part.same, postParts]
  sound := by rw [Dev.react_mem]; exact hsound
  waiting := by rw [Dev.react, Dev.pins_col]
  held := d.react_held c sev
  safe := d.react_safe0 c
  halts := d.react_halts c

/-- Reports keep what a reaction has left. -/
theorem Reacted.report {d b u : Dev} {c : BitVec 64} {sev : Nat} (h : Reacted d b c sev) (hagrees : b.agrees (.free :: .col :: ringParts) u)
    (hsound : u.mem.sound = true) (hwaiting : u.col.waiting = b.col.waiting) (hheld : u.col.held = b.col.held)
    (hhalts : u.col.halts = b.col.halts) : Reacted d u c sev where
  touches := h.touches.trans (hagrees.mono (by decide))
  sound := hsound
  waiting := hwaiting.trans h.waiting
  held := hheld ▸ h.held
  safe := fun hsev => (hagrees .safe (by decide)) ▸ h.safe hsev
  halts := hhalts ▸ h.halts

theorem Reacted.reportUnsent {d b : Dev} {c : BitVec 64} {sev : Nat} (h : Reacted d b c sev) (e : Env) (src : Nat) :
    Reacted d (b.reportUnsent e src) c sev := by
  obtain ⟨hagrees, hsound, hcol⟩ := Dev.reportUnsent_spec h.sound e src
  exact h.report hagrees hsound (by rw [hcol]) (by rw [hcol]) (by rw [hcol])

/-- The collector takes a message: its reaction and its report, and then the count of parity errors. -/
theorem Dev.collect_spec {d : Dev} (hsound : d.mem.sound = true) (e : Env) (m : BitVec 64) {c : BitVec 64} {sev : Nat}
    (hc : c = asCollected d m) (hsev : sev = d.severityOf (msgSource c)) :
    ∃ b, d.collect e m = b.countParity e c ∧ Reacted d b c sev ∧
      ∀ l, sev = 0 → d.pow.sleeping = false → d.pow.phase ≠ .waking → d.col.log = some l →
        b.raw (l.base + 64 + 32 * l.next) 32 = logEntry c e.raw 0 ∧ b.col.log = some l.advanced := by
  obtain ⟨r, hr⟩ : ∃ r, r = d.react c sev := ⟨_, rfl⟩
  have hreacted : Reacted d r c sev := hr ▸ Reacted.react hsound c sev
  obtain ⟨x, hx⟩ : ∃ x : Dev, x = if r.pow.sleeping || r.pow.phase == .waking then
      if r.col.asleep.length < 512 then { r with col := { r.col with asleep := r.col.asleep ++ [(c, e.raw, sev)] } }
      else { r with col := { r.col with dropped := r.col.dropped + 1 } }
    else r.reportMessage e c e.raw sev := ⟨_, rfl⟩
  have hcollect : d.collect e m = (x.reportUnsent e (msgSource c)).countParity e c := by
    rw [Dev.collect, hx, hr, hsev, hc]
  have hreported : Reacted d x c sev := by
    have hcol (k : Collector) (hk : k.reactions = r.col.reactions) : Reacted d { r with col := k } c sev :=
      hreacted.report ((r.agrees_col k).mono (by decide)) hreacted.sound (congrArg Collector.waiting hk :) (congrArg Collector.held hk :)
        (congrArg Collector.halts hk :)
    rw [hx]
    split
    · split
      · exact hcol _ rfl
      · exact hcol _ rfl
    · obtain ⟨hagrees, hkept, hreactions⟩ := Dev.reportMessage_spec hreacted.sound e c e.raw sev
      exact hreacted.report (hagrees.mono (by decide)) hkept (congrArg Collector.waiting hreactions :)
        (congrArg Collector.held hreactions :) (congrArg Collector.halts hreactions :)
  refine ⟨_, hcollect, hreported.reportUnsent e _, fun l hlow hawake hphase hlog => ?_⟩
  have hrpow : r.pow = d.pow := by rw [hr, Dev.react_pow]
  have hrlog : r.col.log = some l := by rw [hr, Dev.react, Dev.pins_col]; exact hlog
  have hxlogged : x = r.logMessage c e.raw sev := by
    rw [hx, hrpow, hawake]
    simp only [Bool.false_or, beq_iff_eq, if_neg hphase, Dev.reportMessage, hlow, if_true]
  obtain ⟨-, -, hxcol, hxraw⟩ := Dev.logMessage_spec hreacted.sound hrlog c e.raw sev
  rw [← hxlogged] at hxcol hxraw
  have hsilent : x.severityOf (msgSource c) = 0 := by
    have hsame : x.severityOf (msgSource c) = d.severityOf (msgSource c) := by
      rw [Dev.severityOf, hxcol, hr, Dev.react, Dev.pins_col]
      rfl
    rw [hsame, ← hsev, hlow]
  rw [Dev.reportUnsent_of_log hsilent]
  refine ⟨?_, by rw [hxcol]⟩
  rw [← hlow]
  exact hxraw

theorem Dev.countParity_other {d : Dev} {c : BitVec 64} (hparity : msgKind c ≠ 4) (htest : msgKind c ≠ 0x0C) (e : Env) :
    d.countParity e c = d := by
  unfold Dev.countParity
  dsimp only
  rw [if_neg fun h => htest h.2.2, if_pos hparity]

theorem Dev.countParity_mismatch {d : Dev} {c : BitVec 64} {p : Nat} (hp : p < 52) (hsrc : msgSource c = 0x100 + p)
    (hkind : msgKind c = 0x0C) (e : Env) : d.countParity e c = d.fence e p := by
  unfold Dev.countParity
  dsimp only
  rw [if_pos ⟨by omega, by omega, hkind⟩, hsrc, Nat.add_sub_cancel_left]

theorem Dev.physFold_congr {d d' : Dev} (h : d'.phys = d.phys) (p : Nat) : d'.physFold p = d.physFold p := by
  rw [Dev.physFold, h]
  rfl

/-! ## The fence of a fold (R146, R477, R478) -/

/-- A fault of another source leaves a source's sticky bit. -/
theorem Dev.held_raise_other {d : Dev} {src kind detail arg k : Nat} (h : k ≠ msgSource (asCollected d (faultMsg src kind detail arg))) :
    tget (d.raise src kind detail arg).col.held k = tget d.col.held k := by
  unfold Dev.raise
  dsimp only
  split
  · rw [Dev.unsentFault, Dev.react, Dev.pins_col]
    exact tget_tset_other _ _ h
  · exact tget_tset_other _ _ h

theorem sourceFold_lt {src q : Nat} (h : sourceFold src = some q) : q < 52 := by
  unfold sourceFold at h
  split_ifs at h
  · have hq := Option.some.inj h
    omega
  · have hq := Option.some.inj h
    omega

theorem sourceFold_engine {p : Nat} (hp : p < 52) : sourceFold (0x100 + p) = some p := by
  rw [sourceFold, if_pos ⟨by omega, by omega, by omega⟩]
  exact congrArg some (by omega)

/-- A message is collected as it came, as the fault network's own, or as a packet that a retired fold's port dropped. -/
theorem asCollected_cases (d : Dev) (m : BitVec 64) : asCollected d m = m ∨ msgSource (asCollected d m) = 0x040 ∨
    ∃ q, sourceFold (msgSource m) = some q ∧ msgSource (asCollected d m) = 0x080 + q := by
  unfold asCollected
  dsimp only
  split
  · exact .inr (.inl (msgSource_faultMsg _ _ _ _))
  · split
    · next q hq =>
      split
      · have hlt := sourceFold_lt hq
        exact .inr (.inr ⟨q, hq, by rw [msgSource_faultMsg]; omega⟩)
      · exact .inl rfl
    · exact .inl rfl

/-- A mismatch of a fold that is collected as one finds the fold in service. -/
theorem not_retired_of_mismatch {d : Dev} {m : BitVec 64} {p : Nat} (hp : p < 52) (hsrc : msgSource (asCollected d m) = 0x100 + p)
    (hkind : msgKind (asCollected d m) = 0x0C) : (d.physFold p).retired = false := by
  rcases asCollected_cases d m with hsame | hnetwork | ⟨q, hq, hport⟩
  · rw [hsame] at hsrc hkind
    have hfold : sourceFold (msgSource m) = some p := by rw [hsrc, sourceFold_engine hp]
    by_contra hretired
    have hdropped : msgSource (asCollected d m) = 0x080 + p ∨ msgSource (asCollected d m) = 0x040 := by
      unfold asCollected
      simp only [hfold, hkind, Bool.not_eq_false] at hretired ⊢
      simp only [hretired]
      split
      · exact .inr (msgSource_faultMsg _ _ _ _)
      · exact .inl (by rw [if_pos (by decide), msgSource_faultMsg]; omega)
    rw [hsame, hsrc] at hdropped
    omega
  · omega
  · have hlt := sourceFold_lt hq
    omega

/-- The dropped packets of a fold's port raise faults at that port only. -/
theorem Dev.dropPackets_spec (d : Dev) {p : Nat} (hp : p < 52) (n : Nat) :
    d.agrees [.posted, .col, .safe] (d.dropPackets p n) ∧ tget (d.dropPackets p n).col.held (0x100 + p) = tget d.col.held (0x100 + p) := by
  have hraise (b : Dev) (a : Nat) : b.agrees [.posted, .col, .safe] (b.raise (0x080 + p) 0x0B 0 a) ∧
      tget (b.raise (0x080 + p) 0x0B 0 a).col.held (0x100 + p) = tget b.col.held (0x100 + p) := by
    refine ⟨(b.agrees_raise _ _ _ _).mono (by decide), Dev.held_raise_other fun h => ?_⟩
    rcases asCollected_cases b (faultMsg (0x080 + p) 0x0B 0 a) with hsame | hnetwork | ⟨q, hq, hport⟩
    · rw [hsame, msgSource_faultMsg] at h
      omega
    · omega
    · have hlt := sourceFold_lt hq
      omega
  unfold Dev.dropPackets
  refine List.foldlRecOn (motive := fun b : Dev => d.agrees [.posted, .col, .safe] b ∧
      tget b.col.held (0x100 + p) = tget d.col.held (0x100 + p)) _ _ ⟨(d.agrees_posted _).mono (by decide), rfl⟩ fun b ⟨hb, hheld⟩ x _ => ?_
  have hdropped : d.agrees [.posted, .col, .safe] (b.raise (0x080 + p) 0x0B 0 x.addr) ∧
      tget (b.raise (0x080 + p) 0x0B 0 x.addr).col.held (0x100 + p) = tget d.col.held (0x100 + p) :=
    ⟨hb.trans (hraise b x.addr).1, (hraise b x.addr).2.trans hheld⟩
  split
  · split
    · exact ⟨hb, hheld⟩
    · exact hdropped
  · exact hdropped

/-- The fold behind a fence is switched off and its work is dropped: no physical fold changes, and its source's sticky bit stays. -/
theorem Dev.fencedWork_spec {d : Dev} (hsound : d.mem.sound = true) (e : Env) {p : Nat} (hp : p < 52) (n : Nat) (f : Fold → Fold) (ks : List Nat) :
    (((((d.engineOff n).lutSwitch e n).dropPackets p n).modFold n f).settleDrains e ks).phys = d.phys ∧
    tget (((((d.engineOff n).lutSwitch e n).dropPackets p n).modFold n f).settleDrains e ks).col.held (0x100 + p) =
      tget d.col.held (0x100 + p) := by
  obtain ⟨hoff, hoffSound⟩ := SoundWork.engineOff d n hsound
  obtain ⟨hswitch, hswitchSound⟩ := SoundWork.lutSwitch (d.engineOff n) e n hoffSound
  obtain ⟨hdropped, hheld⟩ := ((d.engineOff n).lutSwitch e n).dropPackets_spec hp n
  obtain ⟨b, hb⟩ : ∃ b, b = (((d.engineOff n).lutSwitch e n).dropPackets p n).modFold n f := ⟨_, rfl⟩
  have hmarked : ((d.engineOff n).lutSwitch e n).agrees [.folds, .posted, .col, .safe] b :=
    hb ▸ (hdropped.mono (by decide)).andThen (Dev.agrees_modFold _ n f) (by decide)
  have hbheld : tget b.col.held (0x100 + p) = tget ((d.engineOff n).lutSwitch e n).col.held (0x100 + p) := by rw [hb]; exact hheld
  obtain ⟨hdrained, -⟩ := SoundWork.settleDrains b e ks (by rw [← hmarked .mem (by decide)]; exact hswitchSound)
  have hoffCol := (hoff .col (by decide)).trans (hswitch .col (by decide))
  have hoffPhys := (hoff .phys (by decide)).trans (hswitch .phys (by decide))
  rw [← hb]
  constructor
  · exact ((hoffPhys.trans (hmarked .phys (by decide))).trans (hdrained .phys (by decide))).symm
  · rw [← hdrained .col (by decide), hbheld, ← hoffCol]

/-- A fold in service that is fenced is retired; its source's sticky bit stays. -/
theorem Dev.fence_spec {d : Dev} (hsound : d.mem.sound = true) {p : Nat} (hp : p < 52) (hserves : (d.physFold p).retired = false) (e : Env) :
    ((d.fence e p).physFold p).retired = true ∧ ((d.fence e p).physFold p).fenced = true ∧
    tget (d.fence e p).col.held (0x100 + p) = tget d.col.held (0x100 + p) := by
  obtain ⟨b, hb⟩ : ∃ b, b = d.modPhys p fun x => { x with retired := true, fenced := true, slice := none, parityAt := [], flitAt := [] } := ⟨_, rfl⟩
  have hbsound : b.mem.sound = true := by rw [hb]; exact hsound
  have hbheld : tget b.col.held (0x100 + p) = tget d.col.held (0x100 + p) := by rw [hb]; rfl
  have hfold : (b.physFold p).retired = true ∧ (b.physFold p).fenced = true := by
    rw [hb, Dev.physFold_modPhys, if_pos rfl]
    exact ⟨rfl, rfl⟩
  rw [Dev.fence, hserves, if_neg Bool.false_ne_true]
  simp only [← hb]
  split
  · next n _ =>
    obtain ⟨hphys, hheld⟩ := Dev.fencedWork_spec hbsound e hp n
      (fun f => { f with replacing := true, replaceRaised := [], idleSince := e.raw }) (b.insts.map (·.1))
    have hsame := Dev.physFold_congr hphys p
    exact ⟨by rw [hsame]; exact hfold.1, by rw [hsame]; exact hfold.2, hheld.trans hbheld⟩
  · exact ⟨hfold.1, hfold.2, hbheld⟩

/-! ## Messages that are lost (R500, R504) -/

/-- A message that finds the queue full is counted, and its severity acts. -/
theorem Dev.lostMessage_spec {d : Dev} (hsound : d.mem.sound = true) (e : Env) (m : BitVec 64) {c : BitVec 64} {sev : Nat}
    (hc : c = asCollected d m) (hsev : sev = d.severityOf (msgSource c)) :
    Reacted d (d.lostMessage e m false) c sev ∧ (d.lostMessage e m false).col.dropped = d.col.dropped + 1 := by
  obtain ⟨b, hb⟩ : ∃ b : Dev, b = { d with col := { d.col with
    dropped := d.col.dropped + 1
    unsent := tset d.col.unsent (msgSource c) (tgetD d.col.unsent (msgSource c) 0 + 1) } } := ⟨_, rfl⟩
  have hcol : d.agrees [.col] b := hb ▸ d.agrees_col _
  have hlost : d.lostMessage e m false = (b.react c sev).reportUnsent e (msgSource c) := by
    rw [Dev.lostMessage, hb, hsev, hc]
    rfl
  have hbsound : b.mem.sound = true := by rw [hb]; exact hsound
  have hreacted : Reacted b (b.react c sev) c sev := Reacted.react hbsound c sev
  have hreported := hreacted.reportUnsent e (msgSource c)
  obtain ⟨-, -, hunsent⟩ := Dev.reportUnsent_spec hreacted.sound e (msgSource c)
  rw [hlost]
  constructor
  · exact {
      touches := (hcol.mono (by decide)).trans hreported.touches
      sound := hreported.sound
      waiting := hreported.waiting.trans (by rw [hb])
      held := hreported.held.trans (by rw [hb])
      safe := hreported.safe
      halts := hreported.halts }
  · rw [hunsent, Dev.react, Dev.pins_col, hb]

/-- Copies of the collector that disagree hold PULSE low (R499). -/
theorem Dev.pins_pulse_of_disagree {d : Dev} (h : d.safe.stateDisagree = true) : d.pins.safe.pulse = false := by
  simp [Dev.pins, h]

/-! ## Delivery -/

theorem exec_faultCollect_one {s : State} {src : Nat} {m : BitVec 64} (hsrc : src < 1024) (full : Bool)
    (hfind : s.dev.col.waiting.find? (fun m => msgSource m == src) = some m) {b : Dev}
    (hb : b = { s.dev with col := { s.dev.col with waiting := s.dev.col.waiting.filter fun x => msgSource x != src } }) :
    exec (.faultCollect ⟨[], [src], full, false⟩) s = .next (s.put (if full then b.lostMessage s.env m false else b.collect s.env m)) := by
  rw [exec_faultCollect, execFaultCollect, run_next (by simp [missingUnit, Instr.units, hsrc])]
  simp only [List.insertionSort_cons, List.insertionSort_nil, List.orderedInsert_nil, List.foldl_cons, List.foldl_nil, Dev.takeMessage, hfind,
    ← hb, Bool.or_false]
  rfl

/-- Settles O40: the message is taken from those that wait, reacted to and reported. -/
theorem faultsAreCollected : Obligations.faults_are_collected := by
  unfold Obligations.faults_are_collected
  intro s src sev m c hsrc hsound hfind hc hsev
  obtain ⟨b, hb⟩ : ∃ b : Dev, b = { s.dev with col := { s.dev.col with waiting := s.dev.col.waiting.filter fun x => msgSource x != src } } := ⟨_, rfl⟩
  have hcol : s.dev.agrees [.col] b := hb ▸ s.dev.agrees_col _
  have hwaiting : b.col.waiting = s.dev.col.waiting.filter fun x => msgSource x != src := by rw [hb]
  have hheld : b.col.held = s.dev.col.held := by rw [hb]
  have hbsound : b.mem.sound = true := by rw [hb]; exact hsound
  have hcb : c = asCollected b m := hc.trans (asCollected_congr (hcol .phys (by decide)) m)
  have hsevb : sev = b.severityOf (msgSource c) := by rw [hsev, hb]; rfl
  obtain ⟨x, hcollect, hreacted, hlogged⟩ := Dev.collect_spec hbsound s.env m hcb hsevb
  have htaken : exec (.faultCollect ⟨[], [src], false, false⟩) s = .next (s.put (x.countParity s.env c)) := by
    have hexec := exec_faultCollect_one hsrc false hfind hb
    rwa [if_neg Bool.false_ne_true, hcollect] at hexec
  refine ⟨fun hparity htest => ?taken, fun p hp hport hkind => ?mismatch, ?lost, fun p dest hp => ?found, ?copies⟩
  case taken =>
    rw [Dev.countParity_other hparity htest] at htaken
    refine ⟨_, htaken, hreacted.waiting.trans hwaiting, State.touches_of_agrees ((hcol.mono (by decide)).trans hreacted.touches), ?_,
      hreacted.safe, hreacted.halts, fun l hlow hawake hphase hlog => ?_⟩
    · rw [← hheld]
      exact hreacted.held
    · rw [hb] at hlogged
      exact hlogged l hlow hawake hphase hlog
  case mismatch =>
    rw [Dev.countParity_mismatch hp hport hkind] at htaken
    have hserves : (x.physFold p).retired = false := by
      rw [Dev.physFold_congr (hreacted.touches .phys (by decide)).symm p]
      exact not_retired_of_mismatch hp (hcb ▸ hport) (hcb ▸ hkind)
    obtain ⟨hretired, hfenced, hkept⟩ := Dev.fence_spec hreacted.sound hp hserves s.env
    refine ⟨_, htaken, hretired, hfenced, ?_⟩
    have hbit := hreacted.held
    rw [hheld, hport] at hbit
    rw [hport]
    exact hkept.trans hbit
  case lost =>
    obtain ⟨hlost, hdropped⟩ := Dev.lostMessage_spec hbsound s.env m hcb hsevb
    have hexec := exec_faultCollect_one hsrc true hfind hb
    rw [if_pos rfl] at hexec
    refine ⟨_, hexec, hdropped.trans (by rw [hb]), hlost.waiting.trans hwaiting,
      State.touches_of_agrees ((hcol.mono (by decide)).trans hlost.touches), ?_, hlost.safe⟩
    rw [← hheld]
    exact hlost.held
  case found =>
    have hunit (f : Finding) (hf : f.unit = p) : exec (.faultCollect ⟨[f], [], false, false⟩) s = .next (s.put (s.dev.findFault f)) := by
      rw [exec_faultCollect, execFaultCollect, run_next (by simp [missingUnit, Instr.units, hf, hp])]
      rfl
    exact ⟨hunit _ rfl, hunit _ rfl, hunit _ rfl⟩
  case copies =>
    obtain ⟨y, hy⟩ : ∃ y : Dev, y = { s.dev with safe := { s.dev.safe with stateDisagree := true } } := ⟨_, rfl⟩
    have hexec : exec (.faultCollect ⟨[.copies false], [], false, false⟩) s =
        .next (s.put (if s.dev.safe.stateDisagree then y else y.raise 0x040 0x3A 1 0).pins) := by
      rw [exec_faultCollect, execFaultCollect, run_next (by simp [missingUnit, Instr.units, Finding.unit]), hy]
      rfl
    obtain ⟨z, hz⟩ : ∃ z : Dev, z = if s.dev.safe.stateDisagree then y else y.raise 0x040 0x3A 1 0 := ⟨_, rfl⟩
    rw [← hz] at hexec
    have hagrees : s.dev.agrees faultParts z := by
      rw [hz]
      refine Dev.agrees.trans (hy ▸ (s.dev.agrees_safe _).mono (by decide)) ?_
      exact (y.agrees_refl _).ite (y.agrees_raise _ _ _ _)
    have hdisagree : z.safe.stateDisagree = true := by
      rw [hz]
      split
      · rw [hy]
      · exact (congrArg Safety.stateDisagree (y.raise_unpinned _ _ _ _) :).trans (by rw [hy]; rfl)
    refine ⟨_, hexec, hdisagree, ?_, State.touches_of_agrees (hagrees.andThen z.agrees_pins (by decide)), fun hfirst => ?_⟩
    · exact Dev.pins_pulse_of_disagree hdisagree
    · have hraised : z = y.raise 0x040 0x3A 1 0 := by rw [hz, hfirst, if_neg Bool.false_ne_true]
      rw [State.put_dev, Dev.pins_col, hraised]
      exact Dev.raise_col_congr (d := y) (d' := s.dev) (by rw [hy]) (by rw [hy]) _ _ _ _

end Sys2Proof.Machine
end
